-- ==== Sys2Proof/Word.lean ====
section
/-! DEFINITION. The words the PRN-768 is made of (00_scope.md, Notation and units): bytes, 32-bit register words, 64-bit
counters, and the plain list-of-bytes and bit-field arithmetic that the other files share. -/
namespace Sys2Proof

/-- A byte. -/
abbrev Byte := BitVec 8
/-- A register word (R398). -/
abbrev Word := BitVec 32
/-- A 64-bit counter or time (R387). -/
abbrev Dword := BitVec 64

/-- Bits [hi:lo] of a word, as a number. -/
def bitsOf (w : Word) (hi lo : Nat) : Nat := (w.toNat >>> lo) % 2 ^ (hi + 1 - lo)

/-- The mask of bits [hi:lo]. -/
def maskOf (hi lo : Nat) : Word := BitVec.ofNat 32 ((2 ^ (hi + 1 - lo) - 1) <<< lo)

/-- `w` with bits [hi:lo] replaced by the low bits of `v`. -/
def putBits (w : Word) (hi lo v : Nat) : Word :=
  (w &&& ~~~ maskOf hi lo) ||| (BitVec.ofNat 32 (v <<< lo) &&& maskOf hi lo)

/-- The number whose bytes, least significant first, are `bs` (R77). -/
def natOfLE : List Byte → Nat
  | [] => 0
  | b :: bs => b.toNat + 256 * natOfLE bs

/-- `n` bytes of `v`, least significant first (R77). -/
def leBytes : Nat → Nat → List Byte
  | 0, _ => []
  | n + 1, v => BitVec.ofNat 8 v :: leBytes n (v / 256)

/-- The number whose bytes, most significant first, are `bs` (R47). -/
def natOfBE (bs : List Byte) : Nat := natOfLE bs.reverse

/-- `n` bytes of `v`, most significant first (R47). -/
def beBytes (n v : Nat) : List Byte := (leBytes n v).reverse

/-- Bytes `from` to `from + n - 1` of a byte string. -/
def slice (bs : List Byte) (start n : Nat) : List Byte := (bs.drop start).take n

/-- The little-endian number in bytes `start` to `start + n - 1`. -/
def leAt (bs : List Byte) (start n : Nat) : Nat := natOfLE (slice bs start n)

/-- The big-endian number in bytes `start` to `start + n - 1`. -/
def beAt (bs : List Byte) (start n : Nat) : Nat := natOfBE (slice bs start n)

/-- ceil(a / b). -/
def ceilDiv (a b : Nat) : Nat := (a + b - 1) / b

/-- floor(log2) by a bounded search: the index of the highest set bit, 0 for 0. -/
def msb (n : Nat) : Nat := Nat.log2 n

/-- Trailing zero bits of a number, at most `fuel`. -/
def trailingZeros : Nat → Nat → Nat
  | 0, _ => 0
  | fuel + 1, n => if n % 2 == 1 then 0 else 1 + trailingZeros fuel (n / 2)

/-- The bit of a Bool. -/
def b2n (b : Bool) : Nat := if b then 1 else 0

end Sys2Proof
end

