-- ==== Sys2Proof/Syntax.lean ====
section
/-! DEFINITION. The commands of the PRN-768: one constructor of `Instr` for each of the 173 rows of the table of operations
and events (opcode_table.json), with the operands that the surroundings supply (log 8). -/
namespace Sys2Proof

/-- Who makes a register write: a Shafort session by its identifier, or the management core (R382, R401). -/
inductive Requester where
  | session (id : Nat)
  | mgmt
  deriving DecidableEq, Repr

/-- A fault record (Table 17.1). -/
structure FaultRec where
  sourceType : BitVec 8
  sourceInst : BitVec 12
  kind : BitVec 8
  cls : BitVec 2
  overflow : Bool
  repeated : Bool
  address : BitVec 48
  subscriber : BitVec 8
  detail : BitVec 24
  deriving DecidableEq, Repr

/-- The record FAULT_RECORD serves: the oldest one a block has already reported, or one a checker has just found. -/
inductive FaultSrc where
  | reported
  | found (r : FaultRec)
  deriving DecidableEq, Repr

/-- One operation of a REG body (R311). -/
structure RegOp where
  op : BitVec 8
  addr : Word
  value : Word
  mask : Word
  deriving DecidableEq, Repr

/-- A Shafort datagram (Table 15.2). -/
structure Dgram where
  ver : Byte
  ty : Byte
  flags : BitVec 16
  session : Word
  seq : BitVec 64
  msgNum : Word
  msgLen : Word
  segOff : Word
  segLen : BitVec 16
  status : BitVec 16
  segment : List Byte
  tag : List Byte
  deriving DecidableEq, Repr

/-- What an Ethernet frame on port 160 carries (R303). -/
inductive HostPayload where
  | arp (target : Word)
  | neighbourSolicit (target : BitVec 128)
  | icmpEcho (dst : Word) (data : List Byte)
  | icmp6Echo (dst : BitVec 128) (data : List Byte)
  | fragment
  | udp (v6 : Bool) (dstPort : BitVec 16)
  | other
  deriving DecidableEq, Repr

/-- An Ethernet frame on port 160: its length, its 802.1Q identifier and its content (R303). -/
structure HostFrame where
  len : Nat
  vlan : Option (BitVec 12)
  payload : HostPayload
  deriving DecidableEq, Repr

/-- What an ANNOUNCE tells of its sender and of its sender's grandmaster, for the default best master clock algorithm (R257), and
the announce interval in ns. -/
structure PtpData where
  source : BitVec 80
  priority1 : Byte
  clockClass : Byte
  accuracy : Byte
  variance : BitVec 16
  priority2 : Byte
  grandmaster : BitVec 64
  steps : BitVec 16
  interval : BitVec 64
  deriving DecidableEq, Repr

/-- A PTP message to the slave-only ordinary clock on port 160 (R257): its domain, the identity of the sending port and, but for
ANNOUNCE, its sequence number; times include their corrections. A DELAY_RESP says whether it names this clock as the requester. -/
inductive PtpMsg where
  | announce (domain : Byte) (data : PtpData)
  | sync (domain : Byte) (source : BitVec 80) (seq : BitVec 16) (originTime ingressTime : BitVec 64) (twoStep : Bool)
  | followUp (domain : Byte) (source : BitVec 80) (seq : BitVec 16) (originTime : BitVec 64)
  | delayResp (domain : Byte) (source : BitVec 80) (seq : BitVec 16) (receiveTime : BitVec 64) (mine : Bool)
  deriving DecidableEq, Repr

/-- An unlock or consent token of a maker's PROOF (R335). -/
structure Token where
  statement : List Byte
  chain : List (List Byte)
  sig : List Byte
  deriving DecidableEq, Repr

/-- The body of a PROOF (Table 15.4, R335). -/
structure ProofBody where
  ct : List Byte
  chain : List (List Byte)
  sig : List Byte
  unlock : Option Token
  consent : Option Token
  deriving DecidableEq, Repr

/-- The body of a BULK_OPEN (R316). -/
structure BulkReq where
  transfer : Nat
  dir : Bool
  target : Nat
  subscriber : Nat
  region : Nat
  offset : Nat
  length : Nat
  segSize : Nat
  deriving DecidableEq, Repr

/-- What a start-up step found (Tables 18.8, 18.9): whether its blocking tests passed, and the resources it found bad. -/
structure StepReport where
  ok : Bool
  /-- bad memory frames: memory unit (stack 0-7, or 8 + LPDDR group) and frame number -/
  badFrames : List (Nat × Nat)
  /-- LPDDR6 channels that failed training three times -/
  badChannels : List Nat
  /-- training attempts of each channel, 1-3 -/
  tries : List Nat
  /-- DENSITY code of the populated devices (Table 14.8) -/
  density : Nat
  /-- lane groups whose pattern checker failed its known-answer test (R281) -/
  badCheckers : List Nat
  deriving DecidableEq, Repr

/-- Direction of a lane or link as this device sees it. -/
inductive Dir where
  | rx
  | tx
  deriving DecidableEq, Repr

/-- Why a lane stopped being healthy (R263). -/
inductive LaneCause where
  | los
  | lol
  | errorRatio
  deriving DecidableEq, Repr

/-- A training frame as one lane's receiver finds it (Table 13.3): its control block, whether the MARKER was mirrored, and
the SNR the receiver measured while it held the preset in use. -/
structure TrainFrame where
  control : BitVec 80
  inverted : Bool
  snr : Byte
  deriving DecidableEq, Repr

/-- A link frame (R71): whether an RS codeword was uncorrectable, its LSN, packet bytes and link check. -/
structure LinkFrame where
  uncorrectable : Bool
  lsn : BitVec 12
  packet : List Byte
  check : Word
  deriving DecidableEq, Repr

/-- The memory a scrub step reads (R295): SRAM of a die by partition (Table 1.2, 0 packet buffer, 1 hot-rick store,
2 tile scratchpads, 3 tables, 4 staging), a stack's DRAM, or an LPDDR6 group. -/
inductive ScrubMem where
  | sram (die partition : Nat)
  | stack (d : Nat)
  | lpddr (group : Nat)
  deriving DecidableEq, Repr

/-- What an uncorrectable word held, where the model's memory does not say (Table 14.1, R297; log 8): nothing named, a packet
cell, a chunk of a slot, a segment of a transfer, or a seal record. -/
inductive WordHeld where
  | nothing
  | cell (c : Nat)
  | chunk (slot chunk : Nat)
  | segment (session transfer seg : Nat)
  | sealed (sub step : Nat)
  deriving DecidableEq, Repr

/-- What a scrub read finds (R295): a clean word, a corrected word, or an uncorrectable word; for a table word, whether another
copy still holds it (Table 14.1). -/
inductive ScrubFound where
  | clean
  | corrected
  | uncorrectable (otherCopyGood : Bool) (held : WordHeld)
  deriving DecidableEq, Repr

/-- What a tile's checks find while a stage runs (R184, R98). -/
inductive StageCheck where
  | pass
  | residue (tile element : Nat) (press : Bool)
  | late
  deriving DecidableEq, Repr

/-- The commands of the device, in the order of opcode_table.json. -/
inductive Instr where
  | powerOn (makerEn bistQuick : Bool)
  | resetNAssert
  | resetNRelease (makerEn bistQuick : Bool)
  | chipReset (who : Option Requester)
  | railPowerGoodTimeout (rail : Nat)
  | supplyOutOfRange (rail : Nat)
  | vioLoss
  | lpddrBistDone (badFrames : List (Nat × Nat))
  | refClockLoss (ref : Bool)
  | refSelectWrite (who : Requester) (sel : Bool)
  | clockFallback (reserveGood : Bool)
  | clkGateOn (who : Requester) (node : Nat)
  | clkGateOff (who : Requester) (node : Nat)
  | paceSample (monitor rate : Nat)
  | powerControlTick (railDw railMv tj : List Nat)
  | pmbusAlert
  | thermalTrip (sensor : Nat)
  | blockEnable (who : Requester) (page : Nat)
  | blockDisable (who : Requester) (page : Nat)
  | blockStopDone (page : Nat)
  | blockReset (who : Option Requester) (page : Nat)
  | blockResetDone (page : Nat)
  | faultRecord (src : FaultSrc)
  | extFallowReq
  | manualFallow (who : Requester)
  | faultPinClear (who : Requester)
  | fltAckWrite (who : Requester) (seq : Word)
  | fltReactWrite (who : Requester) (kind : Nat) (value mask : Word)
  | handshakeStall (sourceType : BitVec 8) (inst : Nat) (slotsInFlight : List Nat)
  | registerSweep (bad : List (Nat × Bool))
  | mgmtLockstep
  | mgmtWatchdog
  | tileSelfTest (tile : Nat)
  | tileSelfTestDone (tile : Nat) (pass : Bool)
  | fenceRx (port : Nat)
  | crossingWordRx (crossing channel : Nat) (codes : List (BitVec 4)) (victim : Nat)
  | hostLinkUp (mode : Nat) (trained : Bool)
  | hostLinkLoss
  | hostFrameRx (frame : HostFrame)
  | ptpMessageRx (msg : PtpMsg)
  | shafortSegmentRx (d : Dgram)
  | segmentTimeout (session : Nat) (msgNum : Word)
  | hello (ver : Byte) (role : Nat) (nonce : List Byte) (linkLocal : Bool)
  | proof (session : Nat) (body : ProofBody)
  | proofTimeout (session : Nat)
  | close (session : Nat)
  | keepalive (session : Nat)
  | sessionIdleTimeout (session : Nat)
  | reg (session : Nat) (msgNum : Word) (stop : Bool) (ops : List RegOp)
  | registerWrite (who : Requester) (addr value mask : Word)
  | eventStatusClear (who : Requester) (page : Nat) (bits : Word)
  | pageLock (who : Requester) (page : Nat)
  | subscribe (session : Nat) (msgNum : Word) (ranges : List (Nat × Nat))
  | eventAck (session : Nat) (evtSeq : Nat)
  | eventResendTimer (session : Nat) (evtSeq : Nat)
  | eventAckTimeout (session : Nat) (evtSeq : Nat)
  | bulkOpen (session : Nat) (msgNum : Word) (req : BulkReq)
  | bulkOpenResume (session : Nat) (transfer : Nat)
  | bulkData (session : Nat) (transfer seg : Nat) (data : List Byte)
  | bulkAck (session : Nat) (transfer cum : Nat) (sack : List Nat)
  | bulkAckTimer (session : Nat) (transfer : Nat)
  | bulkResendTimer (session : Nat) (transfer seg : Nat)
  | bulkCommit (session : Nat) (msgNum : Word) (transfer : Nat)
  | bulkIdleTimeout (session : Nat) (transfer : Nat)
  | fwCheckDone
  | fwProgramDone (readBackOk : Bool)
  | auditStart (session : Nat) (fromSeq : Nat)
  | auditAck (session : Nat) (next : Nat)
  | auditResendTimer (session : Nat)
  | auditRecordProgram
  | attestReq (session : Nat) (msgNum : Word) (nonce : List Byte)
  | attestSigned
  | secRecommission (who : Requester) (katPass : Bool)
  | secDecommission (who : Requester)
  | credentialWrite (who : Requester) (entry word : Nat) (value mask : Word)
  | jtagExtest (instruction : Nat)
  | portEnable (who : Requester) (port : Nat) (mode : BitVec 2)
  | portDisable (who : Requester) (port : Nat)
  | portTestEnter (who : Requester) (port : Nat)
  | signalDetect (port lane : Nat)
  | trainingFrameRx (port lane : Nat) (frame : TrainFrame)
  | bringupStageTimeout (port : Nat)
  | bringupRestart (port : Nat)
  | identTimer (port : Nat)
  | identRx (port : Nat) (payload : List Byte)
  | identAckRx (port : Nat)
  | portRetrain (who : Requester) (port : Nat)
  | portAdopt (who : Requester) (port : Nat)
  | heldDownRetry (port : Nat)
  | laneUnhealthy (port lane : Nat) (dir : Dir) (cause : LaneCause)
  | restripeDone (port : Nat) (dir : Dir)
  | laneRejoin (port lane : Nat) (dir : Dir)
  | linkFrameRx (port : Nat) (frame : LinkFrame)
  | llrRetryRx (port : Nat) (lsn : BitVec 12)
  | linkAckRx (port : Nat) (lsn : BitVec 12)
  | creditReturnRx (port vc count : Nat)
  | stitchOpenStart (stitch : Nat)
  | stitchSenseSample (stitch : Nat) (openMade closedMade : Bool)
  | stitchAdmitTimeout (stitch : Nat)
  | stitchRetryTimer (stitch : Nat)
  | kstForceClose (who : Requester) (stitch : Nat)
  | kstHoldOpen (who : Requester) (stitch : Nat) (hold : Bool)
  | kstRetry (who : Requester) (stitch : Nat)
  | patCtrlWrite (who : Requester) (group : Nat) (value mask : Word)
  | packetRx (port : Nat) (bytes : List Byte) (stomped : Bool)
  | packetTxDone (port : Nat)
  | origCellWaitEnd (die pool : Nat)
  | leakAuditPass (die : Nat)
  | bpCfgWrite (who : Requester) (die : Nat) (value mask : Word)
  | gateEntryBoundary (port : Nat)
  | gateChange (who : Requester) (port : Nat)
  | gateListStart (port : Nat)
  | transitBucketRecover (port : Nat)
  | meterWrite (who : Requester) (port cls word : Nat) (value mask : Word)
  | linkStateCtrlTimer
  | linkStateCtrlRx (port : Nat) (view : List (Nat × BitVec 24))
  | reachMapUpdate
  | routeTableRecompute
  | timeSyncTimer
  | timePacketRx (port : Nat) (bytes : List Byte) (ingress : BitVec 64)
  | timeRootTimeout
  | ppsInEdge
  | ppsOutPulse
  | ackDelayExpiry (ctx : Nat)
  | ackRx (handle : Nat)
  | rtoExpiry (ctx : Nat) (seq : Nat)
  | dataRx (handle : Nat)
  | slotQuotaWrite (who : Requester) (sub : Nat) (value mask : Word)
  | redSpillCfgWrite (who : Requester) (die : Nat) (value mask : Word)
  | holdQueueFree (sub : Nat)
  | postPendingResume (trigger : Nat)
  | slotTake (slot : Nat)
  | contribRx (handle : Nat)
  | partialRx (handle : Nat)
  | retentionFreed (slot chunk : Nat)
  | chunkDigest (sub point chunk : Nat)
  | resultRx (handle : Nat)
  | statusNoticeRx (handle : Nat) (commitFault : Bool)
  | livenessExpiry (slot : Nat)
  | settlingEnd (slot : Nat)
  | countRx (handle : Nat)
  | trigAdd (who : Requester) (die : Nat) (amount : Word)
  | triggerValidWrite (who : Requester) (trigger : Nat) (valid : Bool)
  | glbCoordWrite (who : Requester) (value mask : Word)
  | glbTorusWrite (who : Requester) (value mask : Word)
  | fabricEpochWrite (who : Requester) (value : Word)
  | quireTableWrite (who : Requester) (entry word : Nat) (value mask : Word)
  | rankXlatWrite (who : Requester) (entry : Nat) (value mask : Word)
  | jobLoad (who : Requester) (sub : Nat)
  | jobUnload (who : Requester) (sub : Nat)
  | jobUnloadDone (sub : Nat)
  | stepForwardResume (sub : Nat)
  | stageExecute (sub stage : Nat) (check : StageCheck)
  | sealSpaceFreed (sub : Nat)
  | signBatch (who : Requester) (sub : Nat)
  | batchSigned
  | releaseBatch (who : Requester) (sub : Nat)
  | scrubStep (mem : ScrubMem) (address : Nat) (found : ScrubFound) (newerWrite : Bool)
  | dramRefresh (stack vault : Nat) (hot : Bool)
  | lpddrRetrain (channel temp : Nat)
  | retireClear (who : Requester) (unit : Nat)
  | swathLaunch (who : Requester) (seq : BitVec 16)
  | swathMarkerRx (unit channel : Nat)
  | jobLoadDecided (sub : Nat) (perms : List (Nat × Nat))
  | startUpStepEnd (report : StepReport)
  | fallowBlocksHeld
  | refClockReturn (ref : Bool)
  | fallowReqNHigh
  | faultNPulseEnd
  | dividerRampEnd (node : Nat)
  | lpddrRefresh (channel temp : Nat)
  | watchdogService
  | trapReturn
  deriving DecidableEq, Repr

end Sys2Proof
end

