-- ==== Sys2Proof/Decode.lean ====
section
/-! DEFINITION. The command a word spells. No row of opcode_table.json gives bits, so no word spells a command. -/
namespace Sys2Proof

/-- No row of the table of operations and events gives bits: the answer is none for every word (log 11). -/
def decodeTableWord (_nbits _w : Nat) : Option Instr := none

end Sys2Proof
end

