-- ==== Sys2Proof/Machine/Crypto.lean ====
section
/-! DEFINITION. The computed primitives of the security island: SHAKE256 (FIPS 202), KMAC256 (SP 800-185) and CRC-32C and
CRC-16 in the bit-serial form of R56 and R57. -/
namespace Sys2Proof.Machine

open Sys2Proof

/-- Rotation offsets of Keccak's rho step, lane x + 5y. -/
def keccakRot : List Nat :=
  [0, 1, 62, 28, 27, 36, 44, 6, 55, 20, 3, 10, 43, 25, 39, 41, 45, 15, 21, 8, 18, 2, 61, 56, 14]

/-- Round constants of Keccak-f[1600]. -/
def keccakRc : List Dword :=
  [0x0000000000000001, 0x0000000000008082, 0x800000000000808A, 0x8000000080008000, 0x000000000000808B,
   0x0000000080000001, 0x8000000080008081, 0x8000000000008009, 0x000000000000008A, 0x0000000000000088,
   0x0000000080008009, 0x000000008000000A, 0x000000008000808B, 0x800000000000008B, 0x8000000000008089,
   0x8000000000008003, 0x8000000000008002, 0x8000000000000080, 0x000000000000800A, 0x800000008000000A,
   0x8000000080008081, 0x8000000000008080, 0x0000000080000001, 0x8000000080008008]

/-- Lane `i` of a Keccak state. -/
def laneAt (a : List Dword) (i : Nat) : Dword := a.getD i 0

/-- One round of Keccak-f[1600]. -/
def keccakRound (a : List Dword) (rc : Dword) : List Dword :=
  let c := (List.range 5).map fun x => laneAt a x ^^^ laneAt a (x + 5) ^^^ laneAt a (x + 10) ^^^ laneAt a (x + 15) ^^^ laneAt a (x + 20)
  let d := (List.range 5).map fun x => laneAt c ((x + 4) % 5) ^^^ (laneAt c ((x + 1) % 5)).rotateLeft 1
  let t := (List.range 25).map fun i => laneAt a i ^^^ laneAt d (i % 5)
  let b := (List.range 25).map fun i =>
    let j := (i % 5 + 3 * (i / 5)) % 5 + 5 * (i % 5)
    (laneAt t j).rotateLeft (keccakRot.getD j 0)
  (List.range 25).map fun i =>
    let r := 5 * (i / 5)
    let v := laneAt b i ^^^ (~~~ laneAt b (r + (i + 1) % 5) &&& laneAt b (r + (i + 2) % 5))
    if i == 0 then v ^^^ rc else v

/-- Keccak-f[1600]. -/
def keccakF (a : List Dword) : List Dword := keccakRc.foldl keccakRound a

/-- A state with a block of 136 bytes absorbed. -/
def absorbBlock (a : List Dword) (block : List Byte) : List Dword :=
  keccakF ((List.range 25).map fun i => laneAt a i ^^^ BitVec.ofNat 64 (leAt block (8 * i) 8))

/-- Absorb a padded message block by block. -/
def absorb : Nat → List Dword → List Byte → List Dword
  | 0, a, _ => a
  | n + 1, a, bs => absorb n (absorbBlock a (bs.take 136)) (bs.drop 136)

/-- Squeeze `n` blocks of 136 bytes. -/
def squeeze : Nat → List Dword → List Byte
  | 0, _ => []
  | n + 1, a => ((a.take 17).map fun w => leBytes 8 w.toNat).flatten ++ squeeze n (keccakF a)

/-- The multi-rate padding to a multiple of 136 bytes with the domain suffix `sfx`. -/
def padTo136 (sfx : Byte) (bs : List Byte) : List Byte :=
  let k := 136 - bs.length % 136
  if k == 1 then bs ++ [sfx ||| 0x80] else bs ++ sfx :: (List.replicate (k - 2) 0 ++ [0x80])

/-- The sponge with rate 136 bytes: `n` bytes of output. -/
def sponge136 (sfx : Byte) (bs : List Byte) (n : Nat) : List Byte :=
  let p := padTo136 sfx bs
  (squeeze (ceilDiv n 136) (absorb (p.length / 136) (List.replicate 25 0) p)).take n

/-- SHAKE256 of FIPS 202: the first `n` bytes (R324). -/
def shake256 (bs : List Byte) (n : Nat) : List Byte := sponge136 0x1F bs n

/-- The minimal big-endian bytes of a number, at least one. -/
def minBytes (n : Nat) : List Byte := beBytes (Nat.max 1 ((Nat.log2 n + 8) / 8)) n

/-- left_encode of SP 800-185. -/
def leftEncode (n : Nat) : List Byte := BitVec.ofNat 8 (minBytes n).length :: minBytes n
/-- right_encode of SP 800-185. -/
def rightEncode (n : Nat) : List Byte := minBytes n ++ [BitVec.ofNat 8 (minBytes n).length]
/-- encode_string of SP 800-185. -/
def encodeString (bs : List Byte) : List Byte := leftEncode (8 * bs.length) ++ bs
/-- bytepad of SP 800-185 with width 136. -/
def bytepad136 (bs : List Byte) : List Byte :=
  let x := leftEncode 136 ++ bs
  x ++ List.replicate ((136 - x.length % 136) % 136) 0

/-- The bytes of an ASCII string. -/
def asciiBytes (t : String) : List Byte := t.toList.map fun c => BitVec.ofNat 8 c.toNat

/-- KMAC256 of SP 800-185: key, data, output bytes, customisation (R309, R326). -/
def kmac256 (key data : List Byte) (n : Nat) (cust : String) : List Byte :=
  sponge136 0x04
    (bytepad136 (encodeString (asciiBytes "KMAC") ++ encodeString (asciiBytes cust)) ++ bytepad136 (encodeString key) ++ data ++
      rightEncode (8 * n)) n

/-- One reflected CRC step over a byte: `k` bits left, polynomial `poly` in reflected form. -/
def crcBits (poly : Nat) : Nat → Nat → Nat
  | 0, c => c
  | k + 1, c => crcBits poly k (if c % 2 == 1 then (c / 2) ^^^ poly else c / 2)

/-- A reflected CRC over bytes. -/
def crcReflected (poly : Nat) (c : Nat) (bs : List Byte) : Nat :=
  bs.foldl (fun c b => crcBits poly 8 (c ^^^ b.toNat)) c

/-- CRC-32C: polynomial 0x1EDC6F41 reflected, initial and final value all ones (R57). -/
def crc32c (bs : List Byte) : Nat := crcReflected 0x82F63B78 0xFFFFFFFF bs ^^^ 0xFFFFFFFF

/-- One bit step of the unreflected CRC-16 with polynomial 0x1021. -/
def crc16Bits : Nat → Nat → Nat
  | 0, c => c
  | k + 1, c => crc16Bits k (if c / 32768 % 2 == 1 then (c * 2 % 65536) ^^^ 0x1021 else c * 2 % 65536)

/-- CRC-16: polynomial 0x1021, initial value 0xFFFF, no reflection, no final XOR (R56). -/
def crc16 (bs : List Byte) : Nat := bs.foldl (fun c b => crc16Bits 8 (c ^^^ (b.toNat * 256))) 0xFFFF

end Sys2Proof.Machine
end

