-- ==== Sys2Proof/Config.lean ====
section
/-! DEFINITION. What an implementation fixes and the spec leaves open: fused values, the named cryptographic standards, and
the free values. Every constant here is opaque: nothing in Lean can evaluate it or prove a value of it. -/
namespace Sys2Proof.Config

open Sys2Proof

/-- MASK_REV of GLB_STEPPING, fused (R208; log 5). -/
opaque maskRev : BitVec 8
/-- SPEED_GRADE of GLB_STEPPING, fused (R208; log 5). -/
opaque speedGrade : BitVec 4
/-- HIF_MAC, fused (R323; log 5). -/
opaque hifMac : BitVec 48
/-- The 64-byte attestation public key, fused (R325; log 5). DEVICE_ID is its digest. -/
opaque attestKey : List Byte
/-- The device certificate in the maker area (R325; log 5). -/
opaque deviceCert : List Byte
/-- The settings key, fused (R325; log 5). -/
opaque settingsKey : List Byte
/-- The fused digest of the firmware root key (Table 16.1; log 5). -/
opaque firmwareRoot : List Byte
/-- The fused digest of the maker root key (Table 16.1; log 5). -/
opaque makerRoot : List Byte

/-- Free bytes of the entropy source: byte `i` of the `n`-th draw (R308; log 7). -/
opaque freeByte : Nat → Nat → Byte
/-- A free value the spec leaves unstated, by draw number (log 7). -/
opaque freeNat : Nat → Nat

/-- By how many ns the follower of a die stands ahead of the island's count after the `n`-th realignment, before it is cut to 0
to 2 (R16; log 77). -/
opaque followerSkew : Nat → Nat → Nat

/-- SLH-DSA verification (FIPS 205): key, context string, message, signature (R324; log 6). -/
opaque slhVerify : List Byte → String → List Byte → List Byte → Bool
/-- SLH-DSA signing with the attestation key: context, message, draw number (R324; log 6). -/
opaque slhSign : String → List Byte → Nat → List Byte
/-- ML-KEM-1024 key generation: the encapsulation key of a draw (FIPS 203, R308; log 6). -/
opaque kemKey : Nat → List Byte
/-- ML-KEM-1024 decapsulation: draw number of the key, ciphertext (R308; log 6). -/
opaque kemDecaps : Nat → List Byte → List Byte
/-- Public key of a DER certificate (RFC 5280, R331; log 6). -/
opaque certKey : List Byte → List Byte
/-- Role extension octet of a DER certificate (R331; log 6). -/
opaque certRole : List Byte → Option (BitVec 8)
/-- Whether a DER certificate is signed by the given key (R331; log 6). -/
opaque certSignedBy : List Byte → List Byte → Bool
/-- Validity period of a DER certificate in ns of the timebase (R331; log 6). -/
opaque certValid : List Byte → Nat × Nat

end Sys2Proof.Config
end

