-- ==== Sys2Proof/Machine/Layout.lean ====
section
/-! DEFINITION. The register space (20_register_map.md): pages and table windows, the access type and the write rights of
every field that is not read-only, what a word reads after reset, and the fault kinds of Table 17.2. -/
namespace Sys2Proof.Machine

open Sys2Proof

/-- Access types of fields that are not RO (Table 20.3). -/
inductive Acc where
  | rw
  | w1c
  | wo
  | rwl
  deriving DecidableEq, Repr

/-- A field that is not RO: its bits, access and the roles that may write it (R401). -/
structure Fld where
  hi : Nat
  lo : Nat
  acc : Acc
  o : Bool
  i : Bool
  m : Bool
  deriving DecidableEq, Repr

/-- An installer RW field. -/
def fldI (hi lo : Nat) : Fld := ⟨hi, lo, .rw, false, true, false⟩
/-- An operator RW field. -/
def fldO (hi lo : Nat) : Fld := ⟨hi, lo, .rw, true, false, false⟩
/-- An RW field of operator and installer. -/
def fldOI (hi lo : Nat) : Fld := ⟨hi, lo, .rw, true, true, false⟩
/-- An RW field of installer and maker. -/
def fldIM (hi lo : Nat) : Fld := ⟨hi, lo, .rw, false, true, true⟩
/-- An installer WO field. -/
def actI (hi lo : Nat) : Fld := ⟨hi, lo, .wo, false, true, false⟩
/-- An operator WO field. -/
def actO (hi lo : Nat) : Fld := ⟨hi, lo, .wo, true, false, false⟩

/-- The mask of a field. -/
def Fld.mask (f : Fld) : Word := maskOf f.hi f.lo

/-- A row of the page catalogue (Table 20.8), with the counters of 19_counters_and_swaths.md. -/
structure PageKind where
  ty : Nat
  base : Nat
  count : Nat
  hasEnable : Bool
  hasReset : Bool
  counters : Nat
  deriving DecidableEq, Repr

/-- Table 20.8. The counters are one more than the highest index the chapters define. -/
def pageKinds : List PageKind :=
  [⟨0x01, 0x0, 1, false, false, 0⟩, ⟨0x02, 0x1000, 1, false, false, 0⟩, ⟨0x03, 0x2000, 1, false, false, 0⟩,
   ⟨0x04, 0x3000, 1, false, false, 0⟩, ⟨0x05, 0x4000, 1, false, false, 0⟩, ⟨0x06, 0x5000, 1, false, false, 0⟩,
   ⟨0x07, 0x6000, 1, false, false, 2⟩, ⟨0x08, 0x7000, 1, false, false, 2⟩, ⟨0x09, 0x8000, 1, false, false, 0⟩,
   ⟨0x0A, 0x9000, 1, false, false, 0⟩, ⟨0x0B, 0xA000, 1, false, false, 5⟩, ⟨0x0C, 0xB000, 1, false, false, 1⟩,
   ⟨0x0D, 0xC000, 1, false, false, 2⟩, ⟨0x0E, 0xD000, 1, false, false, 0⟩, ⟨0x0F, 0xE000, 1, false, false, 6⟩,
   ⟨0x10, 0xF000, 1, false, false, 2⟩, ⟨0x11, 0x10000, 1, false, false, 3⟩, ⟨0x12, 0x11000, 8, false, false, 0⟩,
   ⟨0x20, 0x100000, 161, true, true, 16⟩, ⟨0x21, 0x200000, 193, false, false, 6⟩,
   ⟨0x22, 0x300000, 12, false, false, 3⟩] ++
  [⟨0x23, 0x400000, 161, false, true, 0⟩, ⟨0x24, 0x500000, 161, false, true, 0⟩,
   ⟨0x25, 0x600000, 161, false, true, 3⟩, ⟨0x26, 0x700000, 1, false, false, 0⟩,
   ⟨0x27, 0x701000, 1, false, false, 2⟩, ⟨0x28, 0x800000, 8, false, false, 8⟩,
   ⟨0x29, 0x900000, 8, true, true, 36⟩, ⟨0x2A, 0xA00000, 64, true, true, 3⟩,
   ⟨0x2B, 0xB00000, 32, true, true, 5⟩, ⟨0x2C, 0xC00000, 8, false, false, 7⟩,
   ⟨0x2D, 0xD00000, 33, false, false, 4⟩, ⟨0x2E, 0xE00000, 193, false, true, 8⟩,
   ⟨0x2F, 0xF00000, 8, false, false, 2⟩]

/-- The page that holds a byte address: its kind and its base address (R398). -/
def pageOf (addr : Nat) : Option (PageKind × Nat) :=
  match pageKinds.find? fun k => k.base ≤ addr && addr < k.base + 0x1000 * k.count with
  | some k => some (k, 0x1000 * (addr / 0x1000))
  | none => none

/-- Instance number of a page. -/
def PageKind.inst (k : PageKind) (page : Nat) : Nat := (page - k.base) / 0x1000

/-- The base of instance `i` of the pages of type `ty`. -/
def pageBase (ty i : Nat) : Nat :=
  match pageKinds.find? fun k => k.ty == ty with
  | some k => k.base + 0x1000 * i
  | none => 0

/-! Base addresses of Table 20.8. -/
def pGlb : Nat := 0x0
def pBoot : Nat := 0x1000
def pRole : Nat := 0x2000
def pAudit : Nat := 0x3000
def pSec : Nat := 0x4000
def pAttest : Nat := 0x5000
def pClk : Nat := 0x6000
def pPwr : Nat := 0x7000
def pTherm : Nat := 0x8000
def pRst : Nat := 0x9000
def pFlt : Nat := 0xA000
def pFltLog : Nat := 0xB000
def pSwath : Nat := 0xC000
def pTime : Nat := 0xD000
def pHostIf : Nat := 0xE000
def pMgmt : Nat := 0xF000
def pSeal : Nat := 0x10000
def pJob (i : Nat) : Nat := 0x11000 + 0x1000 * i
def pPort (p : Nat) : Nat := 0x100000 + 0x1000 * p
def pLaneGrp (g : Nat) : Nat := 0x200000 + 0x1000 * g
def pStitch (n : Nat) : Nat := 0x300000 + 0x1000 * n
def pSched (p : Nat) : Nat := 0x400000 + 0x1000 * p
def pGate (p : Nat) : Nat := 0x500000 + 0x1000 * p
def pPolice (p : Nat) : Nat := 0x600000 + 0x1000 * p
def pRoute : Nat := 0x700000
def pRankXlat : Nat := 0x701000
def pBufPool (d : Nat) : Nat := 0x800000 + 0x1000 * d
def pReduce (d : Nat) : Nat := 0x900000 + 0x1000 * d
def pColl (e : Nat) : Nat := 0xA00000 + 0x1000 * e
def pCluster (n : Nat) : Nat := 0xB00000 + 0x1000 * n
def pStackMem (d : Nat) : Nat := 0xC00000 + 0x1000 * d
def pLpddr (c : Nat) : Nat := 0xD00000 + 0x1000 * c
def pPattern (g : Nat) : Nat := 0xE00000 + 0x1000 * g
def pTrig (d : Nat) : Nat := 0xF00000 + 0x1000 * d

/-! Base addresses of Table 20.10. -/
def wRoute : Nat := 0x1000000
def wReach : Nat := 0x1004000
def wRank : Nat := 0x1010000
def wSlot (i : Nat) : Nat := 0x1100000 + 32 * i
def wSlotQuota (n : Nat) : Nat := 0x1120000 + 4 * n
def wDescBind (n : Nat) : Nat := 0x1130000 + 4 * n
def wJob (n : Nat) : Nat := 0x1140000 + 128 * n
def wSubQuota (n : Nat) : Nat := 0x1150000 + 4 * n
def wSubUse (n d : Nat) : Nat := 0x1151000 + 32 * n + 4 * d
def wSchedSub (n : Nat) : Nat := 0x1154000 + 4 * n
def wQueue (q : Nat) : Nat := 0x1160000 + 16 * q
def wTrig (t : Nat) : Nat := 0x1180000 + 32 * t
def wEvCtr (c : Nat) : Nat := 0x1280000 + 8 * c
def wStackRet (d i : Nat) : Nat := 0x1300000 + 1024 * d + 4 * i
def wLpRet (j i : Nat) : Nat := 0x1302000 + 1024 * j + 4 * i
def wQuire (n : Nat) : Nat := 0x1310000 + 32 * n
def wDesc (i : Nat) : Nat := 0x1400000 + 64 * i
def wStage (n g : Nat) : Nat := 0x1800000 + 16384 * n + 16 * g
def wColophon (n : Nat) : Nat := 0x1C00000 + 512 * n
def wSeal (n : Nat) : Nat := 0x1C20000 + 64 * n
def wCred (i : Nat) : Nat := 0x1D00000 + 64 * i
def wReact (k : Nat) : Nat := 0x1E00000 + 4 * k
def wFltLog (i : Nat) : Nat := 0x1E10000 + 32 * i
def wPerm (i : Nat) : Nat := 0x2000000 + 4 * i
def wGate (p b i : Nat) : Nat := 0x3000000 + 0x1000 * p + 0x800 * b + 8 * i

/-- Windows of Table 20.10: base, bytes per entry, entries. -/
def windows : List (Nat × Nat × Nat) :=
  [(0x1000000, 4, 4096), (0x1004000, 4, 128), (0x1010000, 4, 131072), (0x1100000, 32, 4096), (0x1120000, 4, 256),
   (0x1130000, 4, 256), (0x1140000, 128, 256), (0x1150000, 4, 257), (0x1151000, 32, 257), (0x1154000, 4, 256),
   (0x1160000, 16, 8192), (0x1180000, 32, 32768), (0x1280000, 8, 32768), (0x1300000, 1024, 8), (0x1302000, 1024, 4),
   (0x1310000, 32, 256), (0x1400000, 64, 65536), (0x1800000, 16384, 256), (0x1C00000, 512, 256), (0x1C20000, 64, 256),
   (0x1D00000, 64, 64), (0x1E00000, 4, 256), (0x1E10000, 32, 4096), (0x2000000, 4, 4194304), (0x3000000, 4096, 161)]

/-- The window that holds a byte address: its base, the entry and the byte within the entry. -/
def windowOf (addr : Nat) : Option (Nat × Nat × Nat) :=
  match windows.find? fun w => w.1 ≤ addr && addr < w.1 + w.2.1 * w.2.2 with
  | some w => some (w.1, (addr - w.1) / w.2.1, (addr - w.1) % w.2.1)
  | none => none

/-- Whether a word address is mapped (R398, R409). -/
def mapped (addr : Nat) : Bool := (pageOf addr).isSome || (windowOf addr).isSome

/-- Fields of the common header that are not RO (Tables 20.4 to 20.7). -/
def headerFields (off : Nat) : List Fld :=
  match off with
  | 0x008 => [actI 1 1, fldI 0 0]
  | 0x010 => [⟨31, 0, .w1c, true, true, false⟩]
  | 0x014 => [fldOI 31 0]
  | 0x020 => [⟨0, 0, .rwl, false, true, false⟩]
  | _ => []

/-- Fields of 0x040-0x7FF that are not RO, of the chip pages. -/
def chipFields (ty off : Nat) : List Fld :=
  match ty, off with
  | 0x01, 0x048 => [fldI 23 23, fldI 22 19, fldI 18 15, fldI 14 11]
  | 0x01, 0x04C => [fldI 11 8, fldI 7 4, fldI 3 0]
  | 0x01, 0x050 => [fldI 31 0]
  | 0x05, 0x048 => [fldI 1 1, fldI 0 0]
  | 0x05, 0x04C => [actI 1 0]
  | 0x07, 0x040 => [fldI 1 1, fldI 0 0]
  | 0x07, 0x048 => [actI 31 31, actI 7 0]
  | 0x08, 0x040 => [fldI 23 16, fldI 15 0]
  | 0x09, 0x040 => [fldI 7 0]
  | 0x0A, 0x040 => [actI 0 0]
  | 0x0B, 0x040 => [actI 31 31, fldI 0 0]
  | 0x0B, 0x048 => [actI 0 0]
  | 0x0C, 0x044 => [fldOI 31 0]
  | 0x0D, 0x040 => [⟨15, 0, .wo, true, true, false⟩]
  | 0x0E, 0x040 => [fldI 31 24, fldI 4 4, fldI 3 3, fldI 1 0]
  | 0x0F, 0x040 => [fldI 31 28, fldI 27 27, fldI 26 26, fldI 25 25, fldI 23 12]
  | 0x0F, 0x048 => [fldI 15 0]
  | 0x0F, 0x05C => [fldI 13 8, fldI 5 0]
  | _, _ => if ty == 0x0F && (off == 0x054 || off == 0x058 || (0x060 ≤ off && off < 0x080)) then [fldI 31 0] else []

/-- Fields of 0x040-0x7FF that are not RO, of the block pages. -/
def blockFields (ty off : Nat) : List Fld :=
  match ty, off with
  | 0x20, 0x040 => [fldI 31 31, fldI 30 30, fldI 29 29, fldI 28 28, fldI 1 0]
  | 0x20, 0x04C => [actI 1 1, actI 0 0]
  | 0x20, 0x064 => [fldI 26 16, fldI 10 0]
  | 0x20, 0x068 => [fldI 29 16, fldI 15 0]
  | 0x20, 0x070 => [fldI 31 0]
  | 0x20, 0x074 => [fldI 31 0]
  | 0x20, 0x078 => [fldI 31 30, fldI 7 0]
  | 0x21, 0x044 => [fldI 0 0]
  | 0x22, 0x040 => [actI 2 2, fldI 1 1, fldI 0 0]
  | 0x23, 0x040 => [fldI 23 16, fldI 15 8, fldI 7 0]
  | 0x23, 0x044 => [fldI 31 0]
  | 0x23, 0x048 => [fldI 31 0]
  | 0x24, 0x040 => [fldI 31 31, actI 30 30, fldI 8 0]
  | 0x24, 0x044 => [fldI 31 0]
  | 0x24, 0x048 => [fldI 31 0]
  | 0x26, 0x040 => [fldI 0 0]
  | 0x26, 0x044 => [fldI 23 16, fldI 15 12, fldI 9 0]
  | 0x28, 0x040 => [fldI 23 16, fldI 15 8, fldI 7 0]
  | 0x29, 0x040 => [fldI 5 0]
  | 0x2C, 0x04C => [actI 0 0]
  | 0x2E, 0x040 => [fldIM 31 31, fldIM 30 30, fldIM 29 28, fldIM 27 24, fldIM 13 8, fldIM 3 0]
  | 0x2E, 0x044 => [fldIM 31 0]
  | 0x2E, 0x048 => [fldIM 31 0]
  | 0x2F, 0x040 => [fldO 14 0]
  | 0x2F, 0x044 => [actO 31 0]
  | _, _ => []

/-- Fields of the meters (Table 12.4): word `off / 4 mod 4` of meter `(off - 0x040) / 16`. -/
def policeFields (off : Nat) : List Fld :=
  if 0x040 ≤ off && off < 0x0C0 then
    match off % 16 with
    | 0 => [fldI 31 31, fldI 15 0]
    | 4 => [fldI 15 0]
    | 8 => [fldI 31 16, fldI 15 0]
    | _ => []
  else []

/-- Fields of a page word that are not RO. -/
def pageFields (k : PageKind) (page off : Nat) : List Fld :=
  if off < 0x40 then headerFields off
  else if k.ty == 0x25 then policeFields off
  else if k.ty == 0x2D then
    (if k.inst page == 32 then
      (match off with
       | 0x040 => [fldI 1 0]
       | 0x04C => [actI 3 0]
       | _ => [])
     else [])
  else chipFields k.ty off ++ blockFields k.ty off

/-- Fields of a window word that are not RO. -/
def windowFields (base off : Nat) : List Fld :=
  match base with
  | 0x1010000 => [fldI 31 31, fldI 23 0]
  | 0x1120000 => [fldI 28 16, fldI 11 0]
  | 0x1140000 =>
    (match off with
     | 0 => [actO 31 28, fldO 0 0]
     | 4 => [fldO 31 0]
     | 8 => [fldO 31 0]
     | 12 => [fldO 7 0]
     | 16 => [fldO 31 0]
     | _ => if 48 ≤ off && off < 80 then [fldO 31 0] else [])
  | 0x1150000 => [fldI 26 16, fldI 10 0]
  | 0x1154000 => [fldI 10 8, fldI 7 0]
  | 0x1180000 => if off == 0 then [fldO 31 31] else []
  | 0x1310000 =>
    (match off with
     | 0 => [fldI 31 31, fldI 25 16, fldI 15 12, fldI 11 8, fldI 7 4]
     | 4 => [fldI 31 28, fldI 27 24, fldI 23 20, fldI 16 0]
     | 8 => [fldI 16 0]
     | 12 => [fldI 9 0]
     | _ => [fldI 31 0])
  | 0x1C20000 =>
    (match off with
     | 0 => [actO 31 28]
     | _ => if 4 ≤ off && off < 20 then [fldO 31 0] else [])
  | 0x1D00000 =>
    if off == 0 then [fldI 31 31]
    else if off < 36 then [fldI 31 0]
    else if off < 52 then [fldI 31 31, fldI 25 16, fldI 15 15, fldI 9 0]
    else []
  | 0x1E00000 => [fldI 5 5, fldI 4 4, fldI 3 3, fldI 2 2, fldI 1 1, fldI 0 0]
  | 0x3000000 => if off % 8 == 0 then [fldI 7 0] else [fldI 31 0]
  | _ => []

/-- The fields of the word at an address that are not RO. -/
def fieldsAt (addr : Nat) : List Fld :=
  match pageOf addr with
  | some (k, page) => pageFields k page (addr - page)
  | none =>
    match windowOf addr with
    | some (b, _, off) => windowFields b off
    | none => []

/-- The mask of the RW fields of a word. -/
def rwMask (fs : List Fld) : Word :=
  fs.foldl (fun m f => if f.acc = .rw then m ||| f.mask else m) 0

/-- The offsets of 0x040-0x0FF, where every field that is not RO lies. -/
def fieldOffsets : List Nat := (List.range 48).map fun i => 0x040 + 4 * i

/-- The rights that fields of 0x040-0x7FF of a page carry (Table 20.7): O, I, M. -/
def pageRights (k : PageKind) (page : Nat) : Bool × Bool × Bool :=
  let fs := (fieldOffsets.map fun off => pageFields k page off).flatten
  (fs.any (·.o), fs.any (·.i), fs.any (·.m))

/-! ## Fault kinds (Table 17.2) -/

/-- A fault kind: class (3 where it goes by source), mandatory reactions, and whether its reactions are fixed (R358). -/
structure KindInfo where
  kind : Nat
  cls : Nat
  mand : Nat
  fixed : Bool
  /-- a source of the kind has BLK_CTRL.BLK_RESET (R350) -/
  resets : Bool
  deriving DecidableEq, Repr

/-- Table 17.2. Mandatory bits stand as FLT_REACT [5:0]; those of a fixed kind are FALLOW, PIN and EVENT (R358). -/
def kindTable : List KindInfo :=
  [⟨0x01, 1, 0, false, true⟩, ⟨0x02, 1, 0, false, true⟩, ⟨0x03, 1, 0, false, false⟩, ⟨0x04, 1, 0, false, true⟩,
   ⟨0x05, 1, 0, false, true⟩, ⟨0x06, 1, 0, false, false⟩, ⟨0x07, 1, 0, false, false⟩, ⟨0x08, 1, 0, false, false⟩,
   ⟨0x09, 1, 0, false, true⟩, ⟨0x0A, 1, 0, false, true⟩, ⟨0x10, 0, 0, false, false⟩, ⟨0x11, 1, 0, false, false⟩,
   ⟨0x12, 0, 0, false, false⟩, ⟨0x13, 2, 0x30, false, false⟩, ⟨0x14, 2, 0x30, false, false⟩,
   ⟨0x15, 0, 0, false, false⟩, ⟨0x16, 1, 0, false, false⟩, ⟨0x17, 0, 0, false, false⟩, ⟨0x18, 1, 0, false, false⟩,
   ⟨0x19, 3, 0, false, false⟩, ⟨0x1A, 1, 0, false, false⟩, ⟨0x1B, 1, 0, false, false⟩] ++
  [⟨0x20, 0, 0, false, true⟩, ⟨0x21, 2, 0x30, false, true⟩, ⟨0x22, 3, 0x04, false, true⟩, ⟨0x23, 2, 0x31, true, false⟩,
   ⟨0x24, 2, 0x31, true, false⟩, ⟨0x25, 2, 0x31, true, false⟩, ⟨0x30, 1, 0, false, false⟩, ⟨0x31, 1, 0, false, false⟩,
   ⟨0x32, 1, 0x02, false, false⟩, ⟨0x33, 2, 0x31, true, false⟩, ⟨0x38, 1, 0, false, false⟩, ⟨0x39, 1, 0, false, true⟩,
   ⟨0x3A, 0, 0, false, true⟩, ⟨0x40, 1, 0, false, false⟩, ⟨0x41, 1, 0, false, true⟩, ⟨0x42, 2, 0x30, false, true⟩,
   ⟨0x48, 2, 0x31, true, false⟩, ⟨0x49, 2, 0x31, true, false⟩, ⟨0x4A, 2, 0x31, true, false⟩,
   ⟨0x4B, 2, 0x30, false, false⟩]

/-- The row of a kind; none for a reserved kind. -/
def kindOf (k : Nat) : Option KindInfo := kindTable.find? fun r => r.kind == k

/-- The reset word of FLT_REACT[k] (R350, Table 17.3); a reserved kind reads 0 (log 3). -/
def reactReset (k : Nat) : Word :=
  match kindOf k with
  | some r => BitVec.ofNat 32 (r.cls * 2 ^ 24 + r.mand * 2 ^ 16 + (r.mand ||| 1))
  | none => 0

/-! ## Reset values -/

/-- Cells of pool n under a division in MiB of pools 0 to 2 (R226, Table 11.4). -/
def poolCells (m0 m1 m2 n : Nat) : Nat :=
  match n with
  | 0 => m0 * 4096
  | 1 => m1 * 1024
  | 2 => m2 * 256
  | _ => (64 - m0 - m1 - m2) * 1048576 / 4160

/-- SOURCE_TYPE and SOURCE_INST of a page's FLT_ROUTE (Table 20.6): a cluster shows its first tile. -/
def routeOf (k : PageKind) (page : Nat) : Nat :=
  if k.ty == 0x2B then 0xF1 * 2 ^ 24 + 16 * k.inst page * 4096
  else k.ty * 2 ^ 24 + k.inst page * 4096

/-- PAGE_CAPS of a page (Table 20.4). LOCKABLE follows RIGHTS.I, SWATH follows COUNTERS (log 12). -/
def capsOf (k : PageKind) (page : Nat) : Nat :=
  k.counters * 65536 + 8 * b2n (pageRights k page).2.1 + 4 * b2n (decide (0 < k.counters)) + 2 * b2n k.hasReset + b2n k.hasEnable

/-- What the header words read after reset (Tables 20.4 to 20.7; BLK_STATE: log 3). -/
def headerReset (k : PageKind) (page off : Nat) : Word :=
  match off with
  | 0x000 => BitVec.ofNat 32 (k.ty * 2 ^ 24 + k.inst page * 4096 + 1)
  | 0x004 => BitVec.ofNat 32 (capsOf k page)
  | 0x008 => if k.ty == 0x20 then 0 else 1
  | 0x00C => if k.ty == 0x20 then 0 else 2
  | 0x018 => BitVec.ofNat 32 (routeOf k page)
  | 0x01C => BitVec.ofNat 32 (4 * b2n (pageRights k page).2.2 + 2 * b2n (pageRights k page).2.1 + b2n (pageRights k page).1)
  | _ => 0

/-- What the block registers read after reset, where that is not 0. -/
def blockReset (ty off : Nat) : Word :=
  match ty, off with
  | 0x01, 0x040 => BitVec.ofNat 32 (Config.speedGrade.toNat * 65536 + 0x100 + Config.maskRev.toNat)
  | 0x01, 0x044 => 0x01FF0300
  | 0x01, 0x054 => 0x00000001
  | 0x05, 0x044 => 0x0000007F
  | 0x05, 0x048 => 0x00000002
  | 0x07, 0x040 => 0x00000002
  | 0x07, 0x05C => 0x00010000
  | 0x08, 0x044 => 0x1E000000
  | 0x0E, 0x044 => 0x0000FF00
  | 0x0F, 0x040 => 0xF8000000
  | 0x0F, 0x04C => BitVec.ofNat 32 (Config.hifMac.toNat / 2 ^ 32)
  | 0x0F, 0x050 => BitVec.ofNat 32 Config.hifMac.toNat
  | 0x10, 0x040 => 0x80000064
  | 0x20, 0x040 => 0x20000000
  | 0x20, 0x088 => 0x000000FF
  | 0x21, 0x040 => 0x0000000F
  | 0x22, 0x048 => 0x00000001
  | 0x23, 0x04C => 0x00010000
  | 0x26, 0x040 => 0x00000001
  | 0x28, 0x044 => BitVec.ofNat 32 (poolCells 4 4 8 0)
  | 0x28, 0x048 => BitVec.ofNat 32 (poolCells 4 4 8 1)
  | 0x28, 0x04C => BitVec.ofNat 32 (poolCells 4 4 8 2)
  | 0x28, 0x050 => BitVec.ofNat 32 (poolCells 4 4 8 3)
  | _, _ => 0

/-- What a window word reads after reset, where that is not 0. -/
def windowReset (base entry off : Nat) : Word :=
  match base with
  | 0x1004000 => if entry == 0 then 1 else 0
  | 0x1140000 => if off == 20 then 0xFF000000 else 0
  | 0x1E00000 => reactReset entry
  | _ => 0

/-- The word at an address after reset (R402). -/
def resetWord (addr : Nat) : Word :=
  match pageOf addr with
  | some (k, page) => if addr - page < 0x40 then headerReset k page (addr - page) else blockReset k.ty (addr - page)
  | none =>
    match windowOf addr with
    | some (b, e, off) => windowReset b e off
    | none => 0

end Sys2Proof.Machine
end

