-- ==== Sys2Proof/Machine/Sparse.lean ====
section
/-! DEFINITION. Sparse tables in one canonical form: a list of (key, value) pairs with strictly rising keys and no pair equal
to what an unlisted key reads as, so that equal tables are equal data. -/
namespace Sys2Proof.Machine

/-- A sparse table from numbers to values. -/
abbrev Sparse (α : Type) := List (Nat × α)

/-- The value at key `k`; an unlisted key reads `d k`. -/
def Sparse.get {α : Type} (d : Nat → α) : Sparse α → Nat → α
  | [], k => d k
  | (j, v) :: m, k => if j = k then v else Sparse.get d m k

/-- `m` without key `k`. -/
def Sparse.erase {α : Type} : Sparse α → Nat → Sparse α
  | [], _ => []
  | (j, v) :: m, k =>
    if j = k then Sparse.erase m k else (j, v) :: Sparse.erase m k

/-- `m` with `(k, v)` entered in key order; `k` must not be listed. -/
def Sparse.insert {α : Type} : Sparse α → Nat → α → Sparse α
  | [], k, v => [(k, v)]
  | (j, w) :: m, k, v => if k < j then (k, v) :: (j, w) :: m else (j, w) :: Sparse.insert m k v

/-- `m` with key `k` holding `v`, in canonical form. -/
def Sparse.set {α : Type} [DecidableEq α] (d : Nat → α) (m : Sparse α) (k : Nat) (v : α) : Sparse α :=
  if v = d k then Sparse.erase m k else Sparse.insert (Sparse.erase m k) k v

/-- Keys rise strictly. -/
def Sparse.sorted {α : Type} : Sparse α → Bool
  | [] => true
  | [_] => true
  | (j, _) :: (k, w) :: m => j < k && Sparse.sorted ((k, w) :: m)

/-- The canonical form: keys rise strictly and no entry equals the value of an unlisted key. -/
def Sparse.wf {α : Type} [DecidableEq α] (d : Nat → α) (m : Sparse α) : Bool :=
  Sparse.sorted m && m.all fun p => !decide (p.2 = d p.1)

/-- The entries whose keys lie in [lo, hi), in key order. -/
def Sparse.range {α : Type} (m : Sparse α) (lo hi : Nat) : Sparse α :=
  m.filter fun p => decide (lo ≤ p.1) && decide (p.1 < hi)

/-- `m` without the keys in [lo, hi). -/
def Sparse.eraseRange {α : Type} (m : Sparse α) (lo hi : Nat) : Sparse α :=
  m.filter fun p => !(decide (lo ≤ p.1) && decide (p.1 < hi))

end Sys2Proof.Machine
end

