-- ==== Sys2Proof/Machine/State.lean ====
section
/-! DEFINITION. The state of one PRN-768 as plain data: the register space and its counters, the memories, and the state that
the chapters give the device behind its registers. -/
namespace Sys2Proof.Machine

open Sys2Proof

/-- An Askuf packet (Table 3.2, R47). -/
structure Pkt where
  ver : BitVec 2
  ty : BitVec 6
  cls : BitVec 3
  dl : Bool
  last : Bool
  sealBit : Bool
  ecn : Bool
  flag0 : Bool
  dst : BitVec 24
  src : BitVec 24
  rsv8 : BitVec 6
  quire : BitVec 10
  rsv10 : BitVec 2
  stream : BitVec 14
  seq : BitVec 24
  hops : BitVec 8
  msg : BitVec 16
  len : BitVec 13
  ety : BitVec 3
  offset : BitVec 32
  word24 : BitVec 32
  hcrc : BitVec 16
  aux : BitVec 16
  payload : List Byte
  trailer : BitVec 32
  deriving DecidableEq, Repr

/-- A rick (R97, Table 5.2). `v` is the 320-bit two's complement V. -/
structure Rick where
  v : BitVec 320
  nan : Bool
  pinf : Bool
  ninf : Bool
  negz : Bool
  count : Nat
  deriving DecidableEq, Repr

/-- A min or max entry of a chunk (R126): the extreme value copied exactly, and the count. -/
structure Extreme where
  bits : Nat
  count : Nat
  /-- an operand of the element, or of a packet that brought it, was a signalling NaN (R127) -/
  snan : Bool
  deriving DecidableEq, Repr

/-- Chunk states (Table 6.5); UNOPENED chunks are not listed. -/
inductive ChunkState where
  | unopened
  | hot
  | spilled
  | complete
  | up
  | down
  | released
  deriving DecidableEq, Repr

/-- A chunk of a reduction on one switch (R118, R125 to R130). -/
structure Chunk where
  st : ChunkState
  /-- its entries lie in the spill region (R125) -/
  spilled : Bool
  ricks : List Rick
  exts : List Extreme
  /-- the per-chunk signalling-NaN bit of R127 -/
  snan : Bool
  /-- result rounded here or received from the parent, retained until RELEASED: byte offset in y (48 bytes an element for
  FRICK), bytes -/
  pieces : List (Nat × List Byte)
  deriving DecidableEq, Repr

/-- A collective descriptor (Table 7.2). -/
structure Desc where
  op : Nat
  outFmt : Nat
  inFmt : Nat
  plane : Nat
  sealBit : Bool
  auto : Bool
  engine : Nat
  quire : Nat
  w : Nat
  rankFirst : Nat
  membersM1 : Nat
  stride : Nat
  root : Nat
  count : Nat
  seqLenM1 : Nat
  shift : Nat
  permBase : Nat
  doneEn : Bool
  doneCtr : Nat
  failEn : Bool
  failCtr : Nat
  chunkEn : Bool
  chunkCtr : Nat
  tag : Nat
  deriving DecidableEq, Repr

/-- A collective that holds its slot at this switch (R116, R131, R148). -/
structure SlotSt where
  k : Nat
  sub : Nat
  desc : Desc
  /-- member indices of the local members (R120) -/
  locals : List Nat
  parent : Option Nat
  /-- children in the tree: switch index and expected count -/
  children : List (Nat × Nat)
  expected : Nat
  chunks : Sparse Chunk
  /-- packets whose acknowledgement the release waits for (R130, R131): stream context, SEQ, and the chunk (none: abort or notice) -/
  unacked : List (Nat × Nat × Option Nat)
  okSent : Bool
  code : Nat
  flags : Nat
  /-- full forms sent or received here (Table 6.9) -/
  escapes : Nat
  /-- full forms received by the root, as far as this switch knows them (R136) -/
  rootEscapes : Nat
  noticeGot : Bool
  settling : Bool
  /-- some chunk or message of a movement collective was sent on: destinations done -/
  sentTo : List Nat
  /-- a switch of the block was absent from the map since the last restart of the liveness timer (R45) -/
  absent : Bool
  /-- movement and v collectives: input pieces by member index -/
  inputs : Sparse (List (Nat × List Byte))
  /-- counts of a v variant by index in the whole vector (R154) -/
  counts : Sparse (Option Nat)
  /-- counts of the vector that the parent has sent down -/
  countsGot : Nat
  countsDown : Bool
  joined : List Nat
  /-- outputs of movement collectives already delivered to local members -/
  delivered : List Nat
  /-- LENs of a FRICK export so far: local member, or 2^20 + child (R129) -/
  frickLens : Sparse Nat
  /-- bytes of movement blocks received from other switches: source switch, offset, data -/
  fromSwitch : Sparse (List (Nat × List Byte))
  deriving DecidableEq, Repr

/-- A packet sent on a device stream and not acknowledged (R65, R68). -/
structure Sent where
  seq : Nat
  pkt : Pkt
  times : Nat
  /-- numbers acknowledged above this packet that it has already counted towards a fast retransmission (R68) -/
  later : List Nat
  slot : Option (Nat × Nat)
  chunk : Option Nat
  /-- its cell is charged to the control reserve (R229) -/
  control : Bool
  deriving DecidableEq, Repr

/-- What a stream context serves (R426). -/
inductive StreamKind where
  | fromMember
  | toMember
  | fromTree
  | toTree
  | fromSwitch
  | toSwitch
  | recv (stage : Nat)
  | send (stage : Nat)
  deriving DecidableEq, Repr

/-- A device stream context (R65 to R67, R426). -/
structure Stream where
  sub : Nat
  kind : StreamKind
  /-- the far end: a member's or switch's fabric address -/
  peer : BitVec 24
  /-- receive: the (SRC, STREAM) pair of the first packet -/
  pair : Option (BitVec 24 × BitVec 14)
  cum : Nat
  /-- numbers above CUM_SEQ received, as offsets -/
  got : List Nat
  sinceAck : Nat
  /-- die on which the stream's last data entered, where its next ACK is formed -/
  die : Nat
  ecnSeen : Nat
  dup : Nat
  outOfWindow : Nat
  cls : BitVec 3
  nextSeq : Nat
  unacked : List Sent
  window : Nat
  effWindow : Nat
  /-- packets waiting for the window; each takes its number when it is sent (R65, log 86) -/
  waiting : List Sent
  deriving DecidableEq, Repr

/-- An open message at a destination of this device (R69). -/
structure MsgSt where
  ctx : Nat
  msg : Nat
  counted : Nat
  total : Option Nat
  pieces : List (Nat × List Byte)
  done : Bool
  deriving DecidableEq, Repr

/-- Where a packet cell is charged (R231). -/
inductive Charge where
  | floor
  | control
  | port (p : Nat)
  | sub (n : Nat)
  deriving DecidableEq, Repr

/-- A packet cell (R228). Free cells that were never allocated are not listed. -/
structure Cell where
  allocated : Bool
  gen : Nat
  refs : BitVec 9
  charge : Charge
  /-- subscriber counted for the packet on the die, 256 the transit account -/
  acct : Option Nat
  /-- ingress port and virtual channel; none for a device-originated packet -/
  ingress : Option (Nat × Nat)
  credits : Nat
  /-- the two audit marks of R228: referenced in the pass, and suspect -/
  marked : Bool
  suspect : Bool
  /-- cell withdrawn by CELL_META_PARITY -/
  withdrawn : Bool
  deriving DecidableEq, Repr

/-- A pointer to a cell with the generation it was allocated under, and the packet as it leaves by this target (R236). -/
structure QEntry where
  cell : Nat
  gen : Nat
  pkt : Pkt
  /-- the packet may leave before it is whole (R223) -/
  cutThrough : Bool
  deriving DecidableEq, Repr

/-- A packet for this device's PORT 255 that waits for its consumer (R224). -/
structure Delivery where
  cell : Nat
  gen : Nat
  pkt : Pkt
  /-- ingress port, none when the device originated it -/
  port : Option Nat
  die : Nat
  deriving DecidableEq, Repr

/-- A device-originated packet that waits for a cell (R234). -/
structure OrigWait where
  die : Nat
  pkt : Pkt
  /-- egress ports, or the empty list for the device's own PORT 255 -/
  targets : List (Nat × Pkt)
  control : Bool
  sub : Option Nat
  deriving DecidableEq, Repr

/-- A fabric port behind its registers (R63 to R73, R229 to R232, R246, R264 to R268). -/
structure PortSt where
  /-- downstream credits by virtual channel, 256-byte units -/
  credits : Sparse Nat
  /-- credits consumed by packets in the buffer, by virtual channel -/
  held : Sparse Nat
  /-- credits above the floor granted and not yet seen consumed, by virtual channel -/
  granted : Sparse Nat
  banked : Sparse Nat
  /-- virtual channel whose banked credits are returned next (R232) -/
  bankNext : Nat
  /-- most credits held of each downstream channel since admission: the initial grant and what raised it (R64) -/
  initial : Sparse Nat
  sending : Option (QEntry × Nat)
  txLsn : Nat
  rxLsn : Nat
  replay : List (Nat × Pkt)
  rxDiscard : Bool
  replayFails : Nat
  /-- LSN that the last RETRY named, until it is acknowledged (R72) -/
  lastRetry : Option Nat
  /-- a re-striping of each direction is in progress (R73) -/
  stripingRx : Bool
  stripingTx : Bool
  /-- receive lanes that have a signal, by lane position -/
  signal : List Nat
  /-- half rate is requested of the partner; it has been tried in this bring-up (R266) -/
  halfReq : Bool
  halfTried : Bool
  /-- a stage failed: the port starts again from stage 1 after 100 ms (R264) -/
  waitRestart : Bool
  identGot : Bool
  identAcked : Bool
  /-- VER_MAJOR, VER_MINOR and FLAGS of the last IDENT received -/
  identMajor : Nat
  identMinor : Nat
  identFlags : Nat
  inner : Bool
  /-- tags of the level-1 nodes: subscriber, 256 common, 257 transit -/
  nodeStart : Sparse Nat
  queueStart : Sparse Nat
  vtime : Nat
  vtimeNode : Sparse Nat
  awake : List Nat
  /-- transit bucket: timebase of the last refill -/
  bucketAt : Nat
  /-- fraction of a byte in the transit bucket, in 1/2,048 -/
  bucketFrac : Nat
  /-- last widening of each direction (R73) -/
  widenedRx : Option Nat
  widenedTx : Option Nat
  deriving DecidableEq, Repr

/-- A receive lane's preset and tap search, and its transmitter's coefficients (R262, R266, R419). -/
structure LaneTrain where
  /-- last stage of Table 13.2 that the lane has finished -/
  stage : Nat
  /-- preset asked for now, 1-6; 7 while the best is asked for, 8 while taps are -/
  ask : Nat
  bestPreset : Nat
  bestSnr : Nat
  /-- tap change tried now: tap probe / 2, an increment where probe is even (log 84) -/
  probe : Nat
  tapReqs : Nat
  ready : Bool
  /-- the partner's RX_READY -/
  partner : Bool
  /-- PRESET_ACK and TAP_ACK of the lane's transmitter -/
  preset : Nat
  tapAck : Nat
  /-- LANE, LANE_N and WIDTH of the last frame (R267) -/
  num : Nat
  numN : Nat
  width : Nat
  /-- transmit tap coefficients c(-3) to c(1) as tap positions relative to the preset -/
  taps : List Int
  deriving DecidableEq, Repr

/-- A meter's buckets in units of 1/80 byte, and the time of their last refill (R251). -/
structure MeterSt where
  tc : Nat
  tp : Nat
  at' : Nat
  deriving DecidableEq, Repr

/-- The gate lists of a port in force (R253 to R255). -/
structure GateSt where
  len : Nat
  entry : Nat
  since : Nat
  waitLen : Nat
  startAt : Nat
  base : Nat
  /-- BASE of the waiting list -/
  waitBase : Nat
  /-- after a time step: the cycle boundary at which entry 0 comes next (R259) -/
  resync : Option Nat
  deriving DecidableEq, Repr

/-- A stage entry of an image (Table 9.3). -/
structure Stage where
  ty : Nat
  role : Nat
  index : Nat
  tileFirst : Nat
  tiles : Nat
  outFmt : Nat
  in0Fmt : Nat
  auxFmt : Nat
  in1Fmt : Nat
  bT : Bool
  aT : Bool
  epi : Nat
  pool : Nat
  mode : Nat
  m : Nat
  n : Nat
  k : Nat
  regA : Nat
  regB : Nat
  regOut : Nat
  regAux : Nat
  desc : Nat
  param0 : Nat
  bound : Nat
  param1 : Nat
  deriving DecidableEq, Repr

/-- A connection entry (Table 9.4). -/
structure Conn where
  src : Nat
  toPort : Nat
  dst : Nat
  fmt : Nat
  bufBytes : Nat
  deriving DecidableEq, Repr

/-- A memory plan entry (Table 9.5). -/
structure Region where
  region : Nat
  role : Nat
  place : Nat
  at' : Nat
  fmt : Nat
  source : Nat
  offset : Nat
  bytes : Nat
  rows : Nat
  cols : Nat
  deriving DecidableEq, Repr

/-- A stash entry (Table 9.5a). -/
structure StashE where
  stash : Nat
  stage : Nat
  region : Nat
  depth : Nat
  perSample : Nat
  deriving DecidableEq, Repr

/-- What a stage reported for its step (R202). -/
structure StageRes where
  code : Nat
  flags : Nat
  escapes : Nat
  deriving DecidableEq, Repr

/-- The step in progress of a job at this switch (R195 to R197). -/
structure StepSt where
  s : Nat
  /-- waits for step s - DEPTH before its forward stages start (R196) -/
  waits : Bool
  /-- inputs that are complete, by 2 x stage + port -/
  inputs : Sparse (Option (List Byte))
  results : Sparse (Option StageRes)
  counts : List Nat
  /-- in-place writes held until the commit: region, byte offset, bytes -/
  held : List (Nat × Nat × List Byte)
  committed : Bool
  deriving DecidableEq, Repr

/-- A gathering stage of this switch as a member of a collective (R160, R190): its input and what was delivered to it. -/
structure MemberSt where
  k : Nat
  stage : Nat
  input : List Byte
  /-- next chunk of the input to send -/
  next : Nat
  countsSent : Bool
  /-- chunks whose result bytes or notice have all been delivered -/
  delivered : List Nat
  pieces : List (Nat × List Byte)
  counted : Nat
  total : Option Nat
  notice : Option StageRes
  /-- offset, received, sent and total of the count reply (R155) -/
  reply : Option (Nat × Nat × Nat × Nat)
  deriving DecidableEq, Repr

/-- A loaded job (R186 to R201). -/
structure JobSt where
  stages : List Stage
  conns : List Conn
  regions : List Region
  stashes : List StashE
  role : Nat
  roleMap : List Nat
  maxBatch : Nat
  rickBound : Nat
  alignMode : Nat
  e4mode : Nat
  descBase : Nat
  descLen : Nat
  engines : List Nat
  counters : List Nat
  triggers : List Nat
  streams : List Nat
  queues : List Nat
  tiles : List Nat
  /-- frames held: unit (stack 0-7 or 8 + group), frame number, in the order of R289 -/
  frames : List (Nat × Nat)
  /-- permutation table entries counted for the job (test 29) -/
  perms : Nat
  colophon : List Byte
  colophonDigest : List Byte
  /-- KiB reserved under R134 on each die -/
  reservedKib : Nat
  /-- posted collectives that wait for their slot, increasing k (R116) -/
  hold : List Nat
  /-- AUTO posts that wait in their engines for hold-queue space -/
  waitPosts : List Nat
  /-- posted numbers at or above `postFloor` -/
  posted : List Nat
  postFloor : Nat
  /-- generations released so far by each slot of the job's range (R131) -/
  rounds : Sparse Nat
  /-- a COMMIT_FAULT fails every later step (R197) -/
  failed : Bool
  /-- steps started and not completed, in increasing number -/
  steps : List StepSt
  members : List MemberSt
  /-- completions at this switch that the gathering has not taken yet: number, outcome and counts -/
  ended : List (Nat × StageRes × List Nat)
  /-- steps that completed with a code other than OK -/
  failedSteps : List (Nat × Nat)
  /-- steps completed -/
  doneSteps : List Nat
  /-- bytes stashed, by 16 x stash + slot -/
  stash : Sparse Nat
  stashLost : List Nat
  /-- ranges of regions that no committed transfer has covered yet: region, first byte, end (R317) -/
  unsettled : List (Nat × Nat × Nat)
  /-- completed RECV messages: channel, step mod 1024, source rank, bytes -/
  recvMsgs : List (Nat × Nat × Nat × List Byte)
  /-- chunk digests of unfinished steps: seal identifier, seal step, chunk index, digest -/
  digests : List (Nat × Nat × Nat × List Byte)
  /-- lengths of the sealed bytes: seal identifier, seal step, bytes -/
  sealedLens : List (Nat × Nat × Nat)
  /-- seal staging: seal identifier, seal step, byte offset, bytes -/
  staging : List (Nat × Nat × Nat × List Byte)
  sealWaiting : Bool
  /-- when a sealing point of the job began to wait for space (R218) -/
  sealSince : Nat
  deriving DecidableEq, Repr

/-- A seal record and its chunk digests (Table 10.5, R217). -/
structure SealRec where
  sub : Nat
  step : Nat
  quire : Nat
  points : Nat
  offsets : List Byte
  plane : Nat
  time : Nat
  colophonDigest : List Byte
  stepSeal : List Byte
  digests : List (List Byte)
  poisoned : Bool
  /-- the batch that last covered the record (R218) -/
  signed : Option Nat
  deriving DecidableEq, Repr

/-- A batch of seal records being signed or last signed (R219). -/
structure Batch where
  sub : Nat
  number : Nat
  first : Nat
  last : Nat
  statement : List Byte
  sig : List Byte
  deriving DecidableEq, Repr

/-- A message of the device on port 160 (Table 15.3): type, the common queue it leaves by, session, message number, status and
body. -/
structure HostMsg where
  ty : Nat
  queue : Nat
  session : Nat
  seq : Nat
  msgNum : Nat
  flags : Nat
  status : Nat
  body : List Byte
  deriving DecidableEq, Repr

/-- An EVENT of a session not yet acknowledged (R315). -/
structure EventOut where
  evtSeq : Nat
  page : Nat
  bits : Word
  body : List Byte
  deriving DecidableEq, Repr

/-- A session's audit stream (R320). -/
structure AuditStream where
  next : Nat
  acked : Nat
  deriving DecidableEq, Repr

/-- An incomplete message of a session (R306). -/
structure Partial where
  msgNum : Nat
  ty : Nat
  total : Nat
  got : List (Nat × List Byte)
  deriving DecidableEq, Repr

/-- An open session, or an opening between CHALLENGE and ACCEPT (R308 to R315). -/
structure Session where
  accepted : Bool
  role : Nat
  keyDigest : List Byte
  cred : Nat
  key : List Byte
  hostNonce : List Byte
  devNonce : List Byte
  draw : Nat
  t1 : List Byte
  scope : Nat
  highSeq : Nat
  seen : List Nat
  nextSeq : Nat
  /-- executed MSG_NUM values of the window with their responses, rising (R313) -/
  done : List (Nat × Option HostMsg)
  ranges : List (Nat × Nat)
  /-- EVT_STATUS AND NOT EVT_MASK last seen by page, for R315 -/
  lastBits : Sparse Word
  /-- pages whose last EVENT has been acknowledged (R315) -/
  ackedPages : List Nat
  events : List EventOut
  trigQueue : List EventOut
  dropped : Nat
  partials : List Partial
  audit : Option AuditStream
  deriving DecidableEq, Repr

/-- An open bulk transfer (R316 to R318). -/
structure Transfer where
  session : Nat
  req : BulkReq
  msgNum : Nat
  /-- waiting for a step to complete (R317) -/
  waiting : Bool
  /-- segments received (DIR 0) or acknowledged (DIR 1) -/
  segs : List Nat
  /-- DIR 0: datagrams not yet acknowledged -/
  unacked : Nat
  /-- DIR 1: the bytes to send; target FIRMWARE: the bytes staged -/
  data : List Byte
  /-- DIR 1: segments sent -/
  sent : Nat
  deriving DecidableEq, Repr

/-- A request held until LPDDR6 BIST completes (R385). -/
inductive Held where
  | load (sub role session : Nat)
  | bulkOpen (session : Nat) (msgNum : Nat) (req : BulkReq)
  deriving DecidableEq, Repr

/-- An audit record (Table 16.9). -/
structure AuditRec where
  seq : Nat
  kind : Nat
  time : Nat
  role : Nat
  result : Nat
  subject : Nat
  session : Nat
  detail : List Byte
  link : List Byte
  deriving DecidableEq, Repr

/-- One entry of a persistent-settings transaction (R326): address, value, mask. -/
structure Setting where
  addr : Nat
  value : Word
  mask : Word
  deriving DecidableEq, Repr

/-- A settings transaction with its commit entry: whether the commit entry is present, and its tag. -/
structure Txn where
  number : Nat
  entries : List Setting
  committed : Bool
  tag : List Byte
  deriving DecidableEq, Repr

/-- The serial memory (R326, Table 16.2). -/
structure Flash where
  present : Bool
  headerGood : Bool
  image : List Byte
  settings : List Txn
  ring : List AuditRec
  capacity : Nat
  deriving DecidableEq, Repr

/-- Audit state of the island (R340 to R343). -/
structure Audit where
  nextSeq : Nat
  head : List Byte
  acked : Nat
  lost : Nat
  /-- records staged, with the settings to program after each -/
  staged : List (AuditRec × List Setting)
  deriving DecidableEq, Repr

/-- Fuses and settings of the island that no reset changes (R325, R329, R335). -/
structure Fuses where
  rollback : Nat
  unlocks : Nat
  unlocksRecorded : Nat
  batches : Nat
  secState : Nat
  secRoot : List Byte
  deriving DecidableEq, Repr

/-- The always-on record (Table 18.5, R362): last fatal record and its time, and an event that bypassed the log. -/
structure AlwaysOn where
  record : BitVec 128
  time : Nat
  deriving DecidableEq, Repr

/-- Collector state behind its registers (R347, R351, R356). -/
structure FaultSt where
  /-- records that blocks have reported and the collector has not served -/
  reported : List FaultRec
  /-- last logged corrected record by 4096 x source type + instance and kind: time, and whether REPEAT is owed -/
  lastCorrected : Sparse (Option (Nat × Bool))
  traps : List Nat
  inHandler : Bool
  tilesUnderTest : List Nat
  tilesWithdrawn : List Nat
  /-- times of residue records by tile -/
  residues : List (Nat × Nat)
  /-- a CHIP_RESET reaction waits for fallow step 4 -/
  chipResetOwed : Bool
  /-- no Shafort message until reset (R358) -/
  mute : Bool
  /-- fallow step 6 is complete: every block is HELD -/
  held : Bool
  /-- FALLOW_REQ_N is low (R413: a level present at the end of start-up step 2 counts) -/
  requestHeld : Bool
  /-- FAULT_N is latched low, or in a 10 us pulse (R352) -/
  latched : Bool
  pulse : Bool
  /-- every regulator goes off once fallow step 4 is complete (R374) -/
  supplyOff : Bool
  /-- timebase of the last service of the management watchdog (R358) -/
  wdogAt : Nat
  deriving DecidableEq, Repr

/-- A stitch behind its registers (R274, R276). -/
structure StitchSt where
  commandOpen : Bool
  retryOwed : Bool
  outOfService : Bool
  deriving DecidableEq, Repr

/-- A running swath (R390 to R395). -/
structure SwathSt where
  seq : Nat
  /-- the parts copied so far, summed by counter (R391) -/
  cut : Sparse Dword
  /-- markers still to arrive: unit (0 the island, 1 + d the die) and input channel -/
  left : List (Nat × Nat)
  /-- units that have taken their first marker -/
  started : List Nat
  /-- pages that a reset mixed while their copy was in progress (R395) -/
  broken : List Nat
  deriving DecidableEq, Repr

/-- A foreign master that has announced itself: its last data set, and when its last announcements came, latest first (R257). -/
structure PtpForeign where
  data : PtpData
  heard : List Nat
  deriving DecidableEq, Repr

/-- The time offers heard on spine ports and the PTP clock's state (R257, R258). -/
structure TimeSt where
  /-- offers by spine port: distance, root index -/
  offers : Sparse (Option (Nat × Nat))
  delays : Sparse Nat
  /-- last SYNC by port: sender's egress time and our ingress time -/
  syncs : Sparse (Option (Nat × Nat))
  reqTimes : Sparse (Option (Nat × Nat))
  /-- port identity of the master followed -/
  ptpMaster : Option (BitVec 80)
  ptpForeign : List PtpForeign
  /-- last complete PTP SYNC: the master's time and our ingress time -/
  ptpSync : Option (Nat × Nat)
  /-- sequence and ingress time of a two-step SYNC whose FOLLOW_UP is awaited -/
  ptpPending : Option (Nat × Nat)
  ptpDelay : Nat
  /-- sequence and egress time of the DELAY_REQ whose answer is awaited -/
  ptpReq : Option (Nat × Nat)
  ptpReqSeq : Nat
  reqSeq : Nat
  /-- nanoseconds the servo still owes the count (R259) -/
  slewLeft : Int
  /-- count at the last nanosecond of slew -/
  slewAt : Nat
  deriving DecidableEq, Repr

/-- Link-state views heard from other switches: the admitted spine ports of each switch (R41). -/
structure ReachSt where
  views : Sparse (BitVec 24)
  deriving DecidableEq, Repr

/-- Memory integrity behind the registers (R295 to R298). -/
structure MemSt where
  /-- poisoned 32-byte codewords, by memory address / 32 -/
  poison : List Nat
  /-- codewords found corrected, with the pass that found them -/
  corrected : List (Nat × Nat)
  /-- completed scrub passes by memory: stack 0-7, 8 + LPDDR6 group -/
  passes : Sparse Nat
  /-- frames retired beyond a full map, until the next reset -/
  extraRetired : List (Nat × Nat)
  deriving DecidableEq, Repr

/-- One direction of a crossing between two units: the channel served last, and the items each channel has carried, in order (R19). -/
structure CrossSt where
  last : Nat
  carried : Sparse Nat
  deriving DecidableEq, Repr

/-- Host port behind its registers (R302, R323). -/
structure HostSt where
  /-- failed trainings in succession by mode -/
  fails : Sparse Nat
  /-- modes below this one are no longer offered -/
  offered : Nat
  /-- HIF_CFG and HIF_IP4 to HIF_IP6_GW as the last link training took them (R323) -/
  activeCfg : Word
  activeAddrs : List Word
  /-- pages whose LOCK has been written since reset: it is written once (RWL, R400) -/
  lockWritten : List Nat
  deriving DecidableEq, Repr

/-- The firmware update in progress and the running image (R328, R330). -/
structure FwSt where
  staged : Option (List Byte)
  writing : Option (List Byte)
  runningDigest : List Byte
  runningCert : Bool
  discarded : Bool
  jtag : Bool
  deriving DecidableEq, Repr

/-- Something the device has sent that no command of the table drains (log 9). -/
inductive Output where
  | host (m : HostMsg)
  | frame (text : String) (data : List Byte)
  | link (port : Nat) (word : String) (arg : Nat)
  | single (port : Nat) (p : Pkt)
  | pmbus (rail cmd value : Nat)
  | boundary (text : String)
  deriving DecidableEq, Repr

/-- Where the device is between reset and service (R376, R383). -/
inductive Phase where
  | unpowered
  | inReset
  | starting (step : Nat)
  | ready
  | bootRom
  deriving DecidableEq, Repr

/-- The state of the device. -/
structure State where
  /-- the register space, by byte address (R398) -/
  regs : Sparse Word
  /-- live page counters, by the byte address of the counter (R387) -/
  ctrs : Sparse Dword
  /-- parts of the live counters that an input channel feeds: 64 x counter address + channel (R392) -/
  parts : Sparse Dword
  /-- the unit, and its input channel, that the item in hand came by; none for an item that crossed nothing (R392) -/
  hand : Option (Nat × Nat)
  /-- crossing directions, by 16 x sending unit + receiving unit (R19) -/
  crossings : Sparse CrossSt
  /-- swath shadows, by the byte address of the live counter (R389) -/
  shadows : Sparse Dword
  /-- completion and event counters (R156) -/
  evCtrs : Sparse Dword
  /-- LPDDR6, stacked DRAM and scratchpads (14_memories.md) -/
  mem : List Host.Cell
  memSt : MemSt
  time : Nat
  /-- ns since the device left reset, which no step or slew of the count moves: what lengths of time are measured by (log 85) -/
  uptime : Nat
  /-- the draw that the last realignment of the timebase followers took (R16) -/
  align : Option Nat
  phase : Phase
  /-- the LPDDR6 part of start-up step 7 still runs -/
  bistRunning : Bool
  rails : List Nat
  /-- latest rate of each pace monitor (R370) -/
  pace : Sparse (Option Nat)
  /-- divider ramps in progress: node, and whether it is being turned on (R367) -/
  ramps : List (Nat × Bool)
  ports : Sparse PortSt
  /-- lanes in training, by lane number (R266) -/
  lanes : Sparse LaneTrain
  stitches : Sparse StitchSt
  cells : Sparse Cell
  queues : Sparse (List QEntry)
  deliv : Sparse (Option Delivery)
  nextHandle : Nat
  origWait : List OrigWait
  meters : Sparse MeterSt
  gates : Sparse GateSt
  streams : Sparse (Option Stream)
  msgs : List MsgSt
  jobs : Sparse (Option JobSt)
  slots : Sparse (Option SlotSt)
  /-- held packets by slot (R132): ingress port, and the error of the message that the packet met when it was accepted (R70) -/
  heldPkts : Sparse (List (Pkt × Option Nat × Option Nat))
  /-- unfinished posts of PENDING triggers (R149) -/
  pendingPosts : Sparse Nat
  unloadHeld : List Nat
  /-- loads asked for and not decided: subscriber, and ROLE and SESSION of who asked -/
  loads : List (Nat × Nat × Nat)
  seals : List SealRec
  batch : Option Batch
  /-- the batch last signed for each subscriber, until it is released -/
  lastBatch : List Batch
  sessions : Sparse (Option Session)
  /-- second words of counter pairs whose first word a session has read and whose second it has not, by 2^27 x session + address
  (R163, Table 12.8) -/
  latches : Sparse (Option Word)
  nextSession : Nat
  evtSeq : Nat
  transfers : List Transfer
  heldReqs : List Held
  attests : List (Nat × Nat × List Byte)
  flash : Flash
  audit : Audit
  fuses : Fuses
  alwaysOn : AlwaysOn
  faults : FaultSt
  swath : Option SwathSt
  /-- a launch served while fallow, before fallow step 6 (R395) -/
  swathWait : Option Nat
  timeSt : TimeSt
  reach : ReachSt
  hostSt : HostSt
  fw : FwSt
  out : List Output
  freeCtr : Nat
  pending : List Instr
  deriving DecidableEq, Repr

/-- Why the machine stops. -/
inductive Fault where
  /-- Raised by a command that names a byte in no memory of the device (R285, R294, R165): safe, no such access exists. -/
  | memoryHole
  deriving DecidableEq, Repr

/-- Why a command has no meaning. -/
inductive Refusal where
  /-- Raised by the dispatch for a command that is not modelled yet: safe. -/
  | notModelled (mnemonic : String)
  deriving DecidableEq, Repr

/-- The outcome of a command. -/
abbrev Out := Host.Outcome State Fault Refusal

/-- The serial memory as the model delivers it: fitted, header good, nothing programmed, of the smallest permitted size (R326; log 3). -/
def flashBlank : Flash :=
  { present := true, headerGood := true, image := [], settings := [], ring := [], capacity := 442368 }

/-- Audit state before the first record: SEQ 0 and a chain head of 32 zero bytes (R341). -/
def auditInit : Audit :=
  { nextSeq := 0, head := List.replicate 32 0, acked := 0, lost := 0, staged := [] }

/-- Fuses as manufactured: none blown (log 3). -/
def fusesInit : Fuses :=
  { rollback := 0, unlocks := 0, unlocksRecorded := 0, batches := 0, secState := 0, secRoot := [] }

/-- Collector state after a reset (R347). -/
def faultInit : FaultSt :=
  { reported := [], lastCorrected := [], traps := [], inHandler := false, tilesUnderTest := [], tilesWithdrawn := [],
    residues := [], chipResetOwed := false, mute := false, held := false, requestHeld := false,
    latched := false, pulse := false, supplyOff := false, wdogAt := 0 }

/-- Time state after a reset (R257, R258). -/
def timeInit : TimeSt :=
  { offers := [], delays := [], syncs := [], reqTimes := [], ptpMaster := none, ptpForeign := [],
    ptpSync := none, ptpPending := none, ptpDelay := 0, ptpReq := none, ptpReqSeq := 0, reqSeq := 0, slewLeft := 0, slewAt := 0 }

/-- Memory state after a reset (R295 to R298). -/
def memInit : MemSt := { poison := [], corrected := [], passes := [], extraRetired := [] }

/-- Host port state after a reset (R302). -/
def hostInit : HostSt := { fails := [], offered := 0, activeCfg := 0, activeAddrs := [], lockWritten := [] }

/-- Firmware state before start-up (R328). -/
def fwInit : FwSt :=
  { staged := none, writing := none, runningDigest := [], runningCert := false, discarded := false,
    jtag := false }

/-- The device with RESET_N low after VIO has come into range, and nothing started (R376, R377; log 3, log 11). -/
def State.reset : State :=
  { regs := [], ctrs := [], parts := [], hand := none, crossings := [], shadows := [], evCtrs := [], mem := [], memSt := memInit,
    time := 0, uptime := 0, align := none, phase := .inReset, bistRunning := false, rails := [], pace := [], ramps := [], ports := [],
    lanes := [], stitches := [], cells := [], queues := [], deliv := [], nextHandle := 0,
    origWait := [], meters := [], gates := [], streams := [], msgs := [], jobs := [], slots := [], heldPkts := [],
    pendingPosts := [], unloadHeld := [], loads := [], seals := [], batch := none, lastBatch := [], sessions := [], latches := [], nextSession := 1,
    evtSeq := 0, transfers := [], heldReqs := [], attests := [], flash := flashBlank, audit := auditInit, fuses := fusesInit,
    alwaysOn := { record := 0, time := 0 }, faults := faultInit, swath := none, swathWait := none, timeSt := timeInit,
    reach := { views := [] }, hostSt := hostInit, fw := fwInit, out := [], freeCtr := 0, pending := [] }

end Sys2Proof.Machine
end

