-- ==== Sys2Proof/Machine/Ops.lean ====
section
/-! DEFINITION. Named operations that every family shares: register fields, counters, the sparse parts of the state, outgoing
messages, page events (R315), audit records (R340 to R343) and fault reports (R346). -/
namespace Sys2Proof.Machine

open Sys2Proof

/-- The least number from `i` on, among `fuel` numbers, that `p` holds of. -/
def findUp (p : Nat → Bool) : Nat → Nat → Option Nat
  | 0, _ => none
  | fuel + 1, i => if p i then some i else findUp p fuel (i + 1)

/-- `f` applied for each of `n` indices from `i` upwards. -/
def forUp (f : State → Nat → State) : Nat → Nat → State → State
  | 0, _, s => s
  | n + 1, i, s => forUp f n (i + 1) (f s i)

/-! ## Registers and counters -/

/-- The word at a byte address of the register space. -/
def rd (s : State) (a : Nat) : Word := Sparse.get resetWord s.regs a

/-- `s` with the word at `a` holding `w`. -/
def wr (s : State) (a : Nat) (w : Word) : State := { s with regs := Sparse.set resetWord s.regs a w }

/-- Bits [hi:lo] of the word at `a`. -/
def fget (s : State) (a hi lo : Nat) : Nat := bitsOf (rd s a) hi lo

/-- `s` with bits [hi:lo] of the word at `a` holding `v`. -/
def fset (s : State) (a hi lo v : Nat) : State := wr s a (putBits (rd s a) hi lo v)

/-- Bit `b` of the word at `a`. -/
def bit (s : State) (a b : Nat) : Bool := (rd s a).getLsbD b

/-- `s` with bit `b` of the word at `a` set to `v`. -/
def setBit (s : State) (a b : Nat) (v : Bool) : State := fset s a b b (b2n v)

/-- A field, or its default where it holds 0. -/
def fdef (s : State) (a hi lo d : Nat) : Nat := if fget s a hi lo == 0 then d else fget s a hi lo

/-- `s` with every word in [lo, hi) at its reset value. -/
def regsReset (s : State) (lo hi : Nat) : State := { s with regs := Sparse.eraseRange s.regs lo hi }

/-! ## The timebase and its followers (R16) -/

/-- The count that the follower of die `d` holds: the copies stand within 2 ns of one another and of the island's (R16, log 77). -/
def dieTime (s : State) (d : Nat) : Nat :=
  match s.align with
  | some k => s.time + Config.followerSkew k d % 3
  | none => s.time

/-- The island die realigns the followers, at every reset (R16). -/
def realign (s : State) : State := { s with align := some s.freeCtr, freeCtr := s.freeCtr + 1 }

/-! ## Where things are (Table 1.5) -/

/-- The die of a fabric port. The host port's MAC and PCS stand on the island die and its lane i on die i (R15, Table 1.5);
what is said of a die for port 160 is said of die 0 (log 78). -/
def dieOfPort (p : Nat) : Nat := if p < 128 then p / 16 else if p < 152 then (p - 128) % 8 else if p < 160 then p - 152 else 0

/-- The lane groups of a port. -/
def groupsOfPort (p : Nat) : List Nat :=
  if p < 128 then [p]
  else if p < 152 then [128 + 2 * (p - 128), 129 + 2 * (p - 128)]
  else if p < 160 then [176 + 2 * (p - 152), 177 + 2 * (p - 152)]
  else [192]

/-- The port of a lane group. -/
def portOfGroup (g : Nat) : Nat :=
  if g < 128 then g else if g < 176 then 128 + (g - 128) / 2 else if g < 192 then 152 + (g - 176) / 2 else 160

/-- Lanes of a port at full width: host port 160 has one on each of dies 0 to 3 (Table 1.1). -/
def lanesOfPort (p : Nat) : Nat := if p < 128 || p == 160 then 4 else 8

/-- Leaf, spine and pair ports. -/
def isLeaf (p : Nat) : Bool := p < 128
def isSpine (p : Nat) : Bool := 128 ≤ p && p < 152
def isPair (p : Nat) : Bool := 152 ≤ p && p < 160

/-- The unit that keeps the counters of instance `i` of the pages of a type: 0 the island die, 1 + d die d with its base die. The
LPDDR6 channels of group j stand on the base die of stack 2j (R13). Chosen by the model, where the spec names no die: a KSTITCH
page is kept by the die of its + port, n mod 4; the pages of port 160 and the LPDDR6 page of all channels by the island, and lane
group 192 by die 0 (log 78). -/
def unitOf (ty i : Nat) : Nat :=
  match ty with
  | 0x21 | 0x2E => 1 + dieOfPort (portOfGroup i)
  | 0x22 => 1 + i % 4
  | 0x20 | 0x23 | 0x24 | 0x25 => if i == 160 then 0 else 1 + dieOfPort i
  | 0x28 | 0x29 | 0x2C | 0x2F => 1 + i
  | 0x2A => 1 + i / 8
  | 0x2B => 1 + i / 4
  | 0x2D => if i < 32 then 1 + 2 * (i / 8) else 0
  | _ => 0

/-- The unit of a page. -/
def unitOfPage (page : Nat) : Nat :=
  match pageOf page with
  | some (k, a) => unitOf k.ty (k.inst a)
  | none => 0

/-! ## Counters (R387, R392) -/

/-- Counter `i` of the page at `page` (R387). -/
def ctrGet (s : State) (page i : Nat) : Dword := Sparse.get (fun _ => 0) s.ctrs (page + 0x800 + 8 * i)

/-- The parts of the counters with the counter at `a` advanced by `n` for the item in hand: it joins the part of the input
channel by which the page's unit took that item, and the internal part otherwise (R392). -/
def partsAdd (s : State) (page a n : Nat) : Sparse Dword :=
  match s.hand with
  | none => s.parts
  | some (u, c) =>
    if unitOfPage page == u then
      Sparse.set (fun _ => 0) s.parts (64 * a + c) (Sparse.get (fun _ => 0) s.parts (64 * a + c) + BitVec.ofNat 64 n)
    else s.parts

/-- Advance counter `i` of the page at `page` by `n`, modulo 2^64 (R387), in the part that the item in hand feeds (R392). -/
def ctrAdd (s : State) (page i n : Nat) : State :=
  { s with ctrs := Sparse.set (fun _ => 0) s.ctrs (page + 0x800 + 8 * i) (ctrGet s page i + BitVec.ofNat 64 n),
           parts := partsAdd s page (page + 0x800 + 8 * i) n }

/-- Every counter of a page at 0. -/
def ctrsReset (s : State) (page : Nat) : State :=
  { s with ctrs := Sparse.eraseRange s.ctrs (page + 0x800) (page + 0xC00),
           parts := Sparse.eraseRange s.parts (64 * (page + 0x800)) (64 * (page + 0xC00)) }

/-- A field of a register advanced by `n`, saturating at its largest value. -/
def fieldSat (s : State) (a hi lo n : Nat) : State :=
  fset s a hi lo (Nat.min (fget s a hi lo + n) (2 ^ (hi + 1 - lo) - 1))

/-! ## Sparse parts of the state and their empty values -/

/-- A port in reset. -/
def portInit : PortSt :=
  { credits := [], held := [], granted := [], banked := [], bankNext := 0, initial := [], sending := none, txLsn := 0, rxLsn := 0, replay := [],
    rxDiscard := false, replayFails := 0, lastRetry := none, stripingRx := false, stripingTx := false, signal := [], halfReq := false,
    halfTried := false, waitRestart := false, identGot := false, identAcked := false, identMajor := 0, identMinor := 0, identFlags := 0, inner := false, nodeStart := [], queueStart := [],
    vtime := 0, vtimeNode := [], awake := [], bucketAt := 0, bucketFrac := 0, widenedRx := none, widenedTx := none }

/-- A stitch at reset. -/
def stitchInit : StitchSt := { commandOpen := false, retryOwed := false, outOfService := false }

/-- A cell that was never allocated (generation: log 3). -/
def cellInit : Cell :=
  { allocated := false, gen := 0, refs := 0, charge := .floor, acct := none, ingress := none, credits := 0, marked := false, suspect := false,
    withdrawn := false }

def getPort (s : State) (p : Nat) : PortSt := Sparse.get (fun _ => portInit) s.ports p
def setPort (s : State) (p : Nat) (x : PortSt) : State := { s with ports := Sparse.set (fun _ => portInit) s.ports p x }
def modPort (s : State) (p : Nat) (f : PortSt → PortSt) : State := setPort s p (f (getPort s p))

def getStitch (s : State) (n : Nat) : StitchSt := Sparse.get (fun _ => stitchInit) s.stitches n
def setStitch (s : State) (n : Nat) (x : StitchSt) : State :=
  { s with stitches := Sparse.set (fun _ => stitchInit) s.stitches n x }

def getCell (s : State) (c : Nat) : Cell := Sparse.get (fun _ => cellInit) s.cells c
def setCell (s : State) (c : Nat) (x : Cell) : State := { s with cells := Sparse.set (fun _ => cellInit) s.cells c x }

def getQueue (s : State) (q : Nat) : List QEntry := Sparse.get (fun _ => []) s.queues q
def setQueue (s : State) (q : Nat) (x : List QEntry) : State := { s with queues := Sparse.set (fun _ => []) s.queues q x }

def getStream (s : State) (c : Nat) : Option Stream := Sparse.get (fun _ => none) s.streams c
def setStream (s : State) (c : Nat) (x : Option Stream) : State :=
  { s with streams := Sparse.set (fun _ => none) s.streams c x }

def getJob (s : State) (n : Nat) : Option JobSt := Sparse.get (fun _ => none) s.jobs n
def setJob (s : State) (n : Nat) (x : Option JobSt) : State := { s with jobs := Sparse.set (fun _ => none) s.jobs n x }

def getSlot (s : State) (i : Nat) : Option SlotSt := Sparse.get (fun _ => none) s.slots i
def setSlot (s : State) (i : Nat) (x : Option SlotSt) : State := { s with slots := Sparse.set (fun _ => none) s.slots i x }

def getSession (s : State) (i : Nat) : Option Session := Sparse.get (fun _ => none) s.sessions i
def setSession (s : State) (i : Nat) (x : Option Session) : State :=
  { s with sessions := Sparse.set (fun _ => none) s.sessions i x }

def getDeliv (s : State) (h : Nat) : Option Delivery := Sparse.get (fun _ => none) s.deliv h
def setDeliv (s : State) (h : Nat) (x : Option Delivery) : State := { s with deliv := Sparse.set (fun _ => none) s.deliv h x }

def getEvCtr (s : State) (c : Nat) : Dword := Sparse.get (fun _ => 0) s.evCtrs c
def setEvCtr (s : State) (c : Nat) (v : Dword) : State := { s with evCtrs := Sparse.set (fun _ => 0) s.evCtrs c v }

/-- The byte of memory at an address of the model's memory space; memory nothing has written reads 0 (log 4). -/
def memRead (s : State) (a : Nat) : Byte := Sparse.get (fun _ => 0) s.mem a
/-- `s` with one byte of memory written; a write ends the poison of its 32-byte codeword (R297). -/
def memWrite (s : State) (a : Nat) (b : Byte) : State :=
  { s with mem := Sparse.set (fun _ => 0) s.mem a b,
           memSt := { s.memSt with poison := s.memSt.poison.filter fun w => w != a / 32 } }
/-- `n` bytes of memory from `a`. -/
def memBytes (s : State) (a n : Nat) : List Byte := (List.range n).map fun i => memRead s (a + i)
/-- `s` with bytes written from `a` upwards. -/
def memStore : State → Nat → List Byte → State
  | s, _, [] => s
  | s, a, b :: bs => memStore (memWrite s a b) (a + 1) bs

/-- The memory's list is in canonical form: addresses rise strictly and no entry equals what an unlisted address reads as. -/
def Memory.wf (m : List Host.Cell) : Bool := Sparse.wf (fun _ => 0) m

/-- `s` with `n` bytes of memory from `lo` at 0, their poison ended (R297). -/
def memZero (s : State) (lo n : Nat) : State :=
  { s with mem := Sparse.eraseRange s.mem lo (lo + n),
           memSt := { s.memSt with poison := s.memSt.poison.filter fun w => !(decide (lo ≤ 32 * w) && decide (32 * w < lo + n)) } }

/-- `s` with one more output (log 9). -/
def emit (s : State) (o : Output) : State := { s with out := s.out ++ [o] }

/-- The next draw of the free values, and `s` with the draw taken (log 7). -/
def draw (s : State) : Nat × State := (s.freeCtr, { s with freeCtr := s.freeCtr + 1 })

/-- `n` free bytes of draw `k`. -/
def freeBytes (k n : Nat) : List Byte := (List.range n).map fun i => Config.freeByte k i

/-! ## Stitches and service -/

/-- The stitch of a spine port (R23): 4 x axis + k, of port 128 + 4 x direction + k with directions X+, X-, Y+, ... -/
def stitchOfPort (p : Nat) : Nat := 4 * ((p - 128) / 8) + (p - 128) % 4
/-- The + port and the - port of a stitch (R23). -/
def portsOfStitch (n : Nat) : Nat × Nat := (128 + 8 * (n / 4) + n % 4, 132 + 8 * (n / 4) + n % 4)

/-- The device is fallow (R360). -/
def fallow (s : State) : Bool := bit s (pFlt + 0x44) 31

/-- The host link is lost: every enabled mode is offered again (R302). -/
def hostLinkDown (s : State) : State :=
  let s := setBit s (pHostIf + 0x44) 31 false
  { s with hostSt := { s.hostSt with fails := [], offered := 0 } }

/-- The device answers on its ports: not unpowered and not held in reset (R377). -/
def live (s : State) : Bool :=
  match s.phase with
  | .unpowered => false
  | .inReset => false
  | _ => true

/-- Firmware runs: start-up has passed step 10 (R383). -/
def inService (s : State) : Bool :=
  match s.phase with
  | .ready => true
  | .starting k => 10 < k
  | _ => false

/-! ## Quires (R34) -/

/-- The quire table entry of subscriber `n` is valid. -/
def quireValid (s : State) (n : Nat) : Bool := bit s (wQuire n) 31
/-- QUIRE of entry `n`. -/
def quireId (s : State) (n : Nat) : Nat := fget s (wQuire n) 25 16

/-- The subscriber of a quire identifier at this switch. -/
def subOfQuire (s : State) (q : Nat) : Option Nat :=
  findUp (fun n => quireValid s n && quireId s n == q) 256 0

/-- The quires a credential entry assigns (Table 16.6). -/
def credQuires (s : State) (e : Nat) : List Nat :=
  ((List.range 4).map fun j =>
    let a := wCred e + 36 + 4 * j
    (if bit s a 31 then [fget s a 25 16] else []) ++ (if bit s a 15 then [fget s a 9 0] else [])).flatten

/-- A session's operator holds the quire of subscriber `n` (R312). -/
def ownsSub (s : State) (x : Session) (n : Nat) : Bool :=
  quireValid s n && (credQuires s x.cred).contains (quireId s n)

/-- LIVENESS of a subscriber in ns (Table 2.5). -/
def livenessNs (s : State) (n : Nat) : Nat := fdef s (wQuire n + 12) 9 0 50 * 1000000

/-! ## Messages of the device (R305 to R307) -/

/-- Body bytes of one segment under the payload limit in force (R304). -/
def segLimit (s : State) : Nat := if s.hostSt.activeCfg.getLsbD 27 then 8960 - 56 else 1460 - 56

/-- Datagrams of a message of `n` body bytes (R306). -/
def datagrams (s : State) (n : Nat) : Nat := Nat.max 1 (ceilDiv n (segLimit s))

/-- The common queue of port 160 that a message leaves by: that of its class in Table 15.3 (R243, R307). The port takes each message
from it at once, so no message is ever found waiting there (log 100). -/
def hostQueue (ty : Nat) : Nat := 8 * 160 + (if 0x30 ≤ ty && ty ≤ 0x34 then 2 else if 0x40 ≤ ty && ty ≤ 0x42 then 4 else 5)

/-- Send a message on port 160 in session `sid`, unless R358 forbids it. -/
def sendMsg (s : State) (sid ty msgNum flags status : Nat) (body : List Byte) : State :=
  if s.faults.mute then s
  else
    let k := datagrams s body.length
    let seq := match getSession s sid with
      | some x => x.nextSeq
      | none => 0
    let m : HostMsg := { ty := ty, queue := hostQueue ty, session := sid, seq := seq, msgNum := msgNum, flags := flags, status := status, body := body }
    let s := match getSession s sid with
      | some x => setSession s sid (some { x with nextSeq := x.nextSeq + k })
      | none => s
    emit (ctrAdd s pHostIf 1 k) (.host m)

/-- An ERROR with a status of Table 15.7. -/
def sendError (s : State) (sid msgNum status : Nat) : State := sendMsg s sid 0x7F msgNum 0 status []

/-! ## Page events (R314, R315) -/

/-- The bits of a page's EVT_STATUS that a session is told of: not masked, and in a JOB page an operator's own subscribers. -/
def evBits (s : State) (x : Session) (page : Nat) : Word :=
  let v := rd s (page + 0x10) &&& ~~~ rd s (page + 0x14)
  if x.role == 0 && 0x11000 ≤ page && page < 0x19000 then
    let i := (page - 0x11000) / 0x1000
    (List.range 32).foldl (fun w j => if ownsSub s x (32 * i + j) then w else w &&& ~~~ maskOf j j) v
  else v

/-- A session's ranges cover a page. -/
def subscribed (x : Session) (page : Nat) : Bool := x.ranges.any fun r => r.1 ≤ page && page ≤ r.2

/-- Send a page EVENT to session `sid` (R314). -/
def sendPageEvent (s : State) (sid : Nat) (x : Session) (page : Nat) (v : Word) : State :=
  let n := s.evtSeq
  let body := beBytes 4 n ++ [0] ++ beBytes 4 page ++ beBytes 4 v.toNat ++ beBytes 8 s.time
  let x := { x with
    events := x.events ++ [{ evtSeq := n, page := page, bits := v, body := body }],
    lastBits := Sparse.set (fun _ => 0) x.lastBits page v,
    ackedPages := x.ackedPages.filter (· != page) }
  let s := setSession { s with evtSeq := (n + 1) % 2 ^ 32 } sid (some x)
  sendMsg s sid 0x21 0 0 0 body

/-- Tell one session of a page whose status may have changed (R315). -/
def notifySession (s : State) (page : Nat) (sid : Nat) : State :=
  match getSession s sid with
  | none => s
  | some x =>
    if !(x.accepted && subscribed x page) then s
    else
      let v := evBits s x page
      let old := Sparse.get (fun _ => 0) x.lastBits page
      if x.events.any (·.page == page) then
        setSession s sid (some { x with lastBits := Sparse.set (fun _ => 0) x.lastBits page (old &&& v) })
      else if (old == 0 && v != 0) || (x.ackedPages.contains page && v &&& ~~~ old != 0) then sendPageEvent s sid x page v
      else setSession s sid (some { x with lastBits := Sparse.set (fun _ => 0) x.lastBits page v })

/-- Tell every session of a page. -/
def notify (s : State) (page : Nat) : State :=
  (s.sessions.map (·.1)).foldl (fun s sid => notifySession s page sid) s

/-- Raise event bit `b` of a page (R404). -/
def raise (s : State) (page b : Nat) : State := notify (setBit s (page + 0x10) b true) page

/-- CFG_REFUSED for a refused write at `addr`: of the page, or of GLB for a window or a JOB page (R404). -/
def cfgRefused (s : State) (addr : Nat) : State :=
  match pageOf addr with
  | some (k, page) => raise s (if k.ty == 0x12 then pGlb else page) 0
  | none => raise s pGlb 0

/-- The event of subscriber `n` in its JOB page (Table 20.9). -/
def raiseJob (s : State) (n : Nat) : State := raise s (pJob (n / 32)) (n % 32)

/-! ## Audit records (R340 to R343) -/

/-- Oldest record held (Table 16.12). -/
def auditOldest (s : State) : Nat :=
  match s.flash.ring, s.audit.staged with
  | r :: _, _ => r.seq
  | [], r :: _ => r.1.seq
  | [], [] => s.audit.nextSeq

/-- Free slots of the ring: slots that hold no unacknowledged record (log 13). -/
def auditFree (s : State) : Nat := s.flash.capacity - (s.audit.nextSeq - Nat.max s.audit.acked (auditOldest s))

/-- AUDIT_FULL is REFUSE and fewer than 1,024 slots are free (R343). -/
def auditBlocked (s : State) : Bool := bit s (pSec + 0x48) 1 && auditFree s < 1024

/-- DETAIL padded to 32 bytes. -/
def detail32 (d : List Byte) : List Byte := (d ++ List.replicate 32 0).take 32

/-- Bytes 0-55 of a record (Table 16.9). -/
def auditBytes (seq kind time role result subject session : Nat) (detail : List Byte) : List Byte :=
  leBytes 6 seq ++ leBytes 2 kind ++ leBytes 8 time ++ leBytes 1 role ++ leBytes 1 result ++ leBytes 2 subject ++
    leBytes 4 session ++ detail32 detail

/-- Stage one record with the settings it records (R341, R342). -/
def auditOne (s : State) (kind role result subject session : Nat) (detail : List Byte) (sets : List Setting) : State :=
  let a := s.audit
  let h := shake256 (a.head ++ auditBytes a.nextSeq kind s.time role result subject session detail) 32
  let r : AuditRec :=
    { seq := a.nextSeq, kind := kind, time := s.time, role := role, result := result, subject := subject, session := session,
      detail := detail32 detail, link := h.take 8 }
  { s with audit := { a with nextSeq := a.nextSeq + 1, head := h, staged := a.staged ++ [(r, sets)] } }

/-- Stage a record, after the CHECKPOINT that a multiple of 64 calls for (R341). -/
def auditAdd (s : State) (kind role result subject session : Nat) (detail : List Byte) (sets : List Setting) : State :=
  let s := if s.audit.nextSeq % 64 == 0 then auditOne s 2 3 0 0 0 s.audit.head [] else s
  auditOne s kind role result subject session detail sets

/-- A record of the device itself. -/
def auditDevice (s : State) (kind result subject : Nat) (detail : List Byte) : State :=
  auditAdd s kind 3 result subject 0 detail []

/-- ROLE and SESSION of a requester in a record. -/
def whoRole (s : State) (who : Requester) : Nat :=
  match who with
  | .mgmt => 3
  | .session i =>
    match getSession s i with
    | some x => x.role
    | none => 3

def whoSession (who : Requester) : Nat :=
  match who with
  | .mgmt => 0
  | .session i => i

/-! ## The certified configuration (R337, R338) -/

/-- CERT_WHY: bit i set while condition i + 1 of Table 16.7 fails. -/
def certWhy (s : State) : Nat :=
  b2n (s.fuses.secState != 1) + 2 * b2n (s.fuses.unlocks != s.fuses.unlocksRecorded) + 4 * b2n (bit s (pRst + 0x44) 9) +
    8 * b2n (!s.fw.runningCert) + 16 * b2n (!bit s (pSec + 0x48) 1) + 32 * b2n (s.audit.lost != 0) + 64 * b2n s.fw.discarded

/-- Bring SEC_STATUS up to date, with a CERT_EXIT record when CERTIFIED falls (R337). -/
def refreshCert (s : State) : State :=
  let why := certWhy s
  let was := bit s (pSec + 0x44) 31
  let now := why == 0
  let s := wr s (pSec + 0x44)
    (BitVec.ofNat 32 (b2n now * 2 ^ 31 + b2n (now && bit s (pSec + 0x48) 0) * 2 ^ 30 + why))
  if was && !now then auditDevice s 0x0E 0 0 (leBytes 1 why) else s

/-- Quiet mode is in force (R338). -/
def quiet (s : State) : Bool := bit s (pSec + 0x44) 30

/-! ## Fault reports (R345 to R347) -/

/-- A fault record; ADDRESS and DETAIL are cut to their widths. -/
def mkFault (ty inst kind cls addr sub detail : Nat) : FaultRec :=
  { sourceType := BitVec.ofNat 8 ty, sourceInst := BitVec.ofNat 12 inst, kind := BitVec.ofNat 8 kind, cls := BitVec.ofNat 2 cls,
    overflow := false, repeated := false, address := BitVec.ofNat 48 addr, subscriber := BitVec.ofNat 8 sub,
    detail := BitVec.ofNat 24 detail }

/-- The 128 bits of a record (Table 17.1). -/
def faultBits (r : FaultRec) : BitVec 128 :=
  BitVec.ofNat 128 (r.sourceType.toNat * 2 ^ 120 + r.sourceInst.toNat * 2 ^ 108 + r.kind.toNat * 2 ^ 100 + r.cls.toNat * 2 ^ 98 +
    b2n r.overflow * 2 ^ 97 + b2n r.repeated * 2 ^ 96 + r.address.toNat * 2 ^ 48 + r.subscriber.toNat * 2 ^ 40 +
    r.detail.toNat * 2 ^ 16)

/-- The page of a fault source: a tile's cluster, no page for crossings and the collector (R346). -/
def pageOfSource (ty inst : Nat) : Option Nat :=
  if ty == 0xF1 then some (pCluster (inst / 16))
  else if ty == 0xF0 || ty == 0xF2 then none
  else some (pageBase ty inst)

/-- `xs` with `x` in it once. -/
def addNat (xs : List Nat) (x : Nat) : List Nat := if xs.contains x then xs else xs ++ [x]

end Sys2Proof.Machine
end

