-- ==== Sys2Proof/Machine/Crossings.lean ====
section
/-! DEFINITION. The crossings between the dies and their channels (R17 to R20), the markers of a swath on them (R391 to R393), and
what goes by them: packets, contributions, stage data and fault records. The units are the island die and the eight compute dies
with their base dies; every channel between two units is one of the four channels of one crossing direction (log 34). -/
namespace Sys2Proof.Machine

open Sys2Proof

/-! ## Units, crossings and channels -/

/-- Units a unit receives from, in the order of its input channels: for a die the island, the two row neighbours and the column
(R17, Table 1.4). -/
def sourcesOf (u : Nat) : List Nat :=
  if u == 0 then (List.range 8).map (1 + ·)
  else
    let d := u - 1
    let row := d / 4 * 4
    [0, 1 + row + (d + 1) % 4, 1 + row + (d + 3) % 4, 1 + (d + 4) % 8]

/-- The unit at the far end of an input channel: four channels for each crossing direction. -/
def channelSource (u c : Nat) : Nat := (sourcesOf u).getD (c / 4) 0

/-- Input channels of the nine units. -/
def allChannels : List (Nat × Nat) :=
  ((List.range 9).map fun u => (List.range (4 * (sourcesOf u).length)).map fun c => (u, c)).flatten

/-- The four channels of a crossing direction (R19). -/
def chPacket : Nat := 0
def chReduction : Nat := 1
def chTile : Nat := 2
def chControl : Nat := 3

/-- The input channel of unit `v` that channel `ch` of the crossing from unit `u` is. -/
def inChannel (u v ch : Nat) : Nat := 4 * (sourcesOf v).idxOf u + ch

/-- The dies that traffic from die `a` to die `b` enters, in order (R18): along the row ring by the shorter way, in increasing
column order where both ways have length 2, and then by one column crossing. -/
def crossPath (a b : Nat) : List Nat :=
  let up := (b % 4 + 4 - a % 4) % 4
  (if up ≤ 2 then (List.range up).map fun i => a / 4 * 4 + (a % 4 + i + 1) % 4 else [a / 4 * 4 + (a % 4 + 3) % 4]) ++
    (if a / 4 == b / 4 then [] else [b])

/-- The number of the crossing between two neighbouring dies (Table 17.1a, type 0xF0). -/
def crossingOf (a b : Nat) : Nat :=
  if a / 4 == b / 4 then (if b % 4 == (a % 4 + 1) % 4 then a else b) else 8 + a % 4

/-- The crossings of a path (R18). -/
def crossingsOf (a b : Nat) : List Nat := ((a :: crossPath a b).zip (crossPath a b)).map fun e => crossingOf e.1 e.2

/-- A mutual-exclusion arbiter's round-robin choice among the channels that request a crossing direction: the first after the one
served last (R19). -/
def arbiter (last : Nat) (requests : List Nat) : Option Nat :=
  ((List.range 4).map fun i => (last + 1 + i) % 4).find? fun c => requests.contains c

def getCross (s : State) (u v : Nat) : CrossSt := Sparse.get (fun _ => { last := 3, carried := [] }) s.crossings (16 * u + v)

/-- Channel `ch` of the crossing direction from `u` to `v` carries one more item: the arbiter serves the channels that request it,
here `ch` alone, since a command's items cross one after the other (R19, log 79). -/
def serveCross (s : State) (u v ch : Nat) : State :=
  let x := getCross s u v
  match arbiter x.last [ch] with
  | some c =>
    { s with crossings := Sparse.set (fun _ => { last := 3, carried := [] }) s.crossings (16 * u + v)
               { last := c, carried := Sparse.set (fun _ => 0) x.carried c (Sparse.get (fun _ => 0) x.carried c + 1) } }
  | none => s

/-! ## The pages and counters of a unit -/

/-- Every page but the JOB pages, which keep no SWATH_SEQ (R406). -/
def swathPages : List (Nat × Nat) :=
  ((pageKinds.filter fun k => k.ty != 0x12).map fun k => (List.range k.count).map fun i => (unitOf k.ty i, k.base + 0x1000 * i)).flatten

/-- The pages of a unit. -/
def pagesOf (u : Nat) : List Nat := (swathPages.filter fun e => e.1 == u).map (·.2)

/-- A counter's copy so far with `n` more. -/
def cutAdd (m : Sparse Dword) (a : Nat) (n : Dword) : Sparse Dword := Sparse.set (fun _ => 0) m a (Sparse.get (fun _ => 0) m a + n)

/-- The parts of the counter at `a` that input channels feed, summed. -/
def channelParts (s : State) (a : Nat) : Dword := ((Sparse.range s.parts (64 * a) (64 * a + 64)).map (·.2)).foldl (· + ·) 0

/-- The copy of a unit's internal parts, and of those of its output channels, on which it sends its markers in the same step
(R391, R392; log 34). -/
def copyInternal (s : State) (m : Sparse Dword) (u : Nat) : Sparse Dword :=
  (pagesOf u).foldl (fun m a =>
    (Sparse.range s.ctrs (a + 0x800) (a + 0xC00)).foldl (fun m e => cutAdd m e.1 (e.2 - channelParts s e.1)) m) m

/-- The copy of a unit's parts of input channel `c`, when the marker arrives on it. -/
def copyChannel (s : State) (m : Sparse Dword) (u c : Nat) : Sparse Dword :=
  (pagesOf u).foldl (fun m a =>
    (Sparse.range s.parts (64 * (a + 0x800)) (64 * (a + 0xC00))).foldl (fun m e =>
      if e.1 % 64 == c then cutAdd m (e.1 / 64) e.2 else m) m) m

/-! ## Completion (R391, R394) -/

/-- A unit writes its shadows, SEQ and BROKEN (R391). -/
def completeUnit (s : State) (x : SwathSt) (u : Nat) : State :=
  (pagesOf u).foldl (fun s a =>
    let copied := Sparse.range x.cut (a + 0x800) (a + 0xC00)
    let s := { s with shadows := copied.foldl (fun m e => Sparse.set (fun _ => 0) m e.1 e.2)
                        (Sparse.eraseRange s.shadows (a + 0x800) (a + 0xC00)) }
    wr s (a + 0x24) (BitVec.ofNat 32 (b2n (x.broken.contains a) * 2147483648 + x.seq))) s

/-- SWATH_STATUS.STATE, with the timebase in SWATH_END and the event. -/
def endSwath (s : State) (st ev : Nat) : State :=
  let s := fset s (pSwath + 0x44) 11 0 st
  let s := wr (wr s (pSwath + 0x50) (BitVec.ofNat 32 (s.time / 2 ^ 32))) (pSwath + 0x54) (BitVec.ofNat 32 s.time)
  raise { s with swath := none } pSwath ev

/-- PAGES_LEFT: units not yet complete. -/
def unitsLeft (x : SwathSt) : Nat := ((List.range 9).filter fun u => x.left.any fun c => c.1 == u).length

/-- A unit takes the marker of an input channel (R391): at its first it copies its internal parts and sends its own markers; then
it copies the parts of the channel; after its last it is complete. -/
def takeMarker (s : State) (x : SwathSt) (u c : Nat) : State :=
  let cut := copyChannel s (if x.started.contains u then x.cut else copyInternal s x.cut u) u c
  let x := { x with cut := cut, left := x.left.filter (· != (u, c)), started := addNat x.started u }
  let s := if x.left.any fun e => e.1 == u then s else completeUnit s x u
  let s := fset { s with swath := some x } (pSwath + 0x44) 11 3 (unitsLeft x)
  if x.left.isEmpty then endSwath s 2 8 else s

/-! ## Crossing (R18, R19, R393) -/

/-- An item goes on channel `ch` from unit `u` to its neighbour `v`: a marker sent before it on the channel arrives before it. -/
def hop (s : State) (u v ch : Nat) : State :=
  let c := inChannel u v ch
  let s := match s.swath with
    | some x => if x.started.contains u && x.left.contains (v, c) then takeMarker s x v c else s
    | none => s
  { serveCross s u v ch with hand := some (v, c) }

/-- An item goes from die `a` to die `b` along the path of R18; it is in the hand of die `b` then, by the channel of its last
crossing. -/
def cross (s : State) (a b ch : Nat) : State :=
  ((a :: crossPath a b).zip (crossPath a b)).foldl (fun s e => hop s (1 + e.1) (1 + e.2) ch) { s with hand := none }

/-- The item in hand has been dealt with. -/
def atRest (s : State) : State := { s with hand := none }

/-! ## Fault records (R346, R354) -/

/-- The unit of a fault source: a tile's or a page's die, the receiving unit of a crossing taken as its first die (log 78). -/
def unitOfSource (ty inst : Nat) : Nat :=
  if ty == 0xF1 then 1 + inst / 64
  else if ty == 0xF0 then (if inst < 12 then 1 + inst % 8 else if inst < 20 then inst - 11 else 0)
  else if ty == 0xF2 then 0
  else unitOf ty inst

/-- A record joins those the collector has not served yet, in order (R354). -/
def queueReport (s : State) (r : FaultRec) : State :=
  { s with faults := { s.faults with reported := s.faults.reported ++ [r] } }

/-- A block sends a record to the collector, which has not served it yet (R354); FLT_ROUTE shows its kind. -/
def report (s : State) (r : FaultRec) : State :=
  let s := match pageOfSource r.sourceType.toNat r.sourceInst.toNat with
    | some p => fset s (p + 0x18) 7 0 r.kind.toNat
    | none => s
  queueReport s r

/-- The collector takes a record from the control channel of its source's die (R354). -/
def takeRecord (s : State) (r : FaultRec) : State :=
  let u := unitOfSource r.sourceType.toNat r.sourceInst.toNat
  if u == 0 then atRest s else hop (atRest s) u 0 chControl

end Sys2Proof.Machine
end

