-- ==== Sys2Proof/Machine/Certs.lean ====
section
/-! DEFINITION. Certificate chains (R331) and the signatures that rest on them (R324). The DER and SLH-DSA standards are
opaque (log 6). -/
namespace Sys2Proof.Machine

open Sys2Proof

/-- Key digest: the first 32 bytes of SHAKE256 over a public key. -/
def keyDigest (key : List Byte) : List Byte := shake256 key 32

/-- A validity period is checked only while TIME LOCKED is 1 (R331). -/
def validNow (s : State) (cert : List Byte) : Bool :=
  !bit s (pTime + 0x44) 31 || (decide ((Config.certValid cert).1 ≤ s.time) && decide (s.time ≤ (Config.certValid cert).2))

/-- Each certificate is signed by the one before it. -/
def linked : List (List Byte) → Bool
  | [] => true
  | [_] => true
  | a :: b :: cs => Config.certSignedBy b (Config.certKey a) && linked (b :: cs)

/-- The leaf of a chain that starts at the root with key digest `root` and has at most `most` certificates (R327, R331). -/
def chainLeaf (s : State) (root : List Byte) (most : Nat) (chain : List (List Byte)) : Option (List Byte) :=
  match chain with
  | [] => none
  | r :: _ =>
    if chain.length ≤ most && chain.all (fun c => decide (c.length ≤ 65536) && validNow s c) && keyDigest (Config.certKey r) == root &&
        Config.certSignedBy r (Config.certKey r) && linked chain then chain.getLast?
    else none

/-- The leaf key of a chain of a root, at most one intermediate and a leaf with a role (R331). -/
def roleKey (s : State) (root : List Byte) (role : Nat) (chain : List (List Byte)) : Option (List Byte) :=
  match chainLeaf s root 3 chain with
  | some leaf => if 2 ≤ chain.length && Config.certRole leaf == some (BitVec.ofNat 8 role) then some (Config.certKey leaf) else none
  | none => none

/-- Length of the DER element at the front of a byte string. -/
def derLen (bs : List Byte) : Nat :=
  let l := (bs.getD 1 0).toNat
  if l < 128 then 2 + l else 2 + (l - 128) + beAt bs 2 (l - 128)

/-- The DER certificates that stand one after the other in a byte string (log 26). -/
def derSplit : Nat → List Byte → List (List Byte)
  | 0, _ => []
  | fuel + 1, bs => if bs.isEmpty then [] else bs.take (Nat.max 2 (derLen bs)) :: derSplit fuel (bs.drop (Nat.max 2 (derLen bs)))

/-- A section of a chain followed by a 29,792-byte SLH-DSA-SHAKE-256s signature: chain and signature. -/
def chainAndSig (bs : List Byte) : List (List Byte) × List Byte :=
  (derSplit bs.length (bs.take (bs.length - 29792)), bs.drop (bs.length - 29792))

end Sys2Proof.Machine
end

