-- ==== Sys2Proof/Machine/Flags.lean ====
section
/-! DEFINITION. The four-bit flag field (R89, Table 4.8) and round-to-nearest-even of an exact quotient (R84). -/
namespace Sys2Proof.Machine

/-- Bits of the flag field (Table 4.8). -/
def fInvalid : Nat := 8
def fOverflow : Nat := 4
def fUnderflow : Nat := 2
def fInexact : Nat := 1

/-- The OR of two flag fields (R89). -/
def orFlags (a b : Nat) : Nat := a ||| b

/-- num / den rounded to an integer, ties to even, and whether any fraction was dropped (R84). -/
def rneDiv (num den : Nat) : Nat × Bool :=
  let k := num / den
  let r := num % den
  let up := decide (den < 2 * r) || (decide (2 * r = den) && k % 2 == 1)
  (if up then k + 1 else k, decide (r ≠ 0))

/-- (num / den) x 2^-u rounded to an integer: a whole number of units 2^u (R113, rne_shift). -/
def rneScaled (num den : Nat) (u : Int) : Nat × Bool :=
  if 0 ≤ u then rneDiv num (den * 2 ^ u.toNat) else rneDiv (num * 2 ^ (-u).toNat) den

/-- The exponent of the leading bit of num / den, both positive. -/
def leadExp (num den : Nat) : Int :=
  let h : Int := (Nat.log2 num : Int) - (Nat.log2 den : Int)
  let ge := if 0 ≤ h then decide (den * 2 ^ h.toNat ≤ num) else decide (den ≤ num * 2 ^ (-h).toNat)
  if ge then h else h - 1

/-- k x 2^u exceeds m x 2^v. -/
def scaledGt (k : Nat) (u : Int) (m : Nat) (v : Int) : Bool :=
  if v ≤ u then decide (m < k * 2 ^ (u - v).toNat) else decide (m * 2 ^ (v - u).toNat < k)

end Sys2Proof.Machine
end

