-- ==== Sys2Proof/Machine/Numbers.lean ====
section
/-! DEFINITION. The tensor number formats (04_number_formats.md): encodings, exact values in units of 2^-149, rounding into
every target, minimum and maximum, requantisation, and the blocked layout. -/
namespace Sys2Proof.Machine

open Sys2Proof

/-- A floating-point format (Tables 4.3, 4.4): field widths, bias, largest finite value maxSig x 2^maxExp, whether it has
infinities, and the canonical NaN. -/
structure FloatFmt where
  w : Nat
  t : Nat
  bias : Nat
  maxSig : Nat
  maxExp : Int
  hasInf : Bool
  nan : Nat
  deriving DecidableEq, Repr

/-- The float formats by code (Tables 4.1, 4.3, 4.4). -/
def floatFmt (code : Nat) : Option FloatFmt :=
  match code with
  | 1 => some ⟨8, 23, 127, 2 ^ 24 - 1, 104, true, 0x7FC00000⟩
  | 2 => some ⟨8, 7, 127, 255, 120, true, 0x7FC0⟩
  | 3 => some ⟨5, 10, 15, 2047, 5, true, 0x7E00⟩
  | 4 => some ⟨4, 3, 7, 14, 5, false, 0x7F⟩
  | 5 => some ⟨5, 2, 15, 7, 13, true, 0x7E⟩
  | _ => none

/-- Bits of an element (Table 4.1); FRICK is counted by its folded form (R105). -/
def fmtBits (code : Nat) : Nat :=
  match code with
  | 1 => 32
  | 2 => 16
  | 3 => 16
  | 6 => 32
  | 9 => 4
  | 10 => 4
  | 12 => 160
  | _ => 8

/-- The range of an integer format (Table 4.2). -/
def intRange (code : Nat) : Option (Int × Int) :=
  match code with
  | 6 => some (-2147483648, 2147483647)
  | 7 => some (-128, 127)
  | 8 => some (0, 255)
  | 9 => some (-8, 7)
  | 10 => some (0, 15)
  | 11 => some (-128, 127)
  | _ => none

/-- A float format by code. -/
def isFloat (code : Nat) : Bool := (floatFmt code).isSome

/-- An element's value: a NaN (signalling or not), an infinity, or a finite value `v` x 2^-149 with its sign bit. -/
inductive Val where
  | nan (signalling : Bool)
  | inf (neg : Bool)
  | fin (neg : Bool) (v : Int)
  deriving DecidableEq, Repr

/-- The value a float encoding stands for (R80, R81, Table 5.4). -/
def floatVal (f : FloatFmt) (bits : Nat) : Val :=
  let s := bits / 2 ^ (f.w + f.t) % 2 == 1
  let e := bits / 2 ^ f.t % 2 ^ f.w
  let m := bits % 2 ^ f.t
  let special := e == 2 ^ f.w - 1
  if special && f.hasInf && m == 0 then .inf s
  else if special && f.hasInf then .nan (m / 2 ^ (f.t - 1) == 0)
  else if special && !f.hasInf && m == 2 ^ f.t - 1 then .nan false
  else
    let sig := if e == 0 then m else 2 ^ f.t + m
    let p := (if e == 0 then 1 else e) + 149 - f.bias - f.t
    let v : Int := sig * 2 ^ p
    .fin s (if s then -v else v)

/-- The integer an encoding stands for (R79). -/
def intVal (code bits : Nat) : Int :=
  let n := fmtBits code
  let b := bits % 2 ^ n
  if (code == 8 || code == 10) || b < 2 ^ (n - 1) then (b : Int) else (b : Int) - 2 ^ n

/-- The value of an element of format `code`. -/
def elemVal (code bits : Nat) : Val :=
  match floatFmt code with
  | some f => floatVal f bits
  | none => .fin (decide (intVal code bits < 0)) (intVal code bits * 2 ^ 149)

/-- The fields of a float encoding put together (enc of R113). -/
def encFloat (f : FloatFmt) (s : Bool) (be mf : Nat) : Nat := b2n s * 2 ^ (f.w + f.t) + be * 2 ^ f.t + mf

/-- An infinite result: E4M3 follows its overflow mode (R87); 0 is SATURATE, 1 is NAN. -/
def encInf (f : FloatFmt) (s : Bool) (e4mode : Nat) : Nat × Nat :=
  if f.hasInf then (encFloat f s (2 ^ f.w - 1) 0, 0)
  else if e4mode == 0 then (encFloat f s (2 ^ f.w - 1) (2 ^ f.t - 2), fOverflow + fInexact)
  else (f.nan, fInvalid)

/-- An overflowing finite result (R85, R87). -/
def encOverflow (f : FloatFmt) (s : Bool) (e4mode : Nat) : Nat × Nat :=
  if f.hasInf then (encFloat f s (2 ^ f.w - 1) 0, fOverflow + fInexact)
  else if e4mode == 0 then (encFloat f s (2 ^ f.w - 1) (2 ^ f.t - 2), fOverflow + fInexact)
  else (f.nan, fOverflow + fInexact)

/-- The magnitude num / den with sign `s`, rounded once into a float format: bits and flags (R84 to R87, R113). A zero
magnitude gives the zero of sign `s`. -/
def roundFloat (f : FloatFmt) (e4mode : Nat) (s : Bool) (num den : Nat) : Nat × Nat :=
  if num == 0 then (encFloat f s 0 0, 0)
  else
    let p := f.t + 1
    let emin : Int := 1 - (f.bias : Int)
    let e := leadExp num den
    let ku := (rneScaled num den (e - f.t)).1
    let eu := if ku == 2 ^ p then e + 1 else e
    let tiny := decide (eu < emin)
    let q := (if e < emin then emin else e) - f.t
    let r := rneScaled num den q
    if scaledGt r.1 q f.maxSig f.maxExp then encOverflow f s e4mode
    else
      let k := if r.1 == 2 ^ p then r.1 / 2 else r.1
      let q := if r.1 == 2 ^ p then q + 1 else q
      let fl := (if r.2 then fInexact else 0) + (if tiny && r.2 then fUnderflow else 0)
      if 2 ^ f.t ≤ k then (encFloat f s (q + f.t + f.bias).toNat (k - 2 ^ f.t), fl) else (encFloat f s 0 k, fl)

/-- An integer encoded in an integer format. -/
def encInt (code : Nat) (n : Int) : Nat := (n % (2 ^ fmtBits code : Int)).toNat

/-- An exact integer brought into an integer format's range (R79, R88). -/
def satInt (code : Nat) (n : Int) (dropped : Bool) : Nat × Nat :=
  match intRange code with
  | none => (0, 0)
  | some (lo, hi) =>
    if hi < n then (encInt code hi, fOverflow + fInexact)
    else if n < lo then (encInt code lo, fOverflow + fInexact)
    else (encInt code n, if dropped then fInexact else 0)

/-- A signed quotient rounded to an integer (R84). -/
def rneSigned (num : Int) (den : Nat) : Int × Bool :=
  let r := rneDiv num.natAbs den
  (if num < 0 then -(r.1 : Int) else (r.1 : Int), r.2)

/-- The range limit of an infinity's sign, with INVALID (R88). -/
def infToInt (code : Nat) (neg : Bool) : Nat × Nat :=
  match intRange code with
  | none => (0, 0)
  | some (lo, hi) => (encInt code (if neg then lo else hi), fInvalid)

/-- A value rounded into a target format: bits and flags (R84 to R88). -/
def roundVal (code e4mode : Nat) (v : Val) : Nat × Nat :=
  match floatFmt code with
  | some f =>
    (match v with
     | .nan sg => (f.nan, if sg then fInvalid else 0)
     | .inf neg => encInf f neg e4mode
     | .fin neg x => roundFloat f e4mode neg x.natAbs (2 ^ 149))
  | none =>
    (match v with
     | .nan _ => (0, fInvalid)
     | .inf neg => infToInt code neg
     | .fin _ x => satInt code (rneSigned x (2 ^ 149)).1 (rneSigned x (2 ^ 149)).2)

/-- CONVERT of one element (R82, R88). -/
def convertElem (src dst e4mode bits : Nat) : Nat × Nat := roundVal dst e4mode (elemVal src bits)

/-! ## Minimum and maximum (R92) -/

/-- An encoding is a NaN of a float format. -/
def isNanBits (code bits : Nat) : Bool :=
  match elemVal code bits with
  | .nan _ => true
  | _ => false

/-- An encoding is a signalling NaN. -/
def isSnanBits (code bits : Nat) : Bool :=
  match elemVal code bits with
  | .nan sg => sg
  | _ => false

/-- `a` comes before `b` in the order of R92: by value, -0 below +0, infinities at the ends. -/
def valLt (a b : Val) : Bool :=
  match a, b with
  | .inf n, .inf m => n && !m
  | .inf n, _ => n
  | _, .inf m => !m
  | .fin n x, .fin m y => decide (x < y) || (decide (x = y) && n && !m)
  | _, _ => false

/-- Minimum (`mx` false) or maximum of two encodings (R92): the operand copied exactly, or the canonical NaN. -/
def minMax (code : Nat) (mx : Bool) (a b : Nat) : Nat :=
  if isNanBits code a || isNanBits code b then
    (match floatFmt code with
     | some f => f.nan
     | none => 0)
  else if mx then (if valLt (elemVal code a) (elemVal code b) then b else a)
  else if valLt (elemVal code b) (elemVal code a) then b
  else a

/-! ## Requantisation (R93, R94) -/

/-- An FP32 scale a channel may use: positive and normal (R93). -/
def scaleOk (bits : Nat) : Bool :=
  match elemVal 1 bits with
  | .fin neg v => !neg && decide ((2 ^ 23 : Int) ≤ v)
  | _ => false

/-- QUANT of an exact value by an FP32 scale (R93): the INT8 byte and flags. -/
def quantVal (v : Val) (scale : Nat) : Nat × Nat :=
  if !scaleOk scale then (0, fInvalid)
  else
    match v, elemVal 1 scale with
    | .nan _, _ => (0, fInvalid)
    | .inf neg, _ => infToInt 11 neg
    | .fin _ x, .fin _ sc => satInt 11 (rneSigned x sc.natAbs).1 (rneSigned x sc.natAbs).2
    | _, _ => (0, fInvalid)

/-- DEQUANT of an INT8 byte by an FP32 scale into a float format (R94). -/
def dequantElem (dst e4mode byte scale : Nat) : Nat × Nat :=
  match floatFmt dst, elemVal 1 scale with
  | some f, .fin _ sc =>
    if scaleOk scale then
      let q := intVal 11 byte
      roundFloat f e4mode (decide (q < 0)) (q * sc).natAbs (2 ^ 149)
    else (f.nan, fInvalid)
  | some f, _ => (f.nan, fInvalid)
  | none, _ => (0, 0)

/-! ## Storage (R77, R78, R95) -/

/-- Element `i` of a flat vector in logical order (R77, R78). -/
def elemAt (code : Nat) (bs : List Byte) (i : Nat) : Nat :=
  match fmtBits code with
  | 4 => ((bs.getD (i / 2) 0).toNat / (if i % 2 == 1 then 16 else 1)) % 16
  | n => leAt bs (n / 8 * i) (n / 8)

/-- `n` elements of a flat vector. -/
def elems (code : Nat) (bs : List Byte) (n : Nat) : List Nat := (List.range n).map fun i => elemAt code bs i

/-- Nibbles packed two to a byte, the last padded with 0 (R78). -/
def packNibbles : List Nat → List Byte
  | [] => []
  | [a] => [BitVec.ofNat 8 (a % 16)]
  | a :: b :: rest => BitVec.ofNat 8 (a % 16 + 16 * (b % 16)) :: packNibbles rest

/-- The bytes of a flat vector (R77, R78). -/
def packElems (code : Nat) (es : List Nat) : List Byte :=
  match fmtBits code with
  | 4 => packNibbles es
  | n => (es.map fun e => leBytes (n / 8) e).flatten

/-- Bytes of `n` elements in logical order. -/
def vecBytes (code n : Nat) : Nat := ceilDiv (n * fmtBits code) 8

/-- Rows of a block (R95). -/
def blockRows (code : Nat) : Nat := if fmtBits code == 4 then 64 else 32

/-- A number padded up to a multiple. -/
def padUp (n m : Nat) : Nat := ceilDiv n m * m

/-- elem_index of R95. -/
def elemIndex (r c np rb : Nat) : Nat := (r / rb * (np / 32) + c / 32) * (rb * 32) + (r % rb) * 32 + c % 32

/-- Bytes of a blocked tensor (R95). -/
def tensorBytes (code rows cols : Nat) : Nat := padUp rows (blockRows code) * padUp cols 32 * fmtBits code / 8

/-- Byte of the blocked tensor at which byte `b` of the logical order lies, for formats of whole bytes (R95, R96). -/
def blockedByte (code cols b : Nat) : Nat :=
  let sz := fmtBits code / 8
  let i := b / sz
  elemIndex (i / cols) (i % cols) (padUp cols 32) (blockRows code) * sz + b % sz

/-- The bytes of a tensor in logical order, from its blocked bytes (R96). -/
def unblock (code rows cols : Nat) (bs : List Byte) : List Byte :=
  packElems code ((List.range (rows * cols)).map fun i =>
    elemAt code bs (elemIndex (i / cols) (i % cols) (padUp cols 32) (blockRows code)))

/-- Row and column of the blocked element with index `j` (the inverse of elem_index). -/
def blockedPos (j np rb : Nat) : Nat × Nat :=
  let blk := j / (rb * 32)
  let w := j % (rb * 32)
  (blk / (np / 32) * rb + w / 32, blk % (np / 32) * 32 + w % 32)

/-- The blocked bytes of a tensor given in logical order; padding elements are 0 (R95, R96). -/
def block (code rows cols : Nat) (bs : List Byte) : List Byte :=
  let np := padUp cols 32
  packElems code ((List.range (padUp rows (blockRows code) * np)).map fun j =>
    let rc := blockedPos j np (blockRows code)
    if rc.1 < rows && rc.2 < cols then elemAt code bs (rc.1 * cols + rc.2) else 0)

end Sys2Proof.Machine
end

