-- ==== Sys2Proof/Machine/Rick.lean ====
section
/-! DEFINITION. The rick (05_the_rick.md): addition and merging, the folded and the escaped form, and final rounding. -/
namespace Sys2Proof.Machine

open Sys2Proof

/-- An empty rick (R101). -/
def rickEmpty : Rick := { v := 0, nan := false, pinf := false, ninf := false, negz := true, count := 0 }

/-- One addend as a rick (Table 5.3). -/
def rickOfVal (a : Val) : Rick :=
  match a with
  | .nan sg => { v := 0, nan := true, pinf := sg, ninf := sg, negz := false, count := 1 }
  | .inf neg => { v := 0, nan := false, pinf := !neg, ninf := neg, negz := false, count := 1 }
  | .fin neg x => { v := BitVec.ofInt 320 x, nan := false, pinf := false, ninf := false, negz := neg && decide (x = 0), count := 1 }

/-- Any of NAN, PINF and NINF is set. -/
def Rick.special (r : Rick) : Bool := r.nan || r.pinf || r.ninf

/-- The merge of two ricks (Table 5.2, R103): while a special flag is set V is 0. -/
def rickMerge (a b : Rick) : Rick :=
  let sp := a.special || b.special
  { v := if sp then 0 else a.v + b.v, nan := a.nan || b.nan, pinf := a.pinf || b.pinf, ninf := a.ninf || b.ninf,
    negz := a.negz && b.negz, count := a.count + b.count }

/-- One element added to a rick (R102); an integer rick's NEGZ stays 0 once it holds an addend (R103). -/
def rickAdd (r : Rick) (code bits : Nat) : Rick := rickMerge r (rickOfVal (elemVal code bits))

/-- A list of elements added. -/
def rickSum (r : Rick) (code : Nat) (es : List Nat) : Rick := es.foldl (fun r e => rickAdd r code e) r

/-- The sign-extension invariant: bits [319:308] are all equal (R98). -/
def signInvariant (v : BitVec 320) : Bool :=
  let top := v.toNat / 2 ^ 308
  top == 0 || top == 2 ^ 12 - 1

/-- The magnitude with the sign removed: the bits at which V differs from its sign (R106). -/
def signDiff (v : BitVec 320) : Nat := if v.msb then 2 ^ 320 - 1 - v.toNat else v.toNat

/-- POS of R106. -/
def foldPos (v : BitVec 320) : Nat := if v = 0 then 0 else Nat.min (trailingZeros 320 v.toNat) 176

/-- The rick folds (R106 step 4). -/
def folds (v : BitVec 320) : Bool :=
  let d := signDiff v
  v == 0 || d == 0 || decide (Nat.log2 d < foldPos v) || decide (Nat.log2 d ≤ foldPos v + 142)

/-- The four flags as bits [6:3] of a folded rick and of byte 44 of a full form. -/
def rickFlagBits (r : Rick) : Nat := b2n r.nan * 64 + b2n r.pinf * 32 + b2n r.ninf * 16 + b2n r.negz * 8

/-- WINDOW: V shifted right arithmetically by POS, the low 144 bits (R106). -/
def foldWindow (v : BitVec 320) : Nat := (v.sshiftRight (foldPos v)).toNat % 2 ^ 144

/-- The 20 bytes of a folded rick (R105, R106). -/
def foldBytes (r : Rick) : List Byte := leBytes 20 (foldWindow r.v * 65536 + foldPos r.v * 128 + rickFlagBits r)

/-- The 20 bytes of an escape placeholder for full form `n` (R109). -/
def placeholderBytes (n : Nat) : List Byte := leBytes 20 (n * 65536 + 511 * 128)

/-- The 48 bytes of a full form (Table 5.6). -/
def fullForm (r : Rick) (elem : Nat) : List Byte :=
  leBytes 40 r.v.toNat ++ leBytes 4 r.count ++ leBytes 1 (rickFlagBits r) ++ leBytes 2 elem ++ [0]

/-- POS of a folded rick's 20 bytes. -/
def foldedPos (bs : List Byte) : Nat := leAt bs 0 20 / 128 % 512
/-- WINDOW of a folded rick's 20 bytes. -/
def foldedWindow (bs : List Byte) : Nat := leAt bs 0 20 / 65536 % 2 ^ 144

/-- Unfold a folded rick; none where it is malformed (R107). It carries no count: the caller gives it. -/
def unfold? (bs : List Byte) (count : Nat) : Option Rick :=
  let x := leAt bs 0 20
  let pos := foldedPos bs
  let win := foldedWindow bs
  let wv : Int := if win < 2 ^ 143 then (win : Int) else (win : Int) - 2 ^ 144
  let v := BitVec.ofInt 320 (wv * 2 ^ pos)
  let nan := x / 64 % 2 == 1
  let pinf := x / 32 % 2 == 1
  let ninf := x / 16 % 2 == 1
  let negz := x / 8 % 2 == 1
  if 176 < pos then none
  else if (nan || pinf || ninf || negz) && win != 0 then none
  else if !signInvariant v then none
  else some { v := v, nan := nan, pinf := pinf, ninf := ninf, negz := negz, count := count }

/-- Read a full form; none where it is malformed in itself (R110), with the ELEM it names. -/
def readFull? (bs : List Byte) : Option (Rick × Nat) :=
  let fl := leAt bs 44 1
  let r : Rick :=
    { v := BitVec.ofNat 320 (leAt bs 0 40), nan := fl / 64 % 2 == 1, pinf := fl / 32 % 2 == 1, ninf := fl / 16 % 2 == 1,
      negz := fl / 8 % 2 == 1, count := leAt bs 40 4 }
  if 2 ^ 31 < r.count then none
  else if !signInvariant r.v then none
  else some (r, leAt bs 45 2)

/-! ## Sequences of FRICK elements (R105, R109, R110) -/

/-- The folded elements or placeholders of a sequence of ricks, from element `idx` and full form `ph` on, and its full forms. -/
def frickParts : Nat → Nat → List Rick → List Byte × List Byte
  | _, _, [] => ([], [])
  | idx, ph, r :: rs =>
    if folds r.v then
      let t := frickParts (idx + 1) ph rs
      (foldBytes r ++ t.1, t.2)
    else
      let t := frickParts (idx + 1) (ph + 1) rs
      (placeholderBytes ph ++ t.1, fullForm r (idx % 65536) ++ t.2)

/-- A stage's FRICK data: one 20-byte element per position, then the full forms in the order of their placeholders (R109, R182; log 91). -/
def frickBytes (rs : List Rick) : List Byte := (frickParts 0 0 rs).1 ++ (frickParts 0 0 rs).2

/-- Elements of a sequence of FRICK elements of which `left` bytes remain: each takes 20, and 48 more where it is a placeholder. -/
def frickLen : Nat → Nat → List Byte → Nat
  | 0, _, _ => 0
  | fuel + 1, left, bs =>
    if left < 20 then 0 else 1 + frickLen fuel (left - (if foldedPos bs == 511 then 68 else 20)) (bs.drop 20)

/-- The ricks of a sum payload's elements; none where one is malformed (R107, R109, R110). They count as the context says: `e`
addends each (R105, R126). -/
def readRicks (first e : Nat) : Nat → Nat → Nat → List Byte → List Byte → Option (List Rick)
  | 0, _, ph, _, fulls => if fulls.length == 48 * ph then some [] else none
  | n + 1, idx, ph, el, fulls =>
    let bs := el.take 20
    if foldedPos bs == 511 then
      (match readFull? (slice fulls (48 * ph) 48), readRicks first e n (idx + 1) (ph + 1) (el.drop 20) fulls with
       | some r, some rs =>
         if foldedWindow bs == ph && r.2 == (first + idx) % 65536 && 48 * (ph + 1) ≤ fulls.length then
           some ({ r.1 with count := e } :: rs) else none
       | _, _ => none)
    else
      match unfold? bs e, readRicks first e n (idx + 1) ph (el.drop 20) fulls with
      | some r, some rs => some (r :: rs)
      | _, _ => none

/-- The ricks of a stage's FRICK data, each of `e` addends; none where one is malformed (R107, R110). -/
def readFrick (e : Nat) (bs : List Byte) : Option (List Rick) :=
  let n := frickLen bs.length bs.length bs
  readRicks 0 e n 0 0 (bs.take (20 * n)) (bs.drop (20 * n))

/-- The rick that a 48-byte full form spells. -/
def formRick (bs : List Byte) : Rick := ((readFull? bs).map (·.1)).getD rickEmpty

/-- The ricks that 48-byte full forms spell. -/
def ricksOf : Nat → List Byte → List Rick
  | 0, _ => []
  | n + 1, bs => formRick (bs.take 48) :: ricksOf n (bs.drop 48)

/-- The sealed form of FRICK bytes: every element as its full form, ELEM its index mod 65,536 (R213). -/
def sealedForms (rs : List Rick) : List Byte :=
  ((rs.zip (List.range rs.length)).map fun r => fullForm r.1 (r.2 % 65536)).flatten

/-- The exact value a float rick holds, with Table 4.9's specials: PINF and NINF together owe INVALID. -/
def rickVal (r : Rick) : Val :=
  if r.pinf && r.ninf then .nan true
  else if r.nan then .nan false
  else if r.pinf then .inf false
  else if r.ninf then .inf true
  else if r.v = 0 then .fin r.negz 0
  else .fin r.v.msb r.v.toInt

/-- round_rick and round_int of R113: bits and flags. -/
def roundRick (r : Rick) (code e4mode : Nat) : Nat × Nat :=
  if r.count == 0 then (0, 0)
  else
    match floatFmt code with
    | some _ => roundVal code e4mode (rickVal r)
    | none => satInt code (r.v.toInt / 2 ^ 149) false

end Sys2Proof.Machine
end

