-- ==== Sys2Proof/Machine/Packet.lean ====
section
/-! DEFINITION. The Askuf packet byte by byte (R47 to R57): header fields, the header check and the trailer. -/
namespace Sys2Proof.Machine

open Sys2Proof

/-- The 32 header bytes as one 256-bit word, byte 0 most significant (Table 3.2). -/
def headerWord (p : Pkt) : BitVec 256 :=
  p.ver ++ p.ty ++ p.cls ++ BitVec.ofBool p.dl ++ BitVec.ofBool p.last ++ BitVec.ofBool p.sealBit ++ BitVec.ofBool p.ecn ++
    BitVec.ofBool p.flag0 ++ p.dst ++ p.src ++ p.rsv8 ++ p.quire ++ p.rsv10 ++ p.stream ++ p.seq ++ p.hops ++ p.msg ++ p.len ++
    p.ety ++ p.offset ++ p.word24 ++ p.hcrc ++ p.aux

/-- The packet that a header word, a payload and a trailer spell (Table 3.2). -/
def pktOfHeader (h : BitVec 256) (payload : List Byte) (trailer : Word) : Pkt :=
  { ver := h.extractLsb' 254 2, ty := h.extractLsb' 248 6, cls := h.extractLsb' 245 3, dl := h.getLsbD 244,
    last := h.getLsbD 243, sealBit := h.getLsbD 242, ecn := h.getLsbD 241, flag0 := h.getLsbD 240,
    dst := h.extractLsb' 216 24, src := h.extractLsb' 192 24, rsv8 := h.extractLsb' 186 6, quire := h.extractLsb' 176 10,
    rsv10 := h.extractLsb' 174 2, stream := h.extractLsb' 160 14, seq := h.extractLsb' 136 24, hops := h.extractLsb' 128 8,
    msg := h.extractLsb' 112 16, len := h.extractLsb' 99 13, ety := h.extractLsb' 96 3, offset := h.extractLsb' 64 32,
    word24 := h.extractLsb' 32 32, hcrc := h.extractLsb' 16 16, aux := h.extractLsb' 0 16, payload := payload,
    trailer := trailer }

/-- The bytes of a packet in the order they are sent: header, payload, trailer (R47). -/
def encodePkt (p : Pkt) : List Byte := beBytes 32 (headerWord p).toNat ++ (p.payload ++ beBytes 4 p.trailer.toNat)

/-- The packet that at least 36 bytes spell; its payload is what stands between header and trailer (R47). -/
def decodePkt (bs : List Byte) : Option Pkt :=
  if bs.length < 36 then none
  else
    some (pktOfHeader (BitVec.ofNat 256 (natOfBE (bs.take 32))) ((bs.drop 32).take (bs.length - 36))
      (BitVec.ofNat 32 (natOfBE (bs.drop (bs.length - 4)))))

/-- Header bytes 0-27 and 30-31, which HCRC covers (R56). -/
def hcrcBytes (p : Pkt) : List Byte := (beBytes 32 (headerWord p).toNat).take 28 ++ (beBytes 32 (headerWord p).toNat).drop 30

/-- HCRC of a packet's header (R56). -/
def hcrcOf (p : Pkt) : BitVec 16 := BitVec.ofNat 16 (crc16 (hcrcBytes p))

/-- The trailer of a packet: DL, ECN and HOPS taken as 0 (R57). -/
def trailerOf (p : Pkt) : Word :=
  BitVec.ofNat 32 (crc32c (hcrcBytes { p with dl := false, ecn := false, hops := 0 } ++ p.payload))

/-- The trailer check of R58. -/
def trailerOk (p : Pkt) : Bool := p.trailer == trailerOf p

/-- `p` with HCRC regenerated (R56). -/
def withHcrc (p : Pkt) : Pkt := { p with hcrc := hcrcOf p }

/-- `p` with both checks computed, as a source sends it (R56, R57). -/
def sealPkt (p : Pkt) : Pkt := withHcrc { p with trailer := trailerOf p }

/-! Values of TYPE (Table 3.3). -/
def tData : BitVec 6 := 0x01
def tContrib : BitVec 6 := 0x02
def tPartial : BitVec 6 := 0x03
def tResult : BitVec 6 := 0x04
def tCount : BitVec 6 := 0x05
def tAck : BitVec 6 := 0x06
def tCtrl : BitVec 6 := 0x07
def tTime : BitVec 6 := 0x08
def tTransit : BitVec 6 := 0x09

/-- TYPE is one of Table 3.3. -/
def typeKnown (t : BitVec 6) : Bool := 1 ≤ t.toNat && t.toNat ≤ 9

/-- Virtual channel 2 x CLASS + DL (R51). -/
def vcOf (p : Pkt) : Nat := 2 * p.cls.toNat + b2n p.dl

/-- Bytes of the packet: 36 + LEN (R47). -/
def sizeOf' (p : Pkt) : Nat := 36 + p.payload.length

/-- Credits of the packet (R64). -/
def creditsOf (p : Pkt) : Nat := ceilDiv (sizeOf' p) 256

/-- Class 7: TRANSIT packets and the ACKs of transit streams (R39). -/
def isTransit (p : Pkt) : Bool := p.cls == 7

/-- An empty packet of a type, version 1 of the protocol, with every other field 0. -/
def blankPkt (t : BitVec 6) : Pkt :=
  { ver := 1, ty := t, cls := 0, dl := false, last := false, sealBit := false, ecn := false, flag0 := false, dst := 0, src := 0,
    rsv8 := 0, quire := 0, rsv10 := 0, stream := 0, seq := 0, hops := 0, msg := 0, len := 0, ety := 0, offset := 0, word24 := 0,
    hcrc := 0, aux := 0, payload := [], trailer := 0 }

/-- `p` carrying a payload, LEN set. -/
def withPayload (p : Pkt) (bs : List Byte) : Pkt := { p with len := BitVec.ofNat 13 bs.length, payload := bs }

/-! Fields of a fabric address (R33). -/
def faPlane (a : BitVec 24) : Nat := a.toNat / 2 ^ 23
def faX (a : BitVec 24) : Nat := a.toNat / 2 ^ 19 % 16
def faY (a : BitVec 24) : Nat := a.toNat / 2 ^ 15 % 16
def faZ (a : BitVec 24) : Nat := a.toNat / 2 ^ 11 % 16
def faPort (a : BitVec 24) : Nat := a.toNat / 8 % 256
def faSub (a : BitVec 24) : Nat := a.toNat % 8
/-- The switch index of an address: bits [22:11] (R31). -/
def faIndex (a : BitVec 24) : Nat := a.toNat / 2 ^ 11 % 4096

end Sys2Proof.Machine
end

