-- ==== Sys2Proof/Machine/Buffers.lean ====
section
/-! DEFINITION. The packet buffers (11_switch_core_and_buffers.md): cells and pools, charges and quotas, hop credits and their
grants, references and freeing. -/
namespace Sys2Proof.Machine

open Sys2Proof

/-! ## Port rates and states -/

/-- STATE of PORT_STATE (Table 13.7). -/
def pState (s : State) (p : Nat) : Nat := fget s (pPort p + 0x44) 3 0
/-- The port is ADMITTED. -/
def admitted (s : State) (p : Nat) : Bool := pState s p == 4
/-- Receive and transmit width in lanes (Table 3.8). -/
def widthRx (s : State) (p : Nat) : Nat := fget s (pPort p + 0x60) 7 4
def widthTx (s : State) (p : Nat) : Nat := fget s (pPort p + 0x60) 3 0
/-- Gbit/s of payload per lane: 100 in a half-rate mode or after a fall-back (Table 3.1, R266). -/
def laneRate (s : State) (p : Nat) : Nat := if bit s (pPort p + 0x44) 17 || bit s (pPort p + 0x40) 0 then 100 else 200
/-- Payload rates of a port in Gbit/s (R223). -/
def rateTx (s : State) (p : Nat) : Nat := widthTx s p * laneRate s p
def rateRx (s : State) (p : Nat) : Nat := widthRx s p * laneRate s p

/-! ## Cells -/

/-- The cell of index `i` in pool `n` of die `d`. -/
def cellId (d n i : Nat) : Nat := d * 2 ^ 20 + n * 2 ^ 18 + i
def cellDie (c : Nat) : Nat := c / 2 ^ 20
def cellPool (c : Nat) : Nat := c / 2 ^ 18 % 4

/-- Bytes of a cell of pool `n` (Table 11.2). -/
def cellBytes (n : Nat) : Nat :=
  match n with
  | 0 => 256
  | 1 => 1024
  | 2 => 4096
  | _ => 4160

/-- The pool that takes a packet of `size` bytes (R227). -/
def poolOf (size : Nat) : Nat := if size ≤ 256 then 0 else if size ≤ 1024 then 1 else if size ≤ 4096 then 2 else 3

/-- MiB of pools 0 to 2 of a die (Table 11.4). -/
def poolMib (s : State) (d : Nat) : Nat × Nat × Nat :=
  (fdef s (pBufPool d + 0x40) 7 0 4, fdef s (pBufPool d + 0x40) 15 8 4, fdef s (pBufPool d + 0x40) 23 16 8)

/-- Cells of pool `n` of a die. -/
def poolTotal (s : State) (d n : Nat) : Nat :=
  let m := poolMib s d
  poolCells m.1 m.2.1 m.2.2 n

/-- Free cells of a pool, reserves included (Table 11.5). -/
def poolFree (s : State) (d n : Nat) : Nat := fget s (pBufPool d + 0x44 + 4 * n) 19 0

/-- Cells of the floor reserve in pool `n` (Table 11.2); the control reserve adds 2,048 to pool 0 (R229). -/
def floorCells (n : Nat) : Nat :=
  match n with
  | 0 => 5440
  | 1 => 2560
  | 2 => 960
  | _ => 320

/-- Allocated cells of die `d` that `f` holds of. -/
def countCells (s : State) (d : Nat) (f : Nat → Cell → Bool) : Nat :=
  (s.cells.filter fun e => e.2.allocated && cellDie e.1 == d && f e.1 e.2).length

/-- Bytes of allocated cells of die `d` that `f` holds of. -/
def bytesOfCells (s : State) (d : Nat) (f : Nat → Cell → Bool) : Nat :=
  ((s.cells.filter fun e => e.2.allocated && cellDie e.1 == d && f e.1 e.2).map fun e => cellBytes (cellPool e.1)).sum

/-- Floor and control reserve of pool `n` of a die not in use. -/
def unusedReserve (s : State) (d n : Nat) : Nat :=
  (floorCells n - countCells s d fun c x => cellPool c == n && x.charge == .floor) +
    (if n == 0 then 2048 - countCells s d fun _ x => x.charge == .control else 0)

/-- Bytes charged to a port's quota (Table 11.10). -/
def portUsed (s : State) (p : Nat) : Nat := bytesOfCells s (dieOfPort p) fun _ x => x.charge == .port p

/-- Bytes of subscriber `n`, 256 the transit account, on die `d` (R242). -/
def subUsed (s : State) (n d : Nat) : Nat := bytesOfCells s d fun _ x => x.acct == some n

/-- QUOTA and EW of a port in bytes (Table 11.8). -/
def portQuota (s : State) (p : Nat) : Nat :=
  fdef s (pPort p + 0x64) 10 0 (if isLeaf p then 24 else 96) * 65536
def portEw (s : State) (p : Nat) : Nat :=
  fdef s (pPort p + 0x64) 26 16 (if isLeaf p then 16 else 64) * 65536

/-- QUOTA of a subscriber per die in bytes; none is no limit (Table 11.11). -/
def subQuota (s : State) (n : Nat) : Option Nat :=
  let q := fdef s (wSubQuota n) 10 0 1024
  if q == 1024 then none else some (q * 65536)
/-- EW of a subscriber per die in bytes: 0 selects 3/4 of QUOTA. -/
def subEw (s : State) (n : Nat) : Nat :=
  let q := fdef s (wSubQuota n) 10 0 1024
  if fget s (wSubQuota n) 26 16 == 0 then q * 65536 * 3 / 4 else fget s (wSubQuota n) 26 16 * 65536

/-- The subscriber a packet is counted against: the transit account for class 7, else its quire's (R231). -/
def acctOf (s : State) (p : Pkt) : Option Nat := if isTransit p then some 256 else subOfQuire s p.quire.toNat

/-- The subscriber of a leaf port: the valid entry whose LEAF_MASK holds it (R233, R35). -/
def leafSub (s : State) (p : Nat) : Option Nat :=
  findUp (fun n => quireValid s n && bit s (wQuire n + 16 + 4 * (p / 32)) (p % 32)) 256 0

/-! ## Credits (R229 to R233) -/

def vcGet (m : Sparse Nat) (v : Nat) : Nat := Sparse.get (fun _ => 0) m v
def vcSet (m : Sparse Nat) (v n : Nat) : Sparse Nat := Sparse.set (fun _ => 0) m v n

/-- Credits above the floor that a channel was granted and that are not yet seen consumed. -/
def aboveOf (x : PortSt) (v : Nat) : Nat := vcGet x.granted v - (vcGet x.held v - 17)

/-- A_p of R230. -/
def aboveSum (s : State) (p : Nat) : Nat := ((List.range 16).map fun v => aboveOf (getPort s p) v).sum

/-- k of R230 for pool `n`. -/
def creditRatio (n : Nat) : Nat :=
  match n with
  | 0 => 1
  | 1 => 2
  | 2 => 5
  | _ => 17

/-- The 20 fabric ports of a die. -/
def portsOfDie (d : Nat) : List Nat :=
  ((List.range 16).map fun i => 16 * d + i) ++ [128 + d, 136 + d, 144 + d, 152 + d]

/-- Granting port `p` `g` more credits is covered, and cannot take its usage above its quota (R230, R232). -/
def grantCovered (s : State) (p g : Nat) : Bool :=
  let d := dieOfPort p
  (List.range 4).all fun n =>
    let k := creditRatio n
    let need := ((portsOfDie d).map fun q => ceilDiv (aboveSum s q + (if q == p then g else 0)) k).sum
    decide (need ≤ poolFree s d n - unusedReserve s d n) &&
      decide (portUsed s p + ceilDiv (aboveSum s p + g) k * cellBytes n ≤ portQuota s p)

/-- Withholding holds: the port's usage, or at a leaf its subscriber's, stands at or above EW (R232, R233). -/
def withheld (s : State) (p : Nat) : Bool :=
  decide (portEw s p ≤ portUsed s p) ||
    (isLeaf p &&
      (match leafSub s p with
       | some n => decide (subEw s n ≤ subUsed s n (dieOfPort p))
       | none => false))

/-- `g` credits above the floor stay within a port's equal share at admission: a fortieth of each pool's cells outside the
reserves (log 14). -/
def withinShare (s : State) (p g : Nat) : Bool :=
  let d := dieOfPort p
  (List.range 4).all fun n =>
    decide (40 * ceilDiv g (creditRatio n) ≤ poolTotal s d n - (floorCells n + if n == 0 then 2048 else 0))

/-- The largest number of credits below 2^k, built bit by bit, that may be granted on each of 16 channels. -/
def maxGrant (s : State) (p : Nat) : Nat → Nat → Nat
  | 0, g => g
  | k + 1, g => if grantCovered s p (16 * (g + 2 ^ k)) && withinShare s p (16 * (g + 2 ^ k)) then maxGrant s p k (g + 2 ^ k) else maxGrant s p k g

/-- The packets of port `p` that stand in the buffer return no credits any more: the link they came by is not the link of now. -/
def forgetHeld (s : State) (p : Nat) : State :=
  let s := s.cells.foldl (fun s e =>
    match e.2.ingress with
    | some (q, _) => if q == p then setCell s e.1 { e.2 with credits := 0 } else s
    | none => s) s
  modPort s p fun x => { x with held := [], granted := [], banked := [], bankNext := 0 }

/-- The receive side's initial grant: 17 credits on every channel, and above the floor an equal share of what R230 and R232
permit, up to VC_CAP (log 14). -/
def grantInitial (s : State) (p : Nat) : State :=
  let s := modPort s p fun x => { x with granted := [], banked := [], bankNext := 0 }
  let cap := fdef s (pPort p + 0x68) 29 16 1024 - 17
  let g := if withheld s p then 0 else Nat.min cap (maxGrant s p 11 0)
  let s := modPort s p fun x => { x with granted := (List.range 16).foldl (fun m v => vcSet m v g) x.granted }
  (List.range 16).foldl (fun s v => emit s (.link p "CREDIT" (v * 65536 + 17 + g))) s

/-- Credits at admission (R63, R64): 17 on every channel each way, and the receive side's initial grant. -/
def initialCredits (s : State) (p : Nat) : State :=
  grantInitial (modPort (forgetHeld s p) p fun x =>
    { x with credits := (List.range 16).map fun v => (v, 17), initial := (List.range 16).map fun v => (v, 17) }) p

/-- After a re-striping of the transmit direction the credits of the far side are restored in full: the most this side has held of
each channel since admission (R64, log 80). -/
def restoreCredits (s : State) (p : Nat) : State := modPort s p fun x => { x with credits := x.initial }

/-- After a re-striping of the receive direction this side's grants are those of an admission again, and packets of before return
none (R64, log 80). -/
def restoreGrants (s : State) (p : Nat) : State := grantInitial (forgetHeld s p) p

/-- Usage stands below EW less 1/16 of QUOTA, and nothing withholds: banked credits are returned (R232, R233). -/
def mayUnbank (s : State) (p : Nat) : Bool :=
  admitted s p && decide (portUsed s p < portEw s p - portQuota s p / 16) && !withheld s p

/-- The banked channel whose turn it is: the first from `bankNext` on, round-robin. -/
def bankTurn (x : PortSt) : Option Nat :=
  ((List.range 16).map fun i => (x.bankNext + i) % 16).find? fun v => vcGet x.banked v != 0

/-- Return banked credits round-robin across virtual channels, one credit a turn, while they are covered (R232; log 81). -/
def unbank : Nat → State → Nat → State
  | 0, s, _ => s
  | n + 1, s, p =>
    if !(mayUnbank s p && grantCovered s p 1) then s
    else
      match bankTurn (getPort s p) with
      | none => s
      | some v =>
        unbank n (emit (modPort s p fun x =>
          { x with banked := vcSet x.banked v (vcGet x.banked v - 1), granted := vcSet x.granted v (vcGet x.granted v + 1),
                   bankNext := (v + 1) % 16 }) (.link p "CREDIT" (v * 65536 + 1))) p

/-- Credits that port `p` has banked. -/
def bankedSum (s : State) (p : Nat) : Nat := ((List.range 16).map fun v => vcGet (getPort s p).banked v).sum

/-- Port `p` returns what it may of its banked credits. -/
def releaseBanked (s : State) (p : Nat) : State := unbank (bankedSum s p) s p

/-- Usage or free cells of die `d` have changed: its ports return what they may (R232, R233). -/
def releaseDie (s : State) (d : Nat) : State := (portsOfDie d).foldl releaseBanked s

/-- Return or bank the `k` credits of a packet that leaves the buffer of ingress channel `v` of port `p`: those up to the channel's
17 always, those above as a new grant, which is tested after they are no longer outstanding (R229, R230, R232). -/
def returnCredits (s : State) (p v k : Nat) : State :=
  let x := getPort s p
  let h := vcGet x.held v
  let above := Nat.min k (h - 17)
  let s := modPort s p fun x =>
    { x with held := vcSet x.held v (h - k), granted := vcSet x.granted v (vcGet x.granted v - above) }
  if !admitted s p || k == 0 then s
  else if above != 0 && (withheld s p || !grantCovered s p above) then
    let s := modPort s p fun x => { x with banked := vcSet x.banked v (vcGet x.banked v + above) }
    let s := ctrAdd s (pBufPool (dieOfPort p)) 3 above
    if k == above then s else emit s (.link p "CREDIT" (v * 65536 + (k - above)))
  else
    emit (modPort s p fun x => { x with granted := vcSet x.granted v (vcGet x.granted v + above) }) (.link p "CREDIT" (v * 65536 + k))

/-! ## Allocation and freeing (R227, R236, R237) -/

/-- The lowest free cell of a pool (log 15). -/
def freeCell (s : State) (d n : Nat) : Option Nat :=
  match findUp (fun i => !(getCell s (cellId d n i)).allocated && !(getCell s (cellId d n i)).withdrawn) (poolTotal s d n) 0 with
  | some i => some (cellId d n i)
  | none => none

/-- FREE of every pool of a die from its cells: those neither allocated nor withdrawn (R226, R240). -/
def showPools (s : State) (d : Nat) : State :=
  let gone := fun (n : Nat) => (s.cells.filter fun e => (e.2.allocated || e.2.withdrawn) && cellDie e.1 == d && cellPool e.1 == n).length
  forUp (fun s n => fset s (pBufPool d + 0x44 + 4 * n) 19 0 (poolTotal s d n - gone n)) 4 0 s

/-- Take cell `c` for a packet with `refs` targets (R228, R236). -/
def takeCell (s : State) (c refs : Nat) (ch : Charge) (acct : Option Nat) (ing : Option (Nat × Nat)) (credits : Nat) : State :=
  let x := getCell s c
  let s := setCell s c
    { x with allocated := true, gen := (x.gen + 1) % 16, refs := BitVec.ofNat 9 refs, charge := ch, acct := acct,
             ingress := ing, credits := credits, marked := false, suspect := false }
  let a := pBufPool (cellDie c) + 0x44 + 4 * cellPool c
  let s := fset s a 19 0 (fget s a 19 0 - 1)
  ctrAdd s (pBufPool (cellDie c)) 0 1

/-- Give cell `c` back to its pool and release its charge and credits; the die's ports then return what they may of the credits
they have banked (R232, R236). A cell that CELL_META_PARITY withdrew is free no more. -/
def releaseCell (s : State) (c : Nat) : State :=
  let x := getCell s c
  let s := setCell s c { x with allocated := false, refs := 0, marked := false, suspect := false }
  let a := pBufPool (cellDie c) + 0x44 + 4 * cellPool c
  let s := if x.withdrawn then s else fset s a 19 0 (fget s a 19 0 + 1)
  releaseDie (match x.ingress with
    | some (p, v) => returnCredits s p v x.credits
    | none => s) (cellDie c)

/-- Decrement a cell through a pointer; a stale or unallocated one is refused and reported (R236, R237). -/
def decCell (s : State) (c gen : Nat) : State :=
  let x := getCell s c
  if x.gen != gen || !x.allocated || x.refs == 0 then
    report (ctrAdd s (pBufPool (cellDie c)) 5 1) (mkFault 0x28 (cellDie c) 0x06 1 c 0xFF 0)
  else if x.refs == 1 then ctrAdd (releaseCell s c) (pBufPool (cellDie c)) 1 1
  else setCell s c { x with refs := x.refs - 1 }

/-- The charge of a packet that arrived on channel `v` of port `p` and consumes `k` credits (R229). -/
def arrivalCharge (s : State) (p v k : Nat) : Charge :=
  if vcGet (getPort s p).held v + k ≤ 17 then .floor else .port p

/-- Note an arriving packet's credits as held by its channel. -/
def holdCredits (s : State) (p v k : Nat) : State :=
  modPort s p fun x => { x with held := vcSet x.held v (vcGet x.held v + k) }

end Sys2Proof.Machine
end

