-- ==== Sys2Proof/Machine/Routing.lean ====
section
/-! DEFINITION. Routing (R29, R38, R55, R60 to R62): coordinates, quire blocks, the route table, egress choice and the dateline. -/
namespace Sys2Proof.Machine

open Sys2Proof

/-- GLB_COORD bits [23:11]: plane and coordinate. -/
def ownPlane (s : State) : Nat := fget s (pGlb + 0x48) 23 23
def ownX (s : State) : Nat := fget s (pGlb + 0x48) 22 19
def ownY (s : State) : Nat := fget s (pGlb + 0x48) 18 15
def ownZ (s : State) : Nat := fget s (pGlb + 0x48) 14 11
/-- The own switch index (R31). -/
def ownIndex (s : State) : Nat := fget s (pGlb + 0x48) 22 11
/-- Torus sizes (Table 2.3). -/
def torusX (s : State) : Nat := fget s (pGlb + 0x4C) 3 0 + 1
def torusY (s : State) : Nat := fget s (pGlb + 0x4C) 7 4 + 1
def torusZ (s : State) : Nat := fget s (pGlb + 0x4C) 11 8 + 1
/-- Size of an axis, own coordinate on it, and the coordinate of a switch index on it; axes 0 X, 1 Y, 2 Z. -/
def axisSize (s : State) (a : Nat) : Nat := if a == 0 then torusX s else if a == 1 then torusY s else torusZ s
def ownCoord (s : State) (a : Nat) : Nat := if a == 0 then ownX s else if a == 1 then ownY s else ownZ s
def indexCoord (i a : Nat) : Nat := if a == 0 then i / 256 else if a == 1 then i / 16 % 16 else i % 16

/-- The fabric address of this switch's PORT 255. -/
def ownAddr (s : State) : BitVec 24 := BitVec.ofNat 24 (fget s (pGlb + 0x48) 23 11 * 2 ^ 11 + 255 * 8)
/-- The fabric address of PORT 255 of the switch with index `i` in a plane. -/
def switchAddr (plane i : Nat) : BitVec 24 := BitVec.ofNat 24 (plane * 2 ^ 23 + i * 2 ^ 11 + 255 * 8)

/-- Axis and direction of spine port p: direction 0 is +, 1 is - (Table 1.5). -/
def spineAxis (p : Nat) : Nat := (p - 128) / 8
def spineNeg (p : Nat) : Bool := (p - 128) / 4 % 2 == 1

/-- Racks one hop of a spine port covers: 2 through a closed stitch (R277). -/
def hopOf (s : State) (p : Nat) : Nat := if bit s (pPort p + 0x44) 16 then 2 else 1

/-- The coordinate on a spine port's axis that its neighbour has. -/
def neighCoord (s : State) (p : Nat) : Nat :=
  let a := spineAxis p
  let n := axisSize s a
  if spineNeg p then (ownCoord s a + n * 2 - hopOf s p) % n else (ownCoord s a + hopOf s p) % n

/-- The switch index a spine port's neighbour has. -/
def neighIndex (s : State) (p : Nat) : Nat :=
  let c := neighCoord s p
  match spineAxis p with
  | 0 => c * 256 + ownY s * 16 + ownZ s
  | 1 => ownX s * 256 + c * 16 + ownZ s
  | _ => ownX s * 256 + ownY s * 16 + c

/-- Origin and extent of subscriber `n`'s block on an axis (Tables 2.4, 2.5). -/
def blockOrigin (s : State) (n a : Nat) : Nat := fget s (wQuire n) (15 - 4 * a) (12 - 4 * a)
def blockExtent (s : State) (n a : Nat) : Nat := fget s (wQuire n + 4) (31 - 4 * a) (28 - 4 * a) + 1

/-- A coordinate lies in the block on an axis. -/
def coordInBlock (s : State) (n a c : Nat) : Bool :=
  let sz := axisSize s a
  decide (c < sz) && decide ((c + sz - blockOrigin s n a % sz) % sz < blockExtent s n a)

/-- A switch index lies in subscriber `n`'s block (R34). -/
def indexInBlock (s : State) (n i : Nat) : Bool := (List.range 3).all fun a => coordInBlock s n a (indexCoord i a)

/-- The switch indices of a block, in increasing order. -/
def blockIndices (s : State) (n : Nat) : List Nat :=
  let f := fun a => (List.range (axisSize s a)).filter fun c => coordInBlock s n a c
  ((f 0).map fun x => ((f 1).map fun y => (f 2).map fun z => 256 * x + 16 * y + z).flatten).flatten

/-- The spine ports whose two ends lie in the block: the route mask of R38. -/
def quireMask (s : State) (n p : Nat) : Bool := indexInBlock s n (ownIndex s) && indexInBlock s n (neighIndex s p)

/-- LEAF_MASK of subscriber `n` holds leaf port `p`. -/
def inLeafMask (s : State) (n p : Nat) : Bool := bit s (wQuire n + 16 + 4 * (p / 32)) (p % 32)

/-- The DST uses no reserved value and names a coordinate inside the torus (R33). -/
def addrOk (s : State) (a : BitVec 24) : Bool :=
  (faPort a < 128 || (faPort a == 255 && faSub a == 0)) &&
    decide (faX a < torusX s) && decide (faY a < torusY s) && decide (faZ a < torusZ s)

/-- Class 7 carries TRANSIT and ACK only, and TRANSIT travels in class 7 only (R39). -/
def classOk (p : Pkt) : Bool :=
  if isTransit p then p.ty == tTransit || p.ty == tAck else p.ty != tTransit

/-- The confinement test of R38 at ingress, with R39's exemption of class 7. -/
def confined (s : State) (p : Pkt) (port : Nat) : Bool :=
  if isTransit p then true
  else
    match subOfQuire s p.quire.toNat with
    | none => false
    | some n =>
      indexInBlock s n (faIndex p.dst) && indexInBlock s n (ownIndex s) &&
        (if isLeaf port then inLeafMask s n port else if isSpine port then quireMask s n port else true) &&
        (if faIndex p.dst == ownIndex s && faPlane p.dst == ownPlane s && faPort p.dst < 128 then
          inLeafMask s n (faPort p.dst) else true)

/-! ## The route table (R60) -/

/-- ALLOW's admitted ports of a direction of an axis. -/
def dirPorts (s : State) (a : Nat) (neg : Bool) : List Nat :=
  ((List.range 4).map fun k => 128 + 8 * a + (if neg then 4 else 0) + k).filter fun p => admitted s p

/-- Route table entry for switch index `i` (R60, Table 3.6). -/
def routeEntry (s : State) (i : Nat) : Word :=
  match (List.range 3).find? fun a => indexCoord i a != ownCoord s a with
  | none => maskOf 31 31 ||| maskOf 30 30
  | some a =>
    let n := axisSize s a
    let c := indexCoord i a
    if n ≤ c then 0
    else
      let up := (c + n - ownCoord s a) % n
      let plus := dirPorts s a false
      let minus := dirPorts s a true
      let minimal := (if up ≤ n - up then plus else []) ++ (if n - up ≤ up then minus else [])
      let allow := if minimal.isEmpty then (if up < n - up then minus else if n - up < up then plus else []) else minimal
      if allow.isEmpty then 0
      else BitVec.ofNat 32 (2 ^ 31 + (allow.map fun p => 2 ^ (p - 128)).sum)

/-- Write the whole route table (R60). -/
def writeRoutes (s : State) : State :=
  (blockIndicesAll s).foldl (fun s i => wr s (wRoute + 4 * i) (routeEntry s i)) (regsReset s wRoute wReach)
where
  /-- every switch index of the torus -/
  blockIndicesAll (s : State) : List Nat :=
    ((List.range (torusX s)).map fun x =>
      ((List.range (torusY s)).map fun y => (List.range (torusZ s)).map fun z => 256 * x + 16 * y + z).flatten).flatten

/-! ## Egress choice (R29, R61) -/

/-- DL on a spine hop (R62): the hop crosses the dateline, or the packet crossed it before on the same axis. -/
def dlOut (s : State) (p : Pkt) (ing : Option Nat) (out : Nat) : Bool :=
  let a := spineAxis out
  let n := axisSize s a
  let crosses := if spineNeg out then decide (ownCoord s a < hopOf s out) else decide (n ≤ ownCoord s a + hopOf s out)
  let same := match ing with
    | some q => isSpine q && spineAxis q == a && p.dl
    | none => false
  crosses || same

/-- DL as a packet leaves by port `out` (R62): a leaf port keeps the dateline half of the axis it was travelling on, and a pair port
returns DL to 0. -/
def dlLeaving (s : State) (p : Pkt) (ing : Option Nat) (out : Nat) : Bool :=
  if isSpine out then dlOut s p ing out
  else
    isLeaf out &&
      (match ing with
       | some q => isSpine q && p.dl
       | none => false)

/-- The packet as it leaves by port `out`: HOPS, DL and HCRC (R55, R56, R62). -/
def leaving (s : State) (p : Pkt) (ing : Option Nat) (out : Nat) : Pkt :=
  let hop := isSpine out || isPair out
  withHcrc { p with dl := dlLeaving s p ing out, hops := if hop then p.hops + 1 else p.hops }

/-- Free credits of the downstream channel a packet would use on a port. -/
def freeCredits (s : State) (p : Pkt) (ing : Option Nat) (out : Nat) : Nat :=
  vcGet (getPort s out).credits (2 * p.cls.toNat + b2n (dlLeaving s p ing out))

/-- The port with the most free credits, ties to the lowest index (R61). -/
def mostCredits (s : State) (p : Pkt) (ing : Option Nat) (ports : List Nat) : Option Nat :=
  ports.foldl (fun best q =>
    match best with
    | none => some q
    | some b => if freeCredits s p ing b < freeCredits s p ing q then some q else some b) none

/-- h of R61 step 3. -/
def flowHash (p : Pkt) : Nat := crc16 (beBytes 3 p.src.toNat ++ beBytes 3 p.dst.toNat ++ beBytes 2 p.stream.toNat)

/-- Where a packet goes: local delivery, a port, or nowhere. -/
inductive Egress where
  | here
  | out (port : Nat)
  | none
  deriving DecidableEq, Repr

/-- Step 4 of R222: local delivery, the pair ports (R29), or the route table and selection (R61). -/
def chooseEgress (s : State) (p : Pkt) (ing : Option Nat) : Egress :=
  if faPlane p.dst != ownPlane s then
    (match ing with
     | some q =>
       if isSpine q || isPair q then .none
       else
         (match mostCredits s p ing ((List.range 8).map (152 + ·) |>.filter fun q => admitted s q) with
          | some q => .out q
          | none => .none)
     | none =>
       (match mostCredits s p ing ((List.range 8).map (152 + ·) |>.filter fun q => admitted s q) with
        | some q => .out q
        | none => .none))
  else if faIndex p.dst == ownIndex s then
    (if faPort p.dst == 255 then .here else if admitted s (faPort p.dst) then .out (faPort p.dst) else .none)
  else
    let e := rd s (wRoute + 4 * faIndex p.dst)
    let allow := ((List.range 24).filter fun i => e.getLsbD 31 && e.getLsbD i).map (128 + ·)
    let ports := allow.filter fun q =>
      admitted s q &&
        (isTransit p ||
          (match subOfQuire s p.quire.toNat with
           | some n => quireMask s n q
           | none => false))
    if bit s (pRoute + 0x40) 0 then
      (match mostCredits s p ing ports with
       | some q => .out q
       | none => .none)
    else
      let plus := ports.filter fun q => !spineNeg q
      let cand := if plus.isEmpty then ports else plus
      if cand.isEmpty then .none
      else
        (match cand[flowHash p % cand.length]? with
         | some q => .out q
         | none => .none)

end Sys2Proof.Machine
end

