-- ==== Sys2Proof/Machine/Sched.lean ====
section
/-! DEFINITION. Hardware queues, the two-level scheduler, the transit bucket, meters and time gates
(12_scheduling_and_gates.md), and the start and end of a send. -/
namespace Sys2Proof.Machine

open Sys2Proof

/-! ## Queues (R243, R244) -/

/-- Queue table word 0 of a bound queue (Table 12.1). -/
def boundWord (p n c : Nat) : Word := BitVec.ofNat 32 (2 ^ 31 + c * 2 ^ 24 + n * 65536 + p * 256)

/-- The bound queue of (port, subscriber, class), if one exists. -/
def boundQueue (s : State) (p n c : Nat) : Option Nat :=
  match (Sparse.range s.regs (wQueue 1288) (wQueue 8192)).find? fun e => e.1 % 16 == 0 && e.2 == boundWord p n c with
  | some e => some ((e.1 - wQueue 0) / 16)
  | none => none

/-- The queue of a packet at egress port `p` (R243). -/
def queueFor (s : State) (p : Nat) (k : Pkt) : Nat :=
  if isTransit k then 8 * p + 7
  else
    match subOfQuire s k.quire.toNat with
    | some n => (boundQueue s p n k.cls.toNat).getD (8 * p + k.cls.toNat)
    | none => 8 * p + k.cls.toNat

/-- Bound queues of a port: subscriber, class, queue. -/
def boundOfPort (s : State) (p : Nat) : List (Nat × Nat × Nat) :=
  ((Sparse.range s.regs (wQueue 1288) (wQueue 8192)).filter fun e =>
    e.1 % 16 == 0 && e.2.getLsbD 31 && bitsOf e.2 15 8 == p).map fun e => (bitsOf e.2 23 16, bitsOf e.2 26 24, (e.1 - wQueue 0) / 16)

/-- Queues of a port with their level-1 node: subscribers, 256 the common node, 257 the transit node (R245). -/
def queuesOfPort (s : State) (p : Nat) : List (Nat × Nat × Nat) :=
  boundOfPort s p ++ ((List.range 7).map fun c => (256, c, 8 * p + c)) ++ [(257, 7, 8 * p + 7)]

/-- STORED of a queue moved by an amount. -/
def storedAdd (s : State) (q n : Nat) : State := wr s (wQueue q + 4) (rd s (wQueue q + 4) + BitVec.ofNat 32 n)
def storedSub (s : State) (q n : Nat) : State := wr s (wQueue q + 4) (rd s (wQueue q + 4) - BitVec.ofNat 32 n)

/-! ## Gates (R253 to R255) -/

/-- No list in force. -/
def gateInit : GateSt := { len := 0, entry := 0, since := 0, waitLen := 0, startAt := 0, base := 0, waitBase := 0, resync := none }
def getGate (s : State) (p : Nat) : GateSt := Sparse.get (fun _ => gateInit) s.gates p
def setGate (s : State) (p : Nat) (g : GateSt) : State := { s with gates := Sparse.set (fun _ => gateInit) s.gates p g }

/-- OPER_BANK of a port. -/
def operBank (s : State) (p : Nat) : Nat := fget s (pGate p + 0x40) 28 28
/-- Entry `i` of the bank in force: gates and interval. -/
def gateEntry (s : State) (p i : Nat) : Word × Nat :=
  (rd s (wGate p (operBank s p) i), (rd s (wGate p (operBank s p) i + 4)).toNat)

/-- The count that the gates of port `p` read: the follower of its own die (R16, R253). -/
def gateNow (s : State) (p : Nat) : Nat := dieTime s (dieOfPort p)

/-- Instant at which the running entry ends. -/
def gateEnd (s : State) (p : Nat) : Nat :=
  let g := getGate s p
  match g.resync with
  | some b => b
  | none => g.since + (gateEntry s p g.entry).2

/-- ns for which gate `c` stays open beyond `have` in the entries from `i` on, at most `fuel` of them. -/
def gateOpenFor (s : State) (p c len : Nat) : Nat → Nat → Nat → Nat
  | 0, _, acc => acc
  | fuel + 1, i, acc =>
    let e := gateEntry s p (i % len)
    if e.1.getLsbD c then gateOpenFor s p c len fuel (i + 1) (acc + e.2) else acc

/-- The gate test of R254 for a packet of class `c` on port `p`; a list of no entries closes no gate (log 16). Eight entries of at
least 64 ns, the list taken up again from its start as often as it takes, outlast the 331.2 ns of the largest packet on the slowest
link; a running list ends where a waiting one starts (R255). -/
def gateTest (s : State) (p : Nat) (k : Pkt) : Bool :=
  let g := getGate s p
  if !bit s (pGate p + 0x40) 31 || g.len == 0 then true
  else
    let c := k.cls.toNat
    if !(gateEntry s p g.entry).1.getLsbD c then false
    else
      let next := match g.resync with
        | some _ => 0
        | none => g.entry + 1
      let run := gateOpenFor s p c g.len 8 next (gateEnd s p - gateNow s p)
      let open' := if bit s (pGate p + 0x40) 29 then Nat.min run (g.startAt - gateNow s p) else run
      decide (8 * (8 + sizeOf' k) ≤ open' * rateTx s p)

/-! ## The transit bucket (R250) -/

/-- The bucket filled up to now, in 1/2,048 byte, and 65,536 bytes at most; it may be negative. -/
def bucketNow (s : State) (p : Nat) : Int :=
  let x := getPort s p
  let b : Int := (rd s (pSched p + 0x4C)).toInt * 2048 + x.bucketFrac
  let gain := (s.uptime - x.bucketAt) * fdef s (pSched p + 0x40) 23 16 8 * rateTx s p
  min (b + gain) (65536 * 2048)

/-- Store a bucket level. -/
def setBucket (s : State) (p : Nat) (v : Int) : State :=
  modPort (wr s (pSched p + 0x4C) (BitVec.ofInt 32 (v / 2048))) p fun x => { x with bucketFrac := (v % 2048).toNat, bucketAt := s.uptime }

/-- The bucket brought up to date before its rate changes (R250). -/
def settleBucket (s : State) (p : Nat) : State := setBucket s p (bucketNow s p)

/-! ## Eligibility and pick (R246, R247) -/

/-- The head of a queue may start (R247). -/
def queueEligible (s : State) (p q : Nat) : Bool :=
  match getQueue s q with
  | [] => false
  | e :: _ =>
    gateTest s p e.pkt && decide (creditsOf e.pkt ≤ vcGet (getPort s p).credits (vcOf e.pkt)) &&
      (q != 8 * p + 7 || decide (0 ≤ bucketNow s p))

/-- Weight of a level-1 node and of a class (Tables 12.2, 12.3). -/
def nodeWeight (s : State) (p node : Nat) : Nat :=
  if node == 256 then fdef s (pSched p + 0x40) 7 0 16
  else if node == 257 then fdef s (pSched p + 0x40) 15 8 16
  else fdef s (wSchedSub node) 7 0 16
def classWeight (s : State) (p c : Nat) : Nat :=
  fdef s (pSched p + 0x44 + 4 * (c / 4)) (8 * (c % 4) + 7) (8 * (c % 4)) 16

/-- A tag's place relative to the virtual time `v`: the u64 tags and v wrap together, so they are compared as the nearest numbers
to v (R246, R248; log 82). -/
def tagPlace (v t : Nat) : Nat := (t + 2 ^ 64 + 2 ^ 63 - v) % 2 ^ 64

/-- One level of R246 at virtual time `v`: the eligible child (index, len, weight) with the least tag after its packet, ties to the
lowest index. -/
def pickLevel (v : Nat) (start : Nat → Nat) (kids : List (Nat × Nat × Nat)) : Option (Nat × Nat × Nat) :=
  kids.foldl (fun best k =>
    match best with
    | none => some k
    | some b =>
      let tb := tagPlace v (start b.1) + b.2.1 * 65536 / b.2.2
      let tk := tagPlace v (start k.1) + k.2.1 * 65536 / k.2.2
      if tk < tb || (tk == tb && k.1 < b.1) then some k else some b) none

/-- Bytes of the packet at the head of a queue. -/
def headLen (s : State) (q : Nat) : Nat :=
  match getQueue s q with
  | [] => 0
  | e :: _ => sizeOf' e.pkt

/-- Key of a child in the record of awake children: queues by number, level-1 nodes above every queue number. -/
def nodeKey (node : Nat) : Nat := 8192 + node

/-- Children that became eligible wake at the current virtual time of their level; the others sleep (R246, R247). -/
def wakeAll (s : State) (p : Nat) (el : List (Nat × Nat × Nat)) : State :=
  modPort s p fun x =>
    let now := (el.map fun e => e.2.2) ++ (el.map fun e => nodeKey e.1)
    let x := el.foldl (fun x e =>
      let x := if x.awake.contains e.2.2 then x
        else { x with queueStart := vcSet x.queueStart e.2.2 (vcGet x.vtimeNode e.1) }
      if x.awake.contains (nodeKey e.1) then x else { x with nodeStart := vcSet x.nodeStart e.1 x.vtime, awake := x.awake ++ [nodeKey e.1] }) x
    { x with awake := now.eraseDups }

/-- The eligible queues of a port with their nodes (R247). -/
def eligibleOf (s : State) (p : Nat) : List (Nat × Nat × Nat) := (queuesOfPort s p).filter fun e => queueEligible s p e.2.2

/-- Eligibility may have changed: what became eligible wakes, what is empty or ineligible sleeps, whether or not the port is sending
(R246, R247). -/
def settleAwake (s : State) (p : Nat) : State := wakeAll s p (eligibleOf s p)

/-- The queue the port picks now (R246), with tags and virtual times advanced. -/
def pickQueue (s : State) (p : Nat) : Option Nat × State :=
  let el := eligibleOf s p
  let s := wakeAll s p el
  let x := getPort s p
  let inner := fun node =>
    pickLevel (vcGet x.vtimeNode node) (fun c => vcGet x.queueStart ((el.find? fun e => e.1 == node && e.2.1 == c).map (·.2.2) |>.getD 0))
      ((el.filter fun e => e.1 == node).map fun e => (e.2.1, headLen s e.2.2, classWeight s p e.2.1))
  let nodes := ((el.map (·.1)).eraseDups).map fun n =>
    (n, (match inner n with
         | some k => k.2.1
         | none => 0), nodeWeight s p n)
  match pickLevel x.vtime (vcGet x.nodeStart) nodes with
  | none => (none, s)
  | some n =>
    match inner n.1 with
    | none => (none, s)
    | some k =>
      match el.find? fun e => e.1 == n.1 && e.2.1 == k.1 with
      | none => (none, s)
      | some e =>
        let q := e.2.2
        let s := modPort s p fun x =>
          { x with
            vtime := vcGet x.nodeStart n.1,
            nodeStart := vcSet x.nodeStart n.1 ((vcGet x.nodeStart n.1 + n.2.1 * 65536 / n.2.2) % 2 ^ 64),
            vtimeNode := vcSet x.vtimeNode n.1 (vcGet x.queueStart q),
            queueStart := vcSet x.queueStart q ((vcGet x.queueStart q + k.2.1 * 65536 / k.2.2) % 2 ^ 64) }
        (some q, s)

/-! ## Sending -/

/-- The port may start packets: in service, ADMITTED, not stopping, not re-striping, not fallow. -/
def mayStart (s : State) (p : Nat) : Bool :=
  admitted s p && fget s (pPort p + 0x0C) 2 0 == 2 && !fallow s && !(getPort s p).stripingTx && (getPort s p).sending.isNone

/-- Bytes of a packet's link frame: the 44 + LEN of R254. -/
def frameBytes (k : Pkt) : Nat := 8 + sizeOf' k

/-- The replay buffer has room for one more frame: at most 2,048 frames, and 256 KiB on an 8-lane port, 128 KiB on a 4-lane port
(R71). -/
def frameFits (s : State) (p : Nat) (k : Pkt) : Bool :=
  let r := (getPort s p).replay
  decide (r.length < 2048) &&
    decide ((r.map fun e => frameBytes e.2).sum + frameBytes k ≤ if lanesOfPort p == 8 then 262144 else 131072)

/-- A frame takes the next LSN and stands in the replay buffer until the receiver acknowledges it (R71). -/
def keepFrame (s : State) (p : Nat) (k : Pkt) : State :=
  modPort s p fun x => { x with txLsn := (x.txLsn + 1) % 4096, replay := x.replay ++ [(x.txLsn, k)] }

/-- A CTRL or TIME packet of the device on port `p`: between packets and ahead of every queue, in its own frame, on virtual channel
12 if that channel holds a credit for it; without one, or with no room for its frame, it is left to its next repetition (R51, R63,
R71, R75, R249; log 83). -/
def sendSingle (s : State) (p : Nat) (k : Pkt) : State :=
  if !frameFits s p k || vcGet (getPort s p).credits 12 < creditsOf k then s
  else
    let s := modPort s p fun x => { x with credits := vcSet x.credits 12 (vcGet x.credits 12 - creditsOf k) }
    emit (ctrAdd (keepFrame s p k) (pPort p) 1 1) (.single p k)

/-- A CTRL or TIME packet that port `p` has accepted leaves the receive buffer at once: it is counted and its credits return
(R64, R75, R222). -/
def takeSingle (s : State) (p : Nat) (k : Pkt) : State :=
  emit (ctrAdd s (pPort p) 0 1) (.link p "CREDIT" (12 * 65536 + creditsOf k))

/-- Put an entry on the link: the packet fetched from its ingress die by the crossings of R18, credits consumed, the transit bucket
charged, the frame kept for replay (R26, R63, R71, R250). -/
def startSend (s : State) (p q : Nat) (e : QEntry) : State :=
  let v := vcOf e.pkt
  let s := if isTransit e.pkt then setBucket s p (bucketNow s p - 2048 * (sizeOf' e.pkt : Int)) else s
  let s := keepFrame (cross s (cellDie e.cell) (dieOfPort p) chPacket) p e.pkt
  atRest (settleAwake (modPort s p fun x =>
    { x with sending := some (e, q), credits := vcSet x.credits v (vcGet x.credits v - creditsOf e.pkt) }) p)

/-- A trailer failure at an egress (R58). -/
def trailerFault (s : State) (p : Nat) : State :=
  report (ctrAdd s (pPort p) 5 1) (mkFault 0x20 p 0x05 1 0 0xFF 0)

/-- Let the port start a packet if it may: a stored packet whose trailer fails is discarded before it starts (R58). -/
def pumpFuel : Nat → State → Nat → State
  | 0, s, _ => s
  | n + 1, s, p =>
    let s0 := settleAwake s p
    if !mayStart s p then s0
    else
      match pickQueue s0 p with
      | (none, s) => s
      | (some q, s) =>
        match getQueue s q with
        | [] => s
        | e :: rest =>
          let s' := storedSub (setQueue s q rest) q (sizeOf' e.pkt)
          if !frameFits s p e.pkt then s0
          else if trailerOk e.pkt then startSend s' p q e
          else pumpFuel n (decCell (trailerFault s' p) e.cell e.gen) p

/-- Packets waiting in a port's queues. -/
def queuedAt (s : State) (p : Nat) : Nat := ((queuesOfPort s p).map fun e => (getQueue s e.2.2).length).sum

/-- Let a port start a packet (R246, R247); what is eligible is looked at again even where it may not. -/
def pump (s : State) (p : Nat) : State := pumpFuel (queuedAt s p + 1) s p

/-- Mark ECN (R235), counted at the egress port. -/
def markEcn (s : State) (p : Nat) (k : Pkt) : Pkt × State :=
  if k.ecn then (k, s) else (withHcrc { k with ecn := true }, ctrAdd s (pPort p) 11 1)

/-- ECN conditions of R235: the queue's bytes, and the subscriber's or the transit account's usage. -/
def ecnDue (s : State) (p q : Nat) (k : Pkt) (ing : Option Nat) (die : Nat) : Bool :=
  let thr := fdef s (pPort p + 0x68) 15 0 64 * 4096
  decide (thr ≤ (rd s (wQueue q + 4)).toNat + sizeOf' k) ||
    (match acctOf s k, ing with
     | some n, some i => (n == 256 || !isLeaf i) && decide (subEw s n ≤ subUsed s n die)
     | some n, none => n == 256 && decide (subEw s n ≤ subUsed s n die)
     | none, _ => false)

/-- Put a packet on its hardware queue of an egress port (step 7 of R222): its pointer goes to the egress die, it is stored, and
PORT_STORED counts it then (R223). -/
def enqueue (s : State) (p c gen : Nat) (k : Pkt) (ing : Option Nat) : State :=
  let s := cross s (cellDie c) (dieOfPort p) chPacket
  let q := queueFor s p k
  let r := if ecnDue s p q k ing (cellDie c) then markEcn s p k else (k, s)
  let s := atRest (ctrAdd r.2 (pPort p) 14 1)
  pump (storedAdd (setQueue s q (getQueue s q ++ [{ cell := c, gen := gen, pkt := r.1, cutThrough := false }])) q (sizeOf' r.1)) p

/-- The conditions of R223 for a cut-through start. -/
def mayCut (s : State) (p : Nat) (k : Pkt) (ing : Nat) : Bool :=
  mayStart s p && queuedAt s p == 0 && decide (creditsOf k ≤ vcGet (getPort s p).credits (vcOf k)) && gateTest s p k &&
    decide (rateTx s p ≤ rateRx s ing) && frameFits s p k && (!isTransit k || decide (0 ≤ bucketNow s p))

/-- The end of a send: the packet is counted as sent, the cell's count is decremented and the port goes on (R75, R236). A
cut-through packet whose trailer fails ends with STOMP and is none that was sent (R58). -/
def sendDone (s : State) (p : Nat) : State :=
  match (getPort s p).sending with
  | none => s
  | some (e, _) =>
    let s := modPort s p fun x => { x with sending := none }
    let s := if e.cutThrough && !trailerOk e.pkt then emit (trailerFault s p) (.link p "STOMP" 0) else ctrAdd s (pPort p) 1 1
    pump (decCell s e.cell e.gen) p

/-! ## Meters (R251, R252) -/

/-- Word `w` of meter `c` of port `p`. -/
def meterAddr (p c w : Nat) : Nat := pPolice p + 0x40 + 16 * c + 4 * w
/-- Burst sizes in 1/80 byte. -/
def meterCbs (s : State) (p c : Nat) : Nat := fget s (meterAddr p c 2) 15 0 * 1024 * 80
def meterPbs (s : State) (p c : Nat) : Nat := fget s (meterAddr p c 2) 31 16 * 1024 * 80

def getMeter (s : State) (p c : Nat) : MeterSt := Sparse.get (fun _ => ⟨0, 0, 0⟩) s.meters (8 * p + c)
def setMeter (s : State) (p c : Nat) (m : MeterSt) : State :=
  { s with meters := Sparse.set (fun _ => ⟨0, 0, 0⟩) s.meters (8 * p + c) m }

/-- Both buckets full (R252). -/
def fillMeter (s : State) (p c : Nat) : State := setMeter s p c ⟨meterCbs s p c, meterPbs s p c, s.uptime⟩

/-- Colours of RFC 2698. -/
inductive Colour where
  | green
  | yellow
  | red
  deriving DecidableEq, Repr

/-- Measure a packet of `b` bytes: two rates, three colours, colour-blind (R251). 100 Mbit/s is 1/80 byte per ns. -/
def measure (s : State) (p c b : Nat) : Colour × State :=
  if !bit s (meterAddr p c 0) 31 then (.green, s)
  else
    let m := getMeter s p c
    let dt := s.uptime - m.at'
    let tc := Nat.min (meterCbs s p c) (m.tc + dt * fget s (meterAddr p c 0) 15 0)
    let tp := Nat.min (meterPbs s p c) (m.tp + dt * fget s (meterAddr p c 1) 15 0)
    let n := b * 80
    if tp < n then (.red, setMeter s p c ⟨tc, tp, s.uptime⟩)
    else if tc < n then (.yellow, setMeter s p c ⟨tc, tp - n, s.uptime⟩)
    else (.green, setMeter s p c ⟨tc - n, tp - n, s.uptime⟩)

end Sys2Proof.Machine
end

