-- ==== Sys2Proof/Machine/Switch.lean ====
section
/-! DEFINITION. The switch core (11_switch_core_and_buffers.md): arriving packets, local deliveries, packets the device
originates, send completion and the leak auditor. -/
namespace Sys2Proof.Machine

open Sys2Proof

/-- The switch-core slices are HELD (R361). -/
def heldNow (s : State) : Bool := s.faults.held

/-- Hand a stored packet to its consumer on this device (R224): a delivery waits under a new handle. -/
def deliver (s : State) (d : Delivery) : State :=
  setDeliv { s with nextHandle := s.nextHandle + 1 } s.nextHandle (some d)

/-- Steps 5 to 7 of R222 for a packet that passed steps 1 to 4. -/
def storePacket (s : State) (p : Nat) (k : Pkt) (out : Egress) : State :=
  let d := dieOfPort p
  let n := poolOf (sizeOf' k)
  match freeCell s d n with
  | none => s
  | some c =>
    let v := vcOf k
    let cr := creditsOf k
    let ch := arrivalCharge s p v cr
    let s := holdCredits s p v cr
    let s := takeCell s c 1 ch (acctOf s k) (some (p, v)) cr
    let s := if ch == .floor then ctrAdd s (pBufPool d) 2 1 else s
    let s := ctrAdd s (pPort p) 0 1
    let g := (getCell s c).gen
    match out with
    | .here =>
      if trailerOk k then deliver s { cell := c, gen := g, pkt := k, port := some p, die := d }
      else decCell (trailerFault s p) c g
    | .out q =>
      let k' := leaving s k (some p) q
      if mayCut s q k' p then
        let hq := queueFor s q k'
        let r := if ecnDue s q hq k' (some p) d then markEcn s q k' else (k', s)
        startSend (ctrAdd r.2 (pPort q) 13 1) q hq { cell := c, gen := g, pkt := r.1, cutThrough := true }
      else enqueue s q c g k' (some p)
    | .none => decCell s c g

/-- Steps 1 and 2 of R222: the counter a failing packet advances, or none (R47, R49, R50, R56, R67). -/
def formatDrop (bs : List Byte) (k : Pkt) : Option Nat :=
  if k.hcrc != hcrcOf k then some 4
  else if 4096 < k.len.toNat || bs.length != 36 + k.len.toNat then some 6
  else if k.ver != 1 || !typeKnown k.ty then some 6
  else if k.ty == tAck && k.len != 16 then some 6
  else none

/-- Step 3 of R222: address, confinement and HOPS (R33, R38, R39, R55). -/
def addressDrop (s : State) (p : Nat) (k : Pkt) : Option Nat :=
  if !addrOk s k.dst then some 2
  else if !classOk k || !confined s k p then some 3
  else if 48 ≤ k.hops.toNat then some 7
  else none

/-- A packet past step 3: meter, egress choice and storage (R251, R222 steps 4 to 7). -/
def meterAndStore (s : State) (p : Nat) (k : Pkt) : State :=
  let r := if k.ty == tAck then (Colour.green, s) else measure s p k.cls.toNat (sizeOf' k)
  match r.1 with
  | .red => ctrAdd r.2 (pPolice p) 2 1
  | c =>
    let s := if k.ty == tAck then r.2 else ctrAdd r.2 (pPolice p) (if c = .yellow then 1 else 0) 1
    let m := if c = .yellow then markEcn s p k else (k, s)
    match chooseEgress m.2 m.1 (some p) with
    | .none => ctrAdd m.2 (pPort p) 8 1
    | e => storePacket m.2 p m.1 e

/-- PACKET_RX (R222): an arriving Askuf packet takes the steps in order. -/
def receivePacket (s : State) (p : Nat) (bs : List Byte) (stomped : Bool) : State :=
  if !live s || heldNow s || stomped then s
  else if !bit s (pPort p + 0x40) 31 then s
  else if !admitted s p then ctrAdd s (pPort p) 15 1
  else
    match decodePkt bs with
    | none => ctrAdd s (pPort p) 6 1
    | some k =>
      match formatDrop bs k with
      | some i => ctrAdd s (pPort p) i 1
      | none =>
        if k.ty == tCtrl || k.ty == tTime then (if trailerOk k then takeSingle s p k else trailerFault s p)
        else
          match addressDrop s p k with
          | some i => ctrAdd s (pPort p) i 1
          | none => meterAndStore s p k

def execPacketRx (port : Nat) (bytes : List Byte) (stomped : Bool) (s : State) : Out :=
  .next (receivePacket s port bytes stomped)

/-! ## Packets the device originates (R224, R234) -/

/-- A device-originated packet may take a cell of its pool (R229, R230, R233, R234). -/
def origMayTake (s : State) (die n : Nat) (control : Bool) (sub : Option Nat) : Bool :=
  if control then decide (countCells s die (fun _ x => x.charge == .control) < 2048)
  else
    decide (unusedReserve s die n + 1 + ((portsOfDie die).map fun q => ceilDiv (aboveSum s q) (creditRatio n)).sum ≤ poolFree s die n) &&
      (match sub with
       | some u =>
         (match subQuota s u with
          | some q => decide (subUsed s u die < q)
          | none => true)
       | none => true)

/-- Store a device-originated packet on its die, one cell for all its targets, and enqueue or deliver it (R224, R236). -/
def origStore (s : State) (w : OrigWait) : State :=
  let n := poolOf (sizeOf' w.pkt)
  match freeCell s w.die n with
  | none => s
  | some c =>
    let ch := if w.control then Charge.control else match w.sub with
      | some u => .sub u
      | none => .control
    let s := takeCell s c (Nat.max 1 w.targets.length) ch (if w.control then acctOf s w.pkt else w.sub) none 0
    let g := (getCell s c).gen
    if w.targets.isEmpty then deliver s { cell := c, gen := g, pkt := w.pkt, port := none, die := w.die }
    else w.targets.foldl (fun s t => enqueue s t.1 c g t.2 none) s

/-- A packet may take a cell of its pool now. -/
def origReady (s : State) (w : OrigWait) : Bool :=
  origMayTake s w.die (poolOf (sizeOf' w.pkt)) w.control w.sub && (freeCell s w.die (poolOf (sizeOf' w.pkt))).isSome

/-- A waiting packet stands before `w`: of the same originator, or of another that the next cell of the pool goes to (R234, R239). -/
def origAhead (s : State) (w : OrigWait) : Bool :=
  s.origWait.any fun o =>
    o.die == w.die && poolOf (sizeOf' o.pkt) == poolOf (sizeOf' w.pkt) &&
      ((o.control == w.control && o.sub == w.sub) || origReady s o)

/-- Store now, or wait first come, first served (R234). -/
def origSubmit (s : State) (w : OrigWait) : State :=
  if !origAhead s w && origReady s w then origStore s w
  else ctrAdd { s with origWait := s.origWait ++ [w] } (pBufPool w.die) 4 1

/-- Cells have become free: the packets that wait take those they may, first come, first served (R234, R239). -/
def serveOrig : Nat → State → State
  | 0, s => s
  | n + 1, s =>
    match s.origWait.find? fun w => origReady s w with
    | none => s
    | some w => serveOrig n (origStore { s with origWait := s.origWait.erase w } w)

/-- Serve what waits for a cell. -/
def serveWaiters (s : State) : State := serveOrig s.origWait.length s

/-- PACKET_TX_DONE (R236): what waits for the cell is served. -/
def execPacketTxDone (port : Nat) (s : State) : Out := .next (serveWaiters (sendDone s port))

/-- Originate copies of one packet, one for each destination, from one stored copy (R236); copies with no egress are counted
and dropped (R61). Local copies are stored on their own. -/
def originateAll (s : State) (die : Nat) (ks : List Pkt) (control : Bool) (sub : Option Nat) : State :=
  if heldNow s then s
  else
    let r := ks.foldl (fun (acc : List (Nat × Pkt) × List Pkt × Nat) k =>
      match chooseEgress s k none with
      | .here => (acc.1, acc.2.1 ++ [k], acc.2.2)
      | .out q => (acc.1 ++ [(q, leaving s k none q)], acc.2.1, acc.2.2)
      | .none => (acc.1, acc.2.1, acc.2.2 + 1)) ([], [], 0)
    let s := if r.2.2 == 0 then s else ctrAdd s (pBufPool die) 7 r.2.2
    let s := match r.1 with
      | [] => s
      | t :: _ => origSubmit s { die := die, pkt := t.2, targets := r.1, control := control, sub := sub }
    r.2.1.foldl (fun s k => origSubmit s { die := die, pkt := k, targets := [], control := control, sub := sub }) s

/-- Originate one packet. -/
def originate (s : State) (die : Nat) (k : Pkt) (control : Bool) (sub : Option Nat) : State :=
  originateAll s die [k] control sub

/-- ORIG_CELL_WAIT_END (R234): the packet that has waited longest for a cell of the pool takes one, if it may. -/
def execOrigCellWaitEnd (die pool : Nat) (s : State) : Out :=
  match s.origWait.find? fun w =>
      w.die == die && poolOf (sizeOf' w.pkt) == pool && origReady s w with
  | none => .next s
  | some w => .next (origStore { s with origWait := s.origWait.erase w } w)

/-- The consumer takes a delivered packet: its cell is freed (R224), and what waits for one is served (R234). -/
def takeDelivery (s : State) (h : Nat) (d : Delivery) : State := serveWaiters (decCell (setDeliv s h none) d.cell d.gen)

/-! ## The leak auditor (R238) -/

/-- A cell is referenced by a queue, a send in progress or a delivery. -/
def referenced (s : State) (c : Nat) : Bool :=
  (s.queues.any fun q => q.2.any fun e => e.cell == c) ||
    (s.ports.any fun p =>
      match p.2.sending with
      | some (e, _) => e.cell == c
      | none => false) ||
    (s.deliv.any fun d =>
      match d.2 with
      | some x => x.cell == c
      | none => false)

/-- Mark one cell of the pass: whether anything refers to it. -/
def markCell (s : State) (c : Nat) : State := setCell s c { getCell s c with marked := referenced s c }

/-- Sweep one cell: clear, suspect, or reclaim as leaked. -/
def auditCell (s : State) (c : Nat) : State :=
  let x := getCell s c
  if !x.allocated then s
  else if x.marked then setCell s c { x with suspect := false }
  else if !x.suspect then setCell s c { x with suspect := true }
  else
    let s := report (ctrAdd s (pBufPool (cellDie c)) 6 1) (mkFault 0x28 (cellDie c) 0x07 1 c 0xFF 0)
    let s := releaseCell s c
    setCell s c { getCell s c with gen := (x.gen + 1) % 16 }

/-- One pass over a die (R238, Table 11.6). -/
def execLeakAuditPass (die : Nat) (s : State) : Out :=
  let cs := (s.cells.map (·.1)).filter fun c => cellDie c == die
  let s := serveWaiters (cs.foldl auditCell (cs.foldl markCell s))
  let a := pBufPool die + 0x54
  let s := fset s a 31 16 ((fget s a 31 16 + 1) % 65536)
  .next (fset s a 15 0 (Nat.min 65535 (s.cells.filter fun e => cellDie e.1 == die && e.2.allocated && e.2.suspect).length))

/-- CREDIT_RETURN_RX (R64): credits restored to a downstream channel may make queues eligible. -/
def execCreditReturnRx (port vc count : Nat) (s : State) : Out :=
  if admitted s port then
    .next (pump (modPort s port fun x =>
      { x with credits := vcSet x.credits vc (vcGet x.credits vc + count),
               initial := vcSet x.initial vc (Nat.max (vcGet x.initial vc) (vcGet x.credits vc + count)) }) port)
  else .next s

/-! ## Gates and the transit bucket as commands -/

/-- GATE_ENTRY_BOUNDARY (R253, R259): the running list moves to its next entry. -/
def execGateEntryBoundary (port : Nat) (s : State) : Out :=
  let g := getGate s port
  if g.len == 0 then .next s
  else
    let s := settleAwake s port
    let e := gateEnd s port
    let g := match g.resync with
      | some _ => { g with entry := 0, since := e, resync := none }
      | none => { g with entry := (g.entry + 1) % g.len, since := e }
    .next (pump (setGate s port g) port)

/-- GATE_LIST_START (R255): the waiting bank comes into force at its start instant. -/
def execGateListStart (port : Nat) (s : State) : Out :=
  let a := pGate port + 0x40
  if !bit s a 29 then .next s
  else
    let s := settleAwake s port
    let g := getGate s port
    let bank := 1 - operBank s port
    let cyc := ((List.range g.waitLen).map fun i => (rd s (wGate port bank i + 4)).toNat).sum
    let s := fset (setBit s a 29 false) a 28 28 bank
    let s := wr s (pGate port + 0x4C) (BitVec.ofNat 32 cyc)
    .next (pump (setGate s port { g with len := g.waitLen, entry := 0, since := g.startAt, base := g.waitBase, resync := none }) port)

/-- TRANSIT_BUCKET_RECOVER (R250): the bucket is brought up to date, and queue 7 may be eligible again. -/
def execTransitBucketRecover (port : Nat) (s : State) : Out := .next (pump (setBucket s port (bucketNow s port)) port)

end Sys2Proof.Machine
end

