-- ==== Sys2Proof/Machine/Streams.lean ====
section
/-! DEFINITION. End-to-end streams of the device (R65 to R68, R426): windows, acceptance, acknowledgement, retransmission. -/
namespace Sys2Proof.Machine

open Sys2Proof

/-- A context as the loader binds it; the window is the default 1 MiB of R65 (log 19). -/
def streamNew (sub : Nat) (kind : StreamKind) (peer : BitVec 24) : Stream :=
  { sub := sub, kind := kind, peer := peer, pair := none, cum := 0, got := [], sinceAck := 0, die := 0, ecnSeen := 0, dup := 0,
    outOfWindow := 0, cls := 0, nextSeq := 0, unacked := [], window := 1048576, effWindow := 1048576, waiting := [] }

/-- The context that the loader bound for a stream (R426). -/
def findStream (s : State) (sub : Nat) (kind : StreamKind) (peer : BitVec 24) : Option Nat :=
  match s.streams.find? fun e =>
      match e.2 with
      | some x => x.sub == sub && x.kind == kind && x.peer == peer
      | none => false with
  | some e => some e.1
  | none => none

/-- JOB_CLASS of a subscriber (R244). -/
def jobClass (s : State) (n : Nat) : BitVec 3 := BitVec.ofNat 3 (fget s (wSchedSub n) 10 8)

/-! ## Sending (R65) -/

/-- Payload bytes sent and not acknowledged. -/
def inFlight (x : Stream) : Nat := (x.unacked.map fun u => u.pkt.payload.length).sum

/-- Both limits of R65 admit the packet. -/
def windowOk (x : Stream) (k : Pkt) : Bool :=
  decide (inFlight x + k.payload.length ≤ x.effWindow) &&
    (match x.unacked with
     | [] => true
     | u :: _ => decide ((k.seq.toNat + 2 ^ 24 - u.seq) % 2 ^ 24 < 4096))

/-- The packet as stream context `c` sends it: addresses, quire, class, number and checks. -/
def onStream (s : State) (c : Nat) (x : Stream) (k : Pkt) : Pkt :=
  sealPkt { k with dst := x.peer, src := ownAddr s, quire := BitVec.ofNat 10 (quireId s x.sub), cls := jobClass s x.sub,
                   stream := BitVec.ofNat 14 c, seq := BitVec.ofNat 24 x.nextSeq }

/-- A slot's release waits for the acknowledgement of a packet: a RESULT or notice of a chunk (R130), an abort, a status notice
(R131). -/
def owes (k : Pkt) (chunk : Option Nat) : Bool :=
  if k.ty == tPartial then chunk.isNone else chunk.isSome || (k.ty == tResult && k.offset == 0xFFFFFFFF)

/-- Note that a slot owes the acknowledgement of a packet. -/
def slotOwes (s : State) (c seq : Nat) (k : Pkt) (slot : Option (Nat × Nat)) (chunk : Option Nat) : State :=
  match slot with
  | none => s
  | some (i, n) =>
    match getSlot s i with
    | some x => if x.k == n && owes k chunk then setSlot s i (some { x with unacked := x.unacked ++ [(c, seq, chunk)] }) else s
    | none => s

/-- Packets that a slot's release waits for still wait for their window. -/
def owesWaiting (s : State) (i k : Nat) (p : Option Nat → Bool) : Bool :=
  s.streams.any fun e =>
    match e.2 with
    | some x => x.waiting.any fun w => w.slot == some (i, k) && owes w.pkt w.chunk && p w.chunk
    | none => false

/-- Number and note a packet that leaves on context `c` now (R65). -/
def numberPacket (s : State) (c : Nat) (x : Stream) (u : Sent) : State × Pkt :=
  let p := onStream s c x u.pkt
  (setStream (slotOwes s c x.nextSeq u.pkt u.slot u.chunk) c
    (some { x with nextSeq := (x.nextSeq + 1) % 2 ^ 24, unacked := x.unacked ++ [{ u with seq := x.nextSeq, pkt := p, times := 1 }] }), p)

/-- Form the next packet of context `c`: it is sent now, or waits for the window (R65). -/
def formPacket (s : State) (c : Nat) (k : Pkt) (control : Bool) (slot : Option (Nat × Nat)) (chunk : Option Nat) :
    State × Option Pkt :=
  match getStream s c with
  | none => (s, none)
  | some x =>
    let u : Sent := ⟨0, k, 0, [], slot, chunk, control⟩
    if x.waiting.isEmpty && windowOk x (onStream s c x k) then
      let r := numberPacket s c x u
      (r.1, some r.2)
    else (setStream s c (some { x with waiting := x.waiting ++ [u] }), none)

/-- Send one payload on several contexts from one stored copy (R236). -/
def sendAll (s : State) (die : Nat) (items : List (Nat × Pkt)) (control : Bool) (sub : Nat) (slot : Option (Nat × Nat))
    (chunk : Option Nat) : State :=
  let r := items.foldl (fun (acc : State × List Pkt) i =>
    let f := formPacket acc.1 i.1 i.2 control slot chunk
    (f.1, acc.2 ++ f.2.toList)) (s, [])
  if r.2.isEmpty then r.1 else originateAll r.1 die r.2 control (some sub)

/-- Send one packet. -/
def sendOne (s : State) (die c : Nat) (k : Pkt) (control : Bool) (sub : Nat) (slot : Option (Nat × Nat)) (chunk : Option Nat) :
    State := sendAll s die [(c, k)] control sub slot chunk

/-- The die that forms a packet again: its chunk's hosting die, or the context's. -/
def sentDie (x : Stream) (slot : Option (Nat × Nat)) (chunk : Option Nat) : Nat :=
  match slot, chunk with
  | some (i, _), some c => (i + c) % 8
  | _, _ => x.die

/-- Packets that waited for the window go out as far as it admits them. -/
def drainWaiting : Nat → State → Nat → State
  | 0, s, _ => s
  | n + 1, s, c =>
    match getStream s c with
    | none => s
    | some x =>
      match x.waiting with
      | [] => s
      | u :: rest =>
        if windowOk x (onStream s c x u.pkt) then
          let r := numberPacket s c { x with waiting := rest } u
          drainWaiting n (originate r.1 (sentDie x u.slot u.chunk) r.2 u.control (some x.sub)) c
        else s

/-! ## Acceptance and acknowledgement (R66, R67) -/

/-- ACK_COUNT (Table 3.10). -/
def ackCount (s : State) : Nat := fdef s (pRoute + 0x44) 23 16 16

/-- SACK: bit i set when CUM_SEQ + 1 + i has been received (Table 3.7). -/
def sackBits (x : Stream) : Nat := ((List.range 64).map fun i => if x.got.contains (i + 1) then 2 ^ i else 0).sum

/-- The ACK of a receive context (Table 3.7). -/
def ackPkt (s : State) (x : Stream) (src : BitVec 24) (stream : BitVec 14) : Pkt :=
  sealPkt { withPayload (blankPkt tAck) (beBytes 3 x.cum ++ beBytes 1 x.ecnSeen ++ beBytes 8 (sackBits x) ++ List.replicate 4 0) with
    dst := src, src := ownAddr s, cls := x.cls, quire := BitVec.ofNat 10 (quireId s x.sub), stream := stream }

/-- Send an ACK on receive context `c` (R67). -/
def sendAck (s : State) (c : Nat) : State :=
  match getStream s c with
  | none => s
  | some x =>
    match x.pair with
    | none => s
    | some (src, st) =>
      originate (setStream s c (some { x with sinceAck := 0, ecnSeen := 0 })) x.die (ackPkt s x src st) true (some x.sub)

/-- The record after sequence number CUM_SEQ + d is received. -/
def receiveSeq (x : Stream) (d : Nat) : Stream :=
  if d == 0 then
    let n := (findUp (fun i => !x.got.contains i) 4096 1).getD 1
    { x with cum := (x.cum + n) % 2 ^ 24, got := (x.got.filter fun i => n < i).map (· - n) }
  else { x with got := x.got ++ [d] }

/-- SEQ is a duplicate on a receive context (R66). -/
def isDuplicate (x : Stream) (seq : Nat) : Bool :=
  let d := (seq + 2 ^ 24 - x.cum) % 2 ^ 24
  2 ^ 24 - 4194304 ≤ d || (d < 4096 && x.got.contains d)

/-- The receive context that a packet's (SRC, STREAM) pair is tied to. -/
def contextOfPair (s : State) (k : Pkt) : Option Nat :=
  (s.streams.find? fun e => match e.2 with
    | some x => x.pair == some (k.src, k.stream)
    | none => false).map (·.1)

/-- A duplicate on its pair's context is discarded, counted and acknowledged again, before any check of what it names (log 39). -/
def againOf (s : State) (k : Pkt) (die : Nat) : Option State :=
  match contextOfPair s k with
  | none => none
  | some c =>
    match getStream s c with
    | none => none
    | some x => if isDuplicate x k.seq.toNat then some (sendAck (setStream s c (some { x with dup := x.dup + 1, die := die })) c) else none

/-- STREAM_ACCEPT (R66): classify a packet of receive context `c`; true where it is accepted. -/
def streamAccept (s : State) (c : Nat) (k : Pkt) (die : Nat) : State × Bool :=
  match getStream s c with
  | none => (s, false)
  | some x =>
    if x.pair.getD (k.src, k.stream) != (k.src, k.stream) then (setStream s c (some { x with outOfWindow := x.outOfWindow + 1 }), false)
    else
      let x := { x with pair := some (k.src, k.stream), die := die, cls := k.cls }
      let d := (k.seq.toNat + 2 ^ 24 - x.cum) % 2 ^ 24
      if isDuplicate x k.seq.toNat then
        (sendAck (setStream s c (some { x with dup := x.dup + 1 })) c, false)
      else if 4096 ≤ d then (setStream s c (some { x with outOfWindow := x.outOfWindow + 1 }), false)
      else
        let x := receiveSeq x d
        let x := { x with sinceAck := x.sinceAck + 1, ecnSeen := Nat.min 255 (x.ecnSeen + b2n k.ecn) }
        let s := setStream s c (some x)
        (if ackCount s ≤ x.sinceAck then sendAck s c else s, true)

/-- ACK_DELAY_EXPIRY (R67). -/
def execAckDelayExpiry (ctx : Nat) (s : State) : Out :=
  match getStream s ctx with
  | some x => if x.sinceAck == 0 then .next s else .next (sendAck s ctx)
  | none => .next s

/-! ## Acknowledgements and retransmission (R65, R67, R68) -/

/-- An ACK reports a sequence number as received. -/
def ackShows (cum sack seq : Nat) : Bool :=
  let d := (seq + 2 ^ 24 - cum) % 2 ^ 24
  decide (2 ^ 23 ≤ d) || (decide (1 ≤ d) && decide (d ≤ 64) && sack / 2 ^ (d - 1) % 2 == 1)

/-- The numbers above `seq` that an ACK's SACK field shows as received. -/
def shownAbove (cum sack seq : Nat) : List Nat :=
  ((List.range 64).filter fun i => sack / 2 ^ i % 2 == 1).filterMap fun i =>
    let q := (cum + 1 + i) % 2 ^ 24
    if 1 ≤ (q + 2 ^ 24 - seq) % 2 ^ 24 && (q + 2 ^ 24 - seq) % 2 ^ 24 < 2 ^ 23 then some q else none

/-- Send an unacknowledged packet again, unchanged, in a new cell, at most 64 times in all (R68, R236). A packet sent again because
an ACK shows it missing (`shown`) takes the numbers already sent above it as counted; one sent again at its RTO does not. -/
def retransmit (s : State) (c seq : Nat) (shown : Bool) : State :=
  match getStream s c with
  | none => s
  | some x =>
    match x.unacked.find? fun u => u.seq == seq with
    | none => s
    | some u =>
      if 64 ≤ u.times then s
      else
        let above := (x.unacked.filter fun w => 1 ≤ (w.seq + 2 ^ 24 - seq) % 2 ^ 24 && (w.seq + 2 ^ 24 - seq) % 2 ^ 24 < 2 ^ 23).map (·.seq)
        let x := { x with unacked := x.unacked.map fun w =>
          if w.seq == seq then { w with times := w.times + 1, later := if shown then (w.later ++ above).eraseDups else w.later }
          else { w with later := w.later.filter (· != seq) } }
        originate (setStream s c (some x)) (sentDie x u.slot u.chunk) u.pkt u.control (some x.sub)

/-- Take an ACK on send context `c`: released packets leave the window, ECN paces it, losses are sent again (R65, R67, R68).
The packets released are answered as well. -/
def takeAck (s : State) (c : Nat) (x : Stream) (k : Pkt) : State × List Sent :=
  let cum := beAt k.payload 0 3
  let ecn := beAt k.payload 3 1
  let sack := beAt k.payload 4 8
  let gone := x.unacked.filter fun u => ackShows cum sack u.seq
  let keep := x.unacked.filter fun u => !ackShows cum sack u.seq
  let eff := if ecn != 0 then Nat.max 65536 (x.effWindow / 2) else Nat.min x.window (x.effWindow + 65536)
  let lost := keep.filter fun u =>
    decide (3 ≤ ((shownAbove cum sack u.seq).filter fun q => !u.later.contains q).length)
  let keep := keep.map fun u =>
    if lost.any (·.seq == u.seq) then { u with later := (u.later ++ shownAbove cum sack u.seq).eraseDups } else u
  let s := setStream s c (some { x with unacked := keep, effWindow := eff })
  let s := lost.foldl (fun s u => retransmit s c u.seq true) s
  (drainWaiting x.waiting.length s c, gone)

/-- RTO_EXPIRY (R68). -/
def execRtoExpiry (ctx : Nat) (seq : Nat) (s : State) : Out := .next (retransmit s ctx seq false)

/-- An ACK's send context: open, with the ACK's SRC as its destination (R67). -/
def ackContext (s : State) (k : Pkt) : Option Stream :=
  match getStream s k.stream.toNat with
  | some x => if x.peer == k.src then some x else none
  | none => none

end Sys2Proof.Machine
end

