-- ==== Sys2Proof/Machine/Clock.lean ====
section
/-! DEFINITION. The gating tree of the clocked islands (R367 to R369, Table 18.2). -/
namespace Sys2Proof.Machine

open Sys2Proof

/-- The octet loop of a fabric port (Table 1.5 and the text below it). -/
def nodeOfPort (p : Nat) : Nat :=
  12 * dieOfPort p + (if p < 128 then p % 16 / 2 else if p < 152 then 8 + (p - 128) / 8 else 11)

/-- The parent of a clock node (Table 18.2). -/
def parentNode (n : Nat) : Option Nat := if n < 96 then some (96 + n / 12) else if n < 112 then some 112 else none

/-- Nodes marked never gated. -/
def neverGated (n : Nat) : Bool := n == 104 || n == 109 || n == 110 || n == 112

/-- Bit of CLK_GATE_MAP. -/
def nodeOn (s : State) (n : Nat) : Bool := bit s (pClk + 0x50 + 4 * (n / 32)) (n % 32)
def setNode (s : State) (n : Nat) (v : Bool) : State := setBit s (pClk + 0x50 + 4 * (n / 32)) (n % 32) v

/-- The lane groups of an octet loop, in increasing order. -/
def groupsOfNode (n : Nat) : List Nat :=
  let d := n / 12
  match n % 12 with
  | 8 => groupsOfPort (128 + d)
  | 9 => groupsOfPort (136 + d)
  | 10 => groupsOfPort (144 + d)
  | 11 => groupsOfPort (152 + d)
  | m => [16 * d + 2 * m, 16 * d + 2 * m + 1]

/-- The first child of a node in use, as CLK_GATE_RESULT.CHILD codes it (R369). -/
def childInUse (s : State) (n : Nat) : Option Nat :=
  if n < 96 then
    (match (groupsOfNode n).find? fun g => bit s (pPort (portOfGroup g) + 0x40) 31 with
     | some g => some (0x100 + g)
     | none => none)
  else if n < 104 then findUp (fun c => nodeOn s c) 12 (12 * (n - 96))
  else if 105 ≤ n && n < 109 && bit s (pLpddr 32 + 0x44) (28 + (n - 105)) then some n
  else none

/-- The lane-group and channel pages below a node show whether their clock runs (Table 18.7, CLOCK). -/
def showClock (s : State) (n : Nat) (on : Bool) : State :=
  let pages := if n < 96 then ((groupsOfNode n).map fun g => [pLaneGrp g, pPattern g]).flatten
    else if 105 ≤ n && n < 109 then (List.range 8).map fun i => pLpddr (8 * (n - 105) + i) else []
  pages.foldl (fun s a =>
    if on then (if fget s (a + 0x0C) 2 0 == 0 then fset s (a + 0x0C) 2 0 2 else s)
    else fset (fset s (a + 0x0C) 2 0 0) (a + 0x0C) 15 8 6) s

/-- Turn one node on, with its ramp (R367). -/
def turnOn (s : State) (n : Nat) : State :=
  let s := { s with ramps := s.ramps.filter fun r => r.1 != n }
  if nodeOn s n then s else showClock (setNode { s with ramps := s.ramps ++ [(n, true)] } n true) n true

/-- Turn on a node and every ancestor that is off, parent first (R369). -/
def turnOnChain (s : State) (n : Nat) : State :=
  match parentNode n with
  | none => turnOn s n
  | some a =>
    (match parentNode a with
     | none => turnOn (turnOn s a) n
     | some b => turnOn (turnOn (turnOn s b) a) n)

/-- Write CLK_GATE_RESULT (Table 18.10). -/
def gateResult (s : State) (result child node : Nat) : State :=
  wr s (pClk + 0x4C) (BitVec.ofNat 32 (result * 2 ^ 30 + child * 256 + node))

/-- The CLK_GATE command ON (R369). -/
def clkOn (s : State) (n : Nat) : State :=
  let t := turnOnChain s n
  gateResult t (if t.ramps.any fun r => r.1 == n then 3 else 0) 0 n

/-- The CLK_GATE command OFF (R369). -/
def clkOff (s : State) (n : Nat) : State :=
  if neverGated n then raise (gateResult (ctrAdd s pClk 1 1) 2 0 n) pClk 8
  else
    match childInUse s n with
    | some c => raise (gateResult (ctrAdd s pClk 1 1) 1 c n) pClk 8
    | none =>
      if nodeOn s n then gateResult { s with ramps := s.ramps.filter (fun r => r.1 != n) ++ [(n, false)] } 3 0 n
      else gateResult s 0 0 n

/-- DIVIDER_RAMP_END (R367): the loop is at full rate, or stopped after the reverse ramp. -/
def execDividerRampEnd (node : Nat) (s : State) : Out :=
  match s.ramps.find? fun r => r.1 == node with
  | none => .next s
  | some r =>
    let s := { s with ramps := s.ramps.filter fun x => x.1 != node }
    let s := if r.2 then s else showClock (setNode s node false) node false
    .next (if fget s (pClk + 0x4C) 7 0 == node && fget s (pClk + 0x4C) 31 30 == 3 then fset s (pClk + 0x4C) 31 30 0 else s)

end Sys2Proof.Machine
end

