-- ==== Sys2Proof/Machine/Links.lean ====
section
/-! DEFINITION. Ports from lane to admission, the link layer and the kettle stitches (13_links_and_kettle_stitches.md, R71 to
R73). -/
namespace Sys2Proof.Machine

open Sys2Proof

/-! ## Registers of a port -/

/-- STATE of PORT_STATE; QUAR of PORT_QUAR is 1 exactly while the port is quarantined (Table 13.7). -/
def setPState (s : State) (p v : Nat) : State := setBit (fset s (pPort p + 0x44) 3 0 v) (pPort p + 0x48) 31 (v == 5)
def pStage (s : State) (p : Nat) : Nat := fget s (pPort p + 0x44) 11 8
def setStage (s : State) (p v : Nat) : State := fset s (pPort p + 0x44) 11 8 v
/-- BLK_STATE of a page: STATE, STOP_CAUSE, PEND_ON (Table 20.5). -/
def blkState (s : State) (page : Nat) : Nat := fget s (page + 0x0C) 2 0
def setBlk (s : State) (page v : Nat) : State := fset s (page + 0x0C) 2 0 v
def setCause (s : State) (page v : Nat) : State := fset s (page + 0x0C) 15 8 v
/-- PORT_CFG.EN and TEST. -/
def portEn (s : State) (p : Nat) : Bool := bit s (pPort p + 0x40) 31
def portTest (s : State) (p : Nat) : Bool := bit s (pPort p + 0x40) 30

/-- The lane group and the lane within it of a port's physical lane. -/
def laneGroup (p lane : Nat) : Nat := (groupsOfPort p).getD (lane / 4) 0
/-- The lane number of a port's physical lane (Table 1.5). -/
def laneNum (p lane : Nat) : Nat := 4 * laneGroup p lane + lane % 4

/-- A bit of LG_STATUS of a lane: base 0 LOS, 4 LOL, 8 POL_INV, 12 HEALTHY. -/
def laneBit (s : State) (p lane base : Nat) : Bool := bit s (pLaneGrp (laneGroup p lane) + 0x40) (base + lane % 4)
def setLaneBit (s : State) (p lane base : Nat) (v : Bool) : State :=
  setBit s (pLaneGrp (laneGroup p lane) + 0x40) (base + lane % 4) v
/-- RX_LANE of a lane: the sender's lane number it carries (R267). -/
def rxLane (s : State) (p lane : Nat) : Nat := fget s (pLaneGrp (laneGroup p lane) + 0x40) (4 * (lane % 4) + 19) (4 * (lane % 4) + 16)
def setRxLane (s : State) (p lane v : Nat) : State :=
  fset s (pLaneGrp (laneGroup p lane) + 0x40) (4 * (lane % 4) + 19) (4 * (lane % 4) + 16) v

/-- The largest allowed width that does not exceed `n` healthy lanes (R73). -/
def widthFor (p n : Nat) : Nat :=
  if isLeaf p then (if 4 ≤ n then 4 else if 2 ≤ n then 2 else n)
  else if 8 ≤ n then 8 else if 6 ≤ n then 6 else if 4 ≤ n then 4 else if 2 ≤ n then 2 else n

/-- Bits set in a field. -/
def popField (s : State) (a hi lo : Nat) : Nat :=
  ((List.range (hi + 1 - lo)).filter fun i => bit s a (lo + i)).length

def wAddr (p : Nat) : Nat := pPort p + 0x60

/-! ## Stitches: closing (R275, Table 13.10) -/

def stState (s : State) (n : Nat) : Nat := fget s (pStitch n + 0x44) 2 0
def setSt (s : State) (n v : Nat) : State := fset s (pStitch n + 0x44) 2 0 v

/-- Remove a stitch's bias with a close cause: OPENING and OPEN go to CLOSING; INNER, whose bias is off, to CLOSED. -/
def closeStitch (s : State) (n cause : Nat) : State :=
  let st := stState s n
  if st == 2 || st == 3 then
    let s := fset (setSt s n 4) (pStitch n + 0x44) 23 16 cause
    ctrAdd (setStitch s n { getStitch s n with commandOpen := false }) (pStitch n) 1 1
  else if st == 1 then fset (setSt s n 0) (pStitch n + 0x44) 23 16 cause
  else s

/-- Every stitch closes (reset, supply loss, fallow). -/
def closeAll (s : State) (cause : Nat) : State := forUp (fun s n => closeStitch s n cause) 12 0 s

/-- HOLD_OPEN of a stitch. -/
def holdOpen (s : State) (n : Nat) : Bool := bit s (pStitch n + 0x40) 1

/-- Close the stitch of a spine port unless HOLD_OPEN prevents the trigger. -/
def closeForPort (s : State) (p cause : Nat) (preventable : Bool) : State :=
  if isSpine p && !(preventable && holdOpen s (stitchOfPort p)) then closeStitch s (stitchOfPort p) cause else s

/-! ## Link down (R72) -/

/-- Drop the packets of the queues and of the send in progress of a port, their cells decremented. -/
def dropQueues (s : State) (p : Nat) : State :=
  let s := match (getPort s p).sending with
    | some (e, _) => decCell (modPort s p fun x => { x with sending := none }) e.cell e.gen
    | none => s
  (queuesOfPort s p).foldl (fun s q =>
    let es := getQueue s q.2.2
    let s := setQueue s q.2.2 []
    let s := storedSub s q.2.2 ((es.map fun e => sizeOf' e.pkt).sum)
    es.foldl (fun s e => decCell s e.cell e.gen) s) s

/-- Packets a link's fall drops: those of the replay buffer and those queued and not yet in it. -/
def committed (s : State) (p : Nat) : Nat := (getPort s p).replay.length + queuedAt s p

/-- The time heard on a spine port is forgotten with its link (R258). -/
def forgetTime (s : State) (p : Nat) : State :=
  { s with timeSt := { s.timeSt with offers := Sparse.erase s.timeSt.offers p, syncs := Sparse.erase s.timeSt.syncs p,
                                     reqTimes := Sparse.erase s.timeSt.reqTimes p, delays := s.timeSt.delays.filter (·.1 != p) } }

/-- The link of a port goes down: packets dropped and counted, credits, time and widths gone (R72); what waits for the cells is
served. -/
def linkDown (s : State) (p : Nat) : State :=
  let n := committed s p
  let s := settleBucket s p
  let s := dropQueues s p
  let s := if n == 0 then s else ctrAdd s (pPort p) 10 n
  let s := modPort (forgetHeld s p) p fun x =>
    { x with credits := [], initial := [], replay := [], txLsn := 0, rxLsn := 0, rxDiscard := false, replayFails := 0,
             lastRetry := none, stripingRx := false, stripingTx := false, signal := [], halfReq := false, halfTried := false,
             identGot := false, identAcked := false, widenedRx := none, widenedTx := none }
  serveWaiters (wr (forgetTime s p) (wAddr p) (rd s (wAddr p) &&& 0xFF000000))

/-- A port starts bring-up at stage 1 (R264): its clocks run and it waits for a signal, at the rate of its MODE (R266). -/
def bringUp (s : State) (p : Nat) : State :=
  let s := turnOnChain s (nodeOfPort p)
  let s := modPort s p fun x =>
    { x with signal := [], identGot := false, identAcked := false, halfReq := false, halfTried := false, waitRestart := false }
  let s := (List.range (lanesOfPort p)).foldl (fun s l => { s with lanes := Sparse.erase s.lanes (laneNum p l) }) s
  let s := setBit s (pPort p + 0x44) 17 (bit s (pPort p + 0x40) 0)
  setStage (setPState s p (if (getPort s p).inner then 8 else 1)) p 1

/-- A port that was up loses its link and starts again from stage 1; a spine port's stitch closes (Table 13.10). -/
def losePort (s : State) (p : Nat) : State :=
  let was := admitted s p
  let s := linkDown s p
  let s := if was then setBlk (closeForPort s p 5 true) (pPort p) 1 else s
  if portEn s p && !portTest s p then bringUp s p else s

/-! ## Re-striping (R73) -/

/-- A direction begins to re-stripe: counted, and its packets wait (R73). -/
def beginStripe (s : State) (p : Nat) (d : Dir) : State :=
  let s := ctrAdd (fieldSat s (wAddr p) 31 24 1) (pPort p) 12 1
  modPort s p fun x =>
    match d with
    | .rx => { x with stripingRx := true }
    | .tx => { x with stripingTx := true }

/-- The width that a direction's healthy lanes give it (R73). -/
def newWidth (s : State) (p : Nat) (d : Dir) : Nat :=
  match d with
  | .rx => widthFor p (popField s (wAddr p) 23 16)
  | .tx => widthFor p (popField s (wAddr p) 15 8)

/-- Width of a direction now. -/
def widthOf (s : State) (p : Nat) (d : Dir) : Nat :=
  match d with
  | .rx => widthRx s p
  | .tx => widthTx s p

/-- Store a direction's new width; a change counts as one re-striping, and width 0 takes the link down. -/
def restripe (s : State) (p : Nat) (d : Dir) : State :=
  let w := newWidth s p d
  if w == 0 then losePort s p
  else if w == widthOf s p d then s
  else
    let s := settleBucket s p
    let s := match d with
      | .rx => fset s (wAddr p) 7 4 w
      | .tx => fset s (wAddr p) 3 0 w
    beginStripe s p d

/-- The port has passed stage 7: a stripe is in use. -/
def striped (s : State) (p : Nat) : Bool := 8 ≤ pStage s p

/-- LANE_UNHEALTHY (R263). A lane position counts for receive, the port's own transmit lane for transmit. The lane leaves the stripe,
in every state of the port in which there is one, and trains alone from stage 1. -/
def execLaneUnhealthy (port lane : Nat) (dir : Dir) (cause : LaneCause) (s : State) : Out :=
  match dir with
  | .tx =>
    let s := setBit s (wAddr port) (8 + lane) false
    .next (if striped s port then restripe s port .tx else s)
  | .rx =>
    let g := laneGroup port lane
    let s := match cause with
      | .los => ctrAdd (setLaneBit s port lane 0 true) (pLaneGrp g) 4 1
      | .lol => ctrAdd (setLaneBit s port lane 4 true) (pLaneGrp g) 5 1
      | .errorRatio => s
    let was := laneBit s port lane 12
    let s := setLaneBit s port lane 12 false
    let s := { s with lanes := Sparse.erase s.lanes (laneNum port lane) }
    let s := modPort s port fun x => { x with signal := x.signal.filter (· != lane) }
    let s := if was then setBit s (wAddr port) (16 + rxLane s port lane) false else s
    .next (if striped s port then restripe s port .rx else s)

/-- RESTRIPE_DONE (R73, R64): the direction's initial credits are in force in full again, and waiting frames resume (log 80). -/
def execRestripeDone (port : Nat) (dir : Dir) (s : State) : Out :=
  match dir with
  | .rx =>
    if !(getPort s port).stripingRx then .next s
    else
      let s := modPort s port fun x => { x with stripingRx := false }
      .next (pump (if admitted s port then restoreGrants s port else s) port)
  | .tx =>
    if !(getPort s port).stripingTx then .next s
    else
      let s := modPort s port fun x => { x with stripingTx := false }
      .next (pump (if admitted s port then restoreCredits s port else s) port)

/-- A direction may widen: a second has passed since it last did (R73). -/
def mayWiden (s : State) (last : Option Nat) : Bool :=
  match last with
  | none => true
  | some t => decide (t + 1000000000 ≤ s.uptime)

def laneInit : LaneTrain :=
  { stage := 0, ask := 0, bestPreset := 0, bestSnr := 0, probe := 0, tapReqs := 0, ready := false, partner := false, preset := 0,
    tapAck := 0, num := 0, numN := 0, width := 0, taps := [] }
def getLane (s : State) (l : Nat) : LaneTrain := Sparse.get (fun _ => laneInit) s.lanes l
def setLane (s : State) (l : Nat) (x : LaneTrain) : State := { s with lanes := Sparse.set (fun _ => laneInit) s.lanes l x }

/-- Re-stripe a direction with a lane back; where that widens it, the second of R73 starts. -/
def widen (s : State) (p : Nat) (d : Dir) : State :=
  if newWidth s p d == widthOf s p d then s
  else
    restripe (modPort s p fun x =>
      match d with
      | .rx => { x with widenedRx := some s.uptime }
      | .tx => { x with widenedTx := some s.uptime }) p d

/-- LANE_REJOIN (R263): a lane that passed stage 7 alone is healthy again and the direction widens, once per second at most. What the
partner's receiver has done for a transmit lane only the partner knows. -/
def execLaneRejoin (port lane : Nat) (dir : Dir) (s : State) : Out :=
  if !striped s port then .next s
  else
    match dir with
    | .rx =>
      if (getLane s (laneNum port lane)).stage != 7 || !mayWiden s (getPort s port).widenedRx then .next s
      else
        let s := setLaneBit (setLaneBit (setLaneBit s port lane 0 false) port lane 4 false) port lane 12 true
        .next (widen (setBit s (wAddr port) (16 + rxLane s port lane) true) port .rx)
    | .tx =>
      if !mayWiden s (getPort s port).widenedTx then .next s
      else .next (widen (setBit s (wAddr port) (8 + lane) true) port .tx)

/-! ## Link-level retry (R71) -/

/-- The link check: CRC-32C over the LSN, in two bytes, and the packet (R71; log 18). -/
def linkCheck (f : LinkFrame) : Word := BitVec.ofNat 32 (crc32c (beBytes 2 f.lsn.toNat ++ f.packet))

/-- The port frames: it is past stage 7. -/
def framing (s : State) (p : Nat) : Bool := 8 ≤ pStage s p && fget s (wAddr p) 7 4 != 0

/-- LINK_FRAME_RX (R71): the packet of an accepted frame arrives by PACKET_RX. After a discard every frame but the one that the replay
starts from is discarded; that one is checked again, and asked for again where it fails. -/
def execLinkFrameRx (port : Nat) (frame : LinkFrame) (s : State) : Out :=
  if !live s || heldNow s || !framing s port then .next s
  else
    let s := if frame.uncorrectable then
        report (ctrAdd s (pLaneGrp ((groupsOfPort port).getD 0 0)) 2 1) (mkFault 0x20 port 0x3A 0 frame.lsn.toNat 0xFF 0)
      else s
    let x := getPort s port
    let good := !frame.uncorrectable && frame.check == linkCheck frame && frame.lsn.toNat == x.rxLsn
    if good then
      .next (emit (modPort s port fun x => { x with rxLsn := (x.rxLsn + 1) % 4096, rxDiscard := false }) (.link port "ACK" frame.lsn.toNat))
    else if x.rxDiscard && frame.lsn.toNat != x.rxLsn then .next s
    else .next (emit (modPort s port fun x => { x with rxDiscard := true }) (.link port "RETRY" x.rxLsn))

/-- Frames of a replay list from LSN `l` on; all of them where `l` is not held. -/
def replayFrom (l : Nat) (r : List (Nat × Pkt)) : List (Nat × Pkt) :=
  if r.any fun e => e.1 == l then r.dropWhile fun e => e.1 != l else r

/-- LLR_RETRY_RX (R71, R72): frames before the named LSN are acknowledged, the rest repeated in order. A RETRY that names the frame
of the last one says that its replay failed; 16 failed replays in succession re-stripe the link. -/
def execLlrRetryRx (port : Nat) (lsn : BitVec 12) (s : State) : Out :=
  if !framing s port then .next s
  else
    let x := getPort s port
    let fails := if x.lastRetry == some lsn.toNat then x.replayFails + 1 else 0
    let s := modPort s port fun x =>
      { x with replay := replayFrom lsn.toNat x.replay, replayFails := fails, lastRetry := some lsn.toNat }
    let s := emit (ctrAdd s (pPort port) 9 1) (.link port "REPLAY" lsn.toNat)
    if fails < 16 then .next s
    else
      let s := modPort s port fun x => { x with replayFails := 0 }
      if widthTx s port == 0 then .next (losePort s port) else .next (beginStripe s port .tx)

/-- LINK_ACK_RX (R71): frames up to the acknowledged LSN leave the replay buffer, and the room lets packets start. -/
def execLinkAckRx (port : Nat) (lsn : BitVec 12) (s : State) : Out :=
  .next (pump (modPort s port fun x =>
    if x.replay.any fun e => e.1 == lsn.toNat then
      { x with replay := (x.replay.dropWhile fun e => e.1 != lsn.toNat).drop 1, replayFails := 0, lastRetry := none }
    else x) port)

/-- FENCE_RX (Table 17.5 step 3): the port declares its link down at once. -/
def execFenceRx (port : Nat) (s : State) : Out :=
  if live s && !heldNow s && framing s port then .next (losePort s port) else .next s

/-! ## Bring-up (R264 to R267) -/

/-- Coefficients of a preset in units of 0.005 (Table 21.6). -/
def presetTaps (n : Nat) : List Int :=
  match n with
  | 1 => [0, 0, 0, 200, 0]
  | 2 => [0, 0, -20, 180, 0]
  | 3 => [0, 0, -30, 160, -10]
  | 4 => [0, 10, -40, 140, -10]
  | 5 => [0, 16, -50, 124, -10]
  | 6 => [-6, 20, -54, 110, -10]
  | _ => [0, 0, 0, 0, 0]

/-- Largest magnitude of a pre- or post-cursor in units of 0.005 (R419). -/
def tapLimit (i : Nat) : Int :=
  match i with
  | 0 => 12
  | 1 => 30
  | 2 => 70
  | _ => 40

/-- A TAP_REQ applied to the coefficients; none at a limit (R419). -/
def moveTap (taps : List Int) (sel : Nat) (up : Bool) : Option (List Int) :=
  let d : Int := if up then 1 else -1
  let c := taps.getD sel 0 + d
  let c0 := taps.getD 3 0 - d
  if sel == 3 || c0 < 100 || c < -(tapLimit sel) || tapLimit sel < c then none
  else some ((taps.set sel c).set 3 c0)

/-! ## Training frames (R265, Table 13.3) -/

/-- The control block of the frames that transmit lane `lane` of port `p` sends now. -/
def trainBlock (s : State) (p lane : Nat) (halfAck : Bool) : BitVec 80 :=
  let x := getLane s (laneNum p lane)
  let preset := if 1 ≤ x.ask && x.ask ≤ 6 then x.ask else if x.ask == 7 then x.bestPreset else 0
  let tapping := x.ask == 8 && !x.ready
  let body : BitVec 64 :=
    BitVec.ofNat 4 lane ++ BitVec.ofNat 4 (lane ^^^ 15) ++ BitVec.ofNat 4 (lanesOfPort p) ++ BitVec.ofNat 4 preset ++
      BitVec.ofNat 2 (if tapping then 1 + x.probe % 2 else 0) ++ BitVec.ofNat 3 (if tapping then x.probe / 2 else 0) ++
      BitVec.ofBool (getPort s p).halfReq ++ BitVec.ofNat 4 x.preset ++ BitVec.ofNat 2 x.tapAck ++ BitVec.ofBool x.ready ++
      BitVec.ofBool halfAck ++ (0 : BitVec 34)
  body ++ BitVec.ofNat 16 (crc16 (beBytes 8 body.toNat))

/-- A lane's training frames change to a new control block: lane number and block (log 9). -/
def sendTrain (s : State) (p lane : Nat) (halfAck : Bool) : State :=
  emit s (.link p "TRAIN" (lane * 2 ^ 80 + (trainBlock s p lane halfAck).toNat))

/-- SIGNAL_DETECT (R264, stage 1): the lane has a signal, and the port, or a lane outside the stripe by itself, trains: its frames
begin with stage 2 (R265). A port whose stage failed waits for its restart. -/
def execSignalDetect (port lane : Nat) (s : State) : Out :=
  let st := pState s port
  let s := setLaneBit s port lane 0 false
  if !portEn s port || portTest s port || (getPort s port).waitRestart then .next s
  else if striped s port then
    (if laneBit s port lane 12 then .next s
     else .next (sendTrain (setLane s (laneNum port lane) { laneInit with stage := 1 }) port lane false))
  else if st == 1 || st == 2 || st == 8 then
    let s := modPort s port fun x => { x with signal := addNat x.signal lane }
    let s := if st == 8 then s else setPState s port 2
    .next (sendTrain (setStage s port (Nat.max 2 (pStage s port))) port lane false)
  else .next s

/-- The control block's CRC holds (R265). -/
def frameCrcOk (c : BitVec 80) : Bool := (c.extractLsb' 0 16).toNat == crc16 (beBytes 8 (c.extractLsb' 16 64).toNat)

/-- A tap change that did not help gives way to the next: increment and decrement of each tap in turn (log 84). -/
def nextProbe (x : LaneTrain) : LaneTrain :=
  if x.probe == 9 then { x with ready := true } else { x with probe := x.probe + 1, tapReqs := x.tapReqs + 1 }

/-- The receiver's search on one lane (R266): presets 1 to 6 in turn, each judged once the partner says that it is in use, then the
best of them, then single taps for as long as SNR improves, with at most 256 requests. -/
def searchStep (x : LaneTrain) (snr presetAck tapAck : Nat) : LaneTrain :=
  if x.ready then x
  else if x.ask == 0 then { x with ask := 1 }
  else if x.ask ≤ 6 then
    if presetAck != x.ask then x
    else
      let better := decide (x.bestSnr < snr) || x.bestPreset == 0
      { x with ask := x.ask + 1, bestPreset := if better then x.ask else x.bestPreset, bestSnr := if better then snr else x.bestSnr }
  else if x.ask == 7 then
    if presetAck != x.bestPreset then x else { x with ask := 8, bestSnr := snr, probe := 0, tapReqs := 1 }
  else if tapAck == 0 then x
  else if 256 ≤ x.tapReqs then { x with ready := true }
  else if tapAck == 1 && decide (x.bestSnr < snr) then { x with bestSnr := snr, tapReqs := x.tapReqs + 1 }
  else nextProbe x

/-- The transmitter's answer to a request on one lane (R266, R419): preset, taps and TAP_ACK. -/
def answerStep (x : LaneTrain) (preset tapReq tapSel : Nat) : LaneTrain :=
  if 1 ≤ preset && preset ≤ 6 then { x with taps := presetTaps preset, preset := preset, tapAck := 0 }
  else if tapReq == 1 || tapReq == 2 then
    (match moveTap x.taps tapSel (tapReq == 1) with
     | some t => { x with taps := t, tapAck := 1 }
     | none => { x with tapAck := 2 })
  else { x with tapAck := 0 }

/-- What a lane takes from a frame in any stage: the search, the answer, the partner's RX_READY and the LANE fields. -/
def laneFrame (x : LaneTrain) (f : TrainFrame) : LaneTrain :=
  let c := f.control
  let x := searchStep x f.snr.toNat (c.extractLsb' 54 4).toNat (c.extractLsb' 52 2).toNat
  let x := answerStep x (c.extractLsb' 64 4).toNat (c.extractLsb' 62 2).toNat (c.extractLsb' 59 3).toNat
  { x with partner := x.partner || c.getLsbD 51, num := (c.extractLsb' 76 4).toNat, numN := (c.extractLsb' 72 4).toNat,
           width := (c.extractLsb' 68 4).toNat }

/-- A frame taken by a lane: lock, SNR, the preset in use, polarity from stage 4 on (R267), and the answering frames. -/
def takeFrame (s : State) (p lane : Nat) (f : TrainFrame) : State :=
  let g := laneGroup p lane
  let x := laneFrame (getLane s (laneNum p lane)) f
  let s := setLane (setLaneBit s p lane 4 false) (laneNum p lane) x
  let s := fset s (pLaneGrp g + 0x48) (8 * (lane % 4) + 7) (8 * (lane % 4)) f.snr.toNat
  let s := fset s (pLaneGrp g + 0x4C) (4 * (lane % 4) + 3) (4 * (lane % 4)) x.preset
  let s := if 3 ≤ x.stage then setLaneBit s p lane 8 f.inverted else s
  sendTrain s p lane false

/-- A lane has finished a stage. -/
def laneDone (s : State) (p lane st : Nat) : State :=
  setLane s (laneNum p lane) { getLane s (laneNum p lane) with stage := st }

/-- Stage 3 of a lane is over: both ends report RX_READY on it. -/
def presetsDone (x : LaneTrain) : Bool := x.ready && x.partner

/-- LANE of a lane is sound among others (R267): LANE_N matches, it is below WIDTH, and no other lane carries it. -/
def laneSound (s : State) (p lane : Nat) (others : List Nat) : Bool :=
  let x := getLane s (laneNum p lane)
  x.numN == (x.num ^^^ 15) && decide (x.num < x.width) && !others.any fun j => j != lane && (getLane s (laneNum p j)).num == x.num

/-- Stage 5 of a port (R267): the lanes whose LANE is sound are mapped and healthy, the others unhealthy. -/
def orderLanes (s : State) (p : Nat) : State :=
  let ls := (getPort s p).signal
  ls.foldl (fun t l => setLaneBit (setRxLane t p l (getLane s (laneNum p l)).num) p l 12 (laneSound s p l ls)) s

/-- Stage 7 of a port ends (R264, R73): widths over its healthy lanes each way, and identity exchange begins. -/
def toIdent (s : State) (p : Nat) : State :=
  let lanes := (List.range (lanesOfPort p)).filter fun l => (getPort s p).signal.contains l && laneBit s p l 12
  let rx := (lanes.map fun l => 2 ^ (16 + rxLane s p l)).sum
  let tx := (((List.range (lanesOfPort p)).filter fun l => (getLane s (laneNum p l)).partner).map fun l => 2 ^ (8 + l)).sum
  let s := wr s (wAddr p) ((rd s (wAddr p) &&& 0xFF000000) ||| BitVec.ofNat 32 (rx + tx))
  let s := fset (fset s (wAddr p) 7 4 (widthFor p lanes.length)) (wAddr p) 3 0 (widthFor p (popField s (wAddr p) 15 8))
  let s := setStage s p 8
  if pState s p == 8 then s else setPState s p 3

/-- The port's stage ends once every lane with a signal has finished it: stage 3 at both ends, stages 4 to 7 with a frame taken in
each of them (R264, R266; a stage 7 that fails comes as BRINGUP_STAGE_TIMEOUT, log 59). -/
def stageEnds (s : State) (p : Nat) : State :=
  let st := pStage s p
  let ls := (getPort s p).signal
  if ls.isEmpty || (getPort s p).halfReq then s
  else if !(ls.all fun l => decide (st ≤ (getLane s (laneNum p l)).stage)) then s
  else if st == 7 then toIdent s p
  else setStage (if st == 5 then orderLanes s p else s) p (st + 1)

/-- A frame on a lane of a port in stages 2 to 7. -/
def portFrame (s : State) (p lane : Nat) (f : TrainFrame) : State :=
  let s := takeFrame (setStage s p (Nat.max 3 (pStage s p))) p lane f
  let st := pStage s p
  let x := getLane s (laneNum p lane)
  let s := if st == 3 && !presetsDone x then s else laneDone s p lane st
  stageEnds s p

/-- A frame on a lane outside the stripe, which trains alone: each stage after the third ends with a frame (R263). At its stage 5
its LANE is held against those of the stripe. -/
def loneFrame (s : State) (p lane : Nat) (f : TrainFrame) : State :=
  let s := takeFrame s p lane f
  let x := getLane s (laneNum p lane)
  if x.stage < 3 then (if presetsDone x then laneDone s p lane 3 else laneDone s p lane 2)
  else if x.stage == 4 then
    let used := (List.range (lanesOfPort p)).any fun j => j != lane && laneBit s p j 12 && rxLane s p j == x.num
    if laneSound s p lane [] && !used then laneDone (setRxLane s p lane x.num) p lane 5 else s
  else if x.stage < 7 then laneDone s p lane (x.stage + 1)
  else s

/-- Both ends have agreed on the half rate: stages 2 to 9 run once more at it (R266). -/
def goHalf (s : State) (p : Nat) : State :=
  let s := modPort s p fun x => { x with halfReq := false, halfTried := true }
  let s := (List.range (lanesOfPort p)).foldl (fun s l => { s with lanes := Sparse.erase s.lanes (laneNum p l) }) s
  let s := setStage (setBit s (pPort p + 0x44) 17 true) p 2
  (getPort s p).signal.foldl (fun s l => sendTrain s p l false) s

/-- TRAINING_FRAME_RX (R265 to R267): a frame whose CRC fails is ignored. HALF_REQ is answered by HALF_ACK where FALLBACK_EN is 1. -/
def execTrainingFrameRx (port lane : Nat) (frame : TrainFrame) (s : State) : Out :=
  let full := !bit s (pPort port + 0x44) 17
  if !frameCrcOk frame.control || !portEn s port || portTest s port then .next s
  else if striped s port then
    (if laneBit s port lane 12 || (getLane s (laneNum port lane)).stage == 0 then .next s
     else .next (loneFrame s port lane frame))
  else if pStage s port < 2 || !(getPort s port).signal.contains lane then .next s
  else if full && frame.control.getLsbD 50 && (getPort s port).halfReq then .next (goHalf s port)
  else if full && frame.control.getLsbD 58 && bit s (pPort port + 0x40) 29 then .next (goHalf (sendTrain s port lane true) port)
  else .next (portFrame s port lane frame)

/-- Half rate may be asked for: an attempt at full rate with FALLBACK_EN that failed at stage 7, or at stage 2 with a signal (R266). -/
def mayFallBack (s : State) (p : Nat) : Bool :=
  bit s (pPort p + 0x40) 29 && !bit s (pPort p + 0x44) 17 && !(getPort s p).halfReq && !(getPort s p).halfTried &&
    (pStage s p == 2 && !(getPort s p).signal.isEmpty || pStage s p == 7)

/-- An attempt of a port ends: back to stage 1 after 100 ms (R264). -/
def stageFails (s : State) (p : Nat) : State :=
  let s := fieldSat s (pPort p + 0x44) 31 24 1
  let s := modPort (linkDown s p) p fun x => { x with waitRestart := true }
  setPState s p (if (getPort s p).inner then 8 else 1)

/-- An inner check that fails: cause INNER_FAIL, ATTEMPTS + 1 (Table 13.9 step 1). -/
def innerFails (s : State) (n : Nat) : State :=
  let s := closeStitch s n 6
  let s := fset s (pStitch n + 0x44) 9 8 (Nat.min 3 (fget s (pStitch n + 0x44) 9 8 + 1))
  let s := setStitch s n { getStitch s n with retryOwed := true }
  let pq := portsOfStitch n
  [pq.1, pq.2].foldl (fun s p => setStage (setPState (modPort (linkDown s p) p fun x => { x with inner := false }) p 1) p 0) s

/-- BRINGUP_STAGE_TIMEOUT (R264, R266): half rate is asked for where it may be, and otherwise the attempt has failed. -/
def execBringupStageTimeout (port : Nat) (s : State) : Out :=
  let st := pState s port
  if !(st == 2 || st == 3 || st == 8) then .next s
  else if mayFallBack s port then
    let s := fieldSat s (pPort port + 0x44) 31 24 1
    let s := modPort s port fun x => { x with halfReq := true }
    .next ((getPort s port).signal.foldl (fun s l => sendTrain s port l false) s)
  else if st == 8 then .next (innerFails (fieldSat s (pPort port + 0x44) 31 24 1) (stitchOfPort port))
  else .next (stageFails s port)

/-- BRINGUP_RESTART (R264): 100 ms after a failed stage the port starts again from stage 1. -/
def execBringupRestart (port : Nat) (s : State) : Out :=
  if portEn s port && !portTest s port && (getPort s port).waitRestart then .next (bringUp s port) else .next s

/-! ## Identity and admission (R268 to R272) -/

/-- DEVICE_ID (R325). -/
def deviceId : List Byte := shake256 Config.attestKey 32
/-- CHIP_ID: the first 8 bytes of DEVICE_ID (Table 13.4). -/
def chipId : List Byte := deviceId.take 8

/-- The IDENT payload (Table 13.4). -/
def identPayload (s : State) (p : Nat) : List Byte :=
  chipId ++ [0, BitVec.ofNat 8 p, 1, 2] ++ leBytes 2 (fget s (pGlb + 0x48) 23 11) ++ [BitVec.ofNat 8 (widthRx s p)] ++
    [BitVec.ofNat 8 (b2n (getPort s p).inner + 2 * b2n (bit s (pPort p + 0x44) 17))] ++
    (s.fw.runningDigest ++ List.replicate 32 0).take 32 ++ List.replicate 16 0

/-- A single-hop packet (R51): class 6, DL 0. -/
def ctrlPkt (t : BitVec 6) (sub : Nat) (payload : List Byte) : Pkt :=
  sealPkt { withPayload (blankPkt t) payload with cls := 6, msg := BitVec.ofNat 16 sub }

/-- An IDENT or IDENT_ACK goes on the link in its own frame and is counted; it is exchanged before credits are granted and takes
none (R71, R75, R268; log 83). -/
def sendIdent (s : State) (p : Nat) (k : Pkt) : State := emit (ctrAdd (keepFrame s p k) (pPort p) 1 1) (.single p k)

/-- IDENT_TIMER (R268): in stage 8 the port sends IDENT until it is acknowledged and has received one. -/
def execIdentTimer (port : Nat) (s : State) : Out :=
  let x := getPort s port
  if pStage s port == 8 && (pState s port == 3 || pState s port == 8) && !(x.identGot && x.identAcked) then
    .next (sendIdent s port (ctrlPkt tCtrl 0x10 (identPayload s port)))
  else .next s

/-- Record a received IDENT in PORT_NEIGH_FOUND and PORT_NEIGH_FW (Table 13.7). -/
def recordIdent (s : State) (p : Nat) (b : List Byte) : State :=
  let a := pPort p
  let s := wr s (a + 0x80) (BitVec.ofNat 32 (leAt b 0 4))
  let s := wr s (a + 0x84) (BitVec.ofNat 32 (leAt b 4 4))
  let s := wr s (a + 0x88) (BitVec.ofNat 32 (leAt b 12 2 % 8192 * 65536 + leAt b 9 1 * 256 + leAt b 8 1))
  let s := modPort s p fun x => { x with identMajor := leAt b 10 1, identMinor := leAt b 11 1, identFlags := leAt b 15 1 }
  (List.range 8).foldl (fun s i => wr s (a + 0x90 + 4 * i) (BitVec.ofNat 32 (leAt b (16 + 4 * i) 4))) s

def foundChip (s : State) (p : Nat) : Nat := (rd s (pPort p + 0x80)).toNat + (rd s (pPort p + 0x84)).toNat * 2 ^ 32
def foundCoord (s : State) (p : Nat) : Nat := fget s (pPort p + 0x88) 28 16
def foundPort (s : State) (p : Nat) : Nat := fget s (pPort p + 0x88) 15 8
def foundRole (s : State) (p : Nat) : Nat := fget s (pPort p + 0x88) 7 0

/-- Racks from this switch to the neighbour along a spine port's direction, where it lies on the same line and plane. -/
def lineDistance (s : State) (p : Nat) : Option Nat :=
  let c := foundCoord s p
  let a := spineAxis p
  let n := axisSize s a
  let same := c / 4096 == ownPlane s &&
    ((List.range 3).all fun b => b == a || indexCoord (c % 4096) b == ownCoord s b)
  if !same then none
  else
    let x := indexCoord (c % 4096) a
    some (if spineNeg p then (ownCoord s a + n - x % n) % n else (x + n - ownCoord s a) % n)

/-- The neighbour's port is one of the opposite direction. -/
def oppositePort (s : State) (p : Nat) : Bool :=
  let q := foundPort s p
  isSpine q && spineAxis q == spineAxis p && spineNeg q != spineNeg p

/-- One or two steps along, modulo the axis size (Table 13.6). -/
def oneStep (s : State) (p d : Nat) : Bool := d == 1 % axisSize s (spineAxis p)
def twoSteps (s : State) (p d : Nat) : Bool := d == 2 % axisSize s (spineAxis p)

/-- The cause of the first test of Table 13.5 that fails; none when all pass. -/
def admissionCause (s : State) (p : Nat) : Option Nat :=
  let role := foundRole s p
  let dist := lineDistance s p
  let near := match dist with
    | some d => oneStep s p d || twoSteps s p d
    | none => false
  if (getPort s p).identMajor != 1 then some 1
  else if !(if isLeaf p then role == 1 || (role == 2 && bit s (pPort p + 0x40) 28) else role == 0) then some 2
  else if foundChip s p == natOfLE chipId then some 4
  else if isSpine p && role == 0 && dist.isSome && oppositePort s p && !near then some 6
  else if isSpine p && !(near && oppositePort s p) then some 3
  else if isPair p && !(foundCoord s p % 4096 == ownIndex s && foundCoord s p / 4096 != ownPlane s && isPair (foundPort s p)) then some 3
  else
    let direct := !isSpine p || (match dist with
      | some d => oneStep s p d
      | none => false)
    let mode := fget s (pPort p + 0x78) 31 30
    let chipOk := foundChip s p == (rd s (pPort p + 0x70)).toNat + (rd s (pPort p + 0x74)).toNat * 2 ^ 32
    if direct && (mode == 1 || mode == 2) && !(chipOk && (mode == 1 || foundPort s p == fget s (pPort p + 0x78) 7 0)) then some 5
    else none

/-- Both ports of an OPEN stitch ADMITTED: ATTEMPTS = 0 (Table 13.9 step 6). -/
def stitchAdmitted (s : State) (p : Nat) : State :=
  if !isSpine p then s
  else
    let n := stitchOfPort p
    let pq := portsOfStitch n
    if stState s n == 3 && admitted s pq.1 && admitted s pq.2 then fset s (pStitch n + 0x44) 9 8 0 else s

/-- Stage 9 (R269 to R271): admit, quarantine or hold down. -/
def stage9 (s : State) (p : Nat) : State :=
  let s := setStage s p 9
  match admissionCause s p with
  | none =>
    let s := setPState (wr s (pPort p + 0x48) 0) p 4
    let s := fset s (pPort p + 0x44) 23 20 (Nat.min 2 (getPort s p).identMinor)
    let through := isSpine p && (match lineDistance s p with
      | some d => !oneStep s p d
      | none => false)
    let s := setBit s (pPort p + 0x44) 16 through
    let s := setBlk s (pPort p) 2
    let s := initialCredits s p
    let mine := ((List.range 8).map fun i => leAt s.fw.runningDigest (4 * i) 4)
    let theirs := (List.range 8).map fun i => (rd s (pPort p + 0x90 + 4 * i)).toNat
    let s := if mine != theirs then raise s (pPort p) 9 else s
    stitchAdmitted s p
  | some c =>
    let was := pState s p == 4
    let s := if was then closeForPort (linkDown s p) p 5 true else s
    if c == 6 then setPState (wr s (pPort p + 0x48) 6) p 6
    else
      raise (setPState (wr s (pPort p + 0x48) (BitVec.ofNat 32 (b2n (c == 5) * 256 + c))) p 5) (pPort p) 8

/-- The inner check of a port (R274): own CHIP_ID, FLAGS.INNER, the other port of the stitch, a width each way. -/
def innerOk (s : State) (p : Nat) : Bool :=
  let pq := portsOfStitch (stitchOfPort p)
  let other := if pq.1 == p then pq.2 else pq.1
  foundChip s p == natOfLE chipId && (getPort s p).identFlags % 2 == 1 && foundPort s p == other && widthRx s p != 0 && widthTx s p != 0

/-- Both ports have exchanged identities inside: bias is applied, or the check failed (Table 13.9 steps 1 and 2). -/
def innerDone (s : State) (n : Nat) : State :=
  let pq := portsOfStitch n
  let done := [pq.1, pq.2].all fun p => (getPort s p).identGot && (getPort s p).identAcked
  if stState s n != 1 || !done then s
  else if innerOk s pq.1 && innerOk s pq.2 then
    setStitch (setSt s n 2) n { getStitch s n with commandOpen := true }
  else innerFails s n

/-- Identity exchange of a port is complete: the inner check or stage 9. -/
def identDone (s : State) (p : Nat) : State :=
  let x := getPort s p
  if !(x.identGot && x.identAcked) then s
  else if pState s p == 8 then innerDone s (stitchOfPort p)
  else if pState s p == 3 then stage9 s p
  else s

/-- IDENT_RX (R268): recorded and acknowledged. -/
def execIdentRx (port : Nat) (payload : List Byte) (s : State) : Out :=
  if !live s || heldNow s || !portEn s port || portTest s port || pStage s port < 8 then .next s
  else
    let s := recordIdent (ctrAdd s (pPort port) 0 1) port payload
    let s := sendIdent s port (ctrlPkt tCtrl 0x11 [])
    .next (identDone (modPort s port fun x => { x with identGot := true }) port)

/-- IDENT_ACK_RX (R268). -/
def execIdentAckRx (port : Nat) (s : State) : Out :=
  if !live s || heldNow s || !portEn s port || portTest s port || pStage s port < 8 then .next s
  else .next (identDone (modPort (ctrAdd s (pPort port) 0 1) port fun x => { x with identAcked := true }) port)

/-- HELD_DOWN_RETRY (R277): a port held down retries stage 1. -/
def execHeldDownRetry (port : Nat) (s : State) : Out :=
  if pState s port == 6 then .next (bringUp (linkDown s port) port) else .next s

/-- RETRAIN (R266): bring-up from stage 1 at full rate. -/
def retrainPort (s : State) (p : Nat) : State := if portEn s p && !portTest s p then losePort s p else s

/-! ## Opening and sensing stitches (R273 to R276) -/

/-- A stitch may leave CLOSED (R273); start-up step 12 has ended. -/
def mayOpen (s : State) (n : Nat) : Bool :=
  let pq := portsOfStitch n
  (match s.phase with
   | .ready => true
   | .starting k => 12 < k
   | _ => false) && !fallow s && stState s n == 0 && !(getStitch s n).outOfService &&
    ([pq.1, pq.2].all fun p => portEn s p && !portTest s p) && !bit s (pStitch n + 0x40) 0 && fget s (pStitch n + 0x44) 9 8 < 3

/-- Every other stitch of the axis is CLOSED, or OPEN with both ports admitted (R274; a stitch in FAULT is neither). -/
def axisFree (s : State) (n : Nat) : Bool :=
  (List.range 4).all fun k =>
    let m := 4 * (n / 4) + k
    let pq := portsOfStitch m
    m == n || stState s m == 0 || (stState s m == 3 && admitted s pq.1 && admitted s pq.2)

/-- Increasing k: no stitch of the axis with a lower k may be opened now (R274); one that waits for its retry may not. -/
def axisTurn (s : State) (n : Nat) : Bool :=
  (List.range (n % 4)).all fun k => !(mayOpen s (4 * (n / 4) + k) && !(getStitch s (4 * (n / 4) + k)).retryOwed)

/-- A stitch starts to open (R274): the inner check begins. -/
def openStart (s : State) (n : Nat) : State :=
  if mayOpen s n && axisFree s n && axisTurn s n then
    let pq := portsOfStitch n
    let s := setSt s n 1
    let s := setStitch s n { getStitch s n with retryOwed := false }
    [pq.1, pq.2].foldl (fun s p => bringUp (modPort (linkDown s p) p fun x => { x with inner := true }) p) s
  else s

/-- The device opens a closed stitch whose turn it is; one closed by INNER_FAIL or ADMIT_TIMEOUT waits for its 60 s (R274). -/
def execStitchOpenStart (stitch : Nat) (s : State) : Out :=
  if (getStitch s stitch).retryOwed then .next s else .next (openStart s stitch)

/-- STITCH_RETRY_TIMER (R274): 60 s after INNER_FAIL or ADMIT_TIMEOUT the stitch is tried again. -/
def execStitchRetryTimer (stitch : Nat) (s : State) : Out :=
  if (getStitch s stitch).retryOwed then .next (openStart (setStitch s stitch { getStitch s stitch with retryOwed := false }) stitch)
  else .next s

/-- The port stops transmitting: DISABLED, or its reset ends; its link is down (R275). -/
def portStops (s : State) (p : Nat) : State := setStage (setPState (linkDown s p) p 0) p 0

/-- A stitch faults (R276): reported, and both its ports are out of service until chip reset. -/
def stitchFault (s : State) (n : Nat) : State :=
  let pq := portsOfStitch n
  let s := setStitch (setSt s n 5) n { getStitch s n with outOfService := true }
  let s := report (ctrAdd s (pStitch n) 2 1) (mkFault 0x22 n 0x38 1 n 0xFF 0)
  [pq.1, pq.2].foldl (fun s p => setCause (setBlk (portStops s p) (pPort p) 5) (pPort p) 5) s

/-- STITCH_SENSE_SAMPLE (R276): OPEN or CLOSED is confirmed, or the stitch enters FAULT. -/
def execStitchSenseSample (stitch : Nat) (openMade closedMade : Bool) (s : State) : Out :=
  let s := fset s (pStitch stitch + 0x48) 1 0 (2 * b2n openMade + b2n closedMade)
  let st := stState s stitch
  let want := (getStitch s stitch).commandOpen
  let pq := portsOfStitch stitch
  if st == 5 then .next s
  else if openMade == closedMade || openMade != want then .next (stitchFault s stitch)
  else if st == 2 then
    let s := ctrAdd (setSt s stitch 3) (pStitch stitch) 0 1
    .next ([pq.1, pq.2].foldl (fun s p => bringUp (modPort (linkDown s p) p fun x => { x with inner := false }) p) s)
  else if st == 4 then
    let s := setSt s stitch 0
    .next ([pq.1, pq.2].foldl (fun s p =>
      if portEn s p && !portTest s p && blkState s (pPort p) != 3 then
        setStage (setPState (setBlk (linkDown s p) (pPort p) 1) p 1) p 0
      else linkDown s p) s)
  else .next s

/-- STITCH_ADMIT_TIMEOUT (R274, Table 13.9 step 6). -/
def execStitchAdmitTimeout (stitch : Nat) (s : State) : Out :=
  let pq := portsOfStitch stitch
  if stState s stitch != 3 || (admitted s pq.1 && admitted s pq.2) then .next s
  else
    let s := fset s (pStitch stitch + 0x44) 9 8 (Nat.min 3 (fget s (pStitch stitch + 0x44) 9 8 + 1))
    if holdOpen s stitch then .next s
    else .next (setStitch (closeStitch s stitch 7) stitch { getStitch (closeStitch s stitch 7) stitch with retryOwed := true })

end Sys2Proof.Machine
end

