-- ==== Sys2Proof/Machine/Time.lean ====
section
/-! DEFINITION. The timebase's discipline (R256 to R260), and the link-state exchange with the reachability map and the route
table (R41, R51, R60). -/
namespace Sys2Proof.Machine

open Sys2Proof

/-- SRC, LOCKED and DISTANCE of page TIME (Table 12.7). -/
def timeSrc (s : State) : Nat := fget s (pTime + 0x40) 1 0
def timeLocked (s : State) : Bool := bit s (pTime + 0x44) 31
def timeDistance (s : State) : Nat := fget s (pTime + 0x44) 15 8

/-- The timebase runs on the reserve oscillator, unlocked: no discipline takes hold of it (R366). -/
def freeRunning (s : State) : Bool := bit s (pClk + 0x44) 28

/-- Discipline in force at a distance, following a port. -/
def setLocked (s : State) (dist port : Nat) : State :=
  if freeRunning s then s else wr s (pTime + 0x44) (BitVec.ofNat 32 (2 ^ 31 + dist % 256 * 256 + port))

/-- The discipline is lost: TIME event UNLOCK (R258). -/
def unlockTime (s : State) : State := raise (wr s (pTime + 0x44) 0xFF00) pTime 8

/-- The first cycle boundary of a gate list at or after an instant (R255, R259). -/
def nextBoundary (s : State) (p : Nat) (t : Nat) : Nat :=
  let g := getGate s p
  let cyc := (rd s (pGate p + 0x4C)).toNat
  if cyc == 0 then t else g.base + ceilDiv (t - g.base) cyc * cyc

/-- An instant read from the count before a step of `by'`, as the count stands after it. -/
def moved (by' : Int) (t : Nat) : Nat := ((t : Int) + by').toNat

/-- The instants that the discipline holds, moved with the count. -/
def moveTimes (by' : Int) (t : TimeSt) : TimeSt :=
  { t with
    syncs := t.syncs.map fun e => (e.1, e.2.map fun y => (y.1, moved by' y.2)),
    reqTimes := t.reqTimes.map fun e => (e.1, e.2.map fun y => (y.1, moved by' y.2)),
    ptpSync := t.ptpSync.map fun y => (y.1, moved by' y.2),
    ptpPending := t.ptpPending.map fun y => (y.1, moved by' y.2),
    ptpReq := t.ptpReq.map fun y => (y.1, moved by' y.2) }

/-- The count is stepped: each running gate list keeps its entry until the next cycle boundary in the new time (R259), and what may
start now is looked at again (R247). -/
def stepTime (s : State) (t : Nat) : State :=
  let by' := ((t % 2 ^ 64 : Nat) : Int) - (s.time : Int)
  let s := { s with time := t % 2 ^ 64, timeSt := { moveTimes by' s.timeSt with slewAt := t % 2 ^ 64, slewLeft := 0 } }
  forUp (fun s p =>
    let g := getGate s p
    if g.len == 0 then s else pump (setGate s p { g with resync := some (nextBoundary s p (gateNow s p)) }) p) 161 0 s

/-- The servo removes an offset: by one step above 1 us where STEP_ALLOW permits it, by slewing otherwise (R259). -/
def servo (s : State) (off : Int) : State :=
  let s := wr s (pTime + 0x48) (BitVec.ofInt 32 off)
  if freeRunning s then s
  else if 1000 < off.natAbs && bit s (pTime + 0x40) 3 then stepTime s ((s.time : Int) - off).toNat
  else { s with timeSt := { s.timeSt with slewLeft := -off } }

/-! ## The default best master clock algorithm (R257; IEEE 1588-2019, log 42) -/

/-- Data set `a` is better than data set `b`: by the grandmasters' attributes in order, or, of one grandmaster, by steps removed and
the sender's identity. -/
def ptpBetter (a b : PtpData) : Bool :=
  let rank := fun (d : PtpData) =>
    ((((d.priority1.toNat * 256 + d.clockClass.toNat) * 256 + d.accuracy.toNat) * 65536 + d.variance.toNat) * 256 +
      d.priority2.toNat) * 2 ^ 64 + d.grandmaster.toNat
  if a.grandmaster == b.grandmaster then decide (a.steps.toNat * 2 ^ 80 + a.source.toNat < b.steps.toNat * 2 ^ 80 + b.source.toNat)
  else decide (rank a < rank b)

/-- A foreign master is qualified: two announcements within four announce intervals, and fewer than 255 steps. -/
def ptpQualified (now : Nat) (f : PtpForeign) : Bool :=
  decide (f.data.steps.toNat < 255) && decide (2 ≤ (f.heard.filter fun t => decide (now < t + 4 * f.data.interval.toNat)).length)

/-- The followed master has announced itself within three announce intervals. -/
def ptpAlive (s : State) : Bool :=
  match s.timeSt.ptpMaster with
  | none => false
  | some m => s.timeSt.ptpForeign.any fun f =>
      f.data.source == m && f.heard.any fun t => decide (s.uptime < t + 3 * f.data.interval.toNat)

/-- The state of the ordinary clock with no master followed. -/
def ptpIdle (t : TimeSt) : TimeSt :=
  { t with ptpMaster := none, ptpSync := none, ptpPending := none, ptpDelay := 0, ptpReq := none }

/-- The announce receipt time-out: a master that has fallen silent is followed no more, and its discipline is lost (R257). -/
def ptpExpire (s : State) : State :=
  if s.timeSt.ptpMaster.isNone || ptpAlive s then s
  else
    let s := { s with timeSt := { ptpIdle s.timeSt with ptpForeign := s.timeSt.ptpForeign.filter fun f => some f.data.source != s.timeSt.ptpMaster } }
    if (timeSrc s == 1 || timeSrc s == 3) && timeLocked s then unlockTime { s with timeSt := { s.timeSt with slewLeft := 0 } } else s

/-- The best qualified foreign master. -/
def ptpBest (s : State) : Option PtpData :=
  ((s.timeSt.ptpForeign.filter (ptpQualified s.uptime)).map (·.data)).foldl (fun best d =>
    match best with
    | none => some d
    | some b => if ptpBetter d b then some d else some b) none

/-- An ANNOUNCE is noted, and the master followed chosen again. -/
def ptpAnnounce (s : State) (d : PtpData) : State :=
  let old := match s.timeSt.ptpForeign.find? fun f => f.data.source == d.source with
    | some f => f.heard
    | none => []
  let rest := s.timeSt.ptpForeign.filter fun f => f.data.source != d.source
  let s := { s with timeSt := { s.timeSt with ptpForeign := rest ++ [{ data := d, heard := (s.uptime :: old).take 2 }] } }
  match ptpBest s with
  | some b =>
    if s.timeSt.ptpMaster == some b.source then s
    else { s with timeSt := { ptpIdle s.timeSt with ptpMaster := some b.source } }
  | none => s

/-! ## TIME packets on the spine (R258, Table 12.6) -/

/-- Admitted spine ports, in increasing order. -/
def spinePorts (s : State) : List Nat := ((List.range 24).map (128 + ·)).filter fun p => admitted s p

/-- A TIME packet: subtype, OFFSET, bytes 24-27 and two u64 of payload. -/
def timePkt (sub off w24 a b : Nat) : Pkt :=
  sealPkt { withPayload (blankPkt tTime) (leBytes 8 a ++ leBytes 8 b) with
    cls := 6, msg := BitVec.ofNat 16 sub, offset := BitVec.ofNat 32 off, word24 := BitVec.ofNat 32 w24 }

/-- DISTANCE and ROOT that this switch offers: itself at 0 as a root, one more than it follows under SRC 2, 255 for none. -/
def ownOffer (s : State) : Nat × Nat :=
  if !timeLocked s then (255, 0)
  else if timeSrc s == 1 || timeSrc s == 3 then (0, ownIndex s)
  else if timeSrc s == 2 then
    (match Sparse.get (fun _ => none) s.timeSt.offers (fget s (pTime + 0x44) 7 0) with
     | some o => (timeDistance s, o.2)
     | none => (255, 0))
  else (255, 0)

/-- The timebase that a TIME packet on port `p` is stamped with: the follower of the port's die (R16). -/
def stampOf (s : State) (p : Nat) : Nat := dieTime s (dieOfPort p)

/-- SYNC and DELAY_REQ with sequence `n` on spine port `p`. -/
def sendTimes (s : State) (p n : Nat) : State :=
  let o := ownOffer s
  let t := stampOf s p
  let s := sendSingle (sendSingle s p (timePkt 1 o.1 o.2 t 0)) p (timePkt 2 n 0 t 0)
  { s with timeSt := { s.timeSt with reqTimes := Sparse.set (fun _ => none) s.timeSt.reqTimes p (some (n, t)) } }

/-- TIME_SYNC_TIMER (R258): SYNC and DELAY_REQ on every admitted spine port. -/
def execTimeSyncTimer (s : State) : Out :=
  if fallow s then .next s
  else
    let s := ptpExpire s
    let n := s.timeSt.reqSeq
    let s := (spinePorts s).foldl (fun s p => sendTimes s p n) s
    .next { s with timeSt := { s.timeSt with reqSeq := (n + 1) % 2 ^ 32 } }

/-- The least (DISTANCE, ROOT, port) among the offers heard (R258). -/
def bestOffer (s : State) : Option (Nat × Nat × Nat) :=
  s.timeSt.offers.foldl (fun best e =>
    match e.2, best with
    | none, _ => best
    | some o, none => some (o.1, o.2, e.1)
    | some o, some b =>
      if o.1 < b.1 || (o.1 == b.1 && (o.2 < b.2.1 || (o.2 == b.2.1 && e.1 < b.2.2))) then some (o.1, o.2, e.1) else best) none

/-- Follow the best offer once its port's delay is known: the offset of its last SYNC goes to the servo (R258). -/
def followBest (s : State) (p : Nat) : State :=
  if timeSrc s != 2 then s
  else
    match bestOffer s with
    | none => s
    | some b =>
      let s := if timeLocked s then setLocked s (b.1 + 1) b.2.2 else s
      if b.2.2 != p then s
      else
        match Sparse.get (fun _ => none) s.timeSt.syncs p, s.timeSt.delays.find? fun d => d.1 == p with
        | some y, some d => servo (setLocked s (b.1 + 1) p) ((y.2 : Int) - (y.1 + d.2 : Nat))
        | _, _ => s

/-- A TIME packet that passed its checks. -/
def takeTime (s : State) (p : Nat) (k : Pkt) (ingress : Nat) : State :=
  let a := leAt k.payload 0 8
  let b := leAt k.payload 8 8
  let t := s.timeSt
  match k.msg.toNat with
  | 1 =>
    let o := if k.offset.toNat < 254 then some (k.offset.toNat, k.word24.toNat) else none
    followBest { s with timeSt := { t with offers := Sparse.set (fun _ => none) t.offers p o,
                                           syncs := Sparse.set (fun _ => none) t.syncs p (some (a, ingress)) } } p
  | 2 => sendSingle s p (timePkt 3 k.offset.toNat 0 ingress (stampOf s p))
  | 3 =>
    (match Sparse.get (fun _ => none) t.reqTimes p with
     | some (n, t1) =>
       if n == k.offset.toNat then
         { s with timeSt := { t with
             delays := (t.delays.filter fun d => d.1 != p) ++ [(p, ((ingress - t1) - (b - a)) / 2)],
             reqTimes := Sparse.set (fun _ => none) t.reqTimes p none } }
       else s
     | none => s)
  | _ => s

/-- The checks of a single-hop packet at its receiver (R47, R49, R50, R56, R58, R270): the packet, or the counter that takes it. -/
def singleHop (s : State) (p : Nat) (t : BitVec 6) (bs : List Byte) : Except State Pkt :=
  if !bit s (pPort p + 0x40) 31 then .error s
  else if !admitted s p then .error (ctrAdd s (pPort p) 15 1)
  else
    match decodePkt bs with
    | none => .error (ctrAdd s (pPort p) 6 1)
    | some k =>
      match formatDrop bs k with
      | some i => .error (ctrAdd s (pPort p) i 1)
      | none => if k.ty != t then .error s else if !trailerOk k then .error (trailerFault s p) else .ok k

/-- TIME_PACKET_RX (R258). -/
def execTimePacketRx (port : Nat) (bytes : List Byte) (ingress : BitVec 64) (s : State) : Out :=
  if !live s || !isSpine port then .next s
  else
    match singleHop s port tTime bytes with
    | .error s => .next s
    | .ok k => .next (takeTime (takeSingle s port k) port k ingress.toNat)

/-- TIME_ROOT_TIMEOUT (R258): holdover on REFCLK. -/
def execTimeRootTimeout (s : State) : Out :=
  if timeSrc s == 2 then
    .next (unlockTime { s with timeSt := { s.timeSt with offers := [], syncs := [], slewLeft := 0 } })
  else .next s

/-! ## PTP and the pulse pins (R257, R260) -/

/-- The PTP time now, from the last SYNC and the path delay. -/
def ptpNow (s : State) : Option Nat :=
  match s.timeSt.ptpSync with
  | some (o, i) => some (o + s.timeSt.ptpDelay + (s.time - i))
  | none => none

/-- A complete SYNC of the followed master: SRC 1 servos on it; the slave asks for the delay under the next sequence number (R256,
R257). -/
def ptpSyncDone (s : State) (origin ingress : Nat) : State :=
  let n := s.timeSt.ptpReqSeq
  let s := { s with timeSt := { s.timeSt with
    ptpSync := some (origin, ingress), ptpPending := none, ptpReq := some (n, s.time), ptpReqSeq := (n + 1) % 65536 } }
  let s := emit s (.frame "PTP DELAY_REQ" (beBytes 2 n))
  if timeSrc s == 1 then servo (setLocked s 0 0) ((ingress : Int) - (origin + s.timeSt.ptpDelay : Nat)) else s

/-- A DELAY_RESP to the request that is awaited: the path delay of the end-to-end mechanism. -/
def ptpDelayed (s : State) (seq received : Nat) : State :=
  match s.timeSt.ptpSync, s.timeSt.ptpReq with
  | some (o, i), some (n, t) =>
    if n != seq then s
    else { s with timeSt := { s.timeSt with
      ptpDelay := ((((i : Int) - (o : Int)) + ((received : Int) - (t : Int))) / 2).toNat, ptpReq := none } }
  | _, _ => s

/-- PTP_MESSAGE_RX (R257): messages of the configured domain; all but ANNOUNCE of the master followed alone, a FOLLOW_UP and a
DELAY_RESP by their sequence. -/
def execPtpMessageRx (msg : PtpMsg) (s : State) : Out :=
  let heard := fun (s : State) (d : Byte) => (timeSrc s == 1 || timeSrc s == 3) && d.toNat == fget s (pTime + 0x40) 31 24
  let s := ptpExpire s
  match msg with
  | .announce d data => if heard s d then .next (ptpAnnounce s data) else .next s
  | .sync d m n o i two =>
    if !heard s d || s.timeSt.ptpMaster != some m then .next s
    else if two then .next { s with timeSt := { s.timeSt with ptpPending := some (n.toNat, i.toNat) } }
    else .next (ptpSyncDone s o.toNat i.toNat)
  | .followUp d m n o =>
    if !heard s d || s.timeSt.ptpMaster != some m then .next s
    else
      (match s.timeSt.ptpPending with
       | some (k, i) => if k == n.toNat then .next (ptpSyncDone s o.toNat i) else .next s
       | none => .next s)
  | .delayResp d m n r mine =>
    if !heard s d || s.timeSt.ptpMaster != some m || !mine then .next s
    else .next (ptpDelayed s n.toNat r.toNat)

/-- A write of TIME_CTRL: a new source, or a new domain, ends the discipline that the old one exercised; the count goes on from where
it stands (R256, R257). -/
def disciplineActs (s : State) (old : Word) : State :=
  let src := bitsOf old 1 0 != timeSrc s
  let dom := bitsOf old 31 24 != fget s (pTime + 0x40) 31 24 && (timeSrc s == 1 || timeSrc s == 3)
  if !src && !dom then s
  else
    let s := { s with timeSt := { ptpIdle s.timeSt with ptpForeign := [], slewLeft := 0 } }
    if timeLocked s then unlockTime s else s

/-- PPS_IN_EDGE (R260): under SRC 3 the count is set to the whole second that PTP reports. -/
def execPpsInEdge (s : State) : Out :=
  let s := ptpExpire s
  if timeSrc s == 3 && !freeRunning s then
    (match ptpNow s with
     | some t =>
       let sec := (t + 500000000) / 1000000000 * 1000000000
       let off := (s.time : Int) - (sec : Int)
       .next (stepTime (wr (setLocked s 0 0) (pTime + 0x48) (BitVec.ofInt 32 off)) sec)
     | none => .next s)
  else .next s

/-- The count stands within 2 ns of a multiple of 10^9, or in FALLBACK within the 20 ns by which it rises (R260, R366). -/
def atSecond (s : State) : Bool :=
  let r := s.time % 1000000000
  let near := if freeRunning s then 20 else 2
  decide (r ≤ near) || decide (1000000000 ≤ r + near)

/-- PPS_OUT_PULSE (R260). -/
def execPpsOutPulse (s : State) : Out :=
  if bit s (pTime + 0x40) 4 && live s && atSecond s then .next (emit s (.boundary "PPS_OUT high for 1 us")) else .next s

/-! ## Link state, the reachability map and the route table -/

/-- The admitted spine ports of this switch as a mask, bit p - 128. -/
def ownView (s : State) : BitVec 24 := BitVec.ofNat 24 ((spinePorts s).map fun p => 2 ^ (p - 128)).sum

/-- The payload of a link-state packet: each view's switch and ports (log 10). -/
def viewBytes (views : List (Nat × BitVec 24)) : List Byte := (views.map fun v => beBytes 2 v.1 ++ beBytes 3 v.2.toNat).flatten

/-- Views in groups whose bytes fit one packet's LEN (R47, log 10). -/
def viewGroups : Nat → List (Nat × BitVec 24) → List (List (Nat × BitVec 24))
  | 0, _ => []
  | n + 1, vs => if vs.isEmpty then [] else vs.take 800 :: viewGroups n (vs.drop 800)

/-- The views on one spine port. -/
def sendViews (s : State) (p : Nat) (views : List (Nat × BitVec 24)) : State :=
  (viewGroups 6 views).foldl (fun s g => sendSingle s p (ctrlPkt tCtrl 0x20 (viewBytes g))) s

/-- LINK_STATE_CTRL_TIMER (R51): the views this switch holds, its own first, on every admitted spine port; subtype 0x20, which is
the model's choice, since R268 numbers only IDENT and IDENT_ACK (log 10). -/
def execLinkStateCtrlTimer (s : State) : Out :=
  if fallow s then .next s
  else
    let views := (ownIndex s, ownView s) :: (s.reach.views.filter fun v => v.1 != ownIndex s)
    .next ((spinePorts s).foldl (fun s p => sendViews s p views) s)

/-- The views held with those of a list put in their place, but for this switch's own. -/
def keepViews (s : State) (view : List (Nat × BitVec 24)) : State :=
  { s with reach := { s.reach with
      views := view.foldl (fun m v => if v.1 == ownIndex s || 4096 ≤ v.1 then m else Sparse.set (fun _ => 0) m v.1 v.2)
        s.reach.views } }

/-- LINK_STATE_CTRL_RX (R41): a neighbour's views replace those held, whichever of two views of a third switch is the older, and no
view is aged: the model's choice, since the rule orders none (log 10). On a port not ADMITTED the packet is discarded and counted
(R270). -/
def execLinkStateCtrlRx (port : Nat) (view : List (Nat × BitVec 24)) (s : State) : Out :=
  if !live s || !isSpine port || !bit s (pPort port + 0x40) 31 then .next s
  else if admitted s port then
    .next (keepViews (takeSingle s port (ctrlPkt tCtrl 0x20 (viewBytes view))) view)
  else .next (ctrAdd s (pPort port) 15 1)

/-- The switch `h` racks from switch `i` along spine port 128 + q. -/
def racksAlong (s : State) (i q h : Nat) : Nat :=
  let a := q / 8
  let n := axisSize s a
  let c := indexCoord i a
  let c' := if q / 4 % 2 == 1 then (c + 2 * n - h) % n else (c + h) % n
  match a with
  | 0 => c' * 256 + i % 256
  | 1 => i / 256 * 256 + c' * 16 + i % 16
  | _ => i / 16 * 16 + c'

/-- The far port of spine port 128 + q: the other direction of the same axis and index. -/
def farPort (q : Nat) : Nat := if q / 4 % 2 == 1 then q - 4 else q + 4

/-- The switch at the far end of an admitted link of a remote switch: one rack, or two through a closed stitch. -/
def linkTarget (s : State) (i q : Nat) : Option Nat :=
  let seen := fun (j : Nat) =>
    (Sparse.get (fun _ => 0) s.reach.views j).getLsbD (farPort q) ||
      (j == ownIndex s && (ownView s).getLsbD (farPort q))
  if seen (racksAlong s i q 1) then some (racksAlong s i q 1)
  else if seen (racksAlong s i q 2) then some (racksAlong s i q 2)
  else none

/-- Switches one link away from switch `i`. -/
def linkedTo (s : State) (i : Nat) : List Nat :=
  if i == ownIndex s then (spinePorts s).map fun p => neighIndex s p
  else
    let v := Sparse.get (fun _ => 0) s.reach.views i
    (List.range 24).filterMap fun q => if v.getLsbD q then linkTarget s i q else none

/-- Breadth-first closure over admitted links. -/
def spread (s : State) : Nat → List Nat → List Nat → List Nat
  | 0, seen, _ => seen
  | fuel + 1, seen, front =>
    let new := (front.map fun i => linkedTo s i).flatten.foldl (fun acc j => if seen.contains j then acc else addNat acc j) []
    if new.isEmpty then seen else spread s fuel (seen ++ new) new

/-- The switches this switch reaches over admitted spine links, itself included (R41). -/
def reachSet (s : State) : List Nat := spread s 4096 [ownIndex s] [ownIndex s]

/-- A switch index is set in the map held. -/
def reachable (s : State) (i : Nat) : Bool := bit s (wReach + 4 * (i / 32)) (i % 32)

/-- Some switch of subscriber `n`'s block is absent from the map (R44, R45). -/
def blockAbsent (s : State) (n : Nat) : Bool := (blockIndices s n).any fun i => !reachable s i

/-- Collectives in progress note a switch of their block that is absent from the map (R45). -/
def noteAbsent (s : State) : State :=
  s.slots.foldl (fun s e =>
    match e.2 with
    | some x => if x.desc.plane == ownPlane s && blockAbsent s x.sub then setSlot s e.1 (some { x with absent := true }) else s
    | none => s) s

/-- The reachability map names the switches of `set`: where that changes it, REACH_GEN and COUNT follow, and REACH_CHANGE is raised
(R41). -/
def setReach (s : State) (set : List Nat) : State :=
  let words := (List.range 128).map fun j =>
    BitVec.ofNat 32 ((set.filter fun i => i / 32 == j).map fun i => 2 ^ (i % 32)).sum
  let old := (List.range 128).map fun j => rd s (wReach + 4 * j)
  if words == old then s
  else
    let s := (words.zip (List.range 128)).foldl (fun s w => wr s (wReach + 4 * w.2) w.1) s
    let g := fget s (pGlb + 0x54) 31 16
    let s := wr s (pGlb + 0x54) (BitVec.ofNat 32 ((g + 1) % 65536 * 65536 + set.length))
    raise (noteAbsent s) pGlb 8

/-- A change of GLB_COORD from coordinate `i` moves the switch's own bit of the map: a switch always counts itself (R41). -/
def moveOwnReach (s : State) (i : Nat) : State :=
  setReach s ((List.range 4096).filter fun u => u == ownIndex s || (u != i && reachable s u))

/-- REACH_MAP_UPDATE (R41). -/
def execReachMapUpdate (s : State) : Out := .next (setReach s (reachSet s))

/-- ROUTE_TABLE_RECOMPUTE (R60). -/
def execRouteTableRecompute (s : State) : Out :=
  let s := writeRoutes s
  .next (fset s (pRoute + 0x40) 31 16 ((fget s (pRoute + 0x40) 31 16 + 1) % 65536))

end Sys2Proof.Machine
end

