-- ==== Sys2Proof/Machine/Trees.lean ====
section
/-! DEFINITION. Collective descriptors, members and trees (R119 to R121, R142 to R147, R152 to R155): everything that is fixed
when a descriptor set is loaded. -/
namespace Sys2Proof.Machine

open Sys2Proof

/-! ## Descriptors (Table 7.2) -/

/-- A bit of a word. -/
def wbit (w : Word) (b : Nat) : Bool := w.getLsbD b

/-- The descriptor that sixteen words spell. -/
def parseDesc (w : List Word) : Desc :=
  let g := fun i => w.getD i 0
  { op := bitsOf (g 0) 31 24, outFmt := bitsOf (g 0) 23 20, inFmt := bitsOf (g 0) 19 16, plane := bitsOf (g 0) 15 15,
    sealBit := wbit (g 0) 14, auto := wbit (g 0) 13, engine := bitsOf (g 0) 5 0, quire := bitsOf (g 1) 25 16, w := bitsOf (g 1) 10 0,
    rankFirst := bitsOf (g 2) 16 0, membersM1 := bitsOf (g 3) 16 0, stride := bitsOf (g 4) 16 0, root := bitsOf (g 5) 16 0,
    count := (g 6).toNat, seqLenM1 := bitsOf (g 7) 21 0, shift := bitsOf (g 8) 21 0, permBase := bitsOf (g 9) 21 0,
    doneEn := wbit (g 10) 31, doneCtr := bitsOf (g 10) 14 0, failEn := wbit (g 11) 31, failCtr := bitsOf (g 11) 14 0,
    chunkEn := wbit (g 12) 31, chunkCtr := bitsOf (g 12) 14 0, tag := (g 13).toNat }

/-- DCRC over bytes 0-59 as stored (Table 7.2). -/
def dcrcOf (w : List Word) : Nat := crc32c ((w.take 15).map fun x => leBytes 4 x.toNat).flatten
/-- The descriptor's DCRC holds. -/
def dcrcOk (w : List Word) : Bool := (w.getD 15 0).toNat == dcrcOf w

/-- Descriptor entry `m` of the table window. -/
def descWords (s : State) (m : Nat) : List Word := (List.range 16).map fun j => rd s (wDesc m + 4 * j)

/-- L and DESC_BASE of a subscriber (R163). -/
def seqLen (s : State) (n : Nat) : Nat := fget s (wDescBind n) 28 16 + 1
def descBase (s : State) (n : Nat) : Nat := fget s (wDescBind n) 15 0

/-- The descriptor of collective `k` (R143). -/
def descOf (s : State) (n k : Nat) : Desc := parseDesc (descWords s (descBase s n + k % seqLen s n))

/-- BASE and SLOTS of a subscriber (Table 6.1). -/
def slotBase (s : State) (n : Nat) : Nat := fget s (wSlotQuota n) 11 0
def slotQ (s : State) (n : Nat) : Nat := fget s (wSlotQuota n) 28 16

/-- STATE and GEN of a slot (Table 6.9). -/
def slotState (s : State) (i : Nat) : Nat := fget s (wSlot i) 2 0
def slotGen (s : State) (i : Nat) : Nat := fget s (wSlot i) 7 4

/-- Slot and generation of collective `k` (R115). -/
def slotOf (s : State) (n k : Nat) : Nat := slotBase s n + k % slotQ s n
def msgOf (s : State) (n k : Nat) : Nat := k / slotQ s n % 16 * 4096 + slotOf s n k

/-- Operation classes of Table 7.1. -/
def isReduction (op : Nat) : Bool := (1 ≤ op && op ≤ 9) || op == 0x15 || (0x27 ≤ op && op ≤ 0x29)
def isVar (op : Nat) : Bool := (0x27 ≤ op && op ≤ 0x29) || op == 0x30 || op == 0x34
def isFlood (op : Nat) : Bool := op == 0x10 || op == 0x11 || op == 0x30
def isDirect (op : Nat) : Bool := op == 0x12 || op == 0x13 || op == 0x14 || op == 0x34
def knownOp (op : Nat) : Bool := isReduction op || isFlood op || isDirect op
/-- The sum operations, BARRIER among them; the maximum operations. -/
def isSum (op : Nat) : Bool := op == 1 || op == 4 || op == 7 || op == 0x15 || op == 0x27
def isMax (op : Nat) : Bool := op == 3 || op == 6 || op == 9 || op == 0x29

/-- Number of members. -/
def Desc.members (d : Desc) : Nat := d.membersM1 + 1
/-- The rank of member `i` (R142). -/
def Desc.rank (d : Desc) (i : Nat) : Nat := d.rankFirst + i * d.stride
/-- Bytes of one element as it travels. -/
def elemBytes (code : Nat) : Nat := fmtBits code / 8

/-! ## Rank translation (R37, R59) -/

/-- RANKS_M1 of a subscriber. -/
def ranksM1 (s : State) (n : Nat) : Nat := fget s (wQuire n + 8) 16 0

/-- RANK_BASE of a subscriber. -/
def rankBase (s : State) (n : Nat) : Nat := fget s (wQuire n + 4) 16 0

/-- The rank translation entry of a rank. -/
def rankWord (s : State) (n r : Nat) : Word := rd s (wRank + 4 * (rankBase s n + r))

/-- The fabric address of member `i`; none where its rank fails the test of R59. -/
def memberAddr (s : State) (n : Nat) (d : Desc) (i : Nat) : Option (BitVec 24) :=
  let r := d.rank i
  if ranksM1 s n < r || !(rankWord s n r).getLsbD 31 then none
  else some (BitVec.ofNat 24 (bitsOf (rankWord s n r) 22 0 + d.plane * 2 ^ 23))

/-- Every member rank passes the test of R59. -/
def ranksOk (s : State) (n : Nat) (d : Desc) : Bool := (List.range d.members).all fun i => (memberAddr s n d i).isSome

/-- Switch index of member `i`. -/
def memberSwitch (s : State) (n : Nat) (d : Desc) (i : Nat) : Nat :=
  match memberAddr s n d i with
  | some a => faIndex a
  | none => 4096

/-- The local members of this switch (R120). -/
def localMembers (s : State) (n : Nat) (d : Desc) : List Nat :=
  if d.plane != ownPlane s then []
  else (List.range d.members).filter fun i => memberSwitch s n d i == ownIndex s

/-- The member whose fabric address is `a`, among the local members. -/
def memberAt (s : State) (n : Nat) (d : Desc) (ms : List Nat) (a : BitVec 24) : Option Nat :=
  ms.find? fun i => memberAddr s n d i == some a

/-! ## The tree (R119, R120) -/

/-- Offset of a switch index in subscriber `n`'s block on an axis (R119). -/
def blockOff (s : State) (n i a : Nat) : Nat :=
  let sz := axisSize s a
  (indexCoord i a + sz - blockOrigin s n a % sz) % sz
/-- The root's offset on an axis. -/
def rootOff (s : State) (n a : Nat) : Nat := (blockExtent s n a - 1) / 2

/-- Switch index with its coordinate on one axis replaced. -/
def setCoord (i a c : Nat) : Nat :=
  match a with
  | 0 => c * 256 + i % 256
  | 1 => i / 256 * 256 + c * 16 + i % 16
  | _ => i / 16 * 16 + c

/-- The parent of a switch in the tree; none for the root. -/
def parentOf (s : State) (n i : Nat) : Option Nat :=
  match [2, 1, 0].find? fun a => blockOff s n i a != rootOff s n a with
  | none => none
  | some a =>
    let sz := axisSize s a
    let c := indexCoord i a
    some (setCoord i a (if blockOff s n i a < rootOff s n a then (c + 1) % sz else (c + sz - 1) % sz))

/-- The switches from `i` up to the root, `i` first. -/
def pathUp (s : State) (n : Nat) : Nat → Nat → List Nat
  | 0, i => [i]
  | fuel + 1, i =>
    match parentOf s n i with
    | none => [i]
    | some p => i :: pathUp s n fuel p

/-- Switch `c` lies on the path of `i` to the root: `i` is in `c`'s subtree. -/
def below (s : State) (n c i : Nat) : Bool := (pathUp s n 48 i).contains c

/-- Member `i` has a valid rank and lies in the subtree of switch `c`. -/
def memberBelow (s : State) (n : Nat) (d : Desc) (c i : Nat) : Bool :=
  match memberAddr s n d i with
  | some a => below s n c (faIndex a)
  | none => false

/-- Expected count of a switch: the members in its subtree (R120). -/
def expectedAt (s : State) (n : Nat) (d : Desc) (c : Nat) : Nat :=
  ((List.range d.members).filter fun i => memberBelow s n d c i).length

/-- Children of this switch that are in the tree, with their expected counts. -/
def childrenOf (s : State) (n : Nat) (d : Desc) : List (Nat × Nat) :=
  (((blockIndices s n).filter fun c => parentOf s n c == some (ownIndex s)).map fun c => (c, expectedAt s n d c)).filter
    fun c => c.2 != 0

/-- All the switches of the tree that this switch borders on. -/
def treeNeighbours (x : SlotSt) : List Nat := x.parent.toList ++ x.children.map (·.1)

/-! ## Ranges of the result (Table 7.1) -/

/-- Prefix sums and total of a count vector (R155). -/
def prefixSum (cs : List Nat) (i : Nat) : Nat := (cs.take i).sum

/-- The count vector of a v variant, unknown counts as 0. -/
def countVec (x : SlotSt) (len : Nat) : List Nat :=
  (List.range len).map fun i => (Sparse.get (fun _ => none) x.counts i).getD 0

/-- Length of the count vector: n, or n x n for ALLTOALLV (R154). -/
def countLen (d : Desc) : Nat := if d.op == 0x34 then d.members * d.members else d.members

/-- Elements of the whole result y of a reduction: COUNT, or T (Table 7.1, R155). -/
def yLen (d : Desc) (cs : List Nat) : Nat := if 0x27 ≤ d.op && d.op ≤ 0x29 then cs.sum else d.count

/-- Elements [lo, hi) of y that member `i` receives (Table 7.1). -/
def memberRange (d : Desc) (cs : List Nat) (i : Nat) : Nat × Nat :=
  if d.op == 4 || d.op == 5 || d.op == 6 then (if d.rank i == d.root then (0, d.count) else (0, 0))
  else if 7 ≤ d.op && d.op ≤ 9 then (i * (d.count / d.members), (i + 1) * (d.count / d.members))
  else if 0x27 ≤ d.op && d.op ≤ 0x29 then (prefixSum cs i, prefixSum cs i + cs.getD i 0)
  else (0, d.count)

/-- Ranges joined where they overlap or touch; the list is in increasing order of lower ends. -/
def joinRanges : List (Nat × Nat) → List (Nat × Nat)
  | [] => []
  | r :: rs =>
    match joinRanges rs with
    | [] => if r.1 < r.2 then [r] else []
    | q :: qs => if r.2 ≤ r.1 then q :: qs else if q.1 ≤ r.2 then (r.1, Nat.max r.2 q.2) :: qs else r :: q :: qs

/-- Elements of y due to the members below switch `c` (R129). -/
def subtreeRanges (s : State) (n : Nat) (d : Desc) (cs : List Nat) (c : Nat) : List (Nat × Nat) :=
  joinRanges (((List.range d.members).filter fun i => memberBelow s n d c i).map fun i => memberRange d cs i)

/-- The part of a range in chunk `c` of `epc` elements. -/
def inChunk (epc c : Nat) (r : Nat × Nat) : Nat × Nat := (Nat.max r.1 (c * epc), Nat.min r.2 ((c + 1) * epc))

/-- Elements of a chunk: 4,096 bytes of input (R118). -/
def chunkElems (d : Desc) : Nat := 4096 * 8 / fmtBits d.inFmt

/-- Chunks of a reduction (R118). -/
def chunkCount (d : Desc) (cs : List Nat) : Nat := ceilDiv (yLen d cs) (chunkElems d)

/-- Elements of chunk `c`. -/
def elemsOfChunk (d : Desc) (cs : List Nat) (c : Nat) : Nat := Nat.min (chunkElems d) (yLen d cs - c * chunkElems d)

/-! ## Movement (R150 to R155) -/

/-- DEST of permutation table entry `e` (R153). -/
def permDest (s : State) (e : Nat) : Nat := fget s (wPerm e) 21 0

/-- Signed SHIFT distance (R152). -/
def shiftDist (d : Desc) : Int := if d.shift < 2 ^ 21 then (d.shift : Int) else (d.shift : Int) - 2 ^ 22

/-- Output position of input position `p` (R152, R153). -/
def destPos (s : State) (d : Desc) (p : Nat) : Nat :=
  let l := d.seqLenM1 + 1
  if d.op == 0x12 then (((p : Int) + shiftDist d) % (l : Int)).toNat else permDest s (d.permBase + p)

/-- Where the output of member `i` comes from, in logical order: source member, first element in its input, elements. -/
def outputPlan (s : State) (d : Desc) (cs : List Nat) (i : Nat) : List (Nat × Nat × Nat) :=
  let n := d.members
  match d.op with
  | 0x10 => (List.range n).map fun m => (m, 0, d.count)
  | 0x11 => ((List.range n).filter fun m => d.rank m == d.root).map fun m => (m, 0, d.count)
  | 0x30 => (List.range n).map fun m => (m, 0, cs.getD m 0)
  | 0x14 => (List.range n).map fun m => (m, i * (d.count / n), d.count / n)
  | 0x34 => (List.range n).map fun m => (m, prefixSum ((cs.drop (m * n)).take n) i, cs.getD (m * n + i) 0)
  | _ =>
    let per := (d.seqLenM1 + 1) / n
    let el := d.count / per
    (List.range per).map fun q =>
      match findUp (fun p => destPos s d p == i * per + q) (d.seqLenM1 + 1) 0 with
      | some p => (p / per, p % per * el, el)
      | none => (n, 0, el)

/-- Elements of member `i`'s input (Table 7.1). -/
def inputLen (d : Desc) (cs : List Nat) (i : Nat) : Nat :=
  match d.op with
  | 0x11 => if d.rank i == d.root then d.count else 0
  | 0x30 => cs.getD i 0
  | 0x34 => ((cs.drop (i * d.members)).take d.members).sum
  | _ => if isReduction d.op then yLen d cs else d.count

/-- Elements that member `i` receives. -/
def outputLen (s : State) (d : Desc) (cs : List Nat) (i : Nat) : Nat :=
  if isReduction d.op then (memberRange d cs i).2 - (memberRange d cs i).1
  else ((outputPlan s d cs i).map fun e => e.2.2).sum

/-! ## The check record (R121) -/

/-- DCHK of collective `k` under its slot and generation. -/
def dchkOf (s : State) (n : Nat) (d : Desc) (msg : Nat) : Nat :=
  let root := if d.op == 4 || d.op == 5 || d.op == 6 then d.root else 0
  natOfBE (shake256 (beBytes 2 (quireId s n) ++ beBytes 2 msg ++ beBytes 1 d.op ++ beBytes 1 (d.outFmt * 16 + d.inFmt) ++
    beBytes 2 0 ++ beBytes 4 d.count ++ beBytes 3 root ++ beBytes 1 0) 4)

/-! ## Pieces of a byte string -/

/-- Bytes [pos, stop) from pieces at offsets; none while one is missing. -/
def coverFrom (pieces : List (Nat × List Byte)) : Nat → Nat → Nat → Option (List Byte)
  | 0, _, _ => none
  | fuel + 1, pos, stop =>
    if stop ≤ pos then some []
    else
      match pieces.find? fun p => p.1 ≤ pos && pos < p.1 + p.2.length with
      | none => none
      | some p =>
        let part := (p.2.drop (pos - p.1)).take (stop - pos)
        (match coverFrom pieces fuel (pos + part.length) stop with
         | some rest => some (part ++ rest)
         | none => none)

/-- The bytes [lo, hi) of a string held in pieces; none while one is missing. -/
def assemble (pieces : List (Nat × List Byte)) (lo hi : Nat) : Option (List Byte) := coverFrom pieces (pieces.length + 1) lo hi

end Sys2Proof.Machine
end

