-- ==== Sys2Proof/Machine/Slots.lean ====
section
/-! DEFINITION. Posting, counters and triggers, completion, aborts and the slot lifetime (R114 to R117, R124, R131, R136, R137,
R149, R156 to R162). -/
namespace Sys2Proof.Machine

open Sys2Proof

/-! ## Posting (R116, R149) -/

/-- `xs` with `k` inserted in increasing order. -/
def insertNat (k : Nat) : List Nat → List Nat
  | [] => [k]
  | x :: xs => if k < x then k :: x :: xs else if k == x then x :: xs else x :: insertNat k xs

/-- Collective `k` has been posted. -/
def isPosted (j : JobSt) (k : Nat) : Bool := decide (k < j.postFloor) || j.posted.contains k

/-- `j` with `k` noted as posted. -/
def notePosted (j : JobSt) (k : Nat) : JobSt :=
  let ps := insertNat k j.posted
  let f := (findUp (fun q => !ps.contains q) (ps.length + 1) j.postFloor).getD j.postFloor
  { j with posted := ps.filter fun q => f ≤ q, postFloor := f }

/-- STATE of subscriber `n`'s job words (Table 9.11): 0 EMPTY, 1 LOADING, 2 LOADED, 3 UNLOADING, 4 REFUSED. -/
def jobState (s : State) (n : Nat) : Nat := fget s (wJob n + 20) 2 0

/-- The lowest-numbered collective neither posted nor AUTO 1 (R149). -/
def nextPost (s : State) (n : Nat) (j : JobSt) : Option Nat :=
  findUp (fun k => !isPosted j k && !(descOf s n k).auto) (j.posted.length + seqLen s n + 1) j.postFloor

/-- A trigger of the subscriber is PENDING: it has posts left (R149). -/
def postsPending (s : State) (n : Nat) : Bool := s.pendingPosts.any fun e => e.2 != 0 && fget s (wTrig e.1) 23 16 == n

/-- A post of lower number than `k` waits for the hold queue, so that `k` may not pass it (R116). -/
def lowerWaits (s : State) (n : Nat) (j : JobSt) (k : Nat) : Bool :=
  (j.waitPosts.any fun w => decide (w < k)) ||
    (postsPending s n && (match nextPost s n j with
      | some q => decide (q < k)
      | none => false))

/-- Collective `k` enters the hold queue in collective-sequence order, or waits in its engine for space and for the lower-numbered
posts that wait (R116). -/
def postK (s : State) (n k : Nat) : State :=
  match getJob s n with
  | none => s
  | some j =>
    let s := ctrAdd s (pColl (descOf s n k).engine) 0 1
    let wait := lowerWaits s n j k
    let j := notePosted j k
    if j.hold.length < 4096 && !wait then setJob s n (some { j with hold := insertNat k j.hold })
    else setJob s n (some { j with waitPosts := insertNat k j.waitPosts })

/-- The first packet of an AUTO 1 collective posts it (R149). -/
def autoPost (s : State) (n k : Nat) : State :=
  match getJob s n with
  | none => s
  | some j => if jobState s n == 2 && (descOf s n k).auto && !isPosted j k then postK s n k else s

/-- Hold-queue space of a job. -/
def holdSpace (s : State) (n : Nat) : Bool :=
  match getJob s n with
  | some j => decide (j.hold.length < 4096)
  | none => false

/-- Post up to `fuel` collectives while the hold queue has space and no lower-numbered post waits for it; what is left to post is
answered. -/
def postSome : Nat → State → Nat → Nat × State
  | 0, s, _ => (0, s)
  | fuel + 1, s, n =>
    match getJob s n with
    | none => (0, s)
    | some j =>
      if jobState s n != 2 then (0, s)
      else if 4096 ≤ j.hold.length then (fuel + 1, s)
      else
        match nextPost s n j with
        | none => (0, s)
        | some k => if j.waitPosts.any fun w => decide (w < k) then (fuel + 1, s) else postSome fuel (postK s n k) n

/-! ## Triggers (R157 to R159, Table 7.3) -/

/-- Fields of trigger `t`. -/
def trigState (s : State) (t : Nat) : Nat := fget s (wTrig t) 30 28
def trigAction (s : State) (t : Nat) : Nat := fget s (wTrig t) 27 25
def trigRearm (s : State) (t : Nat) : Bool := bit s (wTrig t) 24
def trigSub (s : State) (t : Nat) : Nat := fget s (wTrig t) 23 16
def trigCounter (s : State) (t : Nat) : Nat := fget s (wTrig t) 14 0
def trigThreshold (s : State) (t : Nat) : Nat := (rd s (wTrig t + 4)).toNat * 2 ^ 32 + (rd s (wTrig t + 8)).toNat
def trigStep (s : State) (t : Nat) : Nat := (rd s (wTrig t + 12)).toNat
def trigArgA (s : State) (t : Nat) : Nat := (rd s (wTrig t + 16)).toNat
def trigArgB (s : State) (t : Nat) : Nat := (rd s (wTrig t + 20)).toNat

/-- The trigger is armed and its counter meets the threshold (R158). -/
def trigMet (s : State) (t : Nat) : Bool :=
  bit s (wTrig t) 31 && trigState s t == 1 && decide (trigThreshold s t ≤ (getEvCtr s (trigCounter s t)).toNat)

/-- Triggers of a counter, in increasing index. -/
def triggersOf (s : State) (c : Nat) : List Nat :=
  ((Sparse.range s.regs (wTrig 0) (wTrig 32768)).filter fun e =>
    e.1 % 32 == 0 && e.2.getLsbD 31 && bitsOf e.2 14 0 == c).map fun e => (e.1 - wTrig 0) / 32

/-- One more trigger event for a session, at most 1,024 waiting (R314, R315). -/
def queueTrigEvent (s : State) (sid t tag value : Nat) (x : Session) : State :=
  if 1024 ≤ x.trigQueue.length then setSession s sid (some { x with dropped := x.dropped + 1 })
  else
    let n := s.evtSeq
    let body := beBytes 4 n ++ [1] ++ beBytes 4 t ++ beBytes 2 tag ++ beBytes 8 value
    let x := { x with trigQueue := x.trigQueue ++ [{ evtSeq := n, page := 0, bits := 0, body := body }] }
    sendMsg (setSession { s with evtSeq := (n + 1) % 2 ^ 32 } sid (some x)) sid 0x21 0 0 0 body

/-- EVENT of a trigger to every session that may receive it: operators only for their own quires (R314). -/
def sendTrigEvent (s : State) (t : Nat) : State :=
  (s.sessions.map (·.1)).foldl (fun s sid =>
    match getSession s sid with
    | some x =>
      if x.accepted && (x.role != 0 || ownsSub s x (trigSub s t)) then
        queueTrigEvent s sid t (trigArgA s t % 65536) (getEvCtr s (trigCounter s t)).toNat x
      else s
    | none => s) s

/-- After a firing: FIRED, or the threshold grows by STEP and the trigger stays ARMED (R158). -/
def trigAfter (s : State) (t : Nat) : State :=
  if trigRearm s t then
    let v := trigThreshold s t + trigStep s t
    fset (wr (wr s (wTrig t + 4) (BitVec.ofNat 32 (v / 2 ^ 32))) (wTrig t + 8) (BitVec.ofNat 32 v)) (wTrig t) 30 28 1
  else fset s (wTrig t) 30 28 3

/-- The POST of a trigger: as many collectives as find space now; the rest leave it PENDING (R149). -/
def trigPost (s : State) (t count : Nat) : State :=
  let others := s.pendingPosts.any fun e => e.1 != t && e.2 != 0 && trigSub s e.1 == trigSub s t
  let r := if others then (count, s) else postSome count s (trigSub s t)
  if r.1 == 0 then trigAfter { r.2 with pendingPosts := Sparse.erase r.2.pendingPosts t } t
  else
    let s := { r.2 with pendingPosts := Sparse.set (fun _ => 0) r.2.pendingPosts t r.1 }
    fset s (wTrig t) 30 28 2

/-- One firing (R158). `adv` advances a counter. -/
def fireOnce (adv : State → Nat → Nat → State) (s : State) (t : Nat) : State :=
  let s := ctrAdd s (pTrig (t / 4096)) 0 1
  let s := fieldSat s (wTrig t + 24) 31 0 1
  match trigAction s t with
  | 1 =>
    let s := trigPost s t (trigArgA s t)
    if trigState s t == 2 then ctrAdd s (pTrig (t / 4096)) 1 1 else s
  | 2 => trigAfter (adv s (trigArgA s t % 32768) (trigArgB s t)) t
  | _ => trigAfter (sendTrigEvent s t) t

/-- Up to `n` firings while the trigger is met. -/
def fireLoop (adv : State → Nat → Nat → State) : Nat → State → Nat → State
  | 0, s, _ => s
  | n + 1, s, t => if trigMet s t then fireLoop adv n (fireOnce adv s t) t else s

/-- Firings that a trigger's counter owes now. -/
def firings (s : State) (t : Nat) : Nat :=
  if trigRearm s t && 0 < trigStep s t then ((getEvCtr s (trigCounter s t)).toNat - trigThreshold s t) / trigStep s t + 1 else 1

/-- COUNTER_ADVANCE (R156, R158, R159): the counter grows and its triggers are tested in increasing index. -/
def advance : Nat → State → Nat → Nat → State
  | 0, s, _, _ => s
  | fuel + 1, s, c, amt =>
    let s := setEvCtr s c (getEvCtr s c + BitVec.ofNat 64 amt)
    (triggersOf s c).foldl (fun s t => fireLoop (advance fuel) (firings s t) s t) s

/-- Advance a counter; chains of ADD actions are acyclic, so at most 16,384 counters long (R157). -/
def advanceCounter (s : State) (c amt : Nat) : State := advance 16385 s c amt

/-- A trigger that is being armed tests its counter at once (R158). -/
def testTrigger (s : State) (t : Nat) : State := fireLoop (advance 16384) (firings s t) s t

/-- POST_PENDING_RESUME (R149). -/
def resumePost (s : State) (t : Nat) : State :=
  let left := Sparse.get (fun _ => 0) s.pendingPosts t
  if left == 0 || trigState s t != 2 then s
  else
    let s := trigPost s t left
    if trigState s t == 1 then testTrigger s t else s

def execPostPendingResume (trigger : Nat) (s : State) : Out := .next (resumePost s trigger)

/-- A PENDING trigger of a job: the one of least index. -/
def pendingOf (s : State) (n : Nat) : Option Nat :=
  match s.pendingPosts.find? fun e => e.2 != 0 && trigSub s e.1 == n with
  | some e => some e.1
  | none => none

/-- One more collective of a PENDING trigger is posted; at the last one the trigger goes on (R149). -/
def trigOne (s : State) (n t k : Nat) : State :=
  let left := Sparse.get (fun _ => 0) s.pendingPosts t
  let s := postK { s with pendingPosts := Sparse.set (fun _ => 0) s.pendingPosts t (left - 1) } n k
  if left ≤ 1 then
    let s := trigAfter s t
    if trigState s t == 1 then testTrigger s t else s
  else s

/-- One waiting post enters the hold queue: the least number among the engines' and the triggers' posts (R116). -/
def enterOne (s : State) (n : Nat) (j : JobSt) : Option State :=
  let ofTrig := match pendingOf s n with
    | some t =>
      (match nextPost s n j with
       | some k => some (t, k)
       | none => none)
    | none => none
  match j.waitPosts, ofTrig with
  | [], none => none
  | w :: ws, none => some (setJob s n (some { j with waitPosts := ws, hold := insertNat w j.hold }))
  | [], some (t, k) => some (trigOne s n t k)
  | w :: ws, some (t, k) =>
    some (if w < k then setJob s n (some { j with waitPosts := ws, hold := insertNat w j.hold }) else trigOne s n t k)

/-- Waiting posts enter while there is space. -/
def enterWaiting : Nat → State → Nat → State
  | 0, s, _ => s
  | fuel + 1, s, n =>
    match getJob s n with
    | none => s
    | some j =>
      if 4096 ≤ j.hold.length then s
      else
        match enterOne s n j with
        | some s => enterWaiting fuel s n
        | none => s

/-- HOLD_QUEUE_FREE (R116). -/
def execHoldQueueFree (sub : Nat) (s : State) : Out := .next (enterWaiting 4096 s sub)

/-! ## Completion (R162) -/

/-- COLLECTIVE_COMPLETE: COLL_LAST, the counters and the FAILED event; the gathering takes the completion afterwards. -/
def completeAt (s : State) (x : SlotSt) (code flags escapes : Nat) : State :=
  let e := x.desc.engine
  let s := wr s (pColl e + 0x48) (BitVec.ofNat 32 (code * 65536 + x.k % 65536))
  let s := ctrAdd s (pColl e) (if code == 0 then 1 else 2) 1
  let s := match getJob s x.sub with
    | some j => setJob s x.sub (some { j with ended := j.ended ++ [(x.k, ⟨code, flags, escapes⟩, countVec x (countLen x.desc))] })
    | none => s
  if code == 0 then (if x.desc.doneEn then advanceCounter s x.desc.doneCtr 1 else s)
  else
    let s := raise s (pColl e) 8
    if x.desc.failEn then advanceCounter s x.desc.failCtr 1 else s

/-! ## Packets of a collective -/

/-- Die of a collective's engine (R148). -/
def engineDie (x : SlotSt) : Nat := x.desc.engine / 8

/-- Send context to a local member, by member index. -/
def ctxToMember (s : State) (x : SlotSt) (i : Nat) : Option Nat :=
  match memberAddr s x.sub x.desc i with
  | some a => findStream s x.sub .toMember a
  | none => none

/-- Send context to a tree neighbour. -/
def ctxToTree (s : State) (x : SlotSt) (c : Nat) : Option Nat := findStream s x.sub .toTree (switchAddr (ownPlane s) c)

/-- A packet of a collective at this switch: MSG of its slot and generation. -/
def slotPkt (s : State) (x : SlotSt) (t : BitVec 6) (ety : Nat) (payload : List Byte) : Pkt :=
  { withPayload (blankPkt t) payload with msg := BitVec.ofNat 16 (msgOf s x.sub x.k), ety := BitVec.ofNat 3 ety }

/-- ETYPE of a collective's RESULT packets: the output format, NONE for FRICK (R53, R129). -/
def resultEty (d : Desc) : Nat := if d.outFmt == 12 then 0 else d.outFmt

/-- Every local member's rank still translates (R59). -/
def ranksHold (s : State) (x : SlotSt) : Bool := x.locals.all fun m => (memberAddr s x.sub x.desc m).isSome

/-- A COUNT_XCHG stage's descriptor: the collective has no data phase (R195). -/
def isXchg (s : State) (n k : Nat) : Bool :=
  match getJob s n with
  | some j => j.stages.any fun g => g.ty == 0x11 && g.desc == k % seqLen s n
  | none => false

/-- A status notice (R136). -/
def noticePkt (s : State) (x : SlotSt) (code flags escapes : Nat) : Pkt :=
  { slotPkt s x tResult (resultEty x.desc) (leBytes 4 code ++ leBytes 4 flags ++ leBytes 4 escapes)
    with offset := 0xFFFFFFFF }

/-- Send the status notice to the local members and the children (R124, R136). -/
def sendNotice (s : State) (i : Nat) (x : SlotSt) (code flags escapes : Nat) : State :=
  let k := noticePkt s x code flags escapes
  let items := (x.locals.filterMap fun m => ctxToMember s x m) ++ (x.children.filterMap fun c => ctxToTree s x c.1)
  sendAll s (engineDie x) (items.map fun c => (c, k)) true x.sub (some (i, x.k)) none

/-- The abort of R124: a PARTIAL of KIND 1 to the parent (Table 6.6), counted at the die of R141's aborts. Its OFFSET is 0: the
model's choice, since an abort is of no chunk and Table 3.5 gives a PARTIAL's OFFSET as 4,096 x chunk (log 87). -/
def sendAbort (s : State) (i : Nat) (x : SlotSt) (code : Nat) : State :=
  match x.parent with
  | none => s
  | some p =>
    match ctxToTree s x p with
    | none => s
    | some c =>
      let k := slotPkt s x tPartial x.desc.inFmt (leBytes 4 0 ++ [1, 0] ++ leBytes 2 code)
      sendOne (ctrAdd s (pReduce (i % 8)) 2 1) (engineDie x) c
        { k with word24 := BitVec.ofNat 32 (dchkOf s x.sub x.desc (msgOf s x.sub x.k)) } false x.sub (some (i, x.k)) none

/-! ## Release (R131) -/

/-- SLOT_RELEASE: the generation advances and the slot returns to WAITING. CHILDREN, IN_TREE and ROOT of w0 then read 0 until the next
collective takes the slot: the model's choice, since Table 6.9 says what they read only of a reduction (log 88). -/
def releaseSlot (s : State) (i : Nat) (x : SlotSt) : State :=
  let m := msgOf s x.sub x.k
  let s := { setSlot s i none with msgs := s.msgs.filter fun e => !(e.msg == m && (match getStream s e.ctx with
    | some t => t.sub == x.sub && t.kind == .fromTree
    | none => false)) }
  let s := fset (fset (fset s (wSlot i) 7 4 ((slotGen s i + 1) % 16)) (wSlot i) 2 0 1) (wSlot i) 20 16 0
  let s := wr (wr s (wSlot i + 4) 0) (wSlot i + 28) (BitVec.ofNat 32 (x.code % 65536 * 65536 + x.flags % 16))
  match getJob s x.sub with
  | some j =>
    let o := i - slotBase s x.sub
    setJob s x.sub (some { j with rounds := Sparse.set (fun _ => 0) j.rounds o (Sparse.get (fun _ => 0) j.rounds o + 1) })
  | none => s

/-- Every chunk of an OK reduction is RELEASED; a COUNT_XCHG has none (R195). -/
def chunksReleased (s : State) (x : SlotSt) : Bool :=
  !isReduction x.desc.op || isXchg s x.sub x.k ||
    (List.range (chunkCount x.desc (countVec x (countLen x.desc)))).all fun c =>
      match x.chunks.find? fun e => e.1 == c with
      | some e => e.2.st == .released
      | none => false

/-- Release the slot where R131 permits it: OK with every chunk RELEASED, or aborting, and nothing owed an acknowledgement. -/
def tryRelease (s : State) (i : Nat) : State :=
  match getSlot s i with
  | none => s
  | some x =>
    if x.unacked.isEmpty && !owesWaiting s i x.k (fun _ => true) && ((x.okSent && chunksReleased s x) || slotState s i == 4) then
      releaseSlot s i x
    else s

/-! ## Aborts (R124) -/

/-- No packet of a generation is emitted any more: those that wait for their window are dropped before they take a number (R45,
R124). -/
def forgetWaiting (s : State) (i k : Nat) : State :=
  s.streams.foldl (fun s e =>
    match e.2 with
    | some x =>
      if x.waiting.any fun w => w.slot == some (i, k) then
        setStream s e.1 (some { x with waiting := x.waiting.filter fun w => w.slot != some (i, k) })
      else s
    | none => s) s

/-- What a generation retained for retransmission is discarded (R45). -/
def forgetRetained (s : State) (i k : Nat) : State :=
  s.streams.foldl (fun s e =>
    match e.2 with
    | some x =>
      if x.unacked.any fun w => w.slot == some (i, k) then
        setStream s e.1 (some { x with unacked := x.unacked.filter fun w => w.slot != some (i, k) })
      else s
    | none => s) s

/-- The third field of a failure notice: what the root has received, as far as this switch knows it; a switch below the root that
aborts by itself has not been told, and the field is free (R136, log 57). -/
def failEscapes (s : State) (x : SlotSt) (up : Bool) : Nat × State :=
  if up && x.parent.isSome then (Config.freeNat (draw s).1 % 2 ^ 32, (draw s).2) else (x.rootEscapes, s)

/-- REDUCTION_ABORT (R124) at this switch with a code; a switch that has sent OK does nothing but count (the caller). -/
def abortSlot (s : State) (i code : Nat) (up : Bool) : State :=
  match getSlot s i with
  | none => s
  | some x =>
    if x.okSent || slotState s i == 4 then s
    else
      let s := ctrAdd s (pReduce (i % 8)) 9 1
      let x := { x with chunks := [], code := code, unacked := [], inputs := [], fromSwitch := [] }
      let s := fset (setSlot s i (some x)) (wSlot i) 2 0 4
      let s := forgetWaiting s i x.k
      let s := if up then sendAbort s i x code else s
      let e := failEscapes s x up
      let s := sendNotice e.2 i x code x.flags e.1
      tryRelease (completeAt s x code x.flags e.1) i

/-- A translation is found invalid when a packet is formed: the collective ends as at its take (R59). -/
def rankLost (s : State) (i : Nat) : State := abortSlot (ctrAdd s pRankXlat 1 1) i 8 true

/-! ## Liveness (R45, R137) -/

/-- The liveness timer restarts: absences before now no longer count (R45). -/
def restartLiveness (s : State) (i : Nat) : State :=
  match getSlot s i with
  | some x => if x.settling then s else setSlot s i (some { x with absent := blockAbsent s x.sub })
  | none => s

/-- LIVENESS_EXPIRY (R45): the collective stops and settles; nothing of it is emitted any more, unless it had completed OK. -/
def execLivenessExpiry (slot : Nat) (s : State) : Out :=
  match getSlot s slot with
  | none => .next s
  | some x =>
    if x.settling || slotState s slot == 4 then .next s
    else
      let s := if x.okSent then s else forgetWaiting s slot x.k
      .next (setSlot s slot (some { x with settling := true, chunks := if x.okSent then x.chunks else [] }))

end Sys2Proof.Machine
end

