-- ==== Sys2Proof/Machine/Reduce.lean ====
section
/-! DEFINITION. The reduction arithmetic of a slot (R118, R125 to R130, R134): contributions and partials into ricks, complete
chunks, results going down the tree, and the acknowledgements that release them. -/
namespace Sys2Proof.Machine

open Sys2Proof

/-! ## Chunks -/

/-- A chunk no addend has reached. -/
def chunkInit : Chunk := { st := .unopened, spilled := false, ricks := [], exts := [], snan := false, pieces := [] }
def getChunk (x : SlotSt) (c : Nat) : Chunk := Sparse.get (fun _ => chunkInit) x.chunks c
def setChunk (x : SlotSt) (c : Nat) (k : Chunk) : SlotSt := { x with chunks := Sparse.set (fun _ => chunkInit) x.chunks c k }

/-- Die that hosts chunk `c` of slot `i` (R118). -/
def hostDie (i c : Nat) : Nat := (i + c) % 8

/-- A chunk past COMPLETE has been sent down here. -/
def chunkDown (x : SlotSt) (c : Nat) : Bool := (getChunk x c).st == .down || (getChunk x c).st == .released

/-- The count vector of a slot's collective. -/
def slotCounts (x : SlotSt) : List Nat := countVec x (countLen x.desc)

/-- Elements held by a chunk. -/
def chunkSize (k : Chunk) : Nat := k.ricks.length + k.exts.length

/-- A chunk holds its entries, until it is read out, in the hot-rick store (`spilled` false) or in the spill region (R125). -/
def holdsIn (k : Chunk) (spilled : Bool) : Bool := (k.st == .hot || k.st == .spilled || k.st == .complete) && k.spilled == spilled

/-- Hot-rick entries in use on a die (Table 6.13). -/
def hotUsed (s : State) (d : Nat) : Nat :=
  (s.slots.map fun e =>
    match e.2 with
    | some x => ((x.chunks.filter fun c => hostDie e.1 c.1 == d && holdsIn c.2 false).map fun c => chunkSize c.2).sum
    | none => 0).sum

/-- Chunks of a die that hold their entries in its spill region (Table 6.14). -/
def spilledOn (s : State) (d : Nat) : Nat :=
  (s.slots.map fun e =>
    match e.2 with
    | some x => (x.chunks.filter fun c => hostDie e.1 c.1 == d && holdsIn c.2 true).length
    | none => 0).sum

/-- Chunk window of the job: the largest W of its descriptors (R134). -/
def jobW (s : State) (n : Nat) : Nat :=
  (List.range (seqLen s n)).foldl (fun m k => Nat.max m (descOf s n k).w) 0

/-- Chunks of a slot that a die's retention holds, and whether one more fits (R134). -/
def retentionFree (s : State) (i : Nat) (x : SlotSt) (c : Nat) : Bool :=
  decide ((x.chunks.filter fun e => hostDie i e.1 == hostDie i c && (e.2.st == .up || e.2.st == .down)).length <
    2 * ceilDiv (jobW s x.sub) 8)

/-- Open chunk `c` at its first addend: HOT where the store has room, else SPILLED (R125). -/
def openChunk (s : State) (i : Nat) (x : SlotSt) (cs : List Nat) (c : Nat) : State × Chunk :=
  let k := getChunk x c
  if k.st != .unopened then (s, k)
  else
    let n := elemsOfChunk x.desc cs c
    let hot := decide (hotUsed s (hostDie i c) + n ≤ 1048576)
    let k := { k with
      st := if hot then .hot else .spilled,
      spilled := !hot,
      ricks := if isSum x.desc.op then List.replicate n rickEmpty else [],
      exts := if isSum x.desc.op then [] else List.replicate n ⟨0, 0, false⟩ }
    (if hot then s else ctrAdd s (pReduce (hostDie i c)) 4 1, k)

/-- `xs` with `f` applied from position `st` on, one value of `vs` for each. -/
def zipFrom {α β : Type} (f : α → β → α) : Nat → List α → List β → List α
  | _, [], _ => []
  | _, xs, [] => xs
  | 0, x :: xs, v :: vs => f x v :: zipFrom f 0 xs vs
  | st + 1, x :: xs, vs => x :: zipFrom f st xs vs

/-- One min or max operand into an entry (R92, R126); `sn`: it is, or came with, a signalling NaN. -/
def extAdd (code : Nat) (mx : Bool) (add : Nat) (sn : Bool) (e : Extreme) (b : Nat) : Extreme :=
  ⟨if e.count == 0 then b else minMax code mx e.bits b, e.count + add, e.snan || sn⟩

/-- The entry of an operand: a NaN becomes the canonical NaN (R92). -/
def extOf (code b : Nat) : Nat :=
  match elemVal code b, floatFmt code with
  | .nan _, some f => f.nan
  | _, _ => b

/-- COUNT of element `e` of a chunk. -/
def countAt (k : Chunk) (e : Nat) : Nat :=
  match k.ricks[e]?, k.exts[e]? with
  | some r, _ => r.count
  | none, some x => x.count
  | none, none => 0

/-- Adding `add` to every element of [st, st + n) would take a COUNT above E (Table 6.4). -/
def overruns (k : Chunk) (expected add st n : Nat) : Bool :=
  (List.range n).any fun e => decide (expected < countAt k (st + e) + add)

/-- Every element holds COUNT = E (R126). -/
def chunkFull (k : Chunk) (expected : Nat) : Bool :=
  (k.ricks.all fun r => r.count == expected) && (k.exts.all fun e => e.count == expected)

/-! ## PARTIAL packets (Table 6.6) -/

/-- Elements packed greedily into payloads of at most `room` bytes of element data: first index, elements, full forms. -/
def packRicks (room : Nat) (first : Nat) : List Rick → Nat → List Byte → List Byte → Nat → List (Nat × Nat × List Byte × List Byte)
  | [], n, el, fu, _ => if n == 0 then [] else [(first, n, el, fu)]
  | r :: rs, n, el, fu, idx =>
    let f := folds r.v
    let size := el.length + fu.length + (if f then 20 else 68)
    if n != 0 && room < size then
      (first, n, el, fu) :: packRicks room idx rs 1 (if f then foldBytes r else placeholderBytes 0)
        (if f then [] else fullForm r idx) (idx + 1)
    else
      packRicks room first rs (n + 1) (el ++ (if f then foldBytes r else placeholderBytes (fu.length / 48)))
        (fu ++ (if f then [] else fullForm r idx)) (idx + 1)

/-- The payload of Table 6.6 for elements. -/
def partialPayload (first n flags : Nat) (el fu : List Byte) : List Byte :=
  leBytes 2 first ++ leBytes 2 n ++ [0] ++ leBytes 1 flags ++ leBytes 2 0 ++ el ++ fu

/-- Payloads of a complete chunk, with their AUX counts; FLAGS [3] where an element of the packet has seen a signalling NaN (R127). -/
def chunkPayloads (d : Desc) (k : Chunk) : List (List Byte × Nat) :=
  if isSum d.op then
    (packRicks 4088 0 k.ricks 0 [] [] 0).map fun p => (partialPayload p.1 p.2.1 0 p.2.2.1 p.2.2.2, p.2.2.2.length / 48)
  else
    let per := 4088 / elemBytes d.inFmt
    (List.range (ceilDiv k.exts.length per)).map fun j =>
      let es := (k.exts.drop (j * per)).take per
      (partialPayload (j * per) es.length (if es.any (·.snan) then 8 else 0) (packElems d.inFmt (es.map (·.bits))) [], 0)

/-- Send a complete chunk to the parent: it is UP (R127). -/
def sendUp (s : State) (i : Nat) (x : SlotSt) (c : Nat) : State :=
  match x.parent with
  | none => s
  | some p =>
    let k := getChunk x c
    let ps := chunkPayloads x.desc k
    let esc := (ps.map (·.2)).sum
    let d := hostDie i c
    let x := setChunk { x with escapes := x.escapes + esc } c { k with st := .up, ricks := [], exts := [] }
    let s := setSlot s i (some x)
    let s := ctrAdd (ctrAdd (ctrAdd s (pReduce d) 2 ps.length) (pReduce d) 32 (k.ricks.length - esc)) (pReduce d) 33 esc
    match ctxToTree s x p with
    | none => s
    | some ctx =>
      let chk := BitVec.ofNat 32 (dchkOf s x.sub x.desc (msgOf s x.sub x.k))
      ps.foldl (fun s b =>
        sendOne s d ctx { slotPkt s x tPartial x.desc.inFmt b.1 with
          offset := BitVec.ofNat 32 (4096 * c), word24 := chk, aux := BitVec.ofNat 16 b.2 } false x.sub (some (i, x.k)) (some c)) s

/-! ## Results going down (R129) -/

/-- Bytes that an element of the result takes in `pieces`, and in OFFSET. -/
def resultUnit (d : Desc) : Nat := if d.outFmt == 12 then 48 else elemBytes d.outFmt
def offsetUnit (d : Desc) : Nat := if d.outFmt == 12 then 20 else elemBytes d.outFmt

/-- Payloads of elements [lo, hi) of y, chunk `c`: first element, payload, AUX. -/
def resultPayloads (d : Desc) (k : Chunk) (c lo hi : Nat) : List (Nat × List Byte × Nat) :=
  let u := resultUnit d
  let bs := (assemble k.pieces (lo * u) (hi * u)).getD []
  if d.outFmt == 12 then
    let base := c * chunkElems d
    (packRicks 4088 (lo - base) (ricksOf (hi - lo) bs) 0 [] [] (lo - base)).map fun p =>
      (base + p.1, partialPayload p.1 p.2.1 0 p.2.2.1 p.2.2.2, p.2.2.2.length / 48)
  else
    let per := 4096 / u
    (List.range (ceilDiv (hi - lo) per)).map fun j => (lo + j * per, slice bs (j * per * u) (per * u), 0)

/-- RESULT packets of one target for chunk `c`: its ranges, the element that OFFSET counts from, TOTAL and LAST (R129). -/
def targetPkts (s : State) (x : SlotSt) (k : Chunk) (c : Nat) (ranges : List (Nat × Nat)) (origin sentLen : Nat) :
    List Pkt × Nat :=
  let d := x.desc
  let u := offsetUnit d
  let here := (ranges.map fun r => inChunk (chunkElems d) c r).filter fun r => r.1 < r.2
  let pls := (here.map fun r => (resultPayloads d k c r.1 r.2).map fun p => (p, r.2)).flatten
  let len := sentLen + (pls.map fun p => p.1.2.1.length).sum
  let stop := (ranges.map (·.2)).foldl Nat.max 0
  let total := if d.outFmt == 12 then len else (ranges.map fun r => (r.2 - r.1) * u).sum
  let base := { slotPkt s x tResult (resultEty d) [] with sealBit := d.sealBit }
  if pls.isEmpty then
    ([{ base with offset := BitVec.ofNat 32 (c * chunkElems d * u), sealBit := false }], len)
  else
    let isLast := fun (j : Nat) => j + 1 == pls.length && (here.getLast?.map (·.2)) == some stop
    ((pls.zip (List.range pls.length)).map fun p =>
      let q := withPayload base p.1.1.2.1
      { q with offset := BitVec.ofNat 32 ((p.1.1.1 - origin) * u), aux := BitVec.ofNat 16 p.1.1.2.2, last := isLast p.2,
               word24 := if isLast p.2 then BitVec.ofNat 32 total else 0 }, len)

/-- Send items grouped by payload, each group from one stored copy (R236). -/
def sendGroups : Nat → State → Nat → List (Nat × Pkt) → Nat → Option (Nat × Nat) → Option Nat → State
  | 0, s, _, _, _, _, _ => s
  | _ + 1, s, _, [], _, _, _ => s
  | n + 1, s, die, it :: rest, sub, slot, chunk =>
    let same := rest.filter fun j => j.2.payload == it.2.payload
    let other := rest.filter fun j => j.2.payload != it.2.payload
    sendGroups n (sendAll s die (it :: same) it.2.payload.isEmpty sub slot chunk) die other sub slot chunk

/-- The ranges of y that each target of this switch is owed: its local members and its children (R129). -/
def targetRanges (s : State) (x : SlotSt) (cs : List Nat) : List (List (Nat × Nat)) :=
  (x.locals.map fun m => [memberRange x.desc cs m]) ++ (x.children.map fun ch => subtreeRanges s x.sub x.desc cs ch.1)

/-- A FRICK chunk that holds some target's last element waits for the chunks below it, since the TOTAL it carries is the sum of the
LENs of every packet of the message (R129). -/
def heldBack (s : State) (x : SlotSt) (cs : List Nat) (c : Nat) : Bool :=
  x.desc.outFmt == 12 && !((List.range c).all fun q => chunkDown x q) &&
    (targetRanges s x cs).any fun rs =>
      let stop := (rs.map (·.2)).foldl Nat.max 0
      stop != 0 && (stop - 1) / chunkElems x.desc == c

/-- Send chunk `c`'s result to the local members and the children: it is DOWN (R129). -/
def sendDown (s : State) (i : Nat) (x : SlotSt) (cs : List Nat) (c : Nat) : State :=
  if !ranksHold s x then rankLost s i
  else
  let k := getChunk x c
  let len := fun (key : Nat) => Sparse.get (fun _ => 0) x.frickLens key
  let mem := x.locals.map fun m =>
    let r := memberRange x.desc cs m
    (m, ctxToMember s x m, targetPkts s x k c (if r.1 < r.2 then [r] else []) r.1 (len m))
  let kids := x.children.map fun ch =>
    (2 ^ 20 + ch.1, ctxToTree s x ch.1, targetPkts s x k c (subtreeRanges s x.sub x.desc cs ch.1) 0 (len (2 ^ 20 + ch.1)))
  let all := mem ++ kids
  let items := (all.map fun t =>
    match t.2.1 with
    | some ctx => t.2.2.1.map fun p => (ctx, p)
    | none => []).flatten
  let lens := all.foldl (fun m t => Sparse.set (fun _ => 0) m t.1 t.2.2.2) x.frickLens
  let esc := (items.map fun p => p.2.aux.toNat).sum
  let x := setChunk { x with frickLens := lens, escapes := x.escapes + esc } c { k with st := .down, ricks := [], exts := [] }
  let nel := if x.desc.outFmt == 12 then (items.map fun p => leAt p.2.payload 2 2).sum else 0
  let s := ctrAdd (ctrAdd (setSlot s i (some x)) (pReduce (hostDie i c)) 33 esc) (pReduce (hostDie i c)) 32 (nel - esc)
  sendGroups items.length s (hostDie i c) items x.sub (some (i, x.k)) (some c)

/-! ## Sealing at the root (R128, R213, R215) -/

/-- The job has no stages at this switch's gathering. -/
def noStages (j : JobSt) : Bool := j.stages.isEmpty

/-- Seal step of collective `k` (R215). -/
def sealStepOf (s : State) (n k : Nat) (j : JobSt) : Nat := if noStages j then k else k / seqLen s n

/-- SEAL has effect for sums, minima and maxima, fixed and v (10_determinism_and_seals.md, Seals). -/
def sealsHere (d : Desc) : Bool := d.sealBit && ((1 ≤ d.op && d.op ≤ 9) || (0x27 ≤ d.op && d.op ≤ 0x29))

/-- Seal identifier of the reduction that slot `x` runs (R215). -/
def sealIdOf (s : State) (x : SlotSt) : Nat := 0x10000 + x.k % seqLen s x.sub

/-- Chunk digests in the store: those of the records and those of steps that have no record yet (R217). -/
def digestsHeld (s : State) : Nat :=
  (s.seals.map fun r => r.digests.length).sum +
    (s.jobs.map fun e =>
      match e.2 with
      | some j => j.digests.length
      | none => 0).sum

/-- The ring has no room for one more record, or the store none for `new` more digests (R218). -/
def sealFull (s : State) (new : Nat) : Bool := decide (524288 ≤ s.seals.length) || decide (8388608 < digestsHeld s + new)

/-- A step waits for room; SEAL_FULL is raised once per filling (R218). -/
def sealWait (s : State) (n : Nat) : State :=
  let first := !(s.jobs.any fun e =>
    match e.2 with
    | some j => j.sealWaiting
    | none => false)
  match getJob s n with
  | none => s
  | some j =>
    let s := setJob s n (some { j with sealWaiting := true, sealSince := if j.sealWaiting then j.sealSince else s.uptime })
    if first then raise s pSeal 8 else s

/-- A sealed reduction that has not begun to seal waits at its root while there is no room for its record (R218). -/
def sealWaits (s : State) (x : SlotSt) : Bool :=
  x.parent.isNone && sealsHere x.desc &&
    match getJob s x.sub with
    | none => false
    | some j =>
      !(j.sealedLens.any fun e => e.1 == sealIdOf s x && e.2.1 == sealStepOf s x.sub x.k j) &&
        sealFull s (Nat.max 1 (ceilDiv (yLen x.desc (slotCounts x) * resultUnit x.desc) 65536))

/-- Rewrite ELEM of 48-byte forms as the element index mod 65,536 (R213). -/
def resealForms : Nat → Nat → List Byte → List Byte
  | 0, _, _ => []
  | n + 1, idx, bs => (bs.take 45 ++ leBytes 2 idx ++ [0]) ++ resealForms n (idx + 1) (bs.drop 48)

/-- Copy a rounded chunk into the seal staging (R128). -/
def stageSeal (s : State) (x : SlotSt) (cs : List Nat) (lo : Nat) (bs : List Byte) : State :=
  match getJob s x.sub with
  | none => s
  | some j =>
    if !sealsHere x.desc then s
    else
      let id := sealIdOf s x
      let st := sealStepOf s x.sub x.k j
      let u := resultUnit x.desc
      let bytes := if x.desc.outFmt == 12 then resealForms (bs.length / 48) lo bs else bs
      let lens := (j.sealedLens.filter fun e => !(e.1 == id && e.2.1 == st)) ++ [(id, st, yLen x.desc cs * u)]
      setJob s x.sub (some { j with staging := j.staging ++ [(id, st, lo * u, bytes)], sealedLens := lens })

/-! ## Complete chunks (R126 to R128) -/

/-- The root rounds a complete chunk once: bytes of its elements and the flags raised (R128). -/
def roundChunk (d : Desc) (e4mode : Nat) (k : Chunk) (lo : Nat) : List Byte × Nat :=
  if d.outFmt == 12 then (((k.ricks.zip (List.range k.ricks.length)).map fun r => fullForm r.1 (lo + r.2)).flatten, 0)
  else if isSum d.op then
    let rs := k.ricks.map fun r => roundRick r d.outFmt e4mode
    (packElems d.outFmt (rs.map (·.1)), rs.foldl (fun f r => orFlags f r.2) 0)
  else (packElems d.outFmt (k.exts.map (·.bits)), if k.snan then fInvalid else 0)

/-- E4M3 overflow mode of a job. -/
def e4mode (s : State) (n : Nat) : Nat :=
  match getJob s n with
  | some j => j.e4mode
  | none => 0

/-- Chunks of a slot's reduction. -/
def slotChunks (x : SlotSt) : Nat := chunkCount x.desc (slotCounts x)

/-- Every chunk's result has been sent from here. -/
def allDown (x : SlotSt) : Bool := (List.range (slotChunks x)).all fun c => chunkDown x c

/-- The slot is DRAINING once all its chunks are past COMPLETE (Table 6.8). -/
def drain (s : State) (i : Nat) : State :=
  match getSlot s i with
  | none => s
  | some x =>
    if slotState s i == 2 && (List.range (slotChunks x)).all (fun c => chunkDown x c || (getChunk x c).st == .up) then fset s (wSlot i) 2 0 3
    else s

/-- A sealed result of no element has no chunk to stage: its sealed bytes are none (R213, R215). -/
def sealNothing (s : State) (x : SlotSt) : State :=
  match getJob s x.sub with
  | none => s
  | some j =>
    if x.parent.isNone && sealsHere x.desc && slotChunks x == 0 then
      setJob s x.sub (some { j with sealedLens := j.sealedLens ++ [(sealIdOf s x, sealStepOf s x.sub x.k j, 0)] })
    else s

/-- The root sends OK once every chunk's result has been sent (R136). -/
def rootOk (s : State) (i : Nat) : State :=
  match getSlot s i with
  | none => s
  | some x =>
    if (x.parent.isSome && !x.noticeGot) || x.okSent || slotState s i == 4 || !allDown x then s
    else if !ranksHold s x then rankLost s i
    else
      let x := { x with okSent := true }
      let s := fset (setSlot s i (some x)) (wSlot i) 2 0 3
      let s := sendNotice (sealNothing s x) i x 0 x.flags x.rootEscapes
      tryRelease (completeAt s x 0 x.flags x.rootEscapes) i

/-- Round and send down a complete chunk at the root. -/
def rootChunk (s : State) (i : Nat) (x : SlotSt) (c : Nat) : State :=
  let cs := slotCounts x
  let k := getChunk x c
  let lo := c * chunkElems x.desc
  let r := roundChunk x.desc (e4mode s x.sub) k 0
  let x := setChunk { x with flags := orFlags x.flags r.2 } c { k with pieces := [(lo * resultUnit x.desc, r.1)] }
  let s := stageSeal (setSlot s i (some x)) x cs lo r.1
  sendDown s i x cs c

/-- A complete chunk moves on where retention, the TOTAL of a FRICK export and room for its seal let it (R127, R128, R129, R134,
R218). -/
def moveChunk (s : State) (i : Nat) (x : SlotSt) (c : Nat) : State :=
  if (getChunk x c).st != .complete || !retentionFree s i x c || (x.parent.isNone && heldBack s x (slotCounts x) c) then s
  else if sealWaits s x then sealWait s x.sub
  else if x.parent.isSome then drain (sendUp s i x c) i
  else rootChunk s i x c

/-- Complete chunks that waited move on, lowest first. -/
def moveWaiting (s : State) (i : Nat) : State :=
  match getSlot s i with
  | none => s
  | some x =>
    (x.chunks.map (·.1)).foldl (fun s c =>
      match getSlot s i with
      | some x => moveChunk s i x c
      | none => s) s

/-- CHUNK_COMPLETE (R126): the chunk is COMPLETE once every COUNT equals E. -/
def afterAdd (s : State) (i : Nat) (x : SlotSt) (c : Nat) (k : Chunk) : State :=
  if chunkFull k x.expected then
    rootOk (moveWaiting (setSlot s i (some (setChunk x c { k with st := .complete }))) i) i
  else setSlot s i (some (setChunk x c k))

/-- RETENTION_FREED (R134). -/
def retentionFreed (s : State) (i c : Nat) : State :=
  match getSlot s i with
  | some x => if slotState s i == 2 || slotState s i == 3 then rootOk (moveChunk s i x c) i else s
  | none => s

/-! ## Addends (Table 6.4, from the DCHK row down) -/

/-- Abort with a code, counting RED_RICK_MALFORMED or RED_PACING_VIOL first where a row says so. -/
def failSlot (s : State) (i code : Nat) (late : Bool) : State :=
  match getSlot s i with
  | some x => if x.okSent then (if late then ctrAdd s (pReduce (i % 8)) 9 1 else s) else abortSlot s i code true
  | none => s

/-- Elements [st, st + n) of a spilled chunk are written back folded or as full forms (R125, Table 5.7). -/
def countSpill (s : State) (die : Nat) (k : Chunk) (st n : Nat) : State :=
  if k.st != .spilled || k.ricks.isEmpty then s
  else
    let f := (((k.ricks.drop st).take n).filter fun r => folds r.v).length
    ctrAdd (ctrAdd s (pReduce die) 32 f) (pReduce die) 33 (n - f)

/-- A CONTRIB of a reduction from local member `m`, accepted and of the slot's generation. One of LEN 0 that passes the tests adds
nothing and is counted with the CONTRIB packets added: the model's choice, since Table 6.4 names no row for it (log 89). -/
def absorbContrib (s : State) (i : Nat) (x : SlotSt) (k : Pkt) : State :=
  let d := x.desc
  let cs := slotCounts x
  let b := elemBytes d.inFmt
  let off := k.offset.toNat
  let len := k.payload.length
  let c := off / 4096
  let total := yLen d cs * b
  if k.word24.toNat != dchkOf s x.sub d k.msg.toNat then failSlot s i 1 true
  else if k.ety.toNat != d.inFmt || len % b != 0 || off % b != 0 || 4096 < off % 4096 + len || total < off + len then
    failSlot s i 1 true
  else if d.w ≤ c && d.w != 0 && !chunkDown x (c - d.w) then
    failSlot (ctrAdd s (pReduce (hostDie i c)) 10 1) i 4 false
  else if len == 0 then ctrAdd s (pReduce (hostDie i c)) 0 1
  else
    let o := openChunk s i x cs c
    let st := off % 4096 / b
    let n := len / b
    if o.2.st != .hot && o.2.st != .spilled then failSlot s i 3 true
    else if overruns o.2 x.expected 1 st n then failSlot s i 3 true
    else
      let es := elems d.inFmt k.payload n
      let ch := { o.2 with
        ricks := zipFrom (fun r e => rickAdd r d.inFmt e) st o.2.ricks es,
        exts := zipFrom (fun r e => extAdd d.inFmt (isMax d.op) 1 (isSnanBits d.inFmt e) r (extOf d.inFmt e)) st o.2.exts es,
        snan := o.2.snan || (!isSum d.op && es.any fun e => isSnanBits d.inFmt e) }
      afterAdd (countSpill (ctrAdd o.1 (pReduce (hostDie i c)) 0 1) (hostDie i c) ch st n) i x c ch

/-- Elements of a PARTIAL payload: first index, ricks, min or max operands; none where it is malformed (Table 6.6). -/
def readPartial (d : Desc) (k : Pkt) (e : Nat) : Option (Nat × List Rick × List Nat) :=
  let p := k.payload
  let first := leAt p 0 2
  let n := leAt p 2 2
  if p.length < 8 || leAt p 4 1 != 0 || leAt p 6 2 != 0 then none
  else if isSum d.op then
    (if n == 0 || 204 < n || p.length != 8 + 20 * n + 48 * k.aux.toNat then none
     else
       match readRicks first e n 0 0 (p.drop 8) (p.drop (8 + 20 * n)) with
       | some rs => some (first, rs, [])
       | none => none)
  else if n == 0 || 4088 < n || p.length != 8 + n * elemBytes d.inFmt || k.aux != 0 then none
  else some (first, [], elems d.inFmt (p.drop 8) n)

/-- A PARTIAL from a child, accepted and of the slot's generation: an abort is passed on, elements are merged (R124, R126). A
malformed payload counts once in RED_RICK_MALFORMED, however many of its ricks are malformed: the model's choice between Table 5.7,
which counts ricks, and Table 6.4, which counts packets (log 90). -/
def absorbPartial (s : State) (i : Nat) (x : SlotSt) (k : Pkt) : State :=
  let d := x.desc
  let c := k.offset.toNat / 4096
  let die := hostDie i c
  let kid := (x.children.find? fun ch => switchAddr (ownPlane s) ch.1 == k.src).map (·.2)
  let malformed := fun (s : State) => failSlot (ctrAdd s (pReduce die) 34 1) i 2 false
  if k.word24.toNat != dchkOf s x.sub d k.msg.toNat then failSlot s i 1 true
  else if k.ety.toNat != d.inFmt then failSlot s i 1 true
  else if leAt k.payload 4 1 == 1 && leAt k.payload 2 2 == 0 && k.payload.length == 8 then
    abortSlot s i (leAt k.payload 6 2) true
  else
    match kid with
    | none => ctrAdd s (pReduce die) 8 1
    | some e =>
      match readPartial d k e with
      | none => malformed s
      | some (first, rs, es) =>
        let cs := slotCounts x
        let n := rs.length + es.length
        if !isReduction d.op || chunkCount d cs ≤ c || k.offset.toNat % 4096 != 0 || elemsOfChunk d cs c < first + n then malformed s
        else
          let o := openChunk s i x cs c
          if o.2.st != .hot && o.2.st != .spilled then failSlot s i 3 true
          else if overruns o.2 x.expected e first n then failSlot s i 3 true
          else
            let sn := !isSum d.op && (leAt k.payload 5 1) / 8 % 2 == 1
            let ch := { o.2 with
              ricks := zipFrom rickMerge first o.2.ricks rs,
              exts := zipFrom (fun r v => extAdd d.inFmt (isMax d.op) e sn r (extOf d.inFmt v)) first o.2.exts es,
              snan := o.2.snan || sn }
            let x := { x with escapes := x.escapes + k.aux.toNat, rootEscapes := x.rootEscapes + b2n x.parent.isNone * k.aux.toNat }
            afterAdd (countSpill (ctrAdd o.1 (pReduce die) 1 1) die ch first n) i x c ch

/-- Elements of y that this switch is owed for chunk `c`: those of its local members and its children. -/
def owedRanges (s : State) (x : SlotSt) (cs : List Nat) (c : Nat) : List (Nat × Nat) :=
  ((targetRanges s x cs).flatten.map fun r => inChunk (chunkElems x.desc) c r).filter fun r => r.1 < r.2

/-- All that is owed of chunk `c` is here. -/
def wholeHere (s : State) (x : SlotSt) (cs : List Nat) (c : Nat) : Bool :=
  let u := resultUnit x.desc
  (owedRanges s x cs c).all fun r => (assemble (getChunk x c).pieces (r.1 * u) (r.2 * u)).isSome

/-- FRICK chunks that are whole and waited for lower ones go down in their turn (R129). -/
def passDown (s : State) (i : Nat) : State :=
  match getSlot s i with
  | none => s
  | some x =>
    if x.desc.outFmt != 12 || x.parent.isNone then s
    else
      (x.chunks.map (·.1)).foldl (fun s c =>
        match getSlot s i with
        | none => s
        | some x =>
          let cs := slotCounts x
          if (getChunk x c).st == .up && !(owedRanges s x cs c).isEmpty && wholeHere s x cs c && !heldBack s x cs c then sendDown s i x cs c
          else s) s

/-- The element of y that a RESULT's OFFSET names, and its chunk. -/
def resultElem (d : Desc) (k : Pkt) : Nat := k.offset.toNat / offsetUnit d
def resultChunk (d : Desc) (k : Pkt) : Nat := resultElem d k / chunkElems d

/-- A RESULT keeps the descriptor's format (R53). -/
def resultFits (d : Desc) (k : Pkt) : Bool :=
  k.ety.toNat == resultEty d &&
    (d.outFmt == 12 || (k.payload.length % elemBytes d.outFmt == 0 && k.offset.toNat % elemBytes d.outFmt == 0))

/-- The ricks of a FRICK RESULT with their first index in the chunk: each counts every member once; none where the payload is
malformed (R107, R110, R129). -/
def readExport (d : Desc) (k : Pkt) : Option (Nat × List Rick) :=
  let p := k.payload
  let n := leAt p 2 2
  if p.length < 8 || leAt p 4 1 != 0 || n == 0 || p.length != 8 + 20 * n + 48 * k.aux.toNat || k.offset.toNat % 20 != 0 then none
  else
    match readRicks (leAt p 0 2) d.members n 0 0 (p.drop 8) (p.drop (8 + 20 * n)) with
    | some rs => some (leAt p 0 2, rs)
    | none => none

/-- A RESULT or chunk-done notice from the parent for a chunk that is UP (R129): once all that is owed of the chunk is here it goes
down. -/
def absorbResult (s : State) (i : Nat) (x : SlotSt) (k : Pkt) : State :=
  let d := x.desc
  let cs := slotCounts x
  let el := resultElem d k
  let c := resultChunk d k
  let ch := getChunk x c
  let u := resultUnit d
  let frick := d.outFmt == 12 && !k.payload.isEmpty
  let form := readExport d k
  if frick && (match form with
      | some r => r.1 != el - c * chunkElems d || elemsOfChunk d cs c < r.1 + r.2.length
      | none => true) then failSlot (ctrAdd s (pReduce (hostDie i c)) 34 1) i 2 false
  else
    let piece := if k.payload.isEmpty then []
      else match form with
        | some r => if frick then [(el * u, ((r.2.zip (List.range r.2.length)).map fun e => fullForm e.1 (r.1 + e.2)).flatten)]
            else [(el * u, k.payload)]
        | none => [(el * u, k.payload)]
    let ch := { ch with pieces := ch.pieces ++ piece }
    let x := setChunk { x with escapes := x.escapes + k.aux.toNat } c ch
    if wholeHere s x cs c && !heldBack s x cs c then rootOk (passDown (sendDown (setSlot s i (some x)) i x cs c) i) i
    else setSlot s i (some x)

/-! ## Acknowledgements (R130) -/

/-- CHUNK_RELEASE: a DOWN chunk that owes nothing more is RELEASED. -/
def releaseChunk (s : State) (i c : Nat) : State :=
  match getSlot s i with
  | none => s
  | some x =>
    if (getChunk x c).st == .down && !x.unacked.any (fun u => u.2.2 == some c) && !owesWaiting s i x.k (· == some c) then
      ctrAdd (setSlot s i (some (setChunk x c { chunkInit with st := .released }))) (pReduce (hostDie i c)) 3 1
    else s

/-- A slot's packet was acknowledged. -/
def slotAcked (s : State) (c : Nat) (u : Sent) : State :=
  match u.slot with
  | none => s
  | some (i, k) =>
    match getSlot s i with
    | none => s
    | some x =>
      if x.k != k then s
      else
        let s := setSlot s i (some { x with unacked := x.unacked.filter fun e => !(e.1 == c && e.2.1 == u.seq) })
        let s := match u.chunk with
          | some ch => releaseChunk s i ch
          | none => s
        tryRelease s i

end Sys2Proof.Machine
end

