-- ==== Sys2Proof/Machine/Move.lean ====
section
/-! DEFINITION. Movement collectives and the count phase of the v variants (R150 to R155): inputs taken, messages between
switches, outputs delivered, counts up and down the tree, and the step check of R195. -/
namespace Sys2Proof.Machine

open Sys2Proof

/-! ## Where blocks come from -/

/-- Member `m` lies on the side of tree neighbour `v` (R150). -/
def onSide (s : State) (x : SlotSt) (v m : Nat) : Bool :=
  let u := memberSwitch s x.sub x.desc m
  if x.parent == some v then !below s x.sub (ownIndex s) u else below s x.sub v u

/-- Bytes of member `m`'s input. -/
def inputBytes (x : SlotSt) (m : Nat) : Nat := inputLen x.desc (slotCounts x) m * elemBytes x.desc.inFmt

/-- Blocks of the flood message that arrives from (`ours` false) or goes to (`ours` true) neighbour `v`, in rank order:
member and bytes (log 20). -/
def floodBlocks (s : State) (x : SlotSt) (v : Nat) (ours : Bool) : List (Nat × Nat) :=
  ((List.range x.desc.members).filter fun m => onSide s x v m != ours).map fun m => (m, inputBytes x m)

/-- Members at switch `v`. -/
def membersAt (s : State) (x : SlotSt) (v : Nat) : List Nat :=
  (List.range x.desc.members).filter fun m => memberSwitch s x.sub x.desc m == v

/-- Pieces of the DATA message from switch `u` to switch `v`: destination member, source member, first byte, bytes (R150). -/
def directPieces (s : State) (x : SlotSt) (u v : Nat) : List (Nat × Nat × Nat × Nat) :=
  let b := elemBytes x.desc.inFmt
  ((membersAt s x v).map fun i =>
    (((outputPlan s x.desc (slotCounts x) i).filter fun e => memberSwitch s x.sub x.desc e.1 == u).map fun e =>
      (i, e.1, e.2.1 * b, e.2.2 * b))).flatten

/-- Length of the message expected from switch `u`. -/
def messageLen (s : State) (x : SlotSt) (u : Nat) : Nat :=
  if isFlood x.desc.op then ((floodBlocks s x u false).map (·.2)).sum
  else ((directPieces s x u (ownIndex s)).map (·.2.2.2)).sum

/-- The message of switch `u`, once it is whole. -/
def messageFrom (s : State) (x : SlotSt) (u : Nat) : Option (List Byte) :=
  assemble (Sparse.get (fun _ => []) x.fromSwitch u) 0 (messageLen s x u)

/-- Offset of the first block that `p` holds of in a list of (key, length) blocks. -/
def offsetIn {α : Type} (p : α → Bool) (len : α → Nat) : List α → Nat
  | [] => 0
  | b :: bs => if p b then 0 else len b + offsetIn p len bs

/-- Bytes [lo, lo + n) of member `m`'s input for the output of member `i`; none while they have not arrived. -/
def sourceBytes (s : State) (x : SlotSt) (i m lo n : Nat) : Option (List Byte) :=
  if n == 0 then some []
  else if x.locals.contains m then assemble (Sparse.get (fun _ => []) x.inputs m) lo (lo + n)
  else if isFlood x.desc.op then
    (match (treeNeighbours x).find? fun v => onSide s x v m with
     | none => none
     | some v =>
       match messageFrom s x v with
       | none => none
       | some bs => some (slice bs (offsetIn (fun b => b.1 == m) (·.2) (floodBlocks s x v false) + lo) n))
  else
    let u := memberSwitch s x.sub x.desc m
    match messageFrom s x u with
    | none => none
    | some bs =>
      some (slice bs (offsetIn (fun b => b.1 == i && b.2.1 == m && b.2.2.1 == lo) (·.2.2.2) (directPieces s x u (ownIndex s))) n)

/-- All of a list of optional byte strings, joined. -/
def joinAll : List (Option (List Byte)) → Option (List Byte)
  | [] => some []
  | none :: _ => none
  | some b :: bs =>
    match joinAll bs with
    | some r => some (b ++ r)
    | none => none

/-- The output of local member `i`, once all of it is here. -/
def outputBytes (s : State) (x : SlotSt) (i : Nat) : Option (List Byte) :=
  let b := elemBytes x.desc.inFmt
  joinAll ((outputPlan s x.desc (slotCounts x) i).map fun e => sourceBytes s x i e.1 (e.2.1 * b) (e.2.2 * b))

/-- Every local member's input, and BROADCAST join, has been accepted (R144, R151). -/
def inputsIn (x : SlotSt) : Bool :=
  x.locals.all fun m =>
    (assemble (Sparse.get (fun _ => []) x.inputs m) 0 (inputBytes x m)).isSome &&
      (x.desc.op != 0x11 || x.desc.rank m == x.desc.root || x.joined.contains m)

/-! ## Messages to other switches -/

/-- The message for switch `v`, once its bytes are here. -/
def messageTo (s : State) (x : SlotSt) (v : Nat) : Option (List Byte) :=
  if isFlood x.desc.op then joinAll ((floodBlocks s x v true).map fun b => sourceBytes s x 0 b.1 0 b.2)
  else joinAll ((directPieces s x (ownIndex s) v).map fun p =>
    assemble (Sparse.get (fun _ => []) x.inputs p.2.1) p.2.2.1 (p.2.2.1 + p.2.2.2))

/-- Switches that this switch owes a message: tree neighbours, or the other switches with members. -/
def messageTargets (s : State) (x : SlotSt) : List Nat :=
  if isFlood x.desc.op then treeNeighbours x
  else (((List.range x.desc.members).map fun m => memberSwitch s x.sub x.desc m).eraseDups).filter (· != ownIndex s)

/-- Packets of at most 4,096 bytes of one message, LAST on the last with TOTAL (R54, R129, R150). -/
def messagePkts (base : Pkt) (bs : List Byte) : List Pkt :=
  let n := ceilDiv bs.length 4096
  (List.range n).map fun j =>
    let q := withPayload base (slice bs (4096 * j) 4096)
    { q with offset := BitVec.ofNat 32 (4096 * j), last := j + 1 == n,
             word24 := if j + 1 == n then BitVec.ofNat 32 bs.length else 0 }

/-- Send the message for switch `v` where it is ready and not sent yet. -/
def sendMessage (s : State) (i : Nat) (v : Nat) : State :=
  match getSlot s i with
  | none => s
  | some x =>
    if x.sentTo.contains v then s
    else
      match messageTo s x v with
      | none => s
      | some bs =>
        let s := setSlot s i (some { x with sentTo := x.sentTo ++ [v] })
        let ctx := if isFlood x.desc.op then ctxToTree s x v else findStream s x.sub .toSwitch (switchAddr (ownPlane s) v)
        match ctx with
        | none => s
        | some c =>
          (messagePkts (slotPkt s x tData x.desc.inFmt []) bs).foldl (fun s p =>
            sendOne s (engineDie x) c p false x.sub (some (i, x.k)) none) s

/-- Deliver the output of local member `m` where it is whole (R150; BROADCAST after the member's join, R144). -/
def deliverMember (s : State) (i : Nat) (m : Nat) : State :=
  match getSlot s i with
  | none => s
  | some x =>
    let joined := x.desc.op != 0x11 || x.desc.rank m == x.desc.root || x.joined.contains m
    if x.delivered.contains m || !joined then s
    else
      match outputBytes s x m with
      | none => s
      | some bs =>
        let s := setSlot s i (some { x with delivered := x.delivered ++ [m] })
        match ctxToMember s x m with
        | none => s
        | some c =>
          (messagePkts (slotPkt s x tResult x.desc.outFmt []) bs).foldl (fun s p =>
            sendOne s (engineDie x) c p false x.sub (some (i, x.k)) none) s

/-- A movement collective goes on as far as it can, and completes here once all outputs are delivered, all inputs accepted and
all messages sent (R151). -/
def moveProgress (s : State) (i : Nat) : State :=
  match getSlot s i with
  | none => s
  | some x =>
    if slotState s i != 2 || x.okSent || x.settling || (isVar x.desc.op && !x.countsDown) then s
    else if !ranksHold s x then rankLost s i
    else
      let targets := messageTargets s x
      let s := targets.foldl (fun s v => sendMessage s i v) s
      let s := x.locals.foldl (fun s m => deliverMember s i m) s
      match getSlot s i with
      | none => s
      | some x =>
        if inputsIn x && (targets.all fun v => x.sentTo.contains v) && (x.locals.all fun m => x.delivered.contains m) then
          let s := fset (setSlot s i (some { x with okSent := true })) (wSlot i) 2 0 3
          let s := sendNotice s i { x with children := [] } 0 0 0
          tryRelease (completeAt s x 0 0 0) i
        else s

/-- A CONTRIB of a movement collective from local member `m` (R144, R150). -/
def absorbMove (s : State) (i : Nat) (x : SlotSt) (m : Nat) (k : Pkt) : State :=
  let b := elemBytes x.desc.inFmt
  let off := k.offset.toNat
  let len := k.payload.length
  let join := x.desc.op == 0x11 && x.desc.rank m != x.desc.root
  if k.word24.toNat != dchkOf s x.sub x.desc k.msg.toNat then failSlot s i 1 true
  else if k.ety.toNat != x.desc.inFmt then failSlot s i 1 true
  else if join && len == 0 && off == 0 then
    moveProgress (setSlot s i (some { x with joined := addNat x.joined m })) i
  else if len == 0 || len % b != 0 || off % b != 0 || 4096 < off % 4096 + len || inputBytes x m < off + len then failSlot s i 1 true
  else
    let p := Sparse.get (fun _ => []) x.inputs m ++ [(off, k.payload)]
    moveProgress (setSlot s i (some { x with inputs := Sparse.set (fun _ => []) x.inputs m p })) i

/-- Bytes of a DATA message of a movement collective from another switch. -/
def absorbData (s : State) (i : Nat) (x : SlotSt) (k : Pkt) : State :=
  let u := faIndex k.src
  let p := Sparse.get (fun _ => []) x.fromSwitch u ++ [(k.offset.toNat, k.payload)]
  moveProgress (setSlot s i (some { x with fromSwitch := Sparse.set (fun _ => []) x.fromSwitch u p })) i

/-! ## The count phase (R154, R155, R195) -/

/-- COUNT payload: FIRST and up to 1,023 counts. -/
def countPayload (first : Nat) (cs : List Nat) : List Byte := leBytes 4 first ++ (cs.map fun c => leBytes 4 c).flatten

/-- COUNT packets that carry part of the vector from index `first` on. -/
def countPkts (s : State) (x : SlotSt) (first : Nat) (cs : List Nat) : List Pkt :=
  (List.range (ceilDiv cs.length 1023)).map fun j =>
    { slotPkt s x tCount x.desc.inFmt (countPayload (first + 1023 * j) ((cs.drop (1023 * j)).take 1023)) with
      word24 := BitVec.ofNat 32 (dchkOf s x.sub x.desc (msgOf s x.sub x.k)) }

/-- Send counts to a tree neighbour. -/
def sendCounts (s : State) (i : Nat) (x : SlotSt) (v first : Nat) (cs : List Nat) : State :=
  match ctxToTree s x v with
  | none => s
  | some c => (countPkts s x first cs).foldl (fun s p => sendOne s (engineDie x) c p false x.sub (some (i, x.k)) none) s

/-- The count reply of a local member (R155). -/
def replyPkt (s : State) (x : SlotSt) (m : Nat) : Pkt :=
  let cs := slotCounts x
  let n := x.desc.members
  let own := cs.getD m 0
  let f : Nat × Nat × Nat × Nat :=
    match x.desc.op with
    | 0x34 => (0, outputLen s x.desc cs m, inputLen x.desc cs m, cs.sum)
    | 0x30 => (prefixSum (cs.take n) m, cs.sum, own, cs.sum)
    | _ => (prefixSum cs m, own, cs.sum, cs.sum)
  { slotPkt s x tResult (resultEty x.desc) (leBytes 4 f.1 ++ leBytes 4 f.2.1 ++ leBytes 4 f.2.2.1 ++ leBytes 4 f.2.2.2) with
    offset := 0xFFFFFFFE }

/-- The whole vector stands: it goes down to the children, and each local member has its reply (R154, R155). -/
def countsStand (s : State) (i : Nat) (x : SlotSt) : State :=
  if !ranksHold s x then rankLost s i
  else
  let x := { x with countsDown := true }
  let s := setSlot s i (some x)
  let s := x.children.foldl (fun s c => sendCounts s i x c.1 0 (slotCounts x)) s
  x.locals.foldl (fun s m =>
    match ctxToMember s x m with
    | some c => sendOne s (engineDie x) c (replyPkt s x m) true x.sub (some (i, x.k)) none
    | none => s) s

/-- The root's tests of R155; T is of REDUCE_SCATTERV and ALLGATHERV. -/
def countsInvalid (d : Desc) (cs : List Nat) : Bool :=
  (cs.any fun c => decide (d.count < c)) || (d.op != 0x34 && decide (2 ^ 32 < cs.sum * elemBytes d.inFmt))

/-- A member's COUNT packet that does not end where its list of `own` counts ends, and is not full: the list has the wrong length
(R154, R155). -/
def listWrong (own first len : Nat) : Bool := first % 1023 != 0 || (first + len != own && len != 1023) || decide (own < first + len)

/-- Role of the switch with index `u` in the plane of a descriptor (Table 9.2). -/
def roleAt (s : State) (n : Nat) (j : JobSt) (plane u : Nat) : Nat :=
  let ex := blockExtent s n 0
  let ey := blockExtent s n 1
  let ez := blockExtent s n 2
  j.roleMap.getD (plane * (ex * ey * ez) + (blockOff s n u 0 * ey + blockOff s n u 1) * ez + blockOff s n u 2) 255

/-- The step check of R195 fails: some switch with stages has more samples than MAX_BATCH. -/
def stepTooLarge (s : State) (x : SlotSt) : Bool :=
  match getJob s x.sub with
  | none => false
  | some j =>
    j.maxBatch != 0 && isXchg s x.sub x.k &&
      (blockIndices s x.sub).any fun u =>
        roleAt s x.sub j x.desc.plane u != 255 &&
          decide (j.maxBatch < ((membersAt s x u).map fun m =>
            if x.desc.op == 0x34 then (((slotCounts x).drop (m * x.desc.members)).take x.desc.members).sum
            else (slotCounts x).getD m 0).sum)

/-- The notice of R136 passes on a completion with OK, and the collective completes here. -/
def passOk (s : State) (i : Nat) (flags escapes : Nat) : State :=
  match getSlot s i with
  | none => s
  | some x =>
    if x.okSent || slotState s i == 4 then s
    else if !ranksHold s x then rankLost s i
    else
      let x := { x with okSent := true, noticeGot := true, flags := flags, rootEscapes := escapes }
      let s := fset (setSlot s i (some x)) (wSlot i) 2 0 3
      let s := sendNotice s i x 0 flags escapes
      tryRelease (completeAt s x 0 flags escapes) i

/-- After the vector stands: a COUNT_XCHG completes, at the root at once and below once the notice is there; a reduction of no
element completes at the root; movement goes on. -/
def afterCounts (s : State) (i : Nat) : State :=
  match getSlot s i with
  | none => s
  | some x =>
    if isXchg s x.sub x.k then (if x.parent.isNone || x.noticeGot then passOk s i 0 0 else s)
    else if isReduction x.desc.op then rootOk s i
    else moveProgress s i

/-- Counts complete at the root: refused, or flooded down (R155, R195). -/
def rootCounts (s : State) (i : Nat) (x : SlotSt) : State :=
  if countsInvalid x.desc (slotCounts x) then abortSlot s i 0x0C true
  else if stepTooLarge s x then abortSlot s i 0x0F true
  else afterCounts (countsStand s i x) i

/-- A COUNT packet, accepted and of the slot's generation, from a local member, a child or the parent (R154). -/
def absorbCount (s : State) (i : Nat) (x : SlotSt) (k : Pkt) (member : Option Nat) : State :=
  let p := k.payload
  let first := leAt p 0 4
  let cs := elems 6 (p.drop 4) ((p.length - 4) / 4)
  let n := x.desc.members
  let len := countLen x.desc
  let own := if x.desc.op == 0x34 then n else 1
  if k.word24.toNat != dchkOf s x.sub x.desc k.msg.toNat then failSlot s i 1 true
  else if k.ety.toNat != x.desc.inFmt then failSlot s i 1 true
  else
    let down := member.isNone && (x.parent.map fun v => switchAddr (ownPlane s) v) == some k.src
    let base := match member with
      | some m => m * own + first
      | none => first
    if p.length < 4 || p.length % 4 != 0 || !isVar x.desc.op ||
        (member.isSome && listWrong own first cs.length) || len < base + cs.length then failSlot s i 0x0C true
    else
      let m := (cs.zip (List.range cs.length)).foldl (fun m c => Sparse.set (fun _ => none) m (base + c.2) (some c.1)) x.counts
      let x := { x with counts := m, countsGot := x.countsGot + (if down then cs.length else 0) }
      let s := setSlot s i (some x)
      match x.parent with
      | some v =>
        if down then (if len ≤ x.countsGot && !x.countsDown then afterCounts (countsStand s i x) i else s)
        else sendCounts s i x v base cs
      | none =>
        if !x.countsDown && (List.range len).all (fun q => (Sparse.get (fun _ => none) x.counts q).isSome) then rootCounts s i x
        else s

/-- A status notice from the parent (R136): a failure stops the collective here and goes down; OK completes it. -/
def absorbNotice (s : State) (i : Nat) (x : SlotSt) (k : Pkt) (commitFault : Bool) : State :=
  let code := if commitFault then 0x28 else leAt k.payload 0 4
  let x := { x with rootEscapes := leAt k.payload 8 4 }
  if k.ety.toNat != resultEty x.desc then failSlot s i 1 true
  else if code != 0 then abortSlot (setSlot s i (some x)) i (code % 65536) false
  else
    let flags := leAt k.payload 4 4 % 16
    if (isVar x.desc.op && !x.countsDown) || (isReduction x.desc.op && !isXchg s x.sub x.k && !allDown x) then
      setSlot s i (some { x with noticeGot := true, flags := flags })
    else passOk s i flags x.rootEscapes

end Sys2Proof.Machine
end

