-- ==== Sys2Proof/Machine/Press.lean ====
section
/-! DEFINITION. The press and the element-wise stages (08_the_press.md; R189 to R194): products, alignment, dot products,
epilogues, pooling and scatter sums, as functions of their operands. -/
namespace Sys2Proof.Machine

open Sys2Proof

/-! ## Products (R169 to R175) -/

/-- Sign, integer significand and entry position of an 8-bit float (Table 5.4). -/
def floatParts (code bits : Nat) : Bool × Nat × Nat :=
  match floatFmt code with
  | none => (false, 0, 0)
  | some f =>
    let be := bits / 2 ^ f.t % 2 ^ f.w
    let mf := bits % 2 ^ f.t
    (bits / 2 ^ (f.w + f.t) == 1, if be == 0 then mf else 2 ^ f.t + mf, (if be == 0 then 1 else be) + 149 - f.bias - f.t)

/-- A product: an addend of a special or a zero, or a finite non-zero (sign, m, p) (Table 8.4). -/
inductive Product where
  | addend (r : Rick)
  | fin (neg : Bool) (m p : Nat)
  deriving DecidableEq, Repr

/-- The product of two 8-bit floats as an addend (R170, R171, Table 8.4). -/
def floatProduct (ca a cb b : Nat) : Product :=
  let neg := (floatParts ca a).1 != (floatParts cb b).1
  match elemVal ca a, elemVal cb b with
  | .nan sa, .nan sb => .addend (rickOfVal (.nan (sa || sb)))
  | .nan sa, _ => .addend (rickOfVal (.nan sa))
  | _, .nan sb => .addend (rickOfVal (.nan sb))
  | .inf _, .inf _ => .addend (rickOfVal (.inf neg))
  | .inf _, .fin _ v => .addend (rickOfVal (if v = 0 then .nan true else .inf neg))
  | .fin _ v, .inf _ => .addend (rickOfVal (if v = 0 then .nan true else .inf neg))
  | .fin _ v, .fin _ w =>
    if v = 0 || w = 0 then .addend (rickOfVal (.fin neg 0))
    else
      let pa := floatParts ca a
      let pb := floatParts cb b
      .fin neg (pa.2.1 * pb.2.1) (pa.2.2 + pb.2.2 - 149)

/-- A signed magnitude as an addend at position 0. -/
def rickOfInt (v : Int) : Rick := { rickEmpty with v := BitVec.ofInt 320 v, negz := false, count := 1 }

/-- Signed value of a magnitude. -/
def signed (neg : Bool) (m : Nat) : Int := if neg then -(m : Int) else (m : Int)

/-- One group of at most 32 products in NORMAL mode (R174). -/
def addGroup (acc : Rick) (ps : List Product) : Rick :=
  let acc := ps.foldl (fun r p =>
    match p with
    | .addend x => rickMerge r x
    | .fin _ _ _ => r) acc
  let fin := ps.filterMap fun p =>
    match p with
    | .fin n m q => some (n, m, q)
    | .addend _ => none
  if fin.isEmpty then acc
  else
    let g := fin.foldl (fun a x => Nat.max a x.2.2) 0
    let c := g - 8
    let s := (fin.map fun x => signed x.1 (if c ≤ x.2.2 then x.2.1 * 2 ^ (x.2.2 - c) else x.2.1 / 2 ^ (c - x.2.2))).sum
    rickMerge acc (rickOfInt (s * 2 ^ c))

/-- Groups of 32 from the front (R174). -/
def addGroups : Nat → Rick → List Product → Rick
  | 0, acc, _ => acc
  | _ + 1, acc, [] => acc
  | n + 1, acc, ps => addGroups n (addGroup acc (ps.take 32)) (ps.drop 32)

/-- A product entering exactly (R175). -/
def addExact (acc : Rick) (p : Product) : Rick :=
  match p with
  | .addend x => rickMerge acc x
  | .fin n m q => rickMerge acc (rickOfInt (signed n m * 2 ^ q))

/-- The products of one pass entering a float accumulator (R174, R175). -/
def addPass (alignMode : Nat) (acc : Rick) (ps : List Product) : Rick :=
  if alignMode == 0 then addGroups (ps.length + 1) acc ps else ps.foldl addExact acc

/-- A float partial as the scratchpad returns it: folded into 20 bytes and unfolded (R176). -/
def readBack (r : Rick) : Rick := (unfold? (foldBytes r) r.count).getD r

/-- An int48 partial as the scratchpad returns it: 6 bytes, least significant first (R176). -/
def readBack48 (n : Int) : Int := (BitVec.ofNat 48 (leAt (leBytes 6 (BitVec.ofInt 48 n).toNat) 0 6)).toInt

/-- Passes of 512 reduction indices; the partial of every pass but the last goes through the scratchpad (R167, R176). -/
def floatPasses (alignMode : Nat) : Nat → Rick → List Product → Rick
  | 0, acc, _ => acc
  | n + 1, acc, ps =>
    let acc := addPass alignMode acc (ps.take 512)
    if ps.length ≤ 512 then acc else floatPasses alignMode n (readBack acc) (ps.drop 512)

/-- The same for integer products in an int48 accumulator (R169). -/
def intPasses : Nat → Int → List Int → Int
  | 0, acc, _ => acc
  | n + 1, acc, ps =>
    let acc := acc + (ps.take 512).sum
    if ps.length ≤ 512 then acc else intPasses n (readBack48 acc) (ps.drop 512)

/-- The content of an output position after its last pass, as one addend of a rick (R169, R172, R177). -/
def dotRick (ca cb alignMode : Nat) (as bs : List Nat) : Rick :=
  let ab := as.zip bs
  let r :=
    if isFloat ca then floatPasses alignMode (ab.length + 1) rickEmpty (ab.map fun e => floatProduct ca e.1 cb e.2)
    else rickOfInt (intPasses (ab.length + 1) 0 (ab.map fun e => intVal ca e.1 * intVal cb e.2) * 2 ^ 149)
  { r with count := 1 }

/-! ## Delivery (Table 8.8, R179 to R182) -/

/-- An element of a stage's output: its bits, or its rick as a 48-byte form for FRICK; flags; 1 where the rick escapes. -/
def deliverRick (r : Rick) (out e4mode scale elem : Nat) : List Byte × Nat × Nat :=
  if out == 12 then (fullForm r elem, 0, b2n (!folds r.v))
  else if out == 11 then
    let q := quantVal (rickVal r) scale
    (leBytes 1 q.1, q.2, 0)
  else
    let q := roundRick r out e4mode
    (leBytes 4 q.1, q.2, 0)

/-- y x f rounded once into a format (R181): y an FP32, f an element of format `cf`. -/
def roundProduct (y cf f out e4mode scale : Nat) : Nat × Nat :=
  let sg := fun (v : Val) =>
    match v with
    | .nan _ => false
    | .inf n => n
    | .fin n _ => n
  let a := elemVal 1 y
  let b := elemVal cf f
  let neg := sg a != sg b
  match a, b with
  | .nan sa, .nan sb => roundOf (.nan (sa || sb))
  | .nan sa, _ => roundOf (.nan sa)
  | _, .nan sb => roundOf (.nan sb)
  | .inf _, .inf _ => roundOf (.inf neg)
  | .inf _, .fin _ v => roundOf (if v = 0 then .nan true else .inf neg)
  | .fin _ v, .inf _ => roundOf (if v = 0 then .nan true else .inf neg)
  | .fin _ v, .fin _ w =>
    let num := v.natAbs * w.natAbs
    if out == 11 then
      (match elemVal 1 scale with
       | .fin _ sc =>
         if scaleOk scale then
           let q := rneSigned (signed neg num) (sc.natAbs * 2 ^ 149)
           satInt 11 q.1 q.2
         else (0, fInvalid)
       | _ => (0, fInvalid))
    else
      match floatFmt out with
      | some t => roundFloat t e4mode neg num (2 ^ 298)
      | none => (0, 0)
where
  /-- specials of the product in the target -/
  roundOf (v : Val) : Nat × Nat := if out == 11 then quantVal v scale else roundVal out e4mode v

/-- press_out of R181: epilogue operands are pairs of format and bits. -/
def pressOut (x : Rick) (epi : Nat) (ea em : Nat × Nat) (out e4mode scale elem : Nat) : List Byte × Nat × Nat :=
  let x := if epi == 1 || epi == 3 then rickAdd x ea.1 ea.2 else x
  if epi == 0 || epi == 1 then deliverRick x out e4mode scale elem
  else
    let y := roundRick x 1 0
    let z := roundProduct y.1 em.1 em.2 out e4mode scale
    (leBytes 4 z.1, orFlags y.2 z.2, 0)

/-- What a stage's arithmetic gives: output bytes in logical order, flags, escapes; or the code of a failure. -/
abbrev StageOut := Except Nat (List Byte × Nat × Nat)

/-- Outputs element by element put together: bits are packed in the output format, ricks folded or escaped (R182). -/
def packOut (out : Nat) (es : List (List Byte × Nat × Nat)) : List Byte × Nat × Nat :=
  (if out == 12 then frickBytes (es.map fun e => formRick e.1) else packElems out (es.map fun e => leAt e.1 0 4),
    es.foldl (fun f e => orFlags f e.2.1) 0, (es.map (·.2.2)).sum)

/-- Elements that a byte string has room for in a format. -/
def elemCount (code : Nat) (bs : List Byte) : Nat :=
  if code == 12 then frickLen bs.length bs.length bs else bs.length * 8 / fmtBits code

/-- Elements of a vector of rows of `cols` elements, `limit` at most where that is not 0: the padding nibble that ends an odd vector of
4-bit elements is none (R78; log 92). -/
def elemsIn (code cols limit : Nat) (bs : List Byte) : Nat :=
  let n := elemCount code bs
  if fmtBits code == 4 && (n == limit + 1 || (cols != 1 && n % Nat.max 1 cols == 1)) then n - 1 else n

/-- The ricks of the first `n` input elements: one-addend ricks, or the ricks of FRICK elements of `e` addends each (Table 9.6). -/
def inputRicks (code e n : Nat) (bs : List Byte) : List Rick :=
  if code == 12 then ((readFrick e bs).getD []).take n
  else (elems code bs n).map fun b => rickAdd rickEmpty code b

/-! ## MATMUL (R167, R178) -/

/-- An operand: its format, stored elements in logical order of the stored tensor, stored columns, and whether it is stored
transposed. -/
structure Operand where
  code : Nat
  data : Nat → Nat
  cols : Nat
  transposed : Bool

/-- Element (i, j) of the operand under its declared orientation (R178). -/
def operandAt (o : Operand) (i j : Nat) : Nat := o.data (if o.transposed then j * o.cols + i else i * o.cols + j)

/-- C = A B with its epilogue, `m` x `n` over `k` indices; `ea`, `em` give the epilogue operands of a position, `sc` the scale of
a column (R167 to R182). -/
def matmul (a b : Operand) (m n k alignMode epi out e4mode : Nat) (ea em : Nat → Nat → Nat × Nat) (sc : Nat → Nat) :
    List Byte × Nat × Nat :=
  packOut out ((List.range (m * n)).map fun i =>
    let r := i / n
    let c := i % n
    let x := dotRick a.code b.code alignMode ((List.range k).map fun q => operandAt a r q) ((List.range k).map fun q => operandAt b q c)
    pressOut x epi (ea r c) (em r c) out e4mode (sc c) i)

/-! ## The sample stream (R192 to R194) -/

/-- One field's indices of each sample: a record is F u16 counts padded to 4 bytes, then the indices in field order. -/
def sampleBags (f fields : Nat) : Nat → List Byte → List (List Nat)
  | 0, _ => []
  | fuel + 1, bs =>
    if bs.isEmpty then []
    else
      let head := ceilDiv (2 * fields) 4 * 4
      let ns := (List.range fields).map fun j => leAt bs (2 * j) 2
      let start := head + 4 * (ns.take f).sum
      let bag := (List.range (ns.getD f 0)).map fun j => leAt bs (start + 4 * j) 4
      bag :: sampleBags f fields fuel (bs.drop (head + 4 * ns.sum))

/-- Padding index. -/
def padIndex : Nat := 0xFFFFFFFF
/-- Counted indices of a bag (R192). -/
def counted (bag : List Nat) : List Nat := bag.filter (· != padIndex)

/-- The failures of R192: a count above the bag bound or more indices than BOUND, and an index out of range. -/
def bagsFault (bags : List (List Nat)) (rows bagBound bound : Nat) : Option Nat :=
  if (bags.any fun b => decide (bagBound < b.length)) || decide (bound < (bags.map (·.length)).sum) then some 0x21
  else if bags.any fun b => (counted b).any fun i => decide (rows ≤ i) then some 0x20
  else none

/-- V / n rounded once (R193, R194): specials as for the SUM rick. -/
def roundMean (r : Rick) (n out e4mode scale : Nat) : Nat × Nat :=
  match rickVal r with
  | .fin neg v =>
    if out == 11 then
      (match elemVal 1 scale with
       | .fin _ sc =>
         if scaleOk scale then
           let q := rneSigned (signed neg v.natAbs) (sc.natAbs * n)
           satInt 11 q.1 q.2
         else (0, fInvalid)
       | _ => (0, fInvalid))
    else
      (match floatFmt out with
       | some f => roundFloat f e4mode neg v.natAbs (2 ^ 149 * n)
       | none => satInt out (rneSigned v (2 ^ 149 * n)).1 (rneSigned v (2 ^ 149 * n)).2)
  | v => if out == 11 then quantVal v scale else roundVal out e4mode v

/-- The pooled element of a bag in one column; `row` reads a table element. An empty bag is +0 in every format, FRICK too (R193). -/
def poolElem (pool code : Nat) (row : Nat → Nat) (bag : List Nat) (out e4mode scale elem : Nat) : List Byte × Nat × Nat :=
  let r := rickSum rickEmpty code ((counted bag).map row)
  if pool == 1 && !(counted bag).isEmpty then
    let q := roundMean r (counted bag).length out e4mode scale
    (leBytes 4 q.1, q.2, 0)
  else deliverRick (if (counted bag).isEmpty then { r with negz := false } else r) out e4mode scale elem

/-- GATHER (R193): `tab i c` is table element (i, c). -/
def gather (bags : List (List Nat)) (rows cols pool code out e4mode bagBound bound rickBound : Nat) (tab : Nat → Nat → Nat)
    (sc : Nat → Nat) : StageOut :=
  match bagsFault bags rows bagBound bound with
  | some c => .error c
  | none =>
    if pool == 2 then
      .ok (packOut out (((bags.map counted).flatten.map fun i => (List.range cols).map fun c =>
        if out == code then (leBytes 4 (tab i c), 0, 0)
        else
          let q := convertElem code out e4mode (tab i c)
          (leBytes 4 q.1, q.2, 0)).flatten))
    else if bags.any fun b => decide (rickBound < (counted b).length) then .error 9
    else
      .ok (packOut out (((bags.zip (List.range bags.length)).map fun b => (List.range cols).map fun c =>
        poolElem pool code (fun i => tab i c) b.1 out e4mode (sc c) (b.2 * cols + c)).flatten))

/-- The uses of table rows by a sample stream: row and the gradient row that enters, with the bag's n under MEAN (R194). -/
def rowUses (bags : List (List Nat)) (pool : Nat) : List (Nat × Nat × Nat) :=
  if pool == 2 then
    let is := (bags.map counted).flatten
    (is.zip (List.range is.length)).map fun e => (e.1, e.2, 1)
  else
    ((bags.zip (List.range bags.length)).map fun b => (counted b.1).map fun i => (i, b.2, (counted b.1).length)).flatten

/-- Rows used, in increasing order. -/
def usedRows (us : List (Nat × Nat × Nat)) : List Nat := ((us.map (·.1)).eraseDups).mergeSort

/-- The rick of table row `i`, column `c`: every use in the step, MEAN dividing first (R194). -/
def rowRick (us : List (Nat × Nat × Nat)) (pool code : Nat) (g : Nat → Nat → Nat) (i c : Nat) : Rick × Nat :=
  (us.filter fun u => u.1 == i).foldl (fun acc u =>
    if pool == 1 then
      let q := roundMean (rickAdd rickEmpty code (g u.2.1 c)) u.2.2 1 0 0
      (rickAdd acc.1 1 q.1, orFlags acc.2 q.2)
    else (rickAdd acc.1 code (g u.2.1 c), acc.2)) (rickEmpty, 0)

/-- SCATTER_ADD SPARSE: index and ricks rounded into OUT (R194); `held` gives each used row with its ricks and their flags. -/
def scatterSparse (held : List (Nat × List (Rick × Nat))) (out e4mode : Nat) (sc : Nat → Nat) : List Byte × Nat × Nat :=
  let rows := held.map fun row =>
    let es := (row.2.zip (List.range row.2.length)).map fun r =>
      let d := deliverRick r.1.1 out e4mode (sc r.2) r.2
      (d.1, orFlags d.2.1 r.1.2, d.2.2)
    let p := packOut out es
    (leBytes 4 row.1 ++ p.1, p.2.1, p.2.2)
  ((rows.map (·.1)).flatten, rows.foldl (fun f r => orFlags f r.2.1) 0, (rows.map (·.2.2)).sum)

/-- SCATTER_ADD IN_PLACE: rows of new table elements, their ricks rounded once into the table's format (R194). -/
def scatterInPlace (held : List (Nat × List (Rick × Nat))) (tabCode e4mode : Nat) : List (Nat × List Nat) × Nat :=
  let rows := held.map fun row =>
    let es := row.2.map fun r =>
      let q := roundRick r.1 tabCode e4mode
      (q.1, orFlags q.2 r.2)
    ((row.1, es.map (·.1)), es.foldl (fun f e => orFlags f e.2) 0)
  (rows.map (·.1), rows.foldl (fun f r => orFlags f r.2) 0)

/-! ## Element-wise stages -/

/-- Each rick of a list with its position. -/
def numbered (rs : List Rick) : List (Rick × Nat) := rs.zip (List.range rs.length)

/-- CONVERT of the first `n` elements of a flat input (R84 to R88). -/
def convertStage (inC out e4mode n : Nat) (bs : List Byte) : List Byte × Nat × Nat :=
  packOut out ((elems inC bs n).map fun b =>
    let q := convertElem inC out e4mode b
    (leBytes 4 q.1, q.2, 0))

/-- ROUND: each rick is delivered in OUT, an INT8Q output with its column's scale (R113, R93). -/
def roundStage (out e4mode cols : Nat) (rs : List Rick) (sc : Nat → Nat) : List Byte × Nat × Nat :=
  packOut out ((numbered rs).map fun r => deliverRick r.1 out e4mode (sc (r.2 % cols)) r.2)

/-- QUANT: the scale of an element is its column's (R93). An element of a format is its own exact value. -/
def quantStage (cols : Nat) (vs : List Val) (sc : Nat → Nat) : List Byte × Nat × Nat :=
  packOut 11 ((vs.zip (List.range vs.length)).map fun v =>
    let q := quantVal v.1 (sc (v.2 % cols))
    (leBytes 1 q.1, q.2, 0))

/-- DEQUANT (R94). -/
def dequantStage (out e4mode cols : Nat) (bs : List Byte) (sc : Nat → Nat) : List Byte × Nat × Nat :=
  packOut out ((List.range (elemCount 11 bs)).map fun i =>
    let q := dequantElem out e4mode (elemAt 11 bs i) (sc (i % cols))
    (leBytes 4 q.1, q.2, 0))

/-- EPILOGUE: press_out of each input element (R181, Table 9.6). -/
def epilogueStage (epi out e4mode cols : Nat) (rs : List Rick) (ea em : Nat → Nat → Nat × Nat) (sc : Nat → Nat) :
    List Byte × Nat × Nat :=
  packOut out ((numbered rs).map fun x =>
    let r := x.2 / cols
    let c := x.2 % cols
    pressOut x.1 epi (ea r c) (em r c) out e4mode (sc c) x.2)

end Sys2Proof.Machine
end

