-- ==== Sys2Proof/Machine/Steps.lean ====
section
/-! DEFINITION. Steps of a gathering (R189 to R197, R202), its regions and stashes, its members' contributions (R160), and the
seals of finished steps (R213 to R218). -/
namespace Sys2Proof.Machine

open Sys2Proof

/-! ## Regions (Tables 9.5, 9.5a; R289, R294) -/

/-- The region of a number held at this switch. -/
def regionOf (j : JobSt) (r : Nat) : Option Region := j.regions.find? fun e => e.region == r && e.role == j.role

/-- Frames that a job holds of a memory unit, in the order of R289. -/
def framesOf (j : JobSt) (unit : Nat) : List Nat := (j.frames.filter fun f => f.1 == unit).map (·.2)

/-- Address of byte `o` of a region in the model's memory space. -/
def regionAddr (j : JobSt) (r : Region) (o : Nat) : Nat :=
  let off := r.offset + o
  match r.place with
  | 0 => 2 ^ 41 + r.at' * 1572864 + off
  | 1 => 2 ^ 40 + r.at' * 2 ^ 32 + (framesOf j r.at').getD (off / 262144) 0 * 262144 + off % 262144
  | _ => r.at' * 2 ^ 37 + (framesOf j (8 + r.at')).getD (off / 2 ^ 21) 0 * 2 ^ 21 + off % 2 ^ 21

/-- `n` bytes of a region from byte `o`. -/
def regionBytes (s : State) (j : JobSt) (r : Region) (o n : Nat) : List Byte :=
  (List.range n).map fun i => memRead s (regionAddr j r (o + i))

/-- Write bytes into a region. -/
def regionWrite (s : State) (j : JobSt) (r : Region) : Nat → List Byte → State
  | o, bs => (bs.zip (List.range bs.length)).foldl (fun s b => memWrite s (regionAddr j r (o + b.2)) b.1) s

/-- Position of element (row, col) in a region, counted in elements: blocked where it has a shape (R95). -/
def regionIndex (r : Region) (row col : Nat) : Nat :=
  if r.rows == 0 && r.cols == 0 then row * r.cols + col else elemIndex row col (padUp r.cols 32) (blockRows r.fmt)

/-- Element (row, col) of a region. -/
def regionElem (s : State) (j : JobSt) (r : Region) (row col : Nat) : Nat :=
  let i := regionIndex r row col
  match fmtBits r.fmt with
  | 4 => ((memRead s (regionAddr j r (i / 2))).toNat / (if i % 2 == 1 then 16 else 1)) % 16
  | n => natOfLE (regionBytes s j r (i * (n / 8)) (n / 8))

/-- Writes that put a flat output of `cols` columns into a region: byte offset and bytes. A tensor is written as whole blocks, its
padding as zeros (R95, R96); FRICK elements take 20 bytes each and their full forms follow the last block (log 91). Nothing is written
beyond the region. -/
def writesInto (r : Region) (code cols : Nat) (bs : List Byte) : List (Nat × List Byte) :=
  let w := if r.cols == 0 then cols else r.cols
  let n := elemsIn code w (r.rows * r.cols) bs
  let tail := if code == 12 then bs.drop (20 * n) else []
  let all := if r.rows == 0 && r.cols == 0 then [(0, bs)]
    else [(0, block code (ceilDiv n w) w bs), (tensorBytes code (ceilDiv n w) w, tail)]
  all.map fun x => (x.1, x.2.take (r.bytes - x.1))

/-- A region holds a poisoned codeword (R297). -/
def regionPoisoned (s : State) (j : JobSt) (r : Region) : Bool :=
  s.memSt.poison.any fun w => (List.range (ceilDiv r.bytes 32)).any fun i => regionAddr j r (32 * i) / 32 == w

/-- Some element of a row of a region lies in a poisoned codeword. -/
def rowPoisoned (s : State) (j : JobSt) (r : Region) (row : Nat) : Bool :=
  s.memSt.poison.any fun w => (List.range r.cols).any fun c =>
    regionAddr j r (regionIndex r row c * fmtBits r.fmt / 8) / 32 == w

/-! ## Stages -/

/-- Stages of this switch's role, by number. -/
def localStages (j : JobSt) : List (Nat × Stage) :=
  ((List.range j.stages.length).zip j.stages).filter fun e => e.2.role == j.role

/-- The stage of a number, where it is local. -/
def stageOf (j : JobSt) (g : Nat) : Option Stage :=
  match j.stages[g]? with
  | some t => if t.role == j.role then some t else none
  | none => none

/-- Types whose output is a member's result (R190). -/
def isMemberStage (t : Stage) : Bool :=
  t.ty == 3 || t.ty == 4 || t.ty == 0x0B || t.ty == 0x0C || t.ty == 0x11 || t.ty == 0x13

/-- Regions that a stage reads. -/
def readRegions (t : Stage) : List Nat := [t.regA, t.regB, t.regAux].filter (· != 0xFFFF)

/-- Regions written in place by a stage: a SCATTER_ADD's table, an EPILOGUE's REG_OUT (R194, R197). -/
def inPlaceRegions (t : Stage) : List Nat :=
  if t.mode == 1 then (if t.ty == 0x0A then [t.regA] else if t.ty == 8 then [t.regOut] else []) else []

/-- The job writes a region in place. -/
def writtenInPlace (j : JobSt) (r : Nat) : Bool := (localStages j).any fun e => (inPlaceRegions e.2).contains r

def getStep (j : JobSt) (n : Nat) : Option StepSt := j.steps.find? fun e => e.s == n
def setStep (j : JobSt) (x : StepSt) : JobSt := { j with steps := j.steps.map fun e => if e.s == x.s then x else e }

/-- A stage of a step has reported. -/
def reported (x : StepSt) (g : Nat) : Bool := (Sparse.get (fun _ => none) x.results g).isSome

/-- Status words of a stage (Table 9.12). -/
def showStage (s : State) (n g : Nat) (r : StageRes) : State :=
  let a := wStage n g
  let s := wr (wr s a (BitVec.ofNat 32 (r.code * 65536 + r.flags % 16))) (a + 4) (BitVec.ofNat 32 (Nat.min r.escapes (2 ^ 32 - 1)))
  fieldSat s (a + 8) 31 0 1

/-! ## Seals (R213 to R218) -/

/-- This switch is the root of a descriptor's tree. -/
def isRoot (s : State) (n : Nat) (d : Desc) : Bool :=
  d.plane == ownPlane s && (parentOf s n (ownIndex s)).isNone && expectedAt s n d (ownIndex s) != 0

/-- Seal identifiers of the sealing points of this switch for a seal step, in increasing order (R215). -/
def sealPoints (s : State) (n : Nat) (j : JobSt) (st : Nat) : List Nat :=
  let ofDesc := fun (q : Nat) =>
    let d := parseDesc (descWords s (descBase s n + q))
    if sealsHere d && isRoot s n d then [0x10000 + q] else []
  (((localStages j).filter fun e => e.2.ty == 0x12).map (·.1)) ++
    (if noStages j then ofDesc (st % seqLen s n) else ((List.range (seqLen s n)).map ofDesc).flatten)

/-- Digests of a sealing point for a step, in index order; none while one is missing. -/
def pointDigests (j : JobSt) (id st : Nat) : Option (Nat × List (List Byte)) :=
  match j.sealedLens.find? fun e => e.1 == id && e.2.1 == st with
  | none => none
  | some e =>
    let ds := (List.range (ceilDiv e.2.2 65536)).map fun c =>
      (j.digests.find? fun d => d.1 == id && d.2.1 == st && d.2.2.1 == c).map (·.2.2.2)
    if ds.all (·.isSome) then some (e.2.2, ds.filterMap id') else none
where
  /-- the digest itself -/
  id' (x : Option (List Byte)) : Option (List Byte) := x

/-- Block offsets of this switch (R119). -/
def ownOffsets (s : State) (n : Nat) : List Byte :=
  (List.range 3).map fun a => BitVec.ofNat 8 (blockOff s n (ownIndex s) a)

/-- SEALED_STEP and RECORDS of a subscriber (Table 10.7). -/
def showSeals (s : State) (n : Nat) : State :=
  let rs := s.seals.filter fun r => r.sub == n
  let top := (rs.map (·.step)).foldl Nat.max ((rd s (wSeal n + 24)).toNat + (rd s (wSeal n + 28)).toNat * 2 ^ 32)
  let s := wr (wr s (wSeal n + 24) (BitVec.ofNat 32 top)) (wSeal n + 28) (BitVec.ofNat 32 (top / 2 ^ 32))
  wr s (wSeal n + 32) (BitVec.ofNat 32 rs.length)

/-- Drop what is held of an unsealed step (R216). -/
def dropSeal (j : JobSt) (st : Nat) : JobSt :=
  { j with digests := j.digests.filter fun e => e.2.1 != st, staging := j.staging.filter fun e => e.2.1 != st,
           sealedLens := j.sealedLens.filter fun e => e.2.1 != st }

/-- Drop what is held of one sealing point for a step (R216). -/
def dropPoint (j : JobSt) (id st : Nat) : JobSt :=
  { j with digests := j.digests.filter fun e => !(e.1 == id && e.2.1 == st),
           staging := j.staging.filter fun e => !(e.1 == id && e.2.1 == st),
           sealedLens := j.sealedLens.filter fun e => !(e.1 == id && e.2.1 == st) }

/-- Collective `k` has completed OK at this switch: its slot has sent OK, or has released it. -/
def collectiveOk (s : State) (n : Nat) (j : JobSt) (k : Nat) : Bool :=
  match getSlot s (slotOf s n k) with
  | some x => if x.k == k then x.okSent && x.code == 0 else decide (k / slotQ s n < Sparse.get (fun _ => 0) j.rounds (k % slotQ s n))
  | none => decide (k / slotQ s n < Sparse.get (fun _ => 0) j.rounds (k % slotQ s n))

/-- Seal step `st` has completed OK here. At a switch that runs no stage of its job's gathering a step is the sealed collectives of its
sealing points (R215). -/
def sealStepOk (s : State) (n : Nat) (j : JobSt) (st : Nat) : Bool :=
  !(j.failedSteps.any fun f => f.1 == st) &&
    (if !noStages j && (localStages j).isEmpty then
      (sealPoints s n j st).all fun id => collectiveOk s n j (st * seqLen s n + (id - 0x10000))
    else j.doneSteps.contains st)

/-- STEP_SEAL (R215): once every sealing point has finished and the step is OK, the record is made. Its digests are in the store
already; it waits for room in the ring (R218). -/
def trySeal (s : State) (n st : Nat) : State :=
  match getJob s n with
  | none => s
  | some j =>
    let pts := sealPoints s n j st
    let ds := pts.map fun id => (id, pointDigests j id st)
    if pts.isEmpty || !sealStepOk s n j st || !ds.all (fun d => d.2.isSome) then s
    else if sealFull s 0 then sealWait s n
    else
      let body := (ds.map fun d =>
        match d.2 with
        | some (len, xs) => leBytes 4 d.1 ++ leBytes 4 xs.length ++ leBytes 8 len ++ xs.flatten
        | none => []).flatten
      let all := (ds.map fun d =>
        match d.2 with
        | some (_, xs) => xs
        | none => []).flatten
      let offs := ownOffsets s n
      let rec' : SealRec :=
        { sub := n, step := st, quire := quireId s n, points := pts.length, offsets := offs, plane := ownPlane s, time := s.time,
          colophonDigest := j.colophonDigest,
          stepSeal := shake256 (j.colophonDigest ++ leBytes 8 st ++ leBytes 1 (ownPlane s) ++ offs ++ leBytes 4 pts.length ++ body) 64,
          digests := all, poisoned := false, signed := none }
      showSeals (ctrAdd (setJob { s with seals := s.seals ++ [rec'] } n (some (dropSeal j st))) pSeal 0 1) n

/-! ## The end of a step (R197) -/

/-- STEP_COMPLETE: code, flags and escapes of the step are recorded. -/
def completeStep (s : State) (n : Nat) (x : StepSt) : State :=
  match getJob s n with
  | none => s
  | some j =>
    let rs := (localStages j).filterMap fun e => (Sparse.get (fun _ => none) x.results e.1).map fun r => (e.1, r)
    let bad := rs.find? fun r => r.2.code != 0 && r.2.code != 0x26
    let code := match bad with
      | some b => b.2.code
      | none => 0
    let j := { j with
      steps := j.steps.filter fun e => e.s != x.s, doneSteps := addNat j.doneSteps x.s,
      failedSteps := if code == 0 then j.failedSteps else j.failedSteps ++ [(x.s, code)],
      failed := j.failed || code == 0x28,
      members := j.members.filter fun m => m.k / seqLen s n != x.s }
    let j := if code == 0 then j else dropSeal j x.s
    let a := wJob n
    let s := setJob s n (some j)
    let s := wr s (a + 36) (BitVec.ofNat 32 (code * 65536 + (match bad with
      | some b => b.1
      | none => 0)))
    let s := wr s (a + 40) (BitVec.ofNat 32 (rs.foldl (fun f r => orFlags f r.2.flags) 0))
    let s := wr s (a + 44) (BitVec.ofNat 32 (Nat.min ((rs.map (·.2.escapes)).sum) (2 ^ 32 - 1)))
    if code == 0 then trySeal s n x.s else raiseJob s n

/-- Stages of a step that has failed and have not reported complete with STEP_ABORTED, and the step's collectives are
aborted (R197, R124). -/
def failStep (s : State) (n st code : Nat) : State :=
  match getJob s n with
  | none => s
  | some j =>
    match getStep j st with
    | none => s
    | some x =>
      let open' := (localStages j).filter fun e => !reported x e.1
      let res : StageRes := ⟨0x26, 0, 0⟩
      let x := { x with results := open'.foldl (fun m e => Sparse.set (fun _ => none) m e.1 (some res)) x.results, held := [] }
      let s := open'.foldl (fun s e => showStage s n e.1 res) (setJob s n (some (setStep j x)))
      let l := seqLen s n
      let mine := (s.slots.filter fun e =>
        match e.2 with
        | some y => y.sub == n && y.k / l == st
        | none => false).map (·.1)
      completeStep (mine.foldl (fun s i => abortSlot s i code true) s) n x

/-- A stage reports for a step: its output goes to its consumers; a failure fails the step (R189, R197, R202). -/
def finishStage (s : State) (n st g : Nat) (r : StageRes) (out : List Byte) : State :=
  match getJob s n with
  | none => s
  | some j =>
    match getStep j st with
    | none => s
    | some x =>
      if reported x g then s
      else
        let outs := j.conns.filter fun c => c.src == g
        let x := { x with
          results := Sparse.set (fun _ => none) x.results g (some r),
          inputs := outs.foldl (fun m c => Sparse.set (fun _ => none) m (2 * c.dst + c.toPort) (some out)) x.inputs }
        let s := showStage (setJob s n (some (setStep j x))) n g r
        if r.code != 0 then failStep s n st r.code
        else if (localStages j).all fun e => reported x e.1 then completeStep s n x
        else s

/-! ## Members' contributions (R160, R190) -/

/-- The member that this switch's PORT 255 is of a collective (R120, R142). -/
def ownMember (s : State) (n : Nat) (d : Desc) : Option Nat :=
  if d.plane != ownPlane s then none
  else findUp (fun i => memberAddr s n d i == some (ownAddr s)) d.members 0

/-- The generation of collective `k` is its slot's current one or the next (R133). -/
def nearEnough (s : State) (n k : Nat) (j : JobSt) : Bool :=
  let r := Sparse.get (fun _ => 0) j.rounds (k % slotQ s n)
  k / slotQ s n == r || k / slotQ s n == r + 1

/-- Low-water chunk of a member (R160). -/
def lowWater (m : MemberSt) : Nat := (findUp (fun c => !m.delivered.contains c) (m.delivered.length + 1) 0).getD 0

/-- Counts that a member stage of a v variant declares (log 21). -/
def memberCounts (s : State) (n : Nat) (j : JobSt) (d : Desc) (m : MemberSt) : List Nat :=
  let t := j.stages.getD m.stage default'
  let el := elemsIn d.inFmt t.n (t.m * t.n) m.input
  match d.op with
  | 0x30 => [if t.ty == 0x11 then 0 else el]
  | 0x34 =>
    (match getStep j (m.k / seqLen s n) with
     | some x =>
       let tot := (((List.range d.members).filter fun i => memberSwitch s n d i == ownIndex s).map fun i => x.counts.getD i 0).sum
       (List.range d.members).map fun i =>
         if memberSwitch s n d i == ownIndex s && tot != 0 then el / tot * x.counts.getD i 0 else 0
     | none => List.replicate d.members 0)
  | _ => [if t.ty == 0x11 then 0 else t.m * t.n]
where
  /-- a stage entry of zeros -/
  default' : Stage :=
    { ty := 0, role := 0, index := 0, tileFirst := 0, tiles := 0, outFmt := 0, in0Fmt := 0, auxFmt := 0, in1Fmt := 0, bT := false,
      aT := false, epi := 0, pool := 0, mode := 0, m := 0, n := 0, k := 0, regA := 0, regB := 0, regOut := 0, regAux := 0, desc := 0,
      param0 := 0, bound := 0, param1 := 0 }

/-- A packet of a member stage to its own switch. -/
def memberPkt (s : State) (n k : Nat) (d : Desc) (t : BitVec 6) (payload : List Byte) (off : Nat) : Pkt :=
  { withPayload (blankPkt t) payload with
    msg := BitVec.ofNat 16 (msgOf s n k), ety := BitVec.ofNat 3 d.inFmt, offset := BitVec.ofNat 32 off,
    word24 := BitVec.ofNat 32 (dchkOf s n d (msgOf s n k)) }

/-- Replace a member's state. -/
def setMember (j : JobSt) (m : MemberSt) : JobSt := { j with members := j.members.map fun e => if e.k == m.k then m else e }

/-- Chunks that a member may send now: those below L + W, or all where there is no chunk window (R150, R160). -/
def sendLimit (d : Desc) (m : MemberSt) : Nat :=
  let total := ceilDiv m.input.length 4096
  if isReduction d.op then Nat.min total (lowWater m + d.w) else total

/-- Send what a member may send: its counts first, its join, then the chunks that R160 releases. -/
def pumpMember (s : State) (n k : Nat) : State :=
  match getJob s n with
  | none => s
  | some j =>
    match j.members.find? fun m => m.k == k with
    | none => s
    | some m =>
      let d := descOf s n k
      match findStream s n .fromMember (ownAddr s) with
      | none => s
      | some c =>
        if !nearEnough s n k j || m.notice.isSome then s
        else
          let die := d.engine / 8
          let needCounts := isVar d.op && !m.countsSent
          let cs := memberCounts s n j d m
          let s := if needCounts then
              (List.range (ceilDiv cs.length 1023)).foldl (fun s q =>
                sendOne s die c (memberPkt s n k d tCount (countPayload (1023 * q) ((cs.drop (1023 * q)).take 1023)) 0) false n none none) s
            else s
          let join := d.op == 0x11 && !m.countsSent && m.input.isEmpty
          let s := if join then sendOne s die c (memberPkt s n k d tContrib [] 0) false n none none else s
          let m := { m with countsSent := true }
          if isVar d.op && m.reply.isNone then setJob s n ((getJob s n).map fun j => setMember j m)
          else
            let stop := sendLimit d m
            let s := (List.range stop).foldl (fun s q =>
              if q < m.next then s
              else sendOne s die c (memberPkt s n k d tContrib (slice m.input (4096 * q) 4096) (4096 * q)) false n none none) s
            setJob s n ((getJob s n).map fun j => setMember j { m with next := Nat.max m.next stop })

/-- Every member of a job sends what it may. -/
def pumpMembers (s : State) (n : Nat) : State :=
  match getJob s n with
  | none => s
  | some j => (j.members.map (·.k)).foldl (fun s k => pumpMember s n k) s

/-- A gathering stage becomes a member's sender with its whole input. -/
def enterMember (s : State) (n k g : Nat) (input : List Byte) : State :=
  match getJob s n with
  | none => s
  | some j =>
    if j.members.any fun m => m.k == k then s
    else
      let m : MemberSt :=
        { k := k, stage := g, input := input, next := 0, countsSent := false, delivered := [], pieces := [], counted := 0,
          total := none, notice := none, reply := none }
      pumpMember (setJob s n (some { j with members := j.members ++ [m] })) n k

/-! ## What a member receives (R129, R136, R145) -/

/-- The elements of y that the collective delivers to this switch's own member: of a v variant as its count reply says (R155). -/
def ownRange (s : State) (n : Nat) (d : Desc) (m : MemberSt) : Nat × Nat :=
  let i := (ownMember s n d).getD 0
  match m.reply with
  | some r => (r.1, r.1 + r.2.1)
  | none => if isReduction d.op then memberRange d [] i else (0, ((outputPlan s d [] i).map fun e => e.2.2).sum)

/-- Elements of a chunk that a member receives are all here. -/
def chunkHere (d : Desc) (r : Nat × Nat) (pieces : List (Nat × List Byte)) (c : Nat) : Bool :=
  let q := inChunk (chunkElems d) c r
  let u := resultUnit d
  decide (q.2 ≤ q.1) || (assemble pieces ((q.1 - r.1) * u) ((q.2 - r.1) * u)).isSome

/-- Bytes of a RESULT's elements as the model keeps them, from element `first` of y on: FRICK elements as full forms. None where a rick
is malformed (R107, R110). -/
def payloadBytes (d : Desc) (first : Nat) (p : Pkt) : Option (List Byte) :=
  if d.outFmt != 12 then some p.payload
  else
    match readExport d p with
    | none => none
    | some r =>
      if r.1 == first % chunkElems d then
        some ((r.2.zip (List.range r.2.length)).map fun e => fullForm e.1 (r.1 + e.2)).flatten
      else none

/-- Keep a member's new state, and let it send what that allows. -/
def putMember (s : State) (n : Nat) (m : MemberSt) : State :=
  pumpMember (setJob s n ((getJob s n).map fun j => setMember j m)) n m.k

/-- A RESULT delivered to this switch's own gathering member; `err` is the error its message met (R70). A member whose collective has
failed takes no more bytes; each chunk result that is whole advances CHUNK_CTR, before or after the status notice (R146). -/
def memberRx (s : State) (n : Nat) (p : Pkt) (err : Option Nat) : State :=
  match getJob s n with
  | none => s
  | some j =>
    match j.members.find? fun m => msgOf s n m.k == p.msg.toNat with
    | none => s
    | some m =>
      let d := descOf s n m.k
      let ended := m.notice.any fun r => r.code != 0
      let fail := fun (s : State) (code : Nat) => if ended then s else putMember s n { m with notice := some ⟨code, 0, 0⟩ }
      let bump := fun (s : State) => if d.chunkEn then advanceCounter s d.chunkCtr 1 else s
      match err with
      | some code => fail s code
      | none =>
        if p.offset == 0xFFFFFFFF then
          if m.notice.isSome then s
          else putMember s n { m with notice := some ⟨leAt p.payload 0 4, leAt p.payload 4 4 % 16, leAt p.payload 8 4⟩ }
        else if p.offset == 0xFFFFFFFE then
          putMember s n { m with reply := some (leAt p.payload 0 4, leAt p.payload 4 4, leAt p.payload 8 4, leAt p.payload 12 4) }
        else if p.payload.isEmpty && !p.last then
          putMember (bump s) n { m with delivered := addNat m.delivered (p.offset.toNat / offsetUnit d / chunkElems d) }
        else
          let r := ownRange s n d m
          let lo := if isReduction d.op then r.1 else 0
          let off := p.offset.toNat / offsetUnit d
          match payloadBytes d (lo + off) p with
          | none => fail (ctrAdd s (pReduce (hostDie (p.msg.toNat % 4096) ((lo + off) / chunkElems d))) 34 1) 2
          | some bytes =>
            let pieces := m.pieces ++ [(off * resultUnit d, bytes)]
            let c := (lo + off) / chunkElems d
            let whole := isReduction d.op && chunkHere d r pieces c && !m.delivered.contains c
            let m := { m with
              pieces := pieces, counted := m.counted + p.payload.length,
              total := if p.last && m.total.isNone then some p.word24.toNat else m.total,
              delivered := if whole then m.delivered ++ [c] else m.delivered }
            putMember (if whole then bump s else s) n m

/-- The output of a member that is done (R136, R145): under OK its bytes have reached TOTAL, or the collective assigns it none. Its FRICK
elements are a stage's FRICK data (R190). -/
def memberDone (s : State) (n : Nat) (m : MemberSt) : Option (StageRes × List Byte) :=
  let d := descOf s n m.k
  match m.notice with
  | none => none
  | some r =>
    if r.code != 0 then some (r, [])
    else
      let stop := (m.pieces.map fun p => p.1 + p.2.length).foldl Nat.max 0
      let bs := (assemble m.pieces 0 stop).getD []
      match m.total with
      | some t => if m.counted == t then some (r, if d.outFmt == 12 then frickBytes (ricksOf (stop / 48) bs) else bs) else none
      | none =>
        let own := ownRange s n d m
        if own.2 ≤ own.1 then some (r, []) else none

/-! ## Collectives that end (R195, R197) -/

/-- The local stage of a descriptor index. -/
def stageOfDesc (j : JobSt) (q : Nat) : Option (Nat × Stage) :=
  (localStages j).find? fun e => isMemberStage e.2 && e.2.desc == q

/-- Step `st` waits for step st - DEPTH of some stash of this switch (R196). -/
def mustWait (j : JobSt) (st : Nat) : Bool :=
  j.stashes.any fun h =>
    (stageOf j h.stage).isSome && decide (h.depth ≤ st) && !j.doneSteps.contains (st - h.depth)

/-- Some region of the job is pending (R317): an uncommitted transfer targets it, or a range of it is unsettled. -/
def regionPending (s : State) (n : Nat) (j : JobSt) : Bool :=
  !j.unsettled.isEmpty || s.transfers.any fun t => !t.waiting && t.req.target == 1 && !t.req.dir && t.req.subscriber == n

/-- STEP_START (R195): the count exchange gives the step its counts. One that did not complete OK refuses the step, which has then not
started and is not counted. -/
def startStep (s : State) (n st g : Nat) (res : StageRes) (cs : List Nat) : State :=
  match getJob s n with
  | none => s
  | some j =>
    let x : StepSt :=
      { s := st, waits := mustWait j st, inputs := [], results := [], counts := cs, held := [], committed := false }
    let s := setJob s n (some { j with steps := j.steps ++ [x] })
    let s := if res.code == 0 then wr s (wJob n + 32) (rd s (wJob n + 32) + 1) else s
    let res := if res.code != 0 then res else if j.failed then ⟨0x29, 0, 0⟩ else if regionPending s n j then ⟨0x27, 0, 0⟩ else res
    finishStage s n st g res ((cs.map fun c => leBytes 4 c).flatten)

/-- COMMIT_WRITE (R197): the held writes are made. After a fault during them it is open which were made (log 22). -/
def commitWrites (s : State) (j : JobSt) (x : StepSt) (fault : Bool) : State :=
  let d := draw s
  let s := if fault then d.2 else s
  (x.held.zip (List.range x.held.length)).foldl (fun s w =>
    match regionOf j w.1.1 with
    | some r => if !fault || (Config.freeByte d.1 w.2).toNat % 2 == 1 then regionWrite s j r w.1.2.1 w.1.2.2 else s
    | none => s) s

/-- After a fault during the writes of step `st` every later step in progress fails with JOB_FAILED (R197). -/
def failLater (s : State) (n st : Nat) : State :=
  match getJob s n with
  | none => s
  | some j =>
    (j.steps.filter fun x => decide (st < x.s)).foldl (fun s x =>
      match (localStages j).find? fun e => !reported x e.1 with
      | some e => finishStage s n x.s e.1 ⟨0x29, 0, 0⟩ []
      | none => s) s

/-- A BARRIER stage's collective has completed OK: the commit barrier makes the held writes, and the stage reports (R197). -/
def endBarrier (s : State) (n st g : Nat) (t : Stage) (res : StageRes) (fault : Bool) : State :=
  match getJob s n with
  | none => s
  | some j =>
    match getStep j st with
    | none => s
    | some x =>
      if t.param0 % 2 == 1 && !x.committed then
        let s := commitWrites s j x fault
        let s := setJob s n ((getJob s n).map fun j => setStep j { x with committed := true, held := [] })
        if fault then failLater (finishStage s n st g ⟨0x28, 0, 0⟩ []) n st else finishStage s n st g res []
      else finishStage s n st g res []

/-- A collective that no local stage sends for has ended (R215, R216): a sealed one that failed has no seal. Where no stage runs here the
seal step is done once its sealed collectives are. -/
def takeUnstaged (s : State) (n : Nat) (j : JobSt) (k code : Nat) : State :=
  let st := if noStages j then k else k / seqLen s n
  let bare := (localStages j).isEmpty
  if code != 0 then
    let j := if noStages j then { j with failedSteps := j.failedSteps ++ [(k, code)] } else j
    setJob s n (some (dropPoint (if bare then { j with doneSteps := addNat j.doneSteps st } else j) (0x10000 + k % seqLen s n) st))
  else
    let done := noStages j || (bare && !(sealPoints s n j st).isEmpty && sealStepOk s n j st)
    trySeal (setJob s n (some (if done then { j with doneSteps := addNat j.doneSteps st } else j))) n st

/-- One collective's completion reaches the gathering. A stage that is a member of it waits for the notice sent to that member. -/
def takeEnded (s : State) (n : Nat) (e : Nat × StageRes × List Nat) (commitFault : Bool) : State :=
  match getJob s n with
  | none => s
  | some j =>
    let st := e.1 / seqLen s n
    match stageOfDesc j (e.1 % seqLen s n) with
    | none => takeUnstaged s n j e.1 e.2.1.code
    | some (g, t) =>
      if t.ty == 0x11 then startStep s n st g e.2.1 e.2.2
      else if e.2.1.code != 0 then finishStage s n st g e.2.1 []
      else if j.members.any fun m => m.k == e.1 then s
      else if t.ty == 0x13 then endBarrier s n st g t e.2.1 commitFault
      else finishStage s n st g e.2.1 []

/-- A member that is done reports for its stage; the count exchange reports when its collective ends. -/
def takeMembers (s : State) (n : Nat) (commitFault : Bool) : State :=
  match getJob s n with
  | none => s
  | some j =>
    j.members.foldl (fun s m =>
      match memberDone s n m, j.stages[m.stage]? with
      | some r, some t =>
        let st := m.k / seqLen s n
        if t.ty == 0x11 then s
        else if t.ty == 0x13 && r.1.code == 0 then endBarrier s n st m.stage t r.1 commitFault
        else finishStage s n st m.stage r.1 r.2
      | _, _ => s) s

/-- What collectives and members have ended is taken, until nothing more follows. -/
def settleFuel : Nat → State → Nat → Bool → State
  | 0, s, _, _ => s
  | fuel + 1, s, n, cf =>
    match getJob s n with
    | none => s
    | some j =>
      match j.ended with
      | [] => pumpMembers (takeMembers s n cf) n
      | e :: es => settleFuel fuel (takeEnded (setJob s n (some { j with ended := es })) n e cf) n cf

/-- A job takes note of what has ended, `fault` where a commit meets a fault; each of the 4,096 slots can end at most twice on the way. -/
def settleCommit (s : State) (n : Nat) (fault : Bool) : State := settleFuel 8192 (settleFuel 8192 s n fault) n fault

/-- The same where no commit meets a fault. -/
def settle (s : State) (n : Nat) : State := settleCommit s n false

end Sys2Proof.Machine
end

