-- ==== Sys2Proof/Machine/Collectives.lean ====
section
/-! DEFINITION. The packets of collectives as commands (R116, R121, R122, R129 to R132, R136, R154, R191): entry checks, slots
taken, messages counted, acknowledgements, settling and digests. -/
namespace Sys2Proof.Machine

open Sys2Proof

/-! ## Entry (R122, Table 6.4) -/

/-- Generations that a packet leads its slot by, modulo 16. -/
def genLead (s : State) (k : Pkt) : Nat := (k.msg.toNat / 4096 + 16 - slotGen s (k.msg.toNat % 4096)) % 16

/-- The collective that a packet of lead 0 or 1 belongs to. -/
def collectiveOf (s : State) (n : Nat) (j : JobSt) (k : Pkt) : Nat :=
  let o := k.msg.toNat % 4096 - slotBase s n
  (Sparse.get (fun _ => 0) j.rounds o + genLead s k) * slotQ s n + o

/-- A member of the quire outside the plan of R426 takes the lowest free receive context at its first packet (log 40). -/
def unplanned (s : State) (n : Nat) (k : Pkt) : State × Option Nat :=
  match findUp (fun c => (getStream s c).isNone) 16384 0, getJob s n with
  | some c, some j => (setStream (setJob s n (some { j with streams := j.streams ++ [c] })) c (some (streamNew n .fromMember k.src)), some c)
  | _, _ => (s, none)

/-- Where a packet of a collective comes from. -/
inductive Origin where
  | member (a : BitVec 24)
  | tree (v : Nat)
  | switch (v : Nat)
  | own
  deriving DecidableEq, Repr

/-- The receive context of an origin (R426). -/
def contextOf (s : State) (n : Nat) (o : Origin) : Option Nat :=
  match o with
  | .member a => findStream s n .fromMember a
  | .tree v => findStream s n .fromTree (switchAddr (ownPlane s) v)
  | .switch v => findStream s n .fromSwitch (switchAddr (ownPlane s) v)
  | .own => findStream s n .toMember (ownAddr s)

/-- A CONTRIB or a member's COUNT: the local-member test before and after its descriptor is posted (R122). -/
def memberOrigin (s : State) (n : Nat) (j : JobSt) (port : Option Nat) (k : Pkt) : Option Origin :=
  let spine := match port with
    | some p => isSpine p || isPair p
    | none => false
  let kk := collectiveOf s n j k
  let leaf := faIndex k.src == ownIndex s && faPlane k.src == ownPlane s &&
    ((faPort k.src < 128 && inLeafMask s n (faPort k.src)) || (faPort k.src == 255 && faSub k.src == 0))
  let local' := fun (d : Desc) => (memberAt s n d (localMembers s n d) k.src).isSome
  if spine then none
  else if genLead s k ≤ 1 && isPosted j kk then (if local' (descOf s n kk) then some (.member k.src) else none)
  else if leaf then some (.member k.src)
  else none

/-- Switch `u` is a child in the tree of the packet's collective, as far as the packet tells which that is (R120, R122). -/
def isChild (s : State) (n : Nat) (j : JobSt) (k : Pkt) (u : Nat) : Bool :=
  parentOf s n u == some (ownIndex s) && (1 < genLead s k || expectedAt s n (descOf s n (collectiveOf s n j k)) u != 0)

/-- The origin of a packet, or none where it is misdirected (Table 6.4, second row). -/
def originOf (s : State) (n : Nat) (j : JobSt) (port : Option Nat) (k : Pkt) : Option Origin :=
  let u := faIndex k.src
  let peer := faPort k.src == 255 && faSub k.src == 0 && faPlane k.src == ownPlane s && u != ownIndex s && indexInBlock s n u
  let child := peer && isChild s n j k u
  let parent := peer && parentOf s n (ownIndex s) == some u
  if k.ty == tContrib then memberOrigin s n j port k
  else if k.ty == tPartial then (if child then some (.tree u) else none)
  else if k.ty == tResult then (if k.src == ownAddr s then some .own else if parent then some (.tree u) else none)
  else if k.ty == tCount then (if child || parent then some (.tree u) else memberOrigin s n j port k)
  else if k.ty == tData then
    (let d := descOf s n (collectiveOf s n j k)
     if isFlood d.op && (child || parent) then some (.tree u) else if isDirect d.op && peer then some (.switch u) else none)
  else none

/-! ## Messages (R69, R70) -/

/-- A message's record. -/
def getMsg (s : State) (c m : Nat) : MsgSt :=
  match s.msgs.find? fun e => e.ctx == c && e.msg == m with
  | some e => e
  | none => { ctx := c, msg := m, counted := 0, total := none, pieces := [], done := false }

def setMsg (s : State) (e : MsgSt) : State :=
  { s with msgs := (s.msgs.filter fun f => !(f.ctx == e.ctx && f.msg == e.msg)) ++ [e] }

/-- Forget a message. -/
def dropMsg (s : State) (c m : Nat) : State := { s with msgs := s.msgs.filter fun f => !(f.ctx == c && f.msg == m) }

/-- The message with one more accepted packet that lies at byte `off` of it, and its error if it has one (R69, R70). -/
def countPacket (e : MsgSt) (k : Pkt) (off : Nat) : MsgSt × Option Nat :=
  let len := k.payload.length
  let conflict := k.last && (match e.total with
    | some t => t != k.word24.toNat
    | none => false)
  let total := if k.last && e.total.isNone then some k.word24.toNat else e.total
  let e' := { e with counted := e.counted + len, total := total, pieces := e.pieces ++ [(off, k.payload)] }
  let isOver := match total with
    | some t => decide (t < off + len) || decide (t < e'.counted)
    | none => false
  (e', if conflict then some 0x0B else if isOver then some 0x0A else none)

/-- COUNTED has reached TOTAL. -/
def msgComplete (e : MsgSt) : Bool := e.total == some e.counted

/-- Count an accepted packet towards its message; the context's counter advances at completion (R69, R156). -/
def countAt' (s : State) (c : Nat) (k : Pkt) (off : Nat) : State × Option Nat × Option MsgSt :=
  let r := countPacket (getMsg s c k.msg.toNat) k off
  match r.2 with
  | some code => (advanceCounter (dropMsg s c k.msg.toNat) c 1, some code, none)
  | none =>
    if msgComplete r.1 then (advanceCounter (dropMsg s c k.msg.toNat) c 1, none, some r.1)
    else (setMsg s r.1, none, none)

/-- Count a packet whose OFFSET is its place in the message. -/
def countMsg (s : State) (c : Nat) (k : Pkt) : State × Option Nat × Option MsgSt := countAt' s c k k.offset.toNat

/-- The place in a switch's message of the element of y that a RESULT from the parent names: OFFSET counts in y, the message holds
the bytes due to the subtree alone (R129; log 41). A FRICK export's OFFSET counts 20 bytes an element in both. -/
def treeOffset (s : State) (x : SlotSt) (k : Pkt) : Nat :=
  let el := resultElem x.desc k
  ((joinRanges (subtreeRanges s x.sub x.desc (slotCounts x) (ownIndex s))).map fun r =>
    (Nat.min el r.2 - r.1) * offsetUnit x.desc).sum

/-- A RESULT from the parent (Table 6.4): its format, then whether its chunk is UP, then its message, then its chunk. The counts are
of the hosting die. -/
def takeResult (s : State) (i : Nat) (x : SlotSt) (k : Pkt) : State :=
  if !resultFits x.desc k then failSlot s i 1 true
  else if (getChunk x (resultChunk x.desc k)).st != .up then ctrAdd s (pReduce (hostDie i (resultChunk x.desc k))) 6 1
  else if k.payload.isEmpty && !k.last then absorbResult s i x k
  else
    match findStream s x.sub .fromTree k.src with
    | none => absorbResult s i x k
    | some c =>
      let r := countAt' s c k (treeOffset s x k)
      match r.2.1, getSlot r.1 i with
      | some code, _ => failSlot r.1 i code true
      | none, some x => absorbResult r.1 i x k
      | none, none => r.1

/-- The die that hosts what a packet for slot `i` is of: its chunk's, as Table 3.5 places the chunk in OFFSET. -/
def packetDie (i : Nat) (k : Pkt) : Nat := hostDie i (k.offset.toNat / 4096)

/-- A packet accepted and of the slot's generation reaches its rules (Table 6.4, from the DCHK row down); `die` counts one that is
stale, `err` is the error its message met (R70). -/
def absorbPkt (s : State) (i die : Nat) (k : Pkt) (err : Option Nat) : State :=
  match getSlot s i with
  | none => ctrAdd s (pReduce die) 6 1
  | some x =>
    let m := memberAt s x.sub x.desc x.locals k.src
    if slotState s i == 4 || x.settling then ctrAdd s (pReduce die) 6 1
    else
      match err with
      | some code => failSlot s i code true
      | none =>
        if k.ty == tContrib then
          (match m with
           | none => ctrAdd s (pReduce (packetDie i k)) 8 1
           | some m =>
             let s := if x.parent.isNone && x.children.isEmpty then restartLiveness s i else s
             if isReduction x.desc.op then absorbContrib s i x k else absorbMove s i x m k)
        else if k.ty == tPartial then absorbPartial s i x k
        else if k.ty == tCount then
          absorbCount s i x k (if faIndex k.src == ownIndex s then m else none)
        else if k.ty == tData then absorbData s i x k
        else if k.offset == 0xFFFFFFFF then absorbNotice s i x k false
        else takeResult s i x k

/-- Hold a packet in the job's hold area, and post an AUTO 1 collective (R122, R132, R149). -/
def holdPacket (s : State) (n i : Nat) (j : JobSt) (port : Option Nat) (k : Pkt) (err : Option Nat) : State :=
  let hs := Sparse.get (fun _ => []) s.heldPkts i
  let s := ctrAdd { s with heldPkts := Sparse.set (fun _ => []) s.heldPkts i (hs ++ [(k, port, err)]) } (pReduce (packetDie i k)) 5 1
  autoPost s n (collectiveOf s n j k)

/-- The rows of Table 6.4 on the generation, for an accepted packet: the first is decided on the die of its arrival; then it goes by
the reduction channel to the die that hosts it (R25, R141). -/
def byGeneration (s : State) (n i arrival : Nat) (j : JobSt) (port : Option Nat) (k : Pkt) (err : Option Nat) : State :=
  let lead := genLead s k
  if 8 ≤ lead then ctrAdd s (pReduce arrival) 6 1
  else
    let s := cross s arrival (packetDie i k) chReduction
    atRest
      (if lead == 1 || (lead == 0 && slotState s i == 1) then holdPacket s n i j port k err
       else if 2 ≤ lead then
         let s := ctrAdd s (pReduce (packetDie i k)) 10 1
         if slotState s i == 2 then abortSlot s i 4 true else s
       else absorbPkt (if faIndex k.src != ownIndex s then restartLiveness s i else s) i arrival k err)

/-- A RESULT for this switch's own gathering member (R69, R156): counted towards its message, whose error completes the collective
(R70, R162), and delivered. -/
def ownResult (s : State) (n c i : Nat) (k : Pkt) : State :=
  if k.offset == 0xFFFFFFFF || k.offset == 0xFFFFFFFE || (k.payload.isEmpty && !k.last) then memberRx s n k none
  else
    let r := countMsg s c k
    match r.2.1 with
    | some code => memberRx (if genLead r.1 k == 0 then abortSlot r.1 i code true else r.1) n k (some code)
    | none => memberRx r.1 n k none

/-- A packet for a reduction slot, from its delivery on: taken from its cell, checked, accepted, and absorbed (R122). `fault` is a
fault during the writes of a commit that it completes (R197). -/
def collectiveRx (s : State) (h : Nat) (ty : BitVec 6) (fault : Bool) : State :=
  match getDeliv s h with
  | none => s
  | some d =>
    let k := d.pkt
    if k.ty != ty then s
    else
      let s := takeDelivery s h d
      let i := k.msg.toNat % 4096
      match againOf s k d.die with
      | some t => t
      | none =>
      match subOfQuire s k.quire.toNat with
      | none => ctrAdd s (pReduce d.die) 7 1
      | some n =>
        match getJob s n with
        | none => ctrAdd s (pReduce d.die) 7 1
        | some j =>
          if i < slotBase s n || slotBase s n + slotQ s n ≤ i || slotState s i == 0 then ctrAdd s (pReduce d.die) 7 1
          else
            match originOf s n j d.port k with
            | none => ctrAdd s (pReduce d.die) 8 1
            | some o =>
              let sc := match contextOf s n o, o with
                | some c, _ => (s, some c)
                | none, .member _ => unplanned s n k
                | none, _ => (s, none)
              match sc.2 with
              | none => s
              | some c =>
                let a := streamAccept sc.1 c k d.die
                if !a.2 then a.1
                else if o = .own then settleCommit (ownResult a.1 n c i k) n fault
                else settleCommit (byGeneration a.1 n i d.die j d.port k none) n fault

/-- CONTRIB_RX (R122). -/
def execContribRx (handle : Nat) (s : State) : Out := .next (collectiveRx s handle tContrib false)

/-- PARTIAL_RX (R126). -/
def execPartialRx (handle : Nat) (s : State) : Out := .next (collectiveRx s handle tPartial false)

/-- COUNT_RX (R154). -/
def execCountRx (handle : Nat) (s : State) : Out := .next (collectiveRx s handle tCount false)

/-- A status notice, by its OFFSET (R136). -/
def isNotice (s : State) (h : Nat) : Bool :=
  match getDeliv s h with
  | some d => d.pkt.ty == tResult && d.pkt.offset == 0xFFFFFFFF
  | none => false

/-- RESULT_RX (R129): results, chunk-done notices and count replies. -/
def execResultRx (handle : Nat) (s : State) : Out :=
  if isNotice s handle then .next s else .next (collectiveRx s handle tResult false)

/-- STATUS_NOTICE_RX (R136); `commitFault` is a fault during the writes of a commit that it completes (R197). -/
def execStatusNoticeRx (handle : Nat) (commitFault : Bool) (s : State) : Out :=
  if isNotice s handle then .next (collectiveRx s handle tResult commitFault) else .next s

/-! ## Taking a slot (R116, R120, R132) -/

/-- Collectives in progress on an engine (Table 7.6). -/
def inProgress (s : State) (e : Nat) : Nat :=
  (s.slots.filter fun x =>
    match x.2 with
    | some y => y.desc.engine == e
    | none => false).length

/-- The slot's entry for a collective that takes it. -/
def slotNew (s : State) (n k : Nat) (d : Desc) : SlotSt :=
  let inPlane := d.plane == ownPlane s
  { k := k, sub := n, desc := d, locals := localMembers s n d,
    parent := if inPlane then parentOf s n (ownIndex s) else none,
    children := if inPlane then childrenOf s n d else [],
    expected := if inPlane then expectedAt s n d (ownIndex s) else 0,
    chunks := [], unacked := [], okSent := false, code := 0, flags := 0, escapes := 0, rootEscapes := 0, noticeGot := false, settling := false,
    sentTo := [], absent := inPlane && blockAbsent s n, inputs := [], counts := [], countsGot := 0, countsDown := false, joined := [],
    delivered := [], frickLens := [], fromSwitch := [] }

/-- A collective that ends at once at this switch: it completes, and its slot releases (R120, R59). -/
def endAtOnce (s : State) (i : Nat) (x : SlotSt) (code : Nat) : State :=
  let s := if code == 8 then ctrAdd s pRankXlat 1 1 else s
  let x := { x with code := code, okSent := true }
  releaseSlot (completeAt (setSlot s i (some x)) x code 0 0) i x

/-- Held packets of the generation, in the order they came, and the state without them. -/
def unhold (s : State) (i : Nat) : List (Pkt × Option Nat × Option Nat) × State :=
  let hs := Sparse.get (fun _ => []) s.heldPkts i
  (hs.filter fun h => genLead s h.1 == 0,
   { s with heldPkts := Sparse.set (fun _ => []) s.heldPkts i (hs.filter fun h => genLead s h.1 != 0) })

/-- Held packets of the generation are taken (R132); what is left once the slot has released its generation is stale. -/
def takeHeld (s : State) (i : Nat) : State :=
  let r := unhold s i
  r.1.foldl (fun s h => absorbPkt s i (packetDie i h.1) h.1 h.2.2) r.2

/-- Held packets of a collective that ends as it takes its slot: one of an SRC that is no local member is misdirected, every other is
stale (R132, Table 6.4). -/
def discardHeld (s : State) (i : Nat) (x : SlotSt) : State :=
  let r := unhold s i
  r.1.foldl (fun s h =>
    ctrAdd s (pReduce (packetDie i h.1)) (if h.1.ty == tContrib && (memberAt s x.sub x.desc x.locals h.1.src).isNone then 8 else 6) 1) r.2

/-- The collective takes the slot (R116): tests, tree, held packets; the liveness timer starts. How many look-ups RX_LOOKUPS
counts is not stated: the count grows by a free value (log 43). -/
def takeSlot (s : State) (i n k : Nat) (j : JobSt) : State :=
  let ws := descWords s (descBase s n + k % seqLen s n)
  let d := parseDesc ws
  let s := setJob s n (some { j with hold := j.hold.filter (· != k) })
  let x := slotNew s n k d
  let v := draw s
  let s := ctrAdd v.2 pRankXlat 0 (Config.freeNat v.1)
  let inTree := x.expected != 0
  let s := wr s (wSlot i + 4) (BitVec.ofNat 32 (dchkOf s n d (msgOf s n k)))
  let s := fset s (wSlot i) 20 16 (x.children.length * 4 + 2 * b2n inTree + b2n (inTree && x.parent.isNone))
  let s := fset (setSlot s i (some x)) (wSlot i) 2 0 2
  let bad := if !dcrcOk ws then some 0x0D else if !ranksOk s n d then some 8 else none
  let s := if dcrcOk ws then s else report s (mkFault 0x2A d.engine 0x0A 1 (descBase s n + k % seqLen s n) n 0)
  if !inTree then endAtOnce (discardHeld s i x) i x (bad.getD 0)
  else
    match bad with
    | some c => abortSlot (discardHeld (if c == 8 then ctrAdd s pRankXlat 1 1 else s) i x) i c true
    | none =>
      match j.failedSteps.find? fun f => !noStages j && f.1 == k / seqLen s n with
      | some f => abortSlot (discardHeld s i x) i f.2 true
      | none =>
        let s := takeHeld s i
        let s := if isXchg s n k && (ownMember s n d).isSome then
            (match stageOfDesc j (k % seqLen s n) with
             | some g => enterMember s n k g.1 []
             | none => s)
          else s
        if isVar d.op then s else if isReduction d.op then rootOk s i else moveProgress s i

/-- SLOT_TAKE (R116). -/
def execSlotTake (slot : Nat) (s : State) : Out :=
  let n := fget s (wSlot slot) 15 8
  match getJob s n with
  | none => .next s
  | some j =>
    match j.hold with
    | [] => .next s
    | k :: _ =>
      let o := slot - slotBase s n
      if slotState s slot != 1 || (getSlot s slot).isSome || slotOf s n k != slot || k / slotQ s n != Sparse.get (fun _ => 0) j.rounds o ||
          64 ≤ inProgress s (descOf s n k).engine || lowerWaits s n j k then .next s
      else .next (settle (takeSlot s slot n k j) n)

/-! ## Retention, settling, acknowledgements -/

/-- RETENTION_FREED (R134). -/
def execRetentionFreed (slot chunk : Nat) (s : State) : Out :=
  match getSlot s slot with
  | none => .next s
  | some x => .next (settle (retentionFreed s slot chunk) x.sub)

/-- SETTLING_END (R45): the code, or the release of a collective that had completed OK. -/
def execSettlingEnd (slot : Nat) (s : State) : Out :=
  match getSlot s slot with
  | none => .next s
  | some x =>
    if !x.settling then .next s
    else if x.okSent then .next (settle (releaseSlot (forgetRetained (forgetWaiting s slot x.k) slot x.k) slot x) x.sub)
    else
      let code := if x.absent || blockAbsent s x.sub then 6 else 5
      .next (settle (abortSlot s slot code true) x.sub)

/-- ACK_RX (R67, R130, R131): packets released, chunks and slots with them. -/
def execAckRx (handle : Nat) (s : State) : Out :=
  match getDeliv s handle with
  | none => .next s
  | some d =>
    if d.pkt.ty != tAck then .next s
    else
      let s := takeDelivery s handle d
      match ackContext s d.pkt with
      | none => .next s
      | some x =>
        let r := takeAck s d.pkt.stream.toNat x d.pkt
        .next (settle (r.2.foldl (fun s u => slotAcked s d.pkt.stream.toNat u) r.1) x.sub)

/-! ## DATA (R69, R70, R150, R191) -/

/-- The descriptor of the job's count exchange. -/
def xchgDesc (s : State) (n : Nat) (j : JobSt) : Option Desc :=
  match (localStages j).find? fun e => e.2.ty == 0x11 with
  | some e => some (parseDesc (descWords s (descBase s n + e.2.desc)))
  | none => none

/-- A complete message of a RECV stage is kept for its step, or dropped where the step is not open (R191). -/
def recvDone (s : State) (n g : Nat) (j : JobSt) (t : Stage) (k : Pkt) (bs : List Byte) : State :=
  let st := k.msg.toNat % 1024
  let isOpen := j.steps.any fun x => x.s % 1024 == st && !reported x g
  let src := match xchgDesc s n j with
    | some d => memberAt s n d (localMembers s n d) k.src
    | none => none
  match src with
  | some m =>
    if isOpen then setJob s n (some { j with recvMsgs := j.recvMsgs ++ [(t.param0, st, m, bs)] })
    else fieldSat s (wStage n g + 12) 31 0 1
  | none => fieldSat s (wStage n g + 12) 31 0 1

/-- The RECV stage of a packet's channel. -/
def recvStage (j : JobSt) (k : Pkt) : Option (Nat × Stage) :=
  (localStages j).find? fun e => e.2.ty == 1 && e.2.param0 == k.msg.toNat / 1024

/-- DATA for a RECV stage (R191). -/
def recvRx (s : State) (n c : Nat) (k : Pkt) (g : Nat) (t : Stage) : State :=
  let r := countMsg s c k
  match getJob r.1 n, r.2.1, r.2.2 with
  | some j, some code, _ =>
    (match j.steps.find? fun x => x.s % 1024 == k.msg.toNat % 1024 && !reported x g with
     | some x => finishStage r.1 n x.s g ⟨code, 0, 0⟩ []
     | none => r.1)
  | some j, none, some e => recvDone r.1 n g j t k ((assemble e.pieces 0 e.counted).getD [])
  | _, _, _ => r.1

/-- DATA of a movement collective, counted towards its message unless it is stale or too far ahead; an error of the message completes
the collective with the message's code, now or when a packet held for it is taken (R70, R162). -/
def moveRx (s : State) (n c i arrival : Nat) (j : JobSt) (port : Option Nat) (k : Pkt) : State :=
  if 1 < genLead s k then byGeneration s n i arrival j port k none
  else
    let r := countMsg s c k
    byGeneration r.1 n i arrival j port k r.2.1

/-- DATA_RX (R69). A TRANSIT packet for PORT 255 has no consumer on the device and is dropped. -/
def execDataRx (handle : Nat) (s : State) : Out :=
  match getDeliv s handle with
  | none => .next s
  | some d =>
    let k := d.pkt
    let malformed := k.payload.isEmpty && !(k.last && k.word24 == 0)
    if k.ty != tData && k.ty != tTransit then .next s
    else if (againOf s k d.die).isSome then .next ((againOf (takeDelivery s handle d) k d.die).getD s)
    else if malformed then
      .next (match d.port with
        | some p => ctrAdd (takeDelivery s handle d) (pPort p) 6 1
        | none => takeDelivery s handle d)
    else if k.ty == tTransit then .next (takeDelivery s handle d)
    else
      let s := takeDelivery s handle d
      match subOfQuire s k.quire.toNat with
      | none => .next (ctrAdd s (pReduce d.die) 7 1)
      | some n =>
        match getJob s n with
        | none => .next (ctrAdd s (pReduce d.die) 7 1)
        | some j =>
            let recv := match recvStage j k with
              | some (g, t) =>
                (match findStream s n (.recv g) k.src with
                 | some c => some (g, t, c)
                 | none => none)
              | none => none
            match recv with
            | some (g, t, c) =>
              let a := streamAccept s c k d.die
              .next (if a.2 then settle (recvRx a.1 n c k g t) n else a.1)
            | none =>
              let i := k.msg.toNat % 4096
              if i < slotBase s n || slotBase s n + slotQ s n ≤ i || slotState s i == 0 then .next (ctrAdd s (pReduce d.die) 7 1)
              else
                match originOf s n j d.port k with
                | none => .next (ctrAdd s (pReduce d.die) 8 1)
                | some o =>
                  match contextOf s n o with
                  | none => .next s
                  | some c =>
                    let a := streamAccept s c k d.die
                    .next (if a.2 then settle (moveRx a.1 n c i d.die j d.port k) n else a.1)

/-! ## Digests (R214, R218) -/

/-- What a staged piece holds outside the bytes [lo, hi). -/
def outsideOf (lo hi : Nat) (p : Nat × Nat × Nat × List Byte) : List (Nat × Nat × Nat × List Byte) :=
  let a := p.2.2.1
  let bs := p.2.2.2
  (if a < lo then [(p.1, p.2.1, a, bs.take (lo - a))] else []) ++
    (if hi < a + bs.length then [(p.1, p.2.1, Nat.max a hi, bs.drop (hi - a))] else [])

/-- CHUNK_DIGEST (R214, R217): the chunk's bytes are whole in the staging; its digest is kept and the staging freed. -/
def execChunkDigest (sub point chunk : Nat) (s : State) : Out :=
  match getJob s sub with
  | none => .next s
  | some j =>
    let has := fun (e : Nat × Nat × Nat) => e.1 == point && !(j.digests.any fun d => d.1 == point && d.2.1 == e.2.1 && d.2.2.1 == chunk)
    let whole := fun (e : Nat × Nat × Nat) =>
      let ps := (j.staging.filter fun p => p.1 == point && p.2.1 == e.2.1).map fun p => (p.2.2.1, p.2.2.2)
      assemble ps (65536 * chunk) (Nat.min e.2.2 (65536 * (chunk + 1)))
    match j.sealedLens.find? fun e => has e && decide (65536 * chunk < e.2.2) && (whole e).isSome with
    | none => .next s
    | some e =>
      if 8388608 ≤ digestsHeld s then .next s
      else
        match whole e with
        | none => .next s
        | some bs =>
          let keep := (j.staging.map fun p =>
            if p.1 == point && p.2.1 == e.2.1 then outsideOf (65536 * chunk) (65536 * (chunk + 1)) p else [p]).flatten
          let j := { j with digests := j.digests ++ [(point, e.2.1, chunk, shake256 bs 32)], staging := keep }
          .next (trySeal (setJob s sub (some j)) sub e.2.1)

end Sys2Proof.Machine
end

