-- ==== Sys2Proof/Machine/Stages.lean ====
section
/-! DEFINITION. The run of one stage (R189 to R197, R164 to R185) and the waits of a step that later commands end (R196, R218). -/
namespace Sys2Proof.Machine

open Sys2Proof

/-! ## Which stage may run (R189, R191, R196, R197) -/

/-- Messages of a RECV stage that are here for a step, in source rank order (R191). -/
def recvHere (j : JobSt) (t : Stage) (st : Nat) (m : Nat) : Option (List Byte) :=
  (j.recvMsgs.find? fun e => e.1 == t.param0 && e.2.1 == st % 1024 && e.2.2.1 == m).map (·.2.2.2)

/-- Elements that a member's entry of the count vector gives it in all. -/
def memberCount (d : Desc) (cs : List Nat) (i : Nat) : Nat :=
  if d.op == 0x34 then ((List.range d.members).map fun m => cs.getD (i * d.members + m) 0).sum else cs.getD i 0

/-- Local members whose messages a RECV stage awaits in a step. -/
def recvFrom (s : State) (n : Nat) (j : JobSt) (x : StepSt) : List Nat :=
  match xchgDesc s n j with
  | some d => (localMembers s n d).filter fun i => memberCount d x.counts i != 0
  | none => []

/-- The stage's inputs are complete for the step. -/
def inputsHere (s : State) (n : Nat) (j : JobSt) (x : StepSt) (g : Nat) (t : Stage) : Bool :=
  if t.ty == 1 then (recvFrom s n j x).all fun m => (recvHere j t x.s m).isSome
  else if t.ty == 0x13 then (localStages j).all fun e => e.2.ty == 0x13 || reported x e.1
  else (j.conns.filter fun c => c.dst == g).all fun c => (Sparse.get (fun _ => none) x.inputs (2 * g + c.toPort)).isSome

/-- The stage waits for an earlier step that has not committed or failed (R197). -/
def waitsCommit (j : JobSt) (x : StepSt) (t : Stage) : Bool :=
  (readRegions t).any (writtenInPlace j) && j.steps.any fun y => decide (y.s < x.s) && !y.committed

/-- The stage has begun as a member and waits for its collective. -/
def entered (j : JobSt) (l : Nat) (x : StepSt) (g : Nat) : Bool := j.members.any fun m => m.stage == g && m.k / l == x.s

/-- The stage may run for the step now. -/
def stageReady (s : State) (n : Nat) (j : JobSt) (g : Nat) (t : Stage) (x : StepSt) : Bool :=
  !x.waits && !reported x g && t.ty != 0x11 && inputsHere s n j x g t && !waitsCommit j x t && !entered j (seqLen s n) x g

/-! ## What a stage computes -/

/-- Input bytes of a port. -/
def inputOf (x : StepSt) (g port : Nat) : List Byte := (Sparse.get (fun _ => none) x.inputs (2 * g + port)).getD []

/-- Element of a region operand, 0 without a region. -/
def auxAt (s : State) (j : JobSt) (reg row col : Nat) : Nat × Nat :=
  match regionOf j reg with
  | some r => (r.fmt, regionElem s j r (if r.rows ≤ 1 then 0 else row) col)
  | none => (1, 0)

/-- The scale of a column (R93): REG_AUX, or REG_OUT where the epilogue takes REG_AUX (log 23). -/
def scaleAt (s : State) (j : JobSt) (t : Stage) (col : Nat) : Nat := (auxAt s j (if t.epi == 0 then t.regAux else t.regOut) 0 col).2

/-- Input 0 of a MATMUL: columns of its stored tensor (R178). -/
def aCols (t : Stage) : Nat := if t.aT then t.m else t.k

/-- Rows and columns, with the reduction length, that a MATMUL runs over: the rows of input 0 set the size that varies from step to step
(R195). -/
def matmulSizes (t : Stage) (in0 : List Byte) : Nat × Nat :=
  let n0 := elemsIn t.in0Fmt (aCols t) (t.m * t.k) in0
  if t.aT then (t.m, n0 / Nat.max 1 t.m) else (n0 / Nat.max 1 t.k, t.k)

/-- The format in which input `port` of stage `g` arrives: its connection's, or its entry's where the connection names none. -/
def portFmt (j : JobSt) (g port dflt : Nat) : Nat :=
  match j.conns.find? fun c => c.dst == g && c.toPort == port with
  | some c => if c.fmt == 0 then dflt else c.fmt
  | none => dflt

/-- The stage whose output feeds port 0 of stage `g`. -/
def producer (j : JobSt) (g : Nat) : Nat :=
  match j.conns.find? fun c => c.dst == g && c.toPort == 0 with
  | some c => c.src
  | none => g

/-- Entry whose sizes an input of stage `g` is held against: a RECOMPUTE's input is its forward stage's (R196). -/
def sizedBy (j : JobSt) (t : Stage) : Stage := if t.ty == 0x10 then (stageOf j t.param0).getD t else t

/-- An input is longer than the connection declares: in the connection's format it holds more elements than the entry's M, N and K
give that port (R202). A sample stream is held to BOUND alone (R192), and gradient rows to N elements for each bag or index. -/
def inputTooLong (j : JobSt) (g : Nat) (t : Stage) (in0 in1 : List Byte) : Bool :=
  let f := sizedBy j t
  let tooMany := fun (port dflt cols limit : Nat) (bs : List Byte) => decide (limit < elemsIn (portFmt j g port dflt) cols limit bs)
  if f.ty == 7 then
    tooMany 0 f.in0Fmt (aCols f) (f.m * f.k) in0 || (t.ty == 7 && t.regB == 0xFFFF && tooMany 1 f.in1Fmt (if f.bT then f.k else f.n) (f.k * f.n) in1)
  else if f.ty == 9 then false
  else if f.ty == 0x0A then
    let bags := sampleBags (t.param0 % 256) (t.param0 / 256 % 256) (in0.length + 1) in0
    let rows := if t.pool == 2 then ((bags.map counted).map (·.length)).sum else bags.length
    tooMany 1 t.in1Fmt t.n (rows * t.n) in1
  else f.m != 0 && f.n != 0 && tooMany 0 f.in0Fmt f.n (f.m * f.n) in0

/-- Addends that each output rick of a MATMUL takes: one content for each range of K, and the ADD operand (R98, R177). -/
def matmulAddends (t : Stage) (k : Nat) : Nat :=
  (if t.param0 % 2 == 1 then Nat.min t.tiles (Nat.max 1 (ceilDiv k 512)) else 1) + (if t.epi == 1 || t.epi == 3 then 1 else 0)

/-- Addends of each rick of a stage's FRICK output, as its entry and the entries before it tell (R105; log 91): a REDUCE counts its
members, a press or epilogue output its content and its ADD operand, a pooled bag its bag bound. -/
def frickCount (s : State) (n : Nat) (j : JobSt) : Nat → Nat → Nat
  | 0, _ => j.rickBound
  | fuel + 1, g =>
    match j.stages[g]? with
    | none => j.rickBound
    | some t =>
      let add := if t.epi == 1 || t.epi == 3 then 1 else 0
      match t.ty with
      | 4 => (parseDesc (descWords s (descBase s n + t.desc))).members
      | 7 => 1 + add
      | 8 => (if t.in0Fmt == 12 then frickCount s n j fuel (producer j g) else 1) + add
      | 9 => t.param1
      | 0x0F => frickCount s n j fuel (producer j g)
      | 0x12 => frickCount s n j fuel (producer j g)
      | 0x10 => frickCount s n j fuel t.param0
      | _ => j.rickBound

/-- Addends of each FRICK element of stage `g`'s input 0. -/
def inputCount (s : State) (n : Nat) (j : JobSt) (g : Nat) : Nat := frickCount s n j (j.stages.length + 1) (producer j g)

/-- Elements of an element-wise stage's input. -/
def inputLen' (t : Stage) (in0 : List Byte) : Nat := elemsIn t.in0Fmt t.n (t.m * t.n) in0

/-- The ricks of input 0 of stage `g`. -/
def stageRicks (s : State) (n : Nat) (j : JobSt) (g : Nat) (t : Stage) (code : Nat) (in0 : List Byte) : List Rick :=
  inputRicks code (inputCount s n j g) (if code == 12 then elemCount 12 in0 else inputLen' t in0) in0

/-- The stage reads its input as ricks. -/
def takesRicks (t : Stage) : Bool := t.ty == 5 || (t.in0Fmt == 12 && (t.ty == 8 || t.ty == 0x0D))

/-- A rick of the stage's input is malformed (R107). -/
def malformedInput (j : JobSt) (t : Stage) (in0 : List Byte) : Bool := takesRicks (sizedBy j t) && (readFrick 0 in0).isNone

/-- Operand B of a MATMUL: the region REG_B names, or input 1 (R167, R178). -/
def operandB (s : State) (j : JobSt) (t : Stage) (in1 : List Byte) : Operand :=
  let cols := if t.bT then t.k else t.n
  match regionOf j t.regB with
  | some r => { code := r.fmt, data := fun i => regionElem s j r (i / Nat.max 1 cols) (i % Nat.max 1 cols), cols := cols, transposed := t.bT }
  | none => { code := t.in1Fmt, data := fun i => elemAt t.in1Fmt in1 i, cols := cols, transposed := t.bT }

/-- MATMUL (R167 to R182). -/
def runMatmul (s : State) (j : JobSt) (t : Stage) (in0 in1 : List Byte) : StageOut :=
  let z := matmulSizes t in0
  let a : Operand := { code := t.in0Fmt, data := fun i => elemAt t.in0Fmt in0 i, cols := aCols t, transposed := t.aT }
  if j.rickBound < matmulAddends t z.2 then .error 9
  else
    .ok (matmul a (operandB s j t in1) z.1 t.n z.2 j.alignMode t.epi t.outFmt j.e4mode (fun r c => auxAt s j t.regAux r c)
      (fun r c => auxAt s j (if t.epi == 3 then t.regA else t.regAux) r c) (fun c => scaleAt s j t c))

/-- The sample stream's bags for a GATHER or SCATTER_ADD (R192). -/
def stageBags (t : Stage) (in0 : List Byte) : List (List Nat) :=
  sampleBags (t.param0 % 256) (t.param0 / 256 % 256) (in0.length + 1) in0

/-- The uses of a row exceed RICK_BOUND (R98, R194). -/
def usesOver (j : JobSt) (us : List (Nat × Nat × Nat)) (extra : Nat) : Bool :=
  (usedRows us).any fun i => decide (j.rickBound < (us.filter fun u => u.1 == i).length + extra)

/-- The set of ricks that a step's uses of the table rows fill, row by row in increasing order, with the flags of their addends; under
IN_PLACE each takes the table's element as one further addend (R194). -/
def scatterRicks (s : State) (j : JobSt) (t : Stage) (us : List (Nat × Nat × Nat)) (g : Nat → Nat → Nat) : List (Rick × Nat) :=
  ((usedRows us).map fun i => (List.range t.n).map fun c =>
    let r := rowRick us t.pool t.in1Fmt g i c
    match regionOf j t.regA with
    | some a => if t.mode == 1 then (rickAdd r.1 a.fmt (regionElem s j a i c), r.2) else r
    | none => r).flatten

/-- The ricks are held in REG_B as 48-byte forms, in the order of the rows (R194; log 94). -/
def holdRicks (s : State) (j : JobSt) (t : Stage) (rs : List (Rick × Nat)) : State :=
  match regionOf j t.regB with
  | none => s
  | some r =>
    regionWrite s j r 0 ((((rs.zip (List.range rs.length)).map fun x => fullForm x.1.1 (x.2 % 65536)).flatten).take r.bytes)

/-- Rows of `n` entries of a list. -/
def rowsOf {α : Type} (n : Nat) (rows : List Nat) (xs : List α) : List (Nat × List α) :=
  (rows.zip (List.range rows.length)).map fun r => (r.1, (xs.drop (n * r.2)).take n)

/-- SCATTER_ADD (R194): its output, the in-place writes it asks for, and the ricks it holds. -/
def runScatter (s : State) (j : JobSt) (t : Stage) (in0 in1 : List Byte) :
    Except Nat ((List Byte × Nat × Nat) × List (Nat × Nat × List Byte) × List (Rick × Nat)) :=
  let bags := stageBags t in0
  let us := rowUses bags t.pool
  let g := fun (u c : Nat) => elemAt t.in1Fmt in1 (u * t.n + c)
  match bagsFault bags t.m t.param1 t.bound with
  | some c => .error c
  | none =>
    if usesOver j us t.mode then .error 9
    else
      let rs := scatterRicks s j t us g
      let rows := rowsOf t.n (usedRows us) rs
      if t.mode == 0 then .ok (scatterSparse rows t.outFmt j.e4mode (fun c => scaleAt s j t c), [], rs)
      else
        match regionOf j t.regA with
        | none => .ok (([], 0, 0), [], rs)
        | some r =>
          let w := scatterInPlace rows r.fmt j.e4mode
          let b := elemBytes r.fmt
          let ws := (w.1.map fun row => (row.2.zip (List.range row.2.length)).map fun e =>
            (t.regA, regionIndex r row.1 e.2 * b, leBytes b e.1)).flatten
          .ok (([], w.2, 0), ws, rs)

/-- GATHER over the table in REG_A (R193). -/
def runGather (s : State) (j : JobSt) (t : Stage) (in0 : List Byte) : StageOut :=
  match regionOf j t.regA with
  | none => .ok ([], 0, 0)
  | some r =>
    gather (stageBags t in0) t.m t.n t.pool r.fmt t.outFmt j.e4mode t.param1 t.bound j.rickBound (fun i c => regionElem s j r i c)
      (fun c => scaleAt s j t c)

/-- EPILOGUE (R181): an ADD that would take a rick's count above RICK_BOUND is not performed (R98). -/
def runEpilogue (s : State) (n : Nat) (j : JobSt) (g : Nat) (t : Stage) (in0 : List Byte) : StageOut :=
  let rs := stageRicks s n j g t t.in0Fmt in0
  let add := if t.epi == 1 || t.epi == 3 then 1 else 0
  if rs.any fun r => decide (j.rickBound < r.count + add) then .error 9
  else
    .ok (epilogueStage t.epi t.outFmt j.e4mode (Nat.max 1 t.n) rs (fun r c => auxAt s j t.regAux r c)
      (fun r c => auxAt s j (if t.epi == 3 then t.regA else t.regAux) r c) (fun c => scaleAt s j t c))

/-- Values that a QUANT takes: exact contents of ricks, or elements (R93). -/
def quantInput (s : State) (n : Nat) (j : JobSt) (g : Nat) (t : Stage) (in0 : List Byte) : List Val :=
  if t.in0Fmt == 12 then (stageRicks s n j g t 12 in0).map rickVal else (elems t.in0Fmt in0 (inputLen' t in0)).map (elemVal t.in0Fmt)

/-- The operations that RECOMPUTE may repeat (R196), and those of no memory effect, on the inputs of stage `g`. -/
def runPlain (s : State) (n : Nat) (j : JobSt) (g : Nat) (t : Stage) (in0 in1 : List Byte) : StageOut :=
  let cols := Nat.max 1 t.n
  let sc := fun (c : Nat) => (auxAt s j t.regAux 0 c).2
  match t.ty with
  | 5 => .ok (roundStage t.outFmt j.e4mode cols (stageRicks s n j g t 12 in0) sc)
  | 6 => .ok (convertStage t.in0Fmt t.outFmt j.e4mode (inputLen' t in0) in0)
  | 7 => runMatmul s j t in0 in1
  | 8 => runEpilogue s n j g t in0
  | 9 => runGather s j t in0
  | 0x0D => .ok (quantStage cols (quantInput s n j g t in0) sc)
  | 0x0E => .ok (dequantStage t.outFmt j.e4mode cols in0 sc)
  | _ => .ok (in0, 0, 0)

/-- The stash whose data a RECOMPUTE reads: the one that feeds its forward stage, else the one that feeds it (log 24). -/
def stashFor (j : JobSt) (g : Nat) (t : Stage) : Option StashE :=
  let feeds := fun (c : Nat) => (j.conns.filter fun e => e.dst == c).filterMap fun e => j.stashes.find? fun h => h.stage == e.src
  match feeds t.param0 with
  | h :: _ => some h
  | [] => (feeds g).head?

/-- Slot of a stash for a step (R196). -/
def stashSlot (h : StashE) (st : Nat) : Nat := st % Nat.max 1 h.depth
/-- Byte offset of a stash slot in its region. -/
def stashOffset (j : JobSt) (h : StashE) (st : Nat) : Nat := stashSlot h st * (j.maxBatch * h.perSample)

/-! ## Poison and checks (R184, R297) -/

/-- Rows of the table that a sample stream names. -/
def rowsNamed (t : Stage) (in0 : List Byte) : List Nat := ((stageBags t in0).map counted).flatten

/-- An operand that the stage reads is poisoned (R297). -/
def operandPoisoned (s : State) (j : JobSt) (t : Stage) (in0 : List Byte) : Bool :=
  !s.memSt.poison.isEmpty &&
    (readRegions t).any fun reg =>
      match regionOf j reg with
      | none => false
      | some r =>
        if (t.ty == 9 || t.ty == 0x0A) && reg == t.regA then (rowsNamed t in0).any fun i => rowPoisoned s j r i
        else regionPoisoned s j r

/-- A stash slot is lost or poisoned. -/
def stashBad (s : State) (j : JobSt) (h : StashE) (st : Nat) : Bool :=
  j.stashLost.contains (16 * h.stash + stashSlot h st) ||
    (match regionOf j h.region with
     | some r => !s.memSt.poison.isEmpty && s.memSt.poison.any fun w =>
         (List.range (ceilDiv (Sparse.get (fun _ => 0) j.stash (16 * h.stash + stashSlot h st)) 32)).any fun i =>
           regionAddr j r (stashOffset j h st + 32 * i) / 32 == w
     | none => false)

/-- Format of a MATMUL's operand B. -/
def fmtB (j : JobSt) (t : Stage) : Nat := ((regionOf j t.regB).map (·.fmt)).getD t.in1Fmt

/-- Rows of an output tile: 64 where both operands are 4-bit and read untransposed (R167). -/
def tileRows (j : JobSt) (t : Stage) : Nat := if fmtBits t.in0Fmt == 4 && fmtBits (fmtB j t) == 4 && !t.aT && !t.bT then 64 else 32

/-- Press counters of a MATMUL entry `t` that runs on the tiles of stage `on` (Table 8.10), by output tile and pass; split 1 gives tile
i a contiguous range of the passes, the longer ones first (R198; log 25). -/
def countPress (s : State) (j : JobSt) (on t : Stage) (in0 : List Byte) : State :=
  let z := matmulSizes t in0
  let k := z.2
  let tr := tileRows j t
  let outs := ceilDiv z.1 tr * ceilDiv t.n 32
  let passes := ceilDiv k 512
  let byTile := t.param0 % 2 == 0
  (List.range on.tiles).foldl (fun s i =>
    let page := pCluster ((on.tileFirst + i) / 16)
    let share := fun (total : Nat) => total / on.tiles + (if i < total % on.tiles then 1 else 0)
    let first := i * (passes / on.tiles) + Nat.min i (passes % on.tiles)
    let indices := Nat.min k (512 * (first + share passes)) - Nat.min k (512 * first)
    let ps := if byTile then share outs * passes else outs * share passes
    let parts := if byTile then share outs * (passes - 1) else outs * (share passes - 1)
    let macs := if byTile then share outs * (tr * 32 * k) else outs * (tr * 32 * indices)
    ctrAdd (ctrAdd (ctrAdd s page 0 macs) page 1 ps) page 2 (parts * (tr * 32))) s

/-- The press of tile `tile` holds a MATMUL in progress: a stage that runs one may run for a step and has not reported (R185). With
`reference`, one of 8-bit floats in REFERENCE mode. -/
def pressHolds (s : State) (tile : Nat) (reference : Bool) : Bool :=
  s.jobs.any fun e =>
    match e.2 with
    | none => false
    | some j =>
      (localStages j).any fun t =>
        let f := sizedBy j t.2
        f.ty == 7 && decide (t.2.tileFirst ≤ tile) && decide (tile < t.2.tileFirst + t.2.tiles) &&
          (!reference || (j.alignMode == 1 && isFloat f.in0Fmt)) && j.steps.any fun x => stageReady s e.1 j t.1 t.2 x

/-! ## The run -/

/-- SEND (R83, Table 9.6): the input as one DATA message to the destination rank. -/
def runSend (s : State) (n : Nat) (j : JobSt) (x : StepSt) (g : Nat) (t : Stage) (bs : List Byte) : State :=
  let d : BitVec 24 := (rankWord s n t.param1).extractLsb' 0 24
  match findStream s n (.send g) d with
  | none => s
  | some c =>
    let base := { blankPkt tData with msg := BitVec.ofNat 16 (t.param0 % 64 * 1024 + x.s % 1024), ety := BitVec.ofNat 3 0 }
    let ps := if bs.isEmpty then [{ base with last := true }] else messagePkts base bs
    ps.foldl (fun s p => sendOne s (t.tileFirst / 64) c p false n none none) (setJob s n (some j))

/-- RECV's output: messages in increasing source rank (R191). -/
def recvOut (s : State) (n : Nat) (j : JobSt) (x : StepSt) (t : Stage) : List Byte :=
  ((recvFrom s n j x).map fun m => (recvHere j t x.s m).getD []).flatten

/-- Forget the messages of a RECV stage for a step. -/
def dropRecv (j : JobSt) (t : Stage) (st : Nat) : JobSt :=
  { j with recvMsgs := j.recvMsgs.filter fun e => !(e.1 == t.param0 && e.2.1 == st % 1024) }

/-- Write a stage's output to REG_OUT, at once or held for the commit (R197). -/
def writeOut (s : State) (n st : Nat) (t : Stage) (out : List Byte) : State :=
  match getJob s n with
  | none => s
  | some j =>
    match regionOf j t.regOut with
    | none => s
    | some r =>
      let ws := writesInto r t.outFmt (Nat.max 1 t.n) out
      if t.ty == 8 && t.mode == 1 then
        match getStep j st with
        | some x => setJob s n (some (setStep j { x with held := x.held ++ ws.map fun w => (t.regOut, w.1, w.2) }))
        | none => s
      else ws.foldl (fun s w => regionWrite s j r w.1 w.2) s

/-- REG_OUT of the stage takes its output; with a MUL or ADD epilogue into INT8Q it names the scales instead. -/
def outRegion (t : Stage) : Bool := t.regOut != 0xFFFF && !(t.outFmt == 11 && t.epi != 0)

/-- Report an arithmetic result, after its writes. -/
def endPlain (s : State) (n st g : Nat) (t : Stage) (r : StageOut) : State :=
  match r with
  | .error c => finishStage s n st g ⟨c, 0, 0⟩ []
  | .ok (bs, flags, esc) =>
    finishStage (if outRegion t then writeOut s n st t bs else s) n st g ⟨0, flags, esc⟩ bs

/-- The sealed bytes of a SEAL stage's input: in logical order, FRICK elements as full forms (R213). -/
def sealBytesOf (s : State) (n : Nat) (j : JobSt) (g : Nat) (t : Stage) (bs : List Byte) : List Byte :=
  if portFmt j g 0 t.in0Fmt == 12 then sealedForms (stageRicks s n j g t 12 bs) else bs

/-- SEAL (R213, R214): the input is staged for its digests and passed on. -/
def runSeal (s : State) (n g : Nat) (j : JobSt) (x : StepSt) (t : Stage) (bs : List Byte) : State :=
  let sealed := sealBytesOf s n j g t bs
  let j := { j with staging := j.staging ++ [(g, x.s, 0, sealed)], sealedLens := j.sealedLens ++ [(g, x.s, sealed.length)] }
  finishStage (setJob s n (some j)) n x.s g ⟨0, 0, 0⟩ bs

/-- STASH (R196). -/
def runStash (s : State) (n g : Nat) (j : JobSt) (x : StepSt) (t : Stage) (bs : List Byte) : State :=
  match j.stashes.find? fun h => h.stage == g && h.stash == t.param0 with
  | none => finishStage s n x.s g ⟨0, 0, 0⟩ bs
  | some h =>
    if j.stashLost.contains (16 * h.stash + stashSlot h x.s) then finishStage s n x.s g ⟨0x24, 0, 0⟩ []
    else if j.maxBatch * h.perSample < bs.length then finishStage s n x.s g ⟨0x21, 0, 0⟩ []
    else
      match regionOf j h.region with
      | none => finishStage s n x.s g ⟨0, 0, 0⟩ bs
      | some r =>
        let j := { j with stash := Sparse.set (fun _ => 0) j.stash (16 * h.stash + stashSlot h x.s) bs.length }
        finishStage (regionWrite (setJob s n (some j)) j r (stashOffset j h x.s) bs) n x.s g ⟨0, 0, 0⟩ bs

/-- A stage's input holds a malformed rick: MALFORMED_PARTIAL, counted on the die of its first tile (R107, R111). -/
def refuseInput (s : State) (n st g : Nat) (t : Stage) : State :=
  finishStage (ctrAdd s (pReduce (t.tileFirst / 64)) 34 1) n st g ⟨2, 0, 0⟩ []

/-- RECOMPUTE (R196): the forward stage again, on the stashed input and, for a MATMUL, the forward stage's input 1 of the step. -/
def runRecompute (s : State) (n g : Nat) (j : JobSt) (x : StepSt) (t : Stage) (own : List Byte) : State :=
  match stageOf j t.param0, stashFor j g t with
  | some f, some h =>
    if stashBad s j h x.s then finishStage s n x.s g ⟨0x24, 0, 0⟩ []
    else
      let bs := match regionOf j h.region with
        | some r => regionBytes s j r (stashOffset j h x.s) (Sparse.get (fun _ => 0) j.stash (16 * h.stash + stashSlot h x.s))
        | none => own
      if operandPoisoned s j f bs then finishStage s n x.s g ⟨0x25, 0, 0⟩ []
      else if malformedInput j f bs then refuseInput s n x.s g t
      else
        let s := if f.ty == 7 then countPress s j t f bs else s
        match runPlain s n j t.param0 f bs (inputOf x t.param0 1) with
        | .error c => finishStage s n x.s g ⟨c, 0, 0⟩ []
        | .ok (out, flags, esc) => finishStage s n x.s g ⟨0, flags, esc⟩ out
  | _, _ => finishStage s n x.s g ⟨0, 0, 0⟩ own

/-- SCATTER_ADD (R194): sparse rows out, or writes held for the commit; the ricks stay in REG_B. -/
def endScatter (s : State) (n g : Nat) (j : JobSt) (x : StepSt) (t : Stage)
    (r : Except Nat ((List Byte × Nat × Nat) × List (Nat × Nat × List Byte) × List (Rick × Nat))) : State :=
  match r with
  | .error c => finishStage s n x.s g ⟨c, 0, 0⟩ []
  | .ok (o, ws, rs) =>
    let s := holdRicks s j t rs
    let s := setJob s n (some (setStep j { x with held := x.held ++ ws }))
    finishStage s n x.s g ⟨0, o.2.1, o.2.2⟩ o.1

/-- A residue found while the stage runs: the record of R184 or R100, and STAGE_RESIDUE (R346), counted for the press or, a rick's, on
the tile's die (R111, R185). -/
def residueFound (s : State) (n g tile element : Nat) (press : Bool) : State :=
  let s := if press then ctrAdd s (pCluster (tile / 16)) 4 1 else ctrAdd s (pReduce (tile / 64)) 35 1
  report s (mkFault 0xF1 tile (if press then 2 else 1) 1 (g * 2 ^ 32 + element) n 0)

/-- The stage runs for the step with what its checks find. -/
def runStage (s : State) (n g : Nat) (j : JobSt) (x : StepSt) (t : Stage) (check : StageCheck) : State :=
  let in0 := if t.ty == 1 then recvOut s n j x t else inputOf x g 0
  let in1 := inputOf x g 1
  let j := if t.ty == 1 then dropRecv j t x.s else j
  let s := setJob s n (some j)
  if (t.ty == 1 && decide (t.bound < in0.length)) || inputTooLong j g t in0 in1 then finishStage s n x.s g ⟨0x21, 0, 0⟩ []
  else if t.ty != 0x10 && operandPoisoned s j t in0 then finishStage s n x.s g ⟨0x25, 0, 0⟩ []
  else if t.ty != 0x10 && malformedInput j t in0 then refuseInput s n x.s g t
  else
    match check with
    | .residue tile element press => finishStage (residueFound s n g tile element press) n x.s g ⟨0x22, 0, 0⟩ []
    | .late => finishStage s n x.s g ⟨0x23, 0, 0⟩ []
    | .pass =>
      match t.ty with
      | 1 => finishStage s n x.s g ⟨0, 0, 0⟩ in0
      | 2 => finishStage (runSend s n j x g t in0) n x.s g ⟨0, 0, 0⟩ []
      | 7 => endPlain (countPress s j t t in0) n x.s g t (runMatmul s j t in0 in1)
      | 0x0A => endScatter s n g j x t (runScatter s j t in0 in1)
      | 0x0F => runStash s n g j x t in0
      | 0x10 => runRecompute s n g j x t in0
      | 0x12 => runSeal s n g j x t in0
      | 0x13 => enterMember s n (x.s * seqLen s n + t.desc) g [0]
      | _ =>
        if isMemberStage t then enterMember s n (x.s * seqLen s n + t.desc) g in0
        else endPlain s n x.s g t (runPlain s n j g t in0 in1)

/-- STAGE_EXECUTE (R189): the earliest step for which the stage may run. A SEAL stage without room for its record waits (R218). -/
def execStageExecute (sub stage : Nat) (check : StageCheck) (s : State) : Out :=
  if s.faults.held then .next s
  else
    match getJob s sub with
    | none => .next s
    | some j =>
      match stageOf j stage with
      | none => .next s
      | some t =>
        match j.steps.find? fun x => stageReady s sub j stage t x with
        | none => .next s
        | some x =>
          if t.ty == 0x12 && sealFull s (Nat.max 1 (ceilDiv (sealBytesOf s sub j stage t (inputOf x stage 0)).length 65536)) then .next (if j.sealWaiting then s else sealWait s sub)
          else .next (settle (runStage s sub stage j x t check) sub)

/-- STEP_FORWARD_RESUME (R196): step s - DEPTH has completed, and the waiting step starts its forward stages. -/
def execStepForwardResume (sub : Nat) (s : State) : Out :=
  match getJob s sub with
  | none => .next s
  | some j => .next (setJob s sub (some { j with steps := j.steps.map fun x => { x with waits := x.waits && mustWait j x.s } }))

/-- SEAL_SPACE_FREED (R218): the waiting step goes on: records that only lacked room are made, and sealed reductions that waited at
their root go down. -/
def execSealSpaceFreed (sub : Nat) (s : State) : Out :=
  match getJob s sub with
  | none => .next s
  | some j =>
    if !j.sealWaiting || sealFull s 1 then .next s
    else
      let s := ctrAdd (setJob s sub (some { j with sealWaiting := false })) pSeal 2 ((s.uptime - j.sealSince) / 1000)
      let s := (j.sealedLens.map (·.2.1)).eraseDups.foldl (fun s st => trySeal s sub st) s
      let mine := (s.slots.filter fun e =>
        match e.2 with
        | some x => x.sub == sub
        | none => false).map (·.1)
      .next (settle (mine.foldl (fun s i => rootOk (moveWaiting s i) i) s) sub)

end Sys2Proof.Machine
end

