-- ==== Sys2Proof/Machine/Loader.lean ====
section
/-! DEFINITION. Images (R186 to R188) and their load-time admission: the tests of Table 9.7, in order. -/
namespace Sys2Proof.Machine

open Sys2Proof

/-! ## Frames (R287, R289, R294) -/

/-- SPILL_64M of a die, 0 read as 8 (R287). -/
def spill64 (s : State) (d : Nat) : Nat := fdef s (pReduce d + 0x40) 5 0 8

/-- Bytes of capacity of LPDDR6 group `j` (R291): 0 out of service. -/
def groupBytes (s : State) (j : Nat) : Nat :=
  let a := pLpddr 32 + 0x44
  if !bit s a (28 + j) || fget s a 19 16 == 0 then 0 else 8 * 2 ^ (fget s a 19 16) * 2 ^ 30

/-- Bytes of a group that frames cover: all but the top 256 MiB. -/
def groupJobBytes (s : State) (j : Nat) : Nat := groupBytes s j - 2 ^ 28

/-- Map entries of a memory unit: stack 0-7, or 8 + group. -/
def retireEntry (unit i : Nat) : Nat := if unit < 8 then wStackRet unit i else wLpRet (unit - 8) i

/-- Retired frames of a memory unit (R298). -/
def retiredFrames (s : State) (unit : Nat) : List Nat :=
  ((List.range 256).filter fun i => bit s (retireEntry unit i) 31).map (fun i => fget s (retireEntry unit i) 15 0) ++
    (s.memSt.extraRetired.filter fun e => e.1 == unit).map (·.2)

/-- Frames of a memory unit that loaded jobs hold. -/
def heldFrames (s : State) (unit : Nat) : List Nat :=
  ((s.jobs.map fun e =>
    match e.2 with
    | some j => j.frames
    | none => []).flatten.filter fun f => f.1 == unit).map (·.2)

/-- Frames of a unit that may be allocated, out of a list. -/
def freeFrames (s : State) (unit : Nat) (fs : List Nat) : List Nat :=
  let taken := heldFrames s unit ++ retiredFrames s unit
  fs.filter fun f => !taken.contains f

/-- Job frames of a vault in order (R287). -/
def vaultFrames (s : State) (d v : Nat) : List Nat := (List.range (189 - 4 * spill64 s d)).map fun i => v * 192 + i

/-- Free frames of a stack in the order of R289 for a job with these tiles. -/
def stackFrames (s : State) (d : Nat) (tiles : List Nat) : List Nat :=
  let own := (tiles.filter fun t => t / 64 == d).map (· % 64)
  freeFrames s d ((own ++ (List.range 64).filter fun v => !own.contains v).map fun v => vaultFrames s d v).flatten

/-- Free frames of a group, lowest first (R294). -/
def lpddrFrames (s : State) (j : Nat) : List Nat :=
  freeFrames s (8 + j) (List.range (groupJobBytes s j / 2 ^ 21))

/-- Bytes [a, a + n) of LPDDR6 lie in one group, outside its device area and every loaded job's frames (R294, Table 15.6). -/
def loadAreaOk (s : State) (a n : Nat) : Bool :=
  let j := a / 2 ^ 37
  let g := a % 2 ^ 37
  decide (j < 4) && decide (g + n ≤ groupJobBytes s j) &&
    !((List.range ((g % 2 ^ 21 + n + 2 ^ 21 - 1) / 2 ^ 21)).any fun i => (heldFrames s (8 + j)).contains (g / 2 ^ 21 + i))

/-! ## Parsing (Tables 9.1 to 9.5b) -/

/-- Entries of `size` bytes that a byte string holds. -/
def splitBytes (size : Nat) (bs : List Byte) : List (List Byte) := (List.range (bs.length / size)).map fun i => slice bs (size * i) size

/-- Directory entries in use: type, offset, length. -/
def directory (img : List Byte) : List (Nat × Nat × Nat) :=
  (((List.range 16).map fun i => (leAt img (64 + 12 * i) 2, leAt img (68 + 12 * i) 4, leAt img (72 + 12 * i) 4))).filter fun e => e.1 != 0

/-- Bytes of a section, empty where the image has none. -/
def sectionOf (img : List Byte) (ty : Nat) : List Byte :=
  match (directory img).find? fun e => e.1 == ty with
  | some e => slice img e.2.1 e.2.2
  | none => []

/-- A stage entry (Table 9.3). -/
def parseStage (b : List Byte) : Stage :=
  let opt := leAt b 10 1
  { ty := leAt b 0 1, role := leAt b 1 1, index := leAt b 2 2, tileFirst := leAt b 4 2, tiles := leAt b 6 2, outFmt := leAt b 8 1 / 16,
    in0Fmt := leAt b 8 1 % 16, auxFmt := leAt b 9 1 / 16, in1Fmt := leAt b 9 1 % 16, bT := opt / 128 == 1, aT := opt / 64 % 2 == 1,
    epi := opt / 8 % 8, pool := opt % 4, mode := leAt b 11 1, m := leAt b 12 4, n := leAt b 16 4, k := leAt b 20 4, regA := leAt b 24 2,
    regB := leAt b 26 2, regOut := leAt b 28 2, regAux := leAt b 30 2, desc := leAt b 32 2, param0 := leAt b 34 2, bound := leAt b 36 4,
    param1 := leAt b 40 4 }

/-- A connection entry (Table 9.4). -/
def parseConn (b : List Byte) : Conn :=
  { src := leAt b 0 2, toPort := leAt b 3 1, dst := leAt b 4 2, fmt := leAt b 6 1 % 16, bufBytes := leAt b 8 4 }

/-- A memory plan entry (Table 9.5). -/
def parseRegion (b : List Byte) : Region :=
  { region := leAt b 0 2, role := leAt b 2 1, place := leAt b 3 1, at' := leAt b 4 2, fmt := leAt b 6 1 % 16, source := leAt b 7 1,
    offset := leAt b 8 5, bytes := leAt b 16 5, rows := leAt b 24 4, cols := leAt b 28 4 }

/-- A stash entry (Table 9.5a). -/
def parseStash (b : List Byte) : StashE :=
  { stash := leAt b 0 2, stage := leAt b 2 2, region := leAt b 4 2, depth := leAt b 6 2, perSample := leAt b 8 4 }

/-- A parsed image. -/
structure Image where
  bytes : List Byte
  stages : List Stage
  conns : List Conn
  regions : List Region
  stashes : List StashE
  descs : List (List Word)
  trigs : List (List Word)
  roleMap : List Nat
  colo : List Byte
  maxBatch : Nat
  rickBound : Nat
  concurrency : Nat
  queues : Nat
  deriving DecidableEq, Repr

/-- The words of an entry, each least significant byte first. -/
def wordsOf (b : List Byte) : List Word := (List.range (b.length / 4)).map fun i => BitVec.ofNat 32 (leAt b (4 * i) 4)

/-- An image as its header and directory divide it. -/
def parseImage (img : List Byte) : Image :=
  { bytes := img, stages := (splitBytes 64 (sectionOf img 2)).map parseStage, conns := (splitBytes 16 (sectionOf img 3)).map parseConn,
    regions := (splitBytes 32 (sectionOf img 4)).map parseRegion, stashes := (splitBytes 16 (sectionOf img 7)).map parseStash,
    descs := (splitBytes 64 (sectionOf img 6)).map wordsOf, trigs := (splitBytes 32 (sectionOf img 5)).map wordsOf,
    roleMap := (sectionOf img 1).map (·.toNat), colo := sectionOf img 8, maxBatch := leAt img 16 4, rickBound := leAt img 20 4,
    concurrency := leAt img 24 2, queues := leAt img 26 2 }

/-- Descriptors of an image. -/
def Image.ds (i : Image) : List Desc := i.descs.map parseDesc

/-- Gathering digest (R187). -/
def gathDigest (img : List Byte) : List Byte :=
  match (directory img).find? fun e => e.1 == 15 with
  | some e => shake256 (img.take e.2.1) 32
  | none => []

/-! ## Tests 1 to 7 -/

/-- Test 1: the signature section and its chain (R187, R331). -/
def signatureOk (s : State) (img : List Byte) : Bool :=
  match (directory img).find? fun e => e.1 == 15 with
  | none => false
  | some e =>
    if img.length < e.2.1 + e.2.2 || e.2.2 < 29792 then false
    else
      let c := chainAndSig (slice img e.2.1 e.2.2)
      match roleKey s s.fuses.secRoot 3 c.1 with
      | some key => Config.slhVerify key "PAROON IMG" (img.take e.2.1) c.2
      | none => false

/-- Bytes that Table 9.1 to 9.5b reserve are 0. -/
def zeros (bs : List Byte) (start n : Nat) : Bool := (slice bs start n).all (· == 0)

/-- The directory and the section lengths (R187). -/
def directoryOk (img : List Byte) : Bool :=
  let es := directory img
  let sig := es.find? fun e => e.1 == 15
  let unused := (List.range 16).all fun i => leAt img (64 + 12 * i) 2 != 0 || zeros img (64 + 12 * i) 12
  let lenOk := fun (e : Nat × Nat × Nat) =>
    match e.1 with
    | 2 => e.2.2 == 64 * leAt img 12 2
    | 3 => e.2.2 % 16 == 0
    | 4 => e.2.2 % 32 == 0 && decide (e.2.2 ≤ 131072)
    | 5 => e.2.2 % 32 == 0
    | 6 => e.2.2 % 64 == 0
    | 7 => e.2.2 % 16 == 0
    | 8 => e.2.2 == 64
    | _ => true
  es.length == leAt img 15 1 && decide (1 ≤ es.length) && unused &&
    (List.range 16).all (fun i => zeros img (66 + 12 * i) 2) &&
    es.all (fun e => ((1 ≤ e.1 && e.1 ≤ 9) || e.1 == 15) && e.2.1 % 64 == 0 && 256 ≤ e.2.1 && decide (e.2.1 + e.2.2 ≤ img.length) && lenOk e) &&
    (es.map (·.1)).eraseDups.length == es.length &&
    es.all (fun e => es.all fun f => e == f || decide (e.2.1 + e.2.2 ≤ f.2.1) || decide (f.2.1 + f.2.2 ≤ e.2.1)) &&
    (match sig with
     | some g => g.2.1 + g.2.2 == img.length && es.all fun e => decide (e.2.1 ≤ g.2.1)
     | none => false) &&
    es.any (fun e => e.1 == 8) && (leAt img 12 2 == 0 || (es.any (fun e => e.1 == 2) && es.any fun e => e.1 == 1))

/-- No parameter of a stage entry lies outside what Tables 9.3 and 9.6 give its type: MODE, CHANNEL, the bag bound and the pooling. -/
def paramsOk (t : Stage) : Bool :=
  (t.mode == 0 || (t.mode == 1 && (t.ty == 8 || t.ty == 0x0A))) && ((t.ty != 1 && t.ty != 2) || decide (t.param0 ≤ 63)) &&
    ((t.ty != 9 && t.ty != 0x0A) || (1 ≤ t.param1 && decide (t.param1 ≤ 255)))

/-- No reserved value in stages, connections or the memory plan. -/
def entriesOk (img : List Byte) : Bool :=
  let st := splitBytes 64 (sectionOf img 2)
  ((st.zip (List.range st.length)).all fun e =>
    let t := parseStage e.1
    1 ≤ t.ty && t.ty ≤ 0x13 && t.role ≤ 15 && t.index == e.2 && leAt e.1 10 1 / 4 % 2 == 0 && t.epi ≤ 3 && t.pool ≤ 2 && paramsOk t &&
      zeros e.1 44 20) &&
    ((splitBytes 16 (sectionOf img 3)).all fun b => leAt b 2 1 == 0 && leAt b 3 1 ≤ 1 && leAt b 6 1 / 16 == 0 && zeros b 7 1 && zeros b 12 4) &&
    ((splitBytes 32 (sectionOf img 4)).all fun b =>
      leAt b 3 1 ≤ 2 && leAt b 7 1 ≤ 2 && leAt b 6 1 / 16 == 0 && zeros b 13 3 && zeros b 21 3) &&
    ((splitBytes 16 (sectionOf img 7)).all fun b => zeros b 12 4)

/-- Bytes of SOURCE 1 regions in increasing REGION order, each with its start in CONSTANTS. -/
def constantPlan (rs : List Region) : List (Region × Nat) :=
  let xs := (rs.filter fun r => r.source == 1).mergeSort fun a b => decide (a.region ≤ b.region)
  (xs.zip (List.range xs.length)).map fun e => (e.1, ((xs.take e.2).map (·.bytes)).sum)

/-- ROLES is the number of roles that stages name, and the role map holds roles or 255 (Tables 9.1, 9.2; log 96). -/
def rolesOk (i : Image) (roles : Nat) : Bool :=
  (i.stages.map (·.role)).eraseDups.length == roles && i.roleMap.all fun r => decide (r ≤ 15) || r == 255

/-- Test 2 (R186, R187, R294). -/
def formatOk (s : State) (n : Nat) (img : List Byte) : Bool :=
  let words := (rd s (wJob n + 16)).toNat
  let i := parseImage img
  let ext := leAt i.colo 8 1 * leAt i.colo 9 1 * leAt i.colo 10 1
  let batchOk := if i.stages.any fun t => t.ty == 0x0F then decide (1 ≤ i.maxBatch) && decide (i.maxBatch ≤ 1048576)
    else decide (i.maxBatch ≤ 1048576)
  decide (words ≤ 268435456) && leAt img 8 4 == words && slice img 0 4 == [0x50, 0x47, 0x54, 0x48] && leAt img 4 2 == 1 &&
    decide (leAt img 12 2 ≤ 1024) && decide (leAt img 14 1 ≤ 16) && zeros img 28 36 && directoryOk img && entriesOk img && batchOk &&
    (i.stages.isEmpty || i.roleMap.length == 2 * ext) && rolesOk i (leAt img 14 1) &&
    (sectionOf img 9).length == ((i.regions.filter fun r => r.source == 1).map (·.bytes)).sum &&
    loadAreaOk s ((rd s (wJob n + 8)).toNat + fget s (wJob n + 12) 7 0 * 2 ^ 32) words

/-- The quire's extents and ranks match the colophon section (test 5). -/
def quireMatches (s : State) (n : Nat) (i : Image) : Bool :=
  quireValid s n && leAt i.colo 8 1 == blockExtent s n 0 && leAt i.colo 9 1 == blockExtent s n 1 && leAt i.colo 10 1 == blockExtent s n 2 &&
    leAt i.colo 4 4 == ranksM1 s n + 1

/-- Test 6: the COLOPHON sectionOfs fields. -/
def colophonOk (i : Image) : Bool :=
  decide (leAt i.colo 0 1 ≤ 1) && decide (leAt i.colo 1 1 ≤ 1) && zeros i.colo 2 2 && zeros i.colo 11 1 && zeros i.colo 44 20 &&
    slice i.colo 12 32 == shake256 (sectionOf i.bytes 6) 32

/-- JOB_FW_EXPECT, byte 0 in w12 [7:0]. -/
def fwExpect (s : State) (n : Nat) : List Byte := ((List.range 8).map fun j => leBytes 4 (rd s (wJob n + 48 + 4 * j)).toNat).flatten

/-! ## Test 8: formats (R4, R76, Table 4.7, R179, R182) -/

def floatSum (c : Nat) : Bool := 1 ≤ c && c ≤ 5
def intSum (c : Nat) : Bool := c == 6 || c == 7
/-- Formats of a sum (Table 4.7), `stage` at a stage output. -/
def sumFormats (inC outC : Nat) (stage : Bool) : Bool :=
  (floatSum inC && (floatSum outC || outC == 12 || (stage && outC == 11))) || (intSum inC && intSum outC)

/-- Output formats of press products (Table 8.8). -/
def pressFormats (float : Bool) (out : Nat) : Bool :=
  if float then floatSum out || out == 11 || out == 12 else out == 6 || out == 7 || out == 1 || out == 2 || out == 3 || out == 11 || out == 12

/-- Epilogue rules of R179 and R181 with operand formats of the ADD and of the MUL. -/
def epilogueFormats (float : Bool) (epi add mul out : Nat) : Bool :=
  (!(epi == 1 || epi == 3) || (if float then floatSum add else intSum add)) &&
    (!(epi == 2 || epi == 3) || ((mul == 1 || mul == 2 || mul == 3) && out != 6 && out != 7 && out != 12))

/-- A format code is one of Table 4.1. -/
def codeOk (c : Nat) : Bool := decide (c ≤ 12)

/-- Format of a region of the role, or the code given. -/
def regFmt (i : Image) (role reg dflt : Nat) : Nat :=
  match i.regions.find? fun r => r.region == reg && r.role == role with
  | some r => r.fmt
  | none => dflt

/-- Format of a MATMUL's operand B: that of the region REG_B names, else of input 1. -/
def imageFmtB (i : Image) (t : Stage) : Nat := if t.regB == 0xFFFF then t.in1Fmt else regFmt i t.role t.regB t.in1Fmt

/-- Kind of the FRICK elements that stage `g` puts out: true for float ricks, none where no entry fixes it (R103). -/
def frickKind (i : Image) : Nat → Nat → Option Bool
  | 0, _ => none
  | fuel + 1, g =>
    let src := (i.conns.find? fun c => c.dst == g && c.toPort == 0).map (·.src)
    let up := fun (_ : Unit) => match src with
      | some p => frickKind i fuel p
      | none => none
    match i.stages[g]? with
    | none => none
    | some t =>
      match t.ty with
      | 4 => some true
      | 7 => some (isFloat t.in0Fmt)
      | 8 => if t.in0Fmt == 12 then up () else some (isFloat t.in0Fmt)
      | 9 => some (isFloat (regFmt i t.role t.regA 0))
      | 0x0F => up ()
      | 0x12 => up ()
      | 0x10 => frickKind i fuel t.param0
      | _ => none

/-- The kinds that a stage's input 0 may hold: its format's own, or its FRICK elements'. -/
def inputKinds (i : Image) (t : Stage) : List Bool :=
  if t.in0Fmt == 12 then
    match (i.conns.find? fun c => c.dst == t.index && c.toPort == 0).map (·.src) with
    | some p => (match frickKind i (i.stages.length + 1) p with
      | some k => [k]
      | none => [true, false])
    | none => [true, false]
  else if floatSum t.in0Fmt then [true] else if intSum t.in0Fmt then [false] else []

/-- A stage's formats are permitted. -/
def stageFormats (i : Image) (t : Stage) : Bool :=
  let aux := regFmt i t.role t.regAux t.auxFmt
  let mul := if t.epi == 3 then regFmt i t.role t.regA 0 else aux
  let b := imageFmtB i t
  let tab := regFmt i t.role t.regA 0
  let isInt := fun (c : Nat) => c == 7 || c == 8 || c == 9 || c == 10
  let isF8 := fun (c : Nat) => c == 4 || c == 5
  let own :=
    match t.ty with
    | 5 => t.in0Fmt == 12 && t.outFmt != 12 && (inputKinds i t).any fun fl => pressFormats fl t.outFmt
    | 6 => 1 ≤ t.in0Fmt && t.in0Fmt ≤ 10 && 1 ≤ t.outFmt && t.outFmt ≤ 10
    | 7 => ((isInt t.in0Fmt && isInt b) || (isF8 t.in0Fmt && isF8 b)) && pressFormats (isF8 t.in0Fmt) t.outFmt &&
        epilogueFormats (isF8 t.in0Fmt) t.epi aux mul t.outFmt
    | 8 =>
      (inputKinds i t).any fun fl => pressFormats fl t.outFmt && epilogueFormats fl t.epi aux mul t.outFmt
    | 9 => if t.pool == 2 then 1 ≤ tab && tab ≤ 10 && 1 ≤ t.outFmt && t.outFmt ≤ 10 else sumFormats tab t.outFmt true
    | 0x0A => (t.pool != 1 || floatSum t.in1Fmt) && if t.mode == 1 then (floatSum t.in1Fmt && floatSum tab) || (intSum t.in1Fmt && intSum tab) else sumFormats t.in1Fmt t.outFmt true
    | 0x0D => (t.in0Fmt == 1 || t.in0Fmt == 2 || t.in0Fmt == 3 || t.in0Fmt == 12) && t.outFmt == 11
    | 0x0E => t.in0Fmt == 11 && (t.outFmt == 1 || t.outFmt == 2 || t.outFmt == 3)
    | _ => true
  codeOk t.outFmt && codeOk t.in0Fmt && codeOk t.auxFmt && codeOk t.in1Fmt && own

/-- Formats of a collective by Table 4.7: sums, a BARRIER's among them, minima and maxima; movement is left to R147. -/
def collectiveFormats (d : Desc) : Bool :=
  if d.op == 0x15 || isSum d.op then sumFormats d.inFmt d.outFmt false && d.inFmt ≤ 7
  else if isReduction d.op then 1 ≤ d.inFmt && d.inFmt ≤ 7 && d.outFmt == d.inFmt
  else true

/-- Test 8. -/
def formatsOk (i : Image) : Bool :=
  i.stages.all (fun t => stageFormats i t) && i.conns.all (fun c => codeOk c.fmt) && i.regions.all (fun r => codeOk r.fmt) &&
    i.ds.all fun d => codeOk d.inFmt && codeOk d.outFmt && collectiveFormats d

/-! ## Test 9: descriptors and triggers (R147, R157) -/

/-- A descriptor of an image may be loaded (R147). -/
def descOk (s : State) (n : Nat) (w : List Word) : Bool :=
  let d := parseDesc w
  let m := d.members
  let fmts :=
    if d.op == 0x15 then d.inFmt == 7 && d.outFmt == 7 && d.count == 1
    else if isReduction d.op then collectiveFormats d
    else d.inFmt == d.outFmt && d.inFmt ≤ 7
  let unit := if d.inFmt == 0 then 1 else elemBytes d.inFmt
  let outUnit := if d.outFmt == 0 then 1 else offsetUnit d
  let scatters := 7 ≤ d.op && d.op ≤ 9
  let outBytes := (if d.op == 0x10 then m * d.count else if scatters then d.count / m else d.count) * outUnit
  let l := d.seqLenM1 + 1
  knownOp d.op && fmts && d.stride != 0 && decide (d.rankFirst + d.membersM1 * d.stride ≤ ranksM1 s n) &&
    (!(d.op == 4 || d.op == 5 || d.op == 6 || d.op == 0x11) || (List.range m).any fun i => d.rank i == d.root) &&
    (!(scatters || d.op == 0x14) || d.count % m == 0) && (d.op != 0x14 || decide (m ≤ 2048)) && (d.op != 0x34 || decide (m ≤ 1024)) &&
    decide (d.count * unit ≤ 2 ^ 32) && decide (outBytes ≤ 2 ^ 32) &&
    (if isReduction d.op then 8 ≤ d.w && d.w ≤ 1024 else d.w == 0) && d.quire == quireId s n &&
    (!(d.op == 0x12 || d.op == 0x13) || (l % m == 0 && d.count % (l / m) == 0 && decide (l / m ≤ d.count))) &&
    decide (d.doneCtr < 16384) && decide (d.failCtr < 16384) && decide (d.chunkCtr < 16384) && dcrcOk w

/-- Fields of an image trigger (Table 7.3). -/
def trAction (w : List Word) : Nat := bitsOf (w.getD 0 0) 27 25
def trCounter (w : List Word) : Nat := bitsOf (w.getD 0 0) 14 0
def trArgA (w : List Word) : Nat := (w.getD 4 0).toNat
def trDie (w : List Word) : Nat := bitsOf (w.getD 7 0) 2 0

/-- A trigger of an image may be loaded (R157), cycles excepted. Its number is the one it is bound to, the lowest free of the die that w7
[2:0] names (R188), so that it always lies on that die (log 95). -/
def trigOk (w : List Word) : Bool :=
  1 ≤ trAction w && trAction w ≤ 3 && !(wbit (w.getD 0 0) 24 && w.getD 3 0 == 0) &&
    (trAction w != 1 || (1 ≤ trArgA w && trArgA w ≤ 4096)) && decide (trCounter w < 16384) && (trAction w != 2 || decide (trArgA w % 32768 < 16384))

/-! ## Test 11: the stage graph -/

/-- Input ports of a stage type; a MATMUL with REG_B has one. -/
def portsOf (t : Stage) : Nat :=
  match t.ty with
  | 1 => 0
  | 7 => if t.regB == 0xFFFF then 2 else 1
  | 0x0A => 2
  | 0x11 => 0
  | 0x13 => 0
  | _ => 1

/-- The stage has an output port. -/
def hasOut (t : Stage) : Bool := t.ty != 2 && t.ty != 0x13

/-- Nodes from which no cycle can be reached, by repeated removal: nodes all of whose producers are removed. -/
def drainGraph (edges : List (Nat × Nat)) : Nat → List Nat → List Nat
  | 0, left => left
  | fuel + 1, left =>
    let next := left.filter fun v => edges.any fun e => e.2 == v && left.contains e.1
    if next.length == left.length then left else drainGraph edges fuel next

/-- No cycle among the nodes. -/
def acyclic (nodes : List Nat) (edges : List (Nat × Nat)) : Bool := (drainGraph edges (nodes.length + 1) nodes).isEmpty

/-- The operation of a member stage's descriptor fits the stage (Table 9.6). -/
def memberOpOk (t : Stage) (op : Nat) : Bool :=
  match t.ty with
  | 3 => op == 0x10 || op == 0x30 || op == 0x11
  | 4 => (1 ≤ op && op ≤ 9) || (0x27 ≤ op && op ≤ 0x29)
  | 0x0B => op == 0x13 || op == 0x14 || op == 0x34
  | 0x0C => op == 0x12
  | 0x11 => isVar op
  | 0x13 => op == 0x15
  | _ => true

/-- Test 11. -/
def structureOk (i : Image) : Bool :=
  let g := i.stages
  let at' := fun (k : Nat) => g[k]?
  let connOk := i.conns.all fun c =>
    match at' c.src, at' c.dst with
    | some a, some b => a.role == b.role && hasOut a && decide (c.toPort < portsOf b)
    | _, _ => false
  let fed := (List.range g.length).all fun k =>
    match at' k with
    | some t => (List.range (portsOf t)).all fun p => (i.conns.filter fun c => c.dst == k && c.toPort == p).length == 1
    | none => true
  let free := fun (k : Nat) =>
    match at' k with
    | some t => t.ty == 0x0F || t.ty == 0x10
    | none => false
  let edges := (i.conns.filter fun c => !free c.src && !free c.dst).map fun c => (c.src, c.dst)
  let roles := (g.map (·.role)).eraseDups
  let perRole := roles.all fun r =>
    let ts := g.filter fun t => t.role == r
    (ts.filter fun t => t.ty == 0x11).length == 1 &&
      (!(ts.any fun t => !(inPlaceRegions t).isEmpty) || ts.any fun t => t.ty == 0x13 && t.param0 % 2 == 1)
  let stageOk := g.all fun t =>
    (if isMemberStage t then
       (match i.ds[t.desc]? with
        | some d => memberOpOk t d.op
        | none => false)
     else true) &&
      (t.ty != 0x10 ||
        (match at' t.param0 with
         | some f => f.role == t.role && (f.ty == 5 || f.ty == 6 || f.ty == 7 || f.ty == 8 || f.ty == 0x0D || f.ty == 0x0E)
         | none => false)) &&
      (t.ty != 7 || (1 ≤ t.k && decide (t.k ≤ 2 ^ 24)))
  connOk && fed && acyclic (List.range g.length) edges && perRole && stageOk

/-! ## Test 12: tiles and regions (R95, R198) -/

/-- Tiles of a stage. -/
def stageTiles (t : Stage) : List Nat := (List.range t.tiles).map fun k => t.tileFirst + k

/-- Stages of a role. -/
def roleStages (i : Image) (role : Nat) : List Stage := i.stages.filter fun t => t.role == role
/-- Regions of a role. -/
def roleRegions (i : Image) (role : Nat) : List Region := i.regions.filter fun r => r.role == role

/-- Tiles that a role's stages take, in increasing order. -/
def roleTiles (i : Image) (role : Nat) : List Nat :=
  (List.range 512).filter fun k => (roleStages i role).any fun t => decide (t.tileFirst ≤ k) && decide (k < t.tileFirst + t.tiles)

/-- The stage holds a press: a MATMUL, or a RECOMPUTE of one. -/
def usesPress (i : Image) (t : Stage) : Bool :=
  t.ty == 7 || (t.ty == 0x10 && (match i.stages[t.param0]? with
    | some f => f.ty == 7
    | none => false))

/-- Test 12. -/
def placementOk (i : Image) (role : Nat) : Bool :=
  let ts := roleStages i role
  let rs := roleRegions i role
  let tileOk := fun (k : Nat) =>
    let here := ts.filter fun t => decide (t.tileFirst ≤ k) && decide (k < t.tileFirst + t.tiles)
    decide (here.length ≤ 4) && decide ((here.filter fun t => usesPress i t).length ≤ 1) &&
      decide ((here.filter fun t => t.ty == 9 || t.ty == 0x0A).length ≤ 1)
  let regOk := fun (r : Region) =>
    let blk := if fmtBits r.fmt == 4 then 1024 else 32 * 32 * fmtBits r.fmt / 8
    (r.rows == 0 && r.cols == 0 || (r.offset % blk == 0 && decide (tensorBytes r.fmt r.rows r.cols ≤ r.bytes))) &&
      (match r.place with
       | 0 => decide (r.at' < 512) && decide (r.offset + r.bytes ≤ 1507328)
       | 1 => decide (r.at' < 8) && decide (r.offset + r.bytes ≤ 3221225472)
       | _ => decide (r.at' < 4) && decide (r.offset + r.bytes ≤ 2 ^ 37))
  let named := ts.all fun t => ([t.regA, t.regB, t.regOut, t.regAux].filter (· != 0xFFFF)).all fun q => rs.any fun r => r.region == q
  let stashOk := (i.stashes.filter fun h => match i.stages[h.stage]? with
      | some t => t.role == role
      | none => true).all fun h =>
    (match i.stages[h.stage]? with
     | some t => t.ty == 0x0F && t.param0 == h.stash
     | none => false) && 1 ≤ h.depth && h.depth ≤ 16 &&
      rs.any fun r => r.region == h.region && r.place != 0 && decide (h.depth * i.maxBatch * h.perSample ≤ r.bytes)
  ts.all (fun t => 1 ≤ t.tiles && decide (t.tileFirst + t.tiles ≤ 512)) && (List.range 512).all tileOk && rs.all regOk &&
    (rs.map (·.region)).eraseDups.length == rs.length && named && stashOk

/-! ## Tests 14 and 15 -/

/-- Test 14: no cycle of counters through ADD actions (R157). -/
def triggersAcyclic (i : Image) : Bool :=
  let es := (i.trigs.filter fun w => trAction w == 2).map fun w => (trCounter w, trArgA w % 32768)
  acyclic ((es.map (·.1) ++ es.map (·.2)).eraseDups) es

/-- Test 15: permutation entries in range, VALID and a bijection (R153). -/
def permsOk (s : State) (i : Image) : Bool :=
  (i.ds.filter fun d => d.op == 0x13).all fun d =>
    let l := d.seqLenM1 + 1
    decide (d.permBase + l ≤ 4194304) &&
      (List.range l).all (fun p => bit s (wPerm (d.permBase + p)) 31 && decide (permDest s (d.permBase + p) < l)) &&
      ((List.range l).map fun p => permDest s (d.permBase + p)).eraseDups.length == l

/-! ## Resources (tests 18 to 29) -/

/-- Loaded jobs other than subscriber `n`'s. -/
def otherJobs (s : State) (n : Nat) : List JobSt := s.jobs.filterMap fun e => if e.1 == n then none else e.2

/-- The distinct job-relative numbers in a list, in increasing order. -/
def distinct (xs : List Nat) : List Nat := xs.eraseDups.mergeSort

/-- Engines that an image names (R188). -/
def enginesNamed (i : Image) : List Nat := distinct (i.ds.map (·.engine))

/-- Event counters that an image names. -/
def countersNamed (i : Image) : List Nat :=
  distinct ((i.ds.map fun d => (if d.doneEn then [d.doneCtr] else []) ++ (if d.failEn then [d.failCtr] else []) ++
      (if d.chunkEn then [d.chunkCtr] else [])).flatten ++
    (i.trigs.map fun w => trCounter w :: (if trAction w == 2 then [trArgA w % 32768] else [])).flatten)

/-- The lowest `k` numbers in [lo, hi) that are not taken. -/
def lowestFree (lo hi : Nat) (taken : List Nat) (k : Nat) : List Nat := (((List.range (hi - lo)).map (lo + ·)).filter fun x => !taken.contains x).take k

/-- Streams of a switch for an image (R426, Streams of chapter 6): kind and far end. -/
def streamsNeeded (s : State) (n : Nat) (i : Image) (role : Nat) : List (StreamKind × BitVec 24) :=
  let mine := i.ds.filter fun d => d.plane == ownPlane s && expectedAt s n d (ownIndex s) != 0
  let ofDesc := fun (d : Desc) =>
    let ms := (localMembers s n d).filterMap fun m => memberAddr s n d m
    let ns := ((parentOf s n (ownIndex s)).toList ++ (childrenOf s n d).map (·.1)).map fun c => switchAddr (ownPlane s) c
    let vs := if isDirect d.op then ((blockIndices s n).filter fun u =>
        u != ownIndex s && (List.range d.members).any fun m => memberSwitch s n d m == u).map fun u => switchAddr (ownPlane s) u else []
    (ms.map fun a => (StreamKind.fromMember, a)) ++ (ms.map fun a => (StreamKind.toMember, a)) ++
      (ns.map fun a => (StreamKind.fromTree, a)) ++ (ns.map fun a => (StreamKind.toTree, a)) ++
      (vs.map fun a => (StreamKind.fromSwitch, a)) ++ (vs.map fun a => (StreamKind.toSwitch, a))
  let xchg := (roleStages i role).find? fun t => t.ty == 0x11
  let locals := match xchg with
    | some t => (match i.ds[t.desc]? with
      | some d => (localMembers s n d).filterMap fun m => memberAddr s n d m
      | none => [])
    | none => []
  let stages := ((List.range i.stages.length).zip i.stages).filter fun e => e.2.role == role
  let rs := (stages.map fun e =>
    if e.2.ty == 1 then locals.map fun a => (StreamKind.recv e.1, a)
    else if e.2.ty == 2 then [(StreamKind.send e.1, (rankWord s n e.2.param1).extractLsb' 0 24)]
    else []).flatten
  (mine.map ofDesc).flatten.eraseDups ++ rs

/-- R134's reservation per slot per die in KiB (Table 6.10): W and r over all the job's descriptors, m and c counted at this switch. -/
def reservation (s : State) (n : Nat) (i : Image) : Nat :=
  let here := i.ds.filter fun d => d.plane == ownPlane s && expectedAt s n d (ownIndex s) != 0
  let bigW := (i.ds.map (·.w)).foldl Nat.max 0
  let w := ceilDiv bigW 8
  let m := (here.map fun d => (localMembers s n d).length).foldl Nat.max 0
  let c := (here.map fun d => (childrenOf s n d).length).foldl Nat.max 0
  let r := ((i.ds.filter sealsHere).map fun d => chunkElems d * resultUnit d).foldl Nat.max 0
  w * 192 + w * (m * 4 + c * 272) + 2 * w * 272 +
    (if here.any fun d => sealsHere d && isRoot s n d then ceilDiv (ceilDiv (bigW * r + 2 * (65536 + r)) 8) 65536 * 64 else 0)

/-- Frames of `size` bytes that regions at one place need (log 27). -/
def framesNeeded (rs : List Region) (size : Nat) : Nat :=
  Nat.max ((rs.map fun r => ceilDiv r.bytes size).sum) (ceilDiv ((rs.map fun r => r.offset + r.bytes).foldl Nat.max 0) size)

/-- Regions of a role at a place. -/
def regionsAt (i : Image) (role place where' : Nat) : List Region :=
  (roleRegions i role).filter fun r => r.place == place && r.at' == where'

/-- Bytes that a tile's regions, connection buffers and press partials take (test 19). -/
def tileBytes (i : Image) (role tile : Nat) : Nat :=
  let here := fun (t : Stage) => decide (t.tileFirst ≤ tile) && decide (tile < t.tileFirst + t.tiles)
  let regs := ((regionsAt i role 0 tile).map (·.bytes)).sum
  let bufs := (i.conns.map fun c =>
    match i.stages[c.dst]? with
    | some t => if t.role == role && here t then ceilDiv c.bufBytes t.tiles else 0
    | none => 0).sum
  let parts := ((roleStages i role).map fun t =>
    let f := if t.ty == 7 then some t else if t.ty == 0x10 then (i.stages[t.param0]?).filter fun f => f.ty == 7 else none
    match f with
    | some f =>
      if !here t || f.k ≤ 512 then 0
      else if f.in0Fmt == 4 || f.in0Fmt == 5 then 20480
      else if fmtBits f.in0Fmt == 4 && fmtBits (imageFmtB i f) == 4 && !f.aT && !f.bT then 12288 else 6144
    | none => 0).sum
  regs + bufs + parts

/-- The start of the lowest run of `l` free descriptor entries, and the longest free run (R163). -/
def descRun (taken : List (Nat × Nat)) (l : Nat) : Option Nat × Nat :=
  let starts := (0 :: taken.map fun r => r.1 + r.2).mergeSort
  let room := fun (a : Nat) =>
    if taken.any fun r => r.1 ≤ a && a < r.1 + r.2 then 0
    else (taken.filter fun r => decide (a < r.1)).foldl (fun m r => Nat.min m (r.1 - a)) (65536 - a)
  (starts.find? fun a => decide (l ≤ room a), (starts.map room).foldl Nat.max 0)

/-- Pairs (port, class) that bound queues go to (R244). -/
def queuePairs (s : State) (n : Nat) : List (Nat × Nat) :=
  let c0 := (jobClass s n).toNat
  let ports := ((List.range 128).filter fun p => inLeafMask s n p) ++ (List.range 32).map (128 + ·)
  ((c0 :: (List.range 7).filter (· != c0)).map fun c => ports.map fun p => (p, c)).flatten

/-- What a job will hold. -/
structure Grant where
  role : Nat
  tiles : List Nat
  frames : List (Nat × Nat)
  kib : Nat
  streams : List (Nat × StreamKind × BitVec 24)
  queues : List (Nat × Nat × Nat)
  engines : List Nat
  counters : List Nat
  triggers : List Nat
  descBase : Nat
  perms : Nat
  deriving DecidableEq, Repr

/-- A refusal: REASON, RESOURCE, NEED, AVAIL. -/
abbrev Deny := Nat × Nat × Nat × Nat

/-- A test: the refusal where it fails. -/
def need (ok : Bool) (d : Deny) : Except Deny Unit := if ok then .ok () else .error d

/-- Role of this switch in an image (Table 9.2). -/
def ownRole (s : State) (n : Nat) (i : Image) : Nat :=
  let e := fun a => blockExtent s n a
  if i.stages.isEmpty then 255
  else i.roleMap.getD (ownPlane s * (e 0 * e 1 * e 2) + (blockOff s n (ownIndex s) 0 * e 1 + blockOff s n (ownIndex s) 1) * e 2 +
    blockOff s n (ownIndex s) 2) 255

/-- The first memory unit whose regions do not fit: needed and available KiB. -/
def shortUnit (i : Image) (role place size : Nat) (free : Nat → Nat) (units : List Nat) : Option (Nat × Nat) :=
  (units.find? fun u => decide (free u < framesNeeded (regionsAt i role place u) size)).map fun u =>
    (framesNeeded (regionsAt i role place u) size * size / 1024, free u * size / 1024)

/-- Triggers bound die by die: for each of the image's triggers, the lowest free trigger of its die. -/
def bindTriggers (taken : List Nat) : List (List Word) → Except Deny (List Nat)
  | [] => .ok []
  | w :: ws =>
    match findUp (fun t => !taken.contains t) 4096 (4096 * trDie w) with
    | none => .error (0x13, 8, 0, 0)
    | some t =>
      match bindTriggers (t :: taken) ws with
      | .ok ts => .ok (t :: ts)
      | .error d => .error d

/-- Tests 18 to 29 and the resources they grant. -/
def resourceTests (s : State) (n : Nat) (i : Image) (role : Nat) : Except Deny Grant :=
  let js := otherJobs s n
  let tiles := roleTiles i role
  let freeTiles := tiles.filter fun t => !(js.any fun j => j.tiles.contains t) && !s.faults.tilesWithdrawn.contains t
  let badTile := (List.range 512).find? fun t => decide (1507328 < tileBytes i role t)
  let q := slotQ s n
  let kib := reservation s n i * q
  let badDie := (List.range 8).find? fun d => decide (spill64 s d * 65536 < kib + (js.map (·.reservedKib)).sum)
  let ctx := streamsNeeded s n i role
  let ctxUsed := (s.streams.filter fun e => e.2.isSome).map (·.1)
  let qUsed := (js.map fun j => j.queues.length).sum
  let trUsed := (js.map (·.triggers)).flatten
  let badTr := (List.range 8).find? fun d =>
    decide (4096 - (trUsed.filter fun t => t / 4096 == d).length < (i.trigs.filter fun w => trDie w == d).length)
  let ctrs := countersNamed i
  let ctrUsed := (js.map fun j => j.counters.length).sum
  let engs := enginesNamed i
  let engUsed := (js.map (·.engines)).flatten
  let run := descRun ((js.filter fun j => j.descLen != 0).map fun j => (j.descBase, j.descLen)) i.descs.length
  let permNeed := ((i.ds.filter fun d => d.op == 0x13).map fun d => d.seqLenM1 + 1).sum
  let permUsed := (js.map (·.perms)).sum
  do
    need (freeTiles.length == tiles.length) (0x13, 1, tiles.length, freeTiles.length)
    need badTile.isNone (0x13, 2, ceilDiv (tileBytes i role (badTile.getD 0)) 1024, 1472)
    match shortUnit i role 1 262144 (fun d => (stackFrames s d tiles).length) (List.range 8) with
    | some e => .error (0x13, 3, e.1, e.2)
    | none => .ok ()
    need badDie.isNone (0x13, 4, kib, spill64 s (badDie.getD 0) * 65536 - (js.map (·.reservedKib)).sum)
    match shortUnit i role 2 (2 ^ 21) (fun j => (lpddrFrames s j).length) (List.range 4) with
    | some e => .error (0x13, 5, e.1, e.2)
    | none => .ok ()
    need (decide (ctxUsed.length + ctx.length ≤ 16384)) (0x13, 6, ctx.length, 16384 - ctxUsed.length)
    need (decide (qUsed + i.queues ≤ 6904)) (0x13, 7, i.queues, 6904 - qUsed)
    need badTr.isNone (0x13, 8, (i.trigs.filter fun w => trDie w == badTr.getD 0).length,
      4096 - (trUsed.filter fun t => t / 4096 == badTr.getD 0).length)
    need (decide (ctrUsed + ctrs.length ≤ 16384)) (0x13, 9, ctrs.length, 16384 - ctrUsed)
    need (decide (engUsed.length + engs.length ≤ 64)) (0x13, 10, engs.length, 64 - engUsed.length)
    need run.1.isSome (0x13, 11, i.descs.length, run.2)
    need (decide (permUsed + permNeed ≤ 4194304)) (0x13, 12, permNeed, 4194304 - permUsed)
    let trs ← bindTriggers trUsed i.trigs
    let qs := (queuePairs s n).take i.queues
    .ok { role := role, tiles := tiles,
          frames := ((List.range 8).map fun d =>
              ((stackFrames s d tiles).take (framesNeeded (regionsAt i role 1 d) 262144)).map fun f => (d, f)).flatten ++
            ((List.range 4).map fun j => ((lpddrFrames s j).take (framesNeeded (regionsAt i role 2 j) (2 ^ 21))).map fun f => (8 + j, f)).flatten,
          kib := kib, streams := (lowestFree 0 16384 ctxUsed ctx.length).zip ctx,
          queues := (lowestFree 1288 8192 ((js.map (·.queues)).flatten) qs.length).zip qs,
          engines := lowestFree 0 64 engUsed engs.length, counters := lowestFree 16384 32768 ((js.map (·.counters)).flatten) ctrs.length,
          triggers := trs, descBase := run.1.getD 0, perms := permNeed }

/-- Tests 1 to 4 of a load for a subscriber that holds a job already end it at test 4 at the latest (R201). -/
def earlyTests (s : State) (n : Nat) (img : List Byte) : Except Deny Unit := do
  need (signatureOk s img) (1, 0, 0, 0)
  need (formatOk s n img) (2, 0, 0, 0)
  need (leAt img 6 2 == 768) (3, 0, 0, 0)

/-- The image bytes that the job words name. -/
def imageBytes (s : State) (n : Nat) : List Byte :=
  memBytes s ((rd s (wJob n + 8)).toNat + fget s (wJob n + 12) 7 0 * 2 ^ 32) (rd s (wJob n + 16)).toNat

/-- The tests of Table 9.7, in order. -/
def loadTests (s : State) (n : Nat) : Except Deny (Image × Grant) := do
  let img := imageBytes s n
  earlyTests s n img
  let i := parseImage img
  need (getJob s n).isNone (4, 0, 0, 0)
  need (quireMatches s n i) (5, 0, 0, 0)
  need (colophonOk i) (6, 0, 0, 0)
  need (fwExpect s n == s.fw.runningDigest) (7, 0, 0, 0)
  need (formatsOk i) (8, 0, 0, 0)
  need (i.descs.all (fun w => descOk s n w) && decide (i.descs.length ≤ 8192) && i.trigs.all trigOk) (9, 0, 0, 0)
  need (rd s (wJob n + 4) == rd s (pGlb + 0x50)) (0x0A, 0, 0, 0)
  need (!blockAbsent s n) (0x0B, 0, 0, 0)
  need (structureOk i) (0x0C, 0, 0, 0)
  let role := ownRole s n i
  need (placementOk i role) (0x0D, 0, 0, 0)
  need (decide (1 ≤ i.rickBound) && decide (i.rickBound ≤ 2 ^ 31)) (0x0E, 0, 0, 0)
  need (triggersAcyclic i) (0x0F, 0, 0, 0)
  need (permsOk s i) (0x10, 0, 0, 0)
  need (i.descs.isEmpty || slotQ s n != 0) (0x11, 0, 0, 0)
  need (decide (i.concurrency ≤ slotQ s n) && decide (i.concurrency ≤ 4096)) (0x12, 0, 0, 0)
  let g ← resourceTests s n i role
  return (i, g)

end Sys2Proof.Machine
end

