-- ==== Sys2Proof/Machine/Jobs.lean ====
section
/-! DEFINITION. Loading and unloading a job (R188, R201, Table 9.9), its colophon (R206), and batches of seal records (R218 to
R220). The write engine calls the actions that job words and seal words start. -/
namespace Sys2Proof.Machine

open Sys2Proof

/-! ## Job words (Table 9.11) -/

/-- STATE of the job words; its change raises the subscriber's JOB event. -/
def setJobState (s : State) (n st : Nat) : State :=
  if jobState s n == st then s else raiseJob (fset s (wJob n + 20) 2 0 st) n

/-- REASON, RESOURCE, NEED and AVAIL. -/
def setReason (s : State) (n : Nat) (d : Deny) : State :=
  let s := fset (fset s (wJob n + 20) 15 8 d.1) (wJob n + 20) 23 16 d.2.1
  wr (wr s (wJob n + 24) (BitVec.ofNat 32 d.2.2.1)) (wJob n + 28) (BitVec.ofNat 32 d.2.2.2)

/-- A LOAD for a subscriber that holds a job, or whose job is loading or unloading, ends at test 4 at the latest (R201). -/
def refuseLoad (s : State) (n role session : Nat) : State :=
  let d : Deny := match earlyTests s n (imageBytes s n) with
    | .error e => e
    | .ok _ => (4, 0, 0, 0)
  let s := setReason s n d
  raiseJob (auditAdd s 6 role d.1 n session (List.replicate 32 0) []) n

/-- A LOAD is served: the load begins, or ends at test 4. -/
def serveLoad (s : State) (n role session : Nat) : State :=
  let st := jobState s n
  if st == 1 || st == 2 || st == 3 then refuseLoad s n role session
  else setJobState { s with loads := s.loads ++ [(n, role, session)] } n 1

/-- CMD = LOAD (R200, R201): held while LPDDR6 BIST runs, else served (R385). -/
def jobLoadCmd (s : State) (n role session : Nat) : State :=
  if s.bistRunning then { s with heldReqs := s.heldReqs ++ [.load n role session] } else serveLoad s n role session

/-! ## Binding (R188) -/

/-- The device number bound to a job-relative one. -/
def bound (names devs : List Nat) (x : Nat) : Nat := devs.getD (names.idxOf x) 0

/-- A descriptor with its engine and counters bound and its DCRC recomputed (R188). -/
def bindDesc (i : Image) (g : Grant) (w : List Word) : List Word :=
  let d := parseDesc w
  let ctr := fun (en : Bool) (v : Word) (c : Nat) => if en then putBits v 14 0 (bound (countersNamed i) g.counters c) else v
  let w := w.set 0 (putBits (w.getD 0 0) 5 0 (bound (enginesNamed i) g.engines d.engine))
  let w := w.set 10 (ctr d.doneEn (w.getD 10 0) d.doneCtr)
  let w := w.set 11 (ctr d.failEn (w.getD 11 0) d.failCtr)
  let w := w.set 12 (ctr d.chunkEn (w.getD 12 0) d.chunkCtr)
  w.set 15 (BitVec.ofNat 32 (dcrcOf w))

/-- Words of a trigger as the loader writes it: ARMED while VALID (Table 7.3, R158). -/
def bindTrigger (i : Image) (g : Grant) (n : Nat) (w : List Word) : List Word :=
  let w0 := putBits (putBits (putBits (w.getD 0 0) 30 28 (if wbit (w.getD 0 0) 31 then 1 else 0)) 23 16 n) 14 0
    (bound (countersNamed i) g.counters (trCounter w))
  let w4 := if trAction w == 2 then BitVec.ofNat 32 (bound (countersNamed i) g.counters (trArgA w % 32768)) else w.getD 4 0
  [w0, w.getD 1 0, w.getD 2 0, w.getD 3 0, w4, w.getD 5 0, 0, 0]

/-- Write words from an address upwards. -/
def wrWords (s : State) (a : Nat) (ws : List Word) : State :=
  (ws.zip (List.range ws.length)).foldl (fun s w => wr s (a + 4 * w.2) w.1) s

/-- The colophon record (Table 10.1). -/
def colophonOf (s : State) (img : Image) : List Byte :=
  [0x50, 0x43, 0x4F, 0x4C] ++ leBytes 2 1 ++ leBytes 2 768 ++ leBytes 1 (fget s (pGlb + 0x40) 15 8) ++ slice img.colo 0 2 ++ [0] ++
    slice img.colo 4 7 ++ List.replicate 45 0 ++ (s.fw.runningDigest ++ List.replicate 32 0).take 32 ++ gathDigest img.bytes ++
    slice img.colo 12 32 ++ List.replicate 352 0

/-- The job's entry as it starts. -/
def jobNew (s : State) (i : Image) (g : Grant) : JobSt :=
  let col := colophonOf s i
  { stages := i.stages, conns := i.conns, regions := i.regions, stashes := i.stashes, role := g.role, roleMap := i.roleMap,
    maxBatch := i.maxBatch, rickBound := i.rickBound, alignMode := leAt i.colo 0 1, e4mode := leAt i.colo 1 1,
    descBase := g.descBase, descLen := i.descs.length, engines := g.engines, counters := g.counters, triggers := g.triggers,
    streams := g.streams.map (·.1), queues := g.queues.map (·.1), tiles := g.tiles, frames := g.frames, perms := g.perms,
    colophon := col, colophonDigest := shake256 col 32, reservedKib := g.kib, hold := [], waitPosts := [], posted := [], postFloor := 0,
    rounds := [], failed := false, steps := [], members := [], ended := [], failedSteps := [], doneSteps := [], stash := [],
    stashLost := [], unsettled := ((i.regions.filter fun r => r.role == g.role && r.source == 2).map fun r => (r.region, 0, r.bytes)),
    recvMsgs := [], digests := [], sealedLens := [], staging := [], sealWaiting := false, sealSince := 0 }

/-- Zero the memory of a region, frame by frame (SOURCE 0). -/
def zeroRegion (s : State) (j : JobSt) (r : Region) : State :=
  let size := if r.place == 0 then 1572864 else if r.place == 1 then 262144 else 2 ^ 21
  let first := r.offset / size
  (List.range (ceilDiv (r.offset + r.bytes) size - first)).foldl (fun s f =>
    let lo := Nat.max r.offset ((first + f) * size)
    let hi := Nat.min (r.offset + r.bytes) ((first + f + 1) * size)
    memZero s (regionAddr j r (lo - r.offset)) (hi - lo)) s

/-- Regions at load: SOURCE 0 zeroed, SOURCE 1 copied (Table 9.9, step 5). -/
def setUpRegions (s : State) (j : JobSt) (i : Image) : State :=
  let mine := j.regions.filter fun r => r.role == j.role
  let s := (mine.filter fun r => r.source == 0).foldl (fun s r => zeroRegion s j r) s
  ((constantPlan i.regions).filter fun e => e.1.role == j.role).foldl (fun s e =>
    regionWrite s j e.1 0 (slice (sectionOf i.bytes 9) e.2 e.1.bytes)) s

/-- The registers and tables that binding writes. -/
def bindTables (s : State) (n : Nat) (i : Image) (g : Grant) : State :=
  let s := (i.descs.zip (List.range i.descs.length)).foldl (fun s d => wrWords s (wDesc (g.descBase + d.2)) (bindDesc i g d.1)) s
  let s := wr s (wDescBind n) (BitVec.ofNat 32 (if i.descs.isEmpty then 0 else (i.descs.length - 1) * 65536 + g.descBase))
  let s := (i.trigs.zip g.triggers).foldl (fun s t => wrWords s (wTrig t.2) (bindTrigger i g n t.1)) s
  let s := g.counters.foldl (fun s c => setEvCtr s c 0) s
  let s := g.engines.foldl (fun s e => wr s (pColl e + 0x40) (BitVec.ofNat 32 (2 ^ 31 + n))) s
  let s := g.queues.foldl (fun s q => wr s (wQueue q.1) (boundWord q.2.1 n q.2.2)) s
  let s := g.streams.foldl (fun s c => setStream (setEvCtr s c.1 0) c.1 (some (streamNew n c.2.1 c.2.2))) s
  let s := if i.descs.isEmpty then s
    else forUp (fun s k => wr s (wSlot (slotBase s n + k)) (BitVec.ofNat 32 (n * 256 + 1))) (slotQ s n) 0 s
  regsReset (regsReset s (wStage n 0) (wStage n 1024)) (wJob n + 32) (wJob n + 48)

/-- RESERVED_MIB of every die (Table 6.14). -/
def showReserved (s : State) : State :=
  let kib := (s.jobs.map fun e => (match e.2 with
    | some j => j.reservedKib
    | none => 0)).sum
  forUp (fun s d => fset s (pReduce d + 0x48) 15 0 (ceilDiv kib 1024)) 8 0 s

/-- The load is admitted: bound, set up, LOADED, its armed triggers tested (Table 9.9, steps 5 and 6). -/
def admitJob (s : State) (n role session : Nat) (i : Image) (g : Grant) : State :=
  let j := jobNew s i g
  let s := setJob (bindTables s n i g) n (some j)
  let s := showReserved (setUpRegions s j i)
  let s := setReason (fset s (wJob n + 20) 31 24 g.role) n (0, 0, 0, 0)
  let s := auditAdd s 6 role 0 n session j.colophonDigest []
  g.triggers.foldl (fun s t => if trigState s t == 1 then testTrigger s t else s) (setJobState s n 2)

/-! ## Unloading (R201, Table 9.9, step 8) -/

/-- The step in progress completes with UNLOADED: its first stage that has not reported carries the code. -/
def unloadStep (s : State) (n st : Nat) : State :=
  match getJob s n with
  | none => s
  | some j =>
    match getStep j st with
    | none => s
    | some x =>
      match (localStages j).find? fun e => !reported x e.1 with
      | some e => finishStage s n st e.1 ⟨0x2A, 0, 0⟩ []
      | none => s

/-- CMD = UNLOAD of a LOADED job: steps and collectives end with UNLOADED. -/
def unloadJob (s : State) (n : Nat) : State :=
  match getJob s n with
  | none => s
  | some j =>
    let s := setJobState s n 3
    let s := setJob s n (some { j with hold := [], waitPosts := [] })
    let s := (j.steps.map (·.s)).foldl (fun s st => unloadStep s n st) s
    let mine := (s.slots.filter fun e =>
      match e.2 with
      | some x => x.sub == n
      | none => false).map (·.1)
    let s := mine.foldl (fun s i => abortSlot s i 0x2A true) s
    let s := j.triggers.foldl (fun s t => { s with pendingPosts := Sparse.erase s.pendingPosts t }) s
    match getJob s n with
    | some j => setJob s n (some { j with digests := [], staging := [], sealedLens := [], ended := [], members := [] })
    | none => s

/-- CMD = UNLOAD by STATE (R201). -/
def jobUnloadCmd (s : State) (n role session : Nat) : State :=
  let dig := match getJob s n with
    | some j => j.colophonDigest
    | none => List.replicate 32 0
  let s := auditAdd s 7 role 0 n session dig []
  match jobState s n with
  | 2 => unloadJob s n
  | 4 => setJobState (setReason s n (0, 0, 0, 0)) n 0
  | st =>
    let held := s.heldReqs.any fun h =>
      match h with
      | .load m _ _ => m == n
      | _ => false
    if st == 1 || held then { s with unloadHeld := addNat s.unloadHeld n } else s

/-- The tiles that the image names are under the rotating self-test: the load waits (R356). -/
def waitsForTest (s : State) (n : Nat) : Bool :=
  let i := parseImage (imageBytes s n)
  (roleTiles i (ownRole s n i)).any fun t => s.faults.tilesUnderTest.contains t

/-- Entries that the loader writes into the permutation table; where it takes them from is not stated (log 28). -/
def writePerms (s : State) (ps : List (Nat × Nat)) : State :=
  ps.foldl (fun s e => if e.1 < 4194304 then wr s (wPerm e.1) (BitVec.ofNat 32 (2 ^ 31 + e.2 % 4194304)) else s) s

/-- JOB_LOAD_DECIDED (R200, R201). -/
def execJobLoadDecided (sub : Nat) (perms : List (Nat × Nat)) (s : State) : Out :=
  match s.loads.find? fun l => l.1 == sub with
  | none => .next s
  | some l =>
    if jobState s sub != 1 || waitsForTest s sub then .next s
    else
      let s := { s with loads := s.loads.filter fun e => e.1 != sub }
      let s := match loadTests (writePerms s perms) sub with
        | .ok (i, g) => admitJob (writePerms s perms) sub l.2.1 l.2.2 i g
        | .error d => setJobState (setReason (auditAdd s 6 l.2.1 d.1 sub l.2.2 (List.replicate 32 0) []) sub d) sub 4
      if s.unloadHeld.contains sub then
        let s := { s with unloadHeld := s.unloadHeld.filter (· != sub) }
        .next (match jobState s sub with
          | 2 => unloadJob s sub
          | _ => setJobState (setReason s sub (0, 0, 0, 0)) sub 0)
      else .next s

/-- Every slot of the job has released and its bound queues are empty (R201, R244). -/
def unloadReady (s : State) (n : Nat) (j : JobSt) : Bool :=
  !(s.slots.any fun e =>
    match e.2 with
    | some x => x.sub == n
    | none => false) && j.queues.all fun q => (getQueue s q).isEmpty

/-- HELD entries of frames that the job releases are no longer held (R298). -/
def releaseHeld (s : State) (frames : List (Nat × Nat)) : State :=
  frames.foldl (fun s f => (List.range 256).foldl (fun s i =>
    let a := retireEntry f.1 i
    if bit s a 31 && fget s a 15 0 == f.2 then setBit s a 30 false else s) s) s

/-- The open messages of a job's stream contexts end. -/
def dropJobMsgs (s : State) (streams : List Nat) : State := { s with msgs := s.msgs.filter fun m => !streams.contains m.ctx }

/-- Held packets of a slot end. -/
def dropHeld (s : State) (i : Nat) : State := { s with heldPkts := Sparse.erase s.heldPkts i }

/-- JOB_UNLOAD_DONE (R201): resources and bindings are freed. -/
def execJobUnloadDone (sub : Nat) (s : State) : Out :=
  match getJob s sub with
  | none => .next s
  | some j =>
    if jobState s sub != 3 || !unloadReady s sub j then .next s
    else
      let s := setJob s sub none
      let s := releaseHeld s j.frames
      let s := j.engines.foldl (fun s e => wr s (pColl e + 0x40) 0) s
      let s := j.triggers.foldl (fun s t => wrWords s (wTrig t) (List.replicate 8 0)) s
      let s := j.queues.foldl (fun s q => wrWords s (wQueue q) [0, 0]) s
      let s := j.streams.foldl (fun s c => setStream s c none) s
      let s := dropJobMsgs s j.streams
      let s := if j.descLen == 0 then s
        else forUp (fun s k =>
          dropHeld (wrWords s (wSlot (slotBase s sub + k)) (List.replicate 8 0)) (slotBase s sub + k)) (slotQ s sub) 0 s
      let s := (List.range j.descLen).foldl (fun s d => wrWords s (wDesc (j.descBase + d)) (List.replicate 16 0)) s
      let s := showReserved (wr s (wDescBind sub) 0)
      .next (setJobState (fset s (wJob sub + 20) 31 24 0xFF) sub 0)

/-! ## Batches (R218 to R220) -/

/-- The 128 bytes of a seal record (Table 10.5). -/
def sealBytes (r : SealRec) : List Byte :=
  leBytes 8 r.step ++ leBytes 2 r.quire ++ leBytes 1 r.plane ++ [0] ++ r.offsets ++ [0] ++ leBytes 4 r.points ++
    leBytes 4 r.digests.length ++ leBytes 8 r.time ++ r.colophonDigest ++ r.stepSeal

/-- A 64-bit pair of words, low word first. -/
def rdPair (s : State) (a : Nat) : Nat := (rd s a).toNat + (rd s (a + 4)).toNat * 2 ^ 32

/-- BATCH_STATE and REASON; DONE and REFUSED raise BATCH_DONE (Table 20.9). -/
def setBatch (s : State) (n st reason : Nat) : State :=
  let s := fset (fset s (wSeal n + 20) 2 0 st) (wSeal n + 20) 15 8 reason
  if st == 2 || st == 3 then raise s pSeal 9 else s

/-- The range holds a step whose record is not yet complete (R220): one with a sealing point here that has not completed, be it not yet
started, or that waits for its record. Beyond the last step done, every L steps meet each sealing point. -/
def stepsIncomplete (s : State) (n first last : Nat) : Bool :=
  match getJob s n with
  | none => false
  | some j =>
    let done := j.doneSteps ++ j.failedSteps.map (·.1)
    let top := done.foldl (fun m st => Nat.max m (st + 1)) first
    let stop := Nat.min (last + 1) (top + seqLen s n)
    let open' := (List.range (stop - first)).any fun i => !(sealPoints s n j (first + i)).isEmpty && !done.contains (first + i)
    open' || j.sealedLens.any fun e => decide (first ≤ e.2.1) && decide (e.2.1 ≤ last)

/-- CMD 1 (R219, R220): the batch statement is formed, or the command is refused with a REASON. -/
def signBatchCmd (s : State) (n : Nat) : State :=
  let first := rdPair s (wSeal n + 4)
  let last := rdPair s (wSeal n + 12)
  let rs := ((s.seals.filter fun r => r.sub == n && decide (first ≤ r.step) && decide (r.step ≤ last)).mergeSort
    fun a b => decide (a.step ≤ b.step))
  let why := if (getJob s n).isNone then 1 else if last < first then 2 else if 65536 < rs.length then 3
    else if stepsIncomplete s n first last || rs.any (·.poisoned) then 4 else if s.batch.isSome then 5 else 0
  if why != 0 then setBatch s n 3 why
  else
    let stmt := [0x50, 0x53, 0x42, 0x31] ++ leBytes 4 s.fuses.batches ++ leBytes 8 first ++ leBytes 8 last ++ leBytes 4 rs.length ++
      leBytes 2 (quireId s n) ++ leBytes 1 (ownPlane s) ++ [0] ++ deviceId ++ shake256 ((rs.map sealBytes).flatten) 64 ++
      leBytes 8 s.time ++ List.replicate 56 0
    let b : Batch := { sub := n, number := s.fuses.batches, first := first, last := last, statement := stmt, sig := [] }
    let mark := fun (r : SealRec) =>
      if r.sub == n && first ≤ r.step && r.step ≤ last then { r with signed := some s.fuses.batches } else r
    setBatch { s with seals := s.seals.map mark, batch := some b, fuses := { s.fuses with batches := s.fuses.batches + 1 } } n 1 0

/-- BATCH_SIGNED (R219). -/
def execBatchSigned (s : State) : Out :=
  match s.batch with
  | none => .next s
  | some b =>
    let d := draw s
    let b := { b with sig := Config.slhSign "PAROON SEAL" b.statement d.1 }
    let s := { d.2 with batch := none, lastBatch := s.lastBatch.filter (fun x => x.sub != b.sub) ++ [b] }
    .next (setBatch (wr (ctrAdd s pSeal 1 1) (wSeal b.sub + 36) (BitVec.ofNat 32 b.number)) b.sub 2 0)

/-- CMD 2 (R218): the records that the subscriber's batch last DONE covers, and their digests, are released. -/
def releaseBatchCmd (s : State) (n : Nat) : State :=
  match s.lastBatch.find? fun b => b.sub == n with
  | none => s
  | some b =>
    let gone := fun (r : SealRec) => r.sub == n && r.signed == some b.number
    showSeals { s with seals := s.seals.filter fun r => !gone r, lastBatch := s.lastBatch.filter fun x => x.sub != n } n

end Sys2Proof.Machine
end

