-- ==== Sys2Proof/Machine/Settings.lean ====
section
/-! DEFINITION. The persistent-settings log of the serial memory (R326): transactions, their tags, compaction, and the load at
start-up step 5. -/
namespace Sys2Proof.Machine

open Sys2Proof

/-- The 16 bytes of a log entry. -/
def settingBytes (txn : Nat) (e : Setting) : List Byte :=
  leBytes 4 e.addr ++ leBytes 4 e.value.toNat ++ leBytes 4 e.mask.toNat ++ leBytes 4 txn

/-- The tag of a commit entry. -/
def txnTag (txn : Nat) (es : List Setting) : List Byte :=
  kmac256 Config.settingsKey ((es.map fun e => settingBytes txn e).flatten) 16 "PAROON SET"

/-- A committed transaction. -/
def mkTxn (number : Nat) (es : List Setting) : Txn := { number := number, entries := es, committed := true, tag := txnTag number es }

/-- One entry more among compacted settings: later bits win. -/
def mergeSetting (es : List Setting) (e : Setting) : List Setting :=
  match es.find? fun x => x.addr == e.addr with
  | some x => es.map fun y => if y.addr == e.addr then
      { y with value := (x.value &&& ~~~ e.mask) ||| (e.value &&& e.mask), mask := x.mask ||| e.mask } else y
  | none => es ++ [{ e with value := e.value &&& e.mask }]

/-- Units of 16 bytes that transactions take in a bank: entries, and a commit entry with its tag. -/
def bankUse (ts : List Txn) : Nat := (ts.map fun t => t.entries.length + 2).sum

/-- Program a transaction; a full 2 MiB bank is compacted into the other. -/
def commitTxn (s : State) (es : List Setting) : State :=
  if es.isEmpty || !s.flash.present then s
  else
    let n := match s.flash.settings.getLast? with
      | some t => t.number + 1
      | none => 1
    let ts := s.flash.settings ++ [mkTxn n es]
    let ts := if bankUse ts ≤ 131072 then ts else [mkTxn n ((ts.map (·.entries)).flatten.foldl mergeSetting [])]
    { s with flash := { s.flash with settings := ts } }

/-- Apply one setting to the registers. -/
def applySetting (s : State) (e : Setting) : State := wr s e.addr ((rd s e.addr &&& ~~~ e.mask) ||| (e.value &&& e.mask))

/-- A transaction is committed and its tag verifies. -/
def txnGood (t : Txn) : Bool := t.committed && t.tag == txnTag t.number t.entries

/-- SETTINGS_LOAD (R326): committed transactions in order, up to the first that fails; the rest are discarded and reported. -/
def loadSettings (s : State) : State :=
  let good := s.flash.settings.takeWhile txnGood
  let s1 := (good.map (·.entries)).flatten.foldl applySetting s
  if good.length == s.flash.settings.length then s1
  else
    let s2 := { s1 with flash := { s1.flash with settings := good }, fw := { s1.fw with discarded := true } }
    report s2 (mkFault 0x05 0 0x40 1 0 0xFF 0)

end Sys2Proof.Machine
end

