-- ==== Sys2Proof/Machine/Memories.lean ====
section
/-! DEFINITION. Scrub, poison, retirement, refresh and retraining (14_memories.md). -/
namespace Sys2Proof.Machine

open Sys2Proof

/-! ## Retirement (R298) -/

/-- RETIRED of a unit's map. -/
def showRetired (s : State) (unit : Nat) : State :=
  let n := ((List.range 256).filter fun i => bit s (retireEntry unit i) 31).length
  if unit < 8 then fset s (pStackMem unit + 0x44) 8 0 n
  else forUp (fun s c => fset s (pLpddr (8 * (unit - 8) + c) + 0x48) 8 0 n) 8 0 s

/-- FRAME_RETIRE: the frame enters its map, HELD while a job holds it; a full map retires it until the next reset and reports
RETIRE_FULL. -/
def retireFrame (s : State) (unit f cause : Nat) : State :=
  if (retiredFrames s unit).contains f then s
  else
    match findUp (fun i => !bit s (retireEntry unit i) 31) 256 0 with
    | some i =>
      let w : Word := BitVec.ofNat 32 (2 ^ 31 + b2n ((heldFrames s unit).contains f) * 2 ^ 30 + cause * 2 ^ 28 + f)
      let s := commitTxn (wr s (retireEntry unit i) w) [{ addr := retireEntry unit i, value := w, mask := 0xFFFFFFFF }]
      showRetired s unit
    | none =>
      let s := { s with memSt := { s.memSt with extraRetired := s.memSt.extraRetired ++ [(unit, f)] } }
      report s (if unit < 8 then mkFault 0x2C unit 0x1A 1 f 0xFF 0 else mkFault 0x2D (8 * (unit - 8)) 0x1A 1 f 0xFF 0)

/-- CLEAR (R299): the entries of frames that no job holds are emptied. -/
def clearRetired (s : State) (unit : Nat) : State :=
  let es := (List.range 256).filter fun i => bit s (retireEntry unit i) 31 && !bit s (retireEntry unit i) 30
  let s := es.foldl (fun s i => wr s (retireEntry unit i) 0) s
  showRetired (commitTxn s (es.map fun i => { addr := retireEntry unit i, value := 0, mask := 0xFFFFFFFF })) unit

/-! ## What an uncorrectable word was (Table 14.1, R297) -/

/-- The packet of a cell is discarded wherever it stands, and the cell is freed (R284, CELL_META_PARITY); a port whose sending it ends
goes on with its queues (R247), and packets that wait for a cell take what is free (R239). -/
def discardCell (s : State) (c : Nat) : State :=
  let s := (s.queues.map (·.1)).foldl (fun s q =>
    let gone := (getQueue s q).filter fun e => e.cell == c
    if gone.isEmpty then s
    else
      let s := storedSub (setQueue s q ((getQueue s q).filter fun e => e.cell != c)) q ((gone.map fun e => sizeOf' e.pkt).sum)
      gone.foldl (fun s e => decCell s e.cell e.gen) s) s
  let s := (s.deliv.map (·.1)).foldl (fun s h =>
    match getDeliv s h with
    | some d => if d.cell == c then takeDelivery s h d else s
    | none => s) s
  serveWaiters ((s.ports.map (·.1)).foldl (fun s p =>
    match (getPort s p).sending with
    | some (e, _) =>
      if e.cell == c then
        pump (emit (decCell (modPort s p fun x => { x with sending := none }) e.cell e.gen) (.link p "STOMP" 0)) p
      else s
    | none => s) s)

/-- CELL_META_PARITY: the cell is withdrawn from its pool, so that FREE counts it no more, and its packet is discarded (R240). -/
def withdrawCell (s : State) (c : Nat) : State :=
  let x := getCell s c
  let a := pBufPool (cellDie c) + 0x44 + 4 * cellPool c
  let s := if x.allocated || x.withdrawn then s else fset s a 19 0 (fget s a 19 0 - 1)
  discardCell (setCell s c { x with withdrawn := true }) c

/-- A chunk is lost: its reduction completes with SLOT_LOST. -/
def loseChunk (s : State) (slot chunk : Nat) : State :=
  match getSlot s slot with
  | some x => if (x.chunks.any fun e => e.1 == chunk) then settle (abortSlot s slot 7 true) x.sub else s
  | none => s

/-- What goes with the word. -/
def loseHeld (s : State) (h : WordHeld) : State :=
  match h with
  | .nothing => s
  | .cell c => discardCell s c
  | .chunk i c => loseChunk s i c
  | .segment sid t g =>
    { s with transfers := s.transfers.map fun x =>
        if x.session == sid && x.req.transfer == t then { x with segs := x.segs.filter (· != g) } else x }
  | .sealed n st =>
    let s := { s with seals := s.seals.map fun r => if r.sub == n && r.step == st then { r with poisoned := true } else r }
    report s (mkFault 0x2D 0 0x1B 1 st n 0)

/-- Stash slots of loaded jobs on a codeword are lost until the reload, and a step in progress that uses one fails (R196). -/
def loseStash (s : State) (w : Nat) : State :=
  s.jobs.foldl (fun s e =>
    match getJob s e.1 with
    | none => s
    | some j =>
      let hit := (j.stashes.map fun h =>
        match regionOf j h.region with
        | some r => ((List.range h.depth).filter fun k =>
            (List.range (ceilDiv (j.maxBatch * h.perSample) 32 + 1)).any fun i =>
              regionAddr j r (k * (j.maxBatch * h.perSample) + 32 * i) / 32 == w).map fun k => (h, k)
        | none => []).flatten
      if hit.isEmpty then s
      else
        let s := setJob s e.1 (some { j with stashLost := hit.foldl (fun l p => addNat l (16 * p.1.stash + p.2)) j.stashLost })
        hit.foldl (fun s p =>
          (j.steps.filter fun x => stashSlot p.1 x.s == p.2).foldl (fun s x =>
            match getJob s e.1 with
            | some j =>
              (match getStep j x.s with
               | some x =>
                 let bad := { x with results := Sparse.set (fun _ => none) x.results p.1.stage (some ⟨0x24, 0, 0⟩) }
                 settle (failStep (setJob s e.1 (some (setStep j bad))) e.1 x.s 0x24) e.1
               | none => s)
            | none => s) s) s) s

/-! ## SCRUB_STEP (R295 to R298) -/

/-- Base of a memory in the model's address space; its size; its unit for frames. -/
def stackBase (d : Nat) : Nat := 2 ^ 40 + 2 ^ 32 * d
def lpddrBase (j : Nat) : Nat := j * 2 ^ 37

/-- The write-back of a corrected word, or its drop after a newer write (R296); the stored bits are the corrected ones. -/
def writeBack (s : State) (page made dropped : Nat) (newer : Bool) : State :=
  if newer then (if dropped == 0 then s else ctrAdd s page dropped 1) else ctrAdd s page made 1

/-- One codeword of a frame memory: pass bookkeeping, two corrections running, poison and retirement. -/
def scrubFrame (s : State) (unit frame word : Nat) (found : ScrubFound) (last : Bool) : State :=
  let p := Sparse.get (fun _ => 0) s.memSt.passes unit
  let s := match found with
    | .corrected =>
      let twice := s.memSt.corrected.any fun e => e.1 == word && e.2 + 1 == p
      let keep := (s.memSt.corrected.filter fun e => e.1 != word) ++ [(word, p)]
      let s := { s with memSt := { s.memSt with corrected := keep } }
      if twice then retireFrame s unit frame 2 else s
    | .uncorrectable _ h =>
      let s := { s with memSt := { s.memSt with poison := addNat s.memSt.poison word } }
      loseHeld (loseStash (retireFrame s unit frame 1) word) h
    | .clean => s
  if last then { s with memSt := { s.memSt with passes := Sparse.set (fun _ => 0) s.memSt.passes unit (p + 1) } } else s

/-- A word of an SRAM partition (Table 14.1). -/
def scrubSram (s : State) (die part addr : Nat) (found : ScrubFound) (newer last : Bool) : State :=
  let page := pStackMem die
  let s := match found with
    | .clean => s
    | .corrected => report (writeBack (ctrAdd s page 0 1) page 5 6 newer) (mkFault 0x2C die 0x10 0 addr 0xFF 0)
    | .uncorrectable other h =>
      if part == 3 then
        if other then report (ctrAdd s page 2 1) (mkFault 0x2C die 0x12 0 addr 0xFF 0)
        else report (ctrAdd s page 1 1) (mkFault 0x2C die 0x13 2 addr 0xFF 0)
      else
        let s := report (ctrAdd s page 1 1) (mkFault 0x2C die 0x11 1 addr 0xFF 0)
        let s := if part == 2 then
            { s with memSt := { s.memSt with poison := addNat s.memSt.poison ((2 ^ 41 + die * 64 * 1572864 + addr) / 32) } }
          else s
        loseHeld s h
  if last then fset s (page + 0x40) 31 16 ((fget s (page + 0x40) 31 16 + 1) % 65536) else s

/-- SRAM bytes of a partition (Table 1.2). -/
def sramBytes (part : Nat) : Nat :=
  match part with
  | 0 => 64 * 2 ^ 20
  | 1 => 48 * 2 ^ 20
  | 2 => 96 * 2 ^ 20
  | 3 => 32 * 2 ^ 20
  | 4 => 16 * 2 ^ 20
  | _ => 0

/-- SCRUB_STEP (R295): one codeword of one memory; an address outside it is no word of the device. A pass ends at the last word. -/
def execScrubStep (mem : ScrubMem) (address : Nat) (found : ScrubFound) (newerWrite : Bool) (s : State) : Out :=
  match mem with
  | .sram die part =>
    if 8 ≤ die || sramBytes part ≤ address then .fault .memoryHole
    else .next (scrubSram s die part address found newerWrite (part == 4 && sramBytes 4 ≤ address + 32))
  | .stack d =>
    if 8 ≤ d || 3221225472 ≤ address then .fault .memoryHole
    else
      let page := pStackMem d
      let last := decide (3221225472 ≤ address + 32)
      let f := address / 262144
      let s := match found with
        | .clean => s
        | .corrected => report (writeBack (ctrAdd s page 3 1) page 5 6 newerWrite) (mkFault 0x2C d 0x15 0 address 0xFF 0)
        | .uncorrectable _ _ => report (ctrAdd s page 4 1) (mkFault 0x2C d 0x16 1 f 0xFF 0)
      let s := scrubFrame s d f ((stackBase d + address) / 32) found last
      .next (if last then fset s (page + 0x40) 15 0 ((fget s (page + 0x40) 15 0 + 1) % 65536) else s)
  | .lpddr j =>
    if 4 ≤ j || groupBytes s j ≤ address then .fault .memoryHole
    else
      let c := 8 * j + address / 4096 % 8
      let f := address / 2 ^ 21
      let s := match found with
        | .clean => s
        | .corrected => report (writeBack (ctrAdd s (pLpddr c) 0 1) (pLpddr c) 3 0 newerWrite) (mkFault 0x2D c 0x17 0 address 0xFF 0)
        | .uncorrectable _ _ => report (ctrAdd s (pLpddr c) 1 1) (mkFault 0x2D c 0x18 1 f 0xFF 0)
      .next (scrubFrame s (8 + j) f ((lpddrBase j + address) / 32) found (decide (groupBytes s j ≤ address + 32)))

/-- DRAM_REFRESH (R285): a vault refreshes at the rate its stack's temperature calls for, which SM_REFRESH shows. -/
def execDramRefresh (stack vault : Nat) (hot : Bool) (s : State) : Out :=
  if 8 ≤ stack || 64 ≤ vault then .fault .memoryHole else .next (setBit s (pStackMem stack + 0x48) 0 hot)

/-- LPDDR_RETRAIN (R293): the channel retrains its DQ timing; its status shows the temperature read. -/
def execLpddrRetrain (channel temp : Nat) (s : State) : Out :=
  if 32 ≤ channel then .fault .memoryHole
  else if !bit s (pLpddr channel + 0x40) 31 then .next s
  else .next (fset (ctrAdd s (pLpddr channel) 2 1) (pLpddr channel + 0x40) 23 16 temp)

/-- LPDDR_REFRESH (R293): per-bank refresh at the rate of the temperature report, which the channel's status shows. -/
def execLpddrRefresh (channel temp : Nat) (s : State) : Out :=
  if 32 ≤ channel then .fault .memoryHole
  else if !bit s (pLpddr channel + 0x40) 31 then .next s
  else .next (fset s (pLpddr channel + 0x40) 23 16 temp)

end Sys2Proof.Machine
end

