-- ==== Sys2Proof/Machine/Swaths.lean ====
section
/-! DEFINITION. Swaths (R388 to R397): the launch, its refusals, the pages whose copy is in progress or broken, and the markers as
commands; what a unit does with a marker stands with the crossings. -/
namespace Sys2Proof.Machine

open Sys2Proof

/-- A unit has started its copy and has not completed it. -/
def copying (x : SwathSt) (u : Nat) : Bool := x.started.contains u && x.left.any fun c => c.1 == u

/-- A page's copy is in progress: PENDING of its SWATH_SEQ. -/
def swathPending (s : State) (page : Nat) : Bool :=
  match s.swath, pageOf page with
  | some x, some (k, a) => k.ty != 0x12 && copying x (unitOf k.ty (k.inst a))
  | _, _ => false

/-- A block or port reset meets the copy of its page (R395). -/
def markBroken (s : State) (page : Nat) : State :=
  match s.swath with
  | some x => if swathPending s page then { s with swath := some { x with broken := addNat x.broken page } } else s
  | none => s

/-- The launch is served: the island copies its counters, but for the parts that its input channels feed, and sends its markers
(R391). While every block is HELD every page is copied at once (R395). -/
def runSwath (s : State) (seq : Nat) : State :=
  let s := ctrAdd s pSwath 0 1
  let s := wr (wr s (pSwath + 0x48) (BitVec.ofNat 32 (s.time / 2 ^ 32))) (pSwath + 0x4C) (BitVec.ofNat 32 s.time)
  let s := wr s (pSwath + 0x44) (BitVec.ofNat 32 (seq * 65536 + 9 * 8 + 1))
  let x : SwathSt := { seq := seq, cut := s.ctrs, left := [], started := [0], broken := [] }
  if s.faults.held then endSwath ((List.range 9).foldl (fun s u => completeUnit s x u) s) 2 8
  else { s with swath := some { x with cut := copyInternal s [] 0, left := allChannels } }

/-- A write of SWATH_CMD.SEQ is refused (R390); a launch that waits counts as running. -/
def swathRefused (s : State) (seq : Nat) : Bool :=
  seq == 0 || seq == fget s (pSwath + 0x44) 31 16 || s.swath.isSome || s.swathWait.isSome

/-- SWATH_CMD accepted (R390, R395). -/
def launchSwath (s : State) (seq : Nat) : State :=
  if fallow s && !s.faults.held then { s with swathWait := some seq } else runSwath s seq

/-- Fallow is entered while RUNNING (R395): pages not yet complete take the number with BROKEN 1. -/
def abandonSwath (s : State) : State :=
  match s.swath with
  | none => s
  | some x =>
    let units := (List.range 9).filter fun u => x.left.any fun c => c.1 == u
    let s := (units.map pagesOf).flatten.foldl (fun s a => wr s (a + 0x24) (BitVec.ofNat 32 (2 ^ 31 + x.seq))) s
    endSwath (ctrAdd s pSwath 1 1) 3 9

/-- SWATH_MARKER_RX (R391): a marker follows the data of its channel, so it arrives only once the sending unit has started. -/
def execSwathMarkerRx (unit channel : Nat) (s : State) : Out :=
  match s.swath with
  | none => .next s
  | some x =>
    .next (if x.left.contains (unit, channel) && x.started.contains (channelSource unit channel) then takeMarker s x unit channel else s)

end Sys2Proof.Machine
end

