-- ==== Sys2Proof/Machine/Blocks.lean ====
section
/-! DEFINITION. Block states: enabling, stopping and resetting the blocks that have a page (R379 to R381, R407), and the ports'
part of it (R261, R264, R275, R279). -/
namespace Sys2Proof.Machine

open Sys2Proof

/-! ## What a block reset returns to its reset value -/

/-- The fields of a word that are settings of the persistent-settings log: RW fields written by the installer alone (log 33). -/
def keptMask (a : Nat) : Word :=
  (fieldsAt a).foldl (fun m f => if f.acc = .rw && f.i && !f.o && !f.m then m ||| f.mask else m) 0

/-- The block registers of a page, other than installer settings, at their reset values (R379). -/
def resetPageRegs (s : State) (page : Nat) : State :=
  ((s.regs.map (·.1)).filter fun a => decide (page + 0x40 ≤ a) && decide (a < page + 0x800)).foldl
    (fun s a => wr s a ((resetWord a &&& ~~~ keptMask a) ||| (rd s a &&& keptMask a))) s

/-- BLK_STATE.PEND_ON. -/
def pendOn (s : State) (page : Nat) : Bool := bit s (page + 0x0C) 4
def setPend (s : State) (page : Nat) (v : Bool) : State := setBit s (page + 0x0C) 4 v

/-- A stop that is a reset: its STOP_CAUSE is BLOCK_RESET or REACTION. -/
def resetting (s : State) (page : Nat) : Bool :=
  blkState s page == 3 && (fget s (page + 0x0C) 15 8 == 2 || fget s (page + 0x0C) 15 8 == 3)

/-- HELD and FAULT are left only by the resets of R362 and R380. -/
def frozen (s : State) (page : Nat) : Bool := s.faults.held || blkState s page == 4 || blkState s page == 5

/-! ## Jobs and blocks -/

/-- A slot of the switch is not UNASSIGNED. -/
def slotsAssigned (s : State) : Bool :=
  s.regs.any fun e => decide (0x1100000 ≤ e.1) && decide (e.1 < 0x1120000) && e.1 % 32 == 0 && bitsOf e.2 2 0 != 0

/-- A loaded job holds the block of a page (R381, R407). -/
def jobHolds (s : State) (ty inst : Nat) : Bool :=
  let jobs := s.jobs.filterMap (·.2)
  match ty with
  | 0x29 => slotsAssigned s
  | 0x2A => bit s (pColl inst + 0x40) 31 || jobs.any fun j => j.engines.contains inst
  | 0x2B => jobs.any fun j => j.tiles.any fun t => t / 16 == inst
  | _ => false

/-- A step in progress completes with a code: its first stage that has not reported carries it. -/
def endStep (s : State) (n st code : Nat) : State :=
  match getJob s n with
  | none => s
  | some j =>
    match getStep j st with
    | none => s
    | some x =>
      match (localStages j).find? fun e => !reported x e.1 with
      | some e => finishStage s n st e.1 ⟨code, 0, 0⟩ []
      | none => s

/-- The job outcome JOB_FAILED (R349): the steps in progress and every later step complete with it. -/
def failJob (s : State) (n : Nat) : State :=
  match getJob s n with
  | none => s
  | some j =>
    let s := setJob s n (some { j with failed := true })
    settle ((j.steps.map (·.s)).foldl (fun s st => endStep s n st 0x29) s) n

/-- Every job that owns a tile of a cluster fails with JOB_FAILED (R355). -/
def failCluster (s : State) (c : Nat) : State :=
  ((s.jobs.filter fun e => match e.2 with
    | some j => j.tiles.any fun t => t / 16 == c
    | none => false).map (·.1)).foldl failJob s

/-- Reductions with a chunk open or retained on a die complete with SLOT_LOST (R138). -/
def loseDie (s : State) (d : Nat) : State :=
  (s.slots.map (·.1)).foldl (fun s i =>
    match getSlot s i with
    | some x =>
      if x.chunks.any fun e => hostDie i e.1 == d && e.2.st != .unopened && e.2.st != .released then
        settle (abortSlot s i 7 true) x.sub
      else s
    | none => s) s

/-- Every collective in progress on an engine completes with ENGINE_FAULT (ENGINE_STATE, Table 17.2). -/
def engineFault (s : State) (e : Nat) : State :=
  (s.slots.map (·.1)).foldl (fun s i =>
    match getSlot s i with
    | some x => if x.desc.engine == e then settle (abortSlot s i 0x0E true) x.sub else s
    | none => s) s

/-! ## Ports: starting and stopping -/

/-- Leaf and pair ports train from start-up step 11 on, spine ports from step 13 (Table 18.8). -/
def portsTrain (s : State) (p : Nat) : Bool :=
  !fallow s && (match s.phase with
    | .ready => true
    | .starting k => if isSpine p then 13 ≤ k else 11 ≤ k
    | _ => false)

/-- A port that is enabled starts (R264, R369): its clocks run; a port in TEST runs no bring-up (R279); a spine port waits in
DETECT until its stitch is OPEN or checks the inner side. -/
def startPort (s : State) (p : Nat) : State :=
  if p == 160 || frozen s (pPort p) then s
  else
    let s := setBlk (turnOnChain s (nodeOfPort p)) (pPort p) 1
    if portTest s p then setStage (setPState s p 7) p 0
    else if !portsTrain s p then s
    else if isSpine p && stState s (stitchOfPort p) != 3 then setStage (setPState s p 1) p 0
    else bringUp s p

/-- Remove a stitch's bias; an inner check in progress ends with it. -/
def closeNow (s : State) (n cause : Nat) : State :=
  let pq := portsOfStitch n
  if stState s n == 1 then
    [pq.1, pq.2].foldl (fun s p => setStage (setPState (modPort (linkDown s p) p fun x => { x with inner := false }) p 1) p 0)
      (closeStitch s n cause)
  else closeStitch s n cause

/-- Close the stitch of a spine port, unless HOLD_OPEN prevents the trigger (Table 13.10). -/
def closeBehind (s : State) (p cause : Nat) (preventable : Bool) : State :=
  if isSpine p && !(preventable && holdOpen s (stitchOfPort p)) then closeNow s (stitchOfPort p) cause else s

/-- EN written 0 (R275): the stitch closes and the port stops. -/
def disablePort (s : State) (p : Nat) : State :=
  let a := pPort p
  if blkState s a == 3 then setPend s a false
  else if blkState s a == 0 || frozen s a then s
  else setCause (setBlk (closeBehind s p 4 false) a 3) a 1

/-- EN written 1 (R381). -/
def enablePort (s : State) (p : Nat) : State :=
  let a := pPort p
  if blkState s a == 3 then setPend (turnOnChain s (nodeOfPort p)) a true
  else if blkState s a == 0 then startPort s p
  else s

/-- TEST written 1 (R279): no traffic, no bring-up; the stitch closes unless HOLD_OPEN is set. -/
def enterTest (s : State) (p : Nat) : State :=
  if frozen s (pPort p) then s
  else
    let s := modPort (linkDown (closeBehind s p 5 true) p) p fun x => { x with inner := false }
    let s := if blkState s (pPort p) == 2 then setBlk s (pPort p) 1 else s
    setStage (setPState s p 7) p 0

/-- TEST written 0: an enabled port brings itself up again. -/
def leaveTest (s : State) (p : Nat) : State :=
  if frozen s (pPort p) then s
  else if portEn s p && blkState s (pPort p) != 3 then startPort s p
  else setPState s p 0

/-- The port's stitch has still to be sensed (R275). -/
def stitchMoving (s : State) (p : Nat) : Bool := isSpine p && (stState s (stitchOfPort p) == 2 || stState s (stitchOfPort p) == 4)

/-- The port stops transmitting; one in TEST shows TEST. -/
def stopPort (s : State) (p : Nat) : State :=
  let s := portStops s p
  if portTest s p then setPState s p 7 else s

/-! ## Stopping and starting any block (R381) -/

/-- The block of a page that has no port starts: STARTING ends within the step (log 31). -/
def startBlock (s : State) (page : Nat) : State := setBlk s page 2

/-- ENABLE written, for a block other than a port. -/
def enableBlock (s : State) (page : Nat) (on : Bool) : State :=
  if frozen s page then s
  else if on then
    (if blkState s page == 3 then setPend s page true else if blkState s page == 0 then startBlock s page else s)
  else if blkState s page == 3 then setPend s page false
  else if blkState s page == 0 then s
  else setCause (setBlk s page 3) page 1

/-- BLOCK_STOP_DONE (R381): OFF, or STARTING again when PEND_ON is set. -/
def execBlockStopDone (page : Nat) (s : State) : Out :=
  match pageOf page with
  | none => .next s
  | some (k, a) =>
    if blkState s a != 3 || resetting s a then .next s
    else
      let p := k.inst a
      if k.ty == 0x20 && stitchMoving s p then .next s
      else
        let pend := pendOn s a
        let s := setPend (setBlk (if k.ty == 0x20 then stopPort s p else s) a 0) a false
        .next (if pend then (if k.ty == 0x20 then startPort s p else startBlock s a) else s)

/-! ## Block resets (R379) -/

/-- What a reset does to jobs as it begins (R138, R355, Table 17.2; log 32 for an engine). -/
def resetEffects (s : State) (ty inst : Nat) : State :=
  match ty with
  | 0x29 => loseDie s inst
  | 0x2A => engineFault s inst
  | 0x2B => failCluster s inst
  | _ => s

/-- BLOCK_RESET: the block stops; a stop in progress takes the reset over (R379, R381). -/
def resetBlock (s : State) (page cause : Nat) : State :=
  match pageOf page with
  | none => s
  | some (k, a) =>
    if !k.hasReset || frozen s a then s
    else if blkState s a == 3 then (if resetting s a then s else resetEffects (setCause s a cause) k.ty (k.inst a))
    else
      let p := k.inst a
      let s := markBroken s a
      let s := if k.ty == 0x20 then
          (if isSpine p && stState s (stitchOfPort p) == 3 && holdOpen s (stitchOfPort p) then portStops s p
           else closeBehind s p 4 true)
        else s
      resetEffects (setCause (setBlk s a 3) a cause) k.ty p

/-- SCHED, GATE and POLICE after a reset (R407): virtual time 0, bank 0 in force, full buckets. -/
def resetPortPart (s : State) (ty p : Nat) : State :=
  match ty with
  | 0x23 => modPort s p fun x =>
      { x with nodeStart := [], queueStart := [], vtime := 0, vtimeNode := [], awake := [], bucketAt := s.uptime, bucketFrac := 0 }
  | 0x24 =>
    let g := getGate s p
    let len := if operBank s p == 0 then g.len else fget s (pGate p + 0x40) 8 0
    let s := setGate (fset s (pGate p + 0x40) 29 28 0) p
      { gateInit with len := len, since := gateNow s p, base := gateNow s p, waitBase := gateNow s p }
    pump (wr s (pGate p + 0x4C) (BitVec.ofNat 32 ((List.range len).map fun i => (gateEntry s p i).2).sum)) p
  | 0x25 => forUp (fun s c => fillMeter s p c) 8 0 s
  | _ => s

/-- The registers and counters that a reset clears; a port's reset clears the counters of its lane groups and meters too. A
collective engine keeps its owner, which the loader wrote (log 32), and a REDUCE page shows what its die still has reserved (R140). -/
def resetBlockRegs (s : State) (k : PageKind) (a : Nat) : State :=
  let owner := rd s (a + 0x40)
  let s := ctrsReset (resetPageRegs s a) a
  let s := if k.ty == 0x29 then showReserved s else s
  if k.ty == 0x20 then ctrsReset ((groupsOfPort (k.inst a)).foldl (fun s g => ctrsReset s (pLaneGrp g)) s) (pPolice (k.inst a))
  else if k.ty == 0x2A then wr s (a + 0x40) owner
  else s

/-- BLOCK_RESET_DONE (R379): registers back, and the block starts again when ENABLE is 1. -/
def execBlockResetDone (page : Nat) (s : State) : Out :=
  match pageOf page with
  | none => .next s
  | some (k, a) =>
    if !resetting s a then .next s
    else
      let p := k.inst a
      if k.ty == 0x20 then
        (if stitchMoving s p then .next s
         else
           let s := setPend (setBlk (resetBlockRegs (stopPort s p) k a) a 0) a false
           .next (if portEn s p then startPort s p else if portTest s p then setPState s p 7 else s))
      else
        let s := resetPortPart (if k.ty == 0x24 then s else resetBlockRegs s k a) k.ty p
        let s := setPend (setBlk s a 0) a false
        .next (if bit s (a + 0x08) 0 then startBlock s a else s)

end Sys2Proof.Machine
end

