-- ==== Sys2Proof/Machine/Faults.lean ====
section
/-! DEFINITION. The fault collector, the outcomes and reactions of fault records, and the fallow state (17_faults_and_fallow.md). -/
namespace Sys2Proof.Machine

open Sys2Proof

/-! ## FAULT_N (R352) -/

/-- ASSERTED: FAULT_N is low while latched, in a pulse, or fallow; the pin follows. -/
def showPin (s : State) : State :=
  let now := s.faults.latched || s.faults.pulse || fallow s
  if bit s (pFlt + 0x40) 1 == now then s
  else emit (setBit s (pFlt + 0x40) 1 now) (.boundary (if now then "FAULT_N low" else "FAULT_N released"))

/-- A PIN reaction under FLT_PIN.MODE. -/
def assertPin (s : State) : State :=
  if bit s (pFlt + 0x40) 0 && !fallow s then showPin { s with faults := { s.faults with pulse := true } }
  else showPin { s with faults := { s.faults with latched := true } }

/-! ## Withdrawal and other resource outcomes (R349, R356, R293) -/

/-- The job that owns a tile. -/
def ownerOfTile (s : State) (t : Nat) : Option Nat :=
  (s.jobs.find? fun e => match e.2 with
    | some j => j.tiles.contains t
    | none => false).map (·.1)

/-- A tile is withdrawn until chip reset; its owning job fails with JOB_FAILED (R356). -/
def withdrawTile (s : State) (t : Nat) : State :=
  let s := { s with faults := { s.faults with tilesWithdrawn := addNat s.faults.tilesWithdrawn t } }
  match ownerOfTile s t with
  | some n => failJob s n
  | none => s

/-- A residue record of a tile: the third within 1 s withdraws it (R356). -/
def noteResidue (s : State) (t : Nat) : State :=
  let rs := (s.faults.residues.filter fun e => decide (s.uptime ≤ e.2 + 1000000000)) ++ [(t, s.uptime)]
  let s := { s with faults := { s.faults with residues := rs } }
  if 3 ≤ (rs.filter fun e => e.1 == t).length then withdrawTile s t else s

/-- CAP_GIB of LP_STATUS: eight channels a group in service (Table 14.8). -/
def showCapacity (s : State) : State :=
  let a := pLpddr 32 + 0x44
  let per := 8 * 2 ^ fget s a 19 16
  fset s a 15 0 (if fget s a 19 16 == 0 then 0 else per * popField s a 31 28)

/-- An LPDDR6 group leaves service (R293). -/
def groupDown (s : State) (j : Nat) : State := showCapacity (setBit s (pLpddr 32 + 0x44) (28 + j) false)

/-- A port is held out of service: its BLK_STATE is FAULT (R276, R281). -/
def portFault (s : State) (p : Nat) : State := setCause (setBlk (portStops s p) (pPort p) 5) (pPort p) 5

/-! ## Outcomes of records that a checker finds (Table 17.2, R349) -/

/-- A stage of a subscriber's steps in progress completes with STAGE_RESIDUE. -/
def stageResidue (s : State) (n g : Nat) : State :=
  match getJob s n with
  | some j =>
    settle ((j.steps.filter fun x => !reported x g).foldl (fun s x => finishStage s n x.s g ⟨0x22, 0, 0⟩ []) s) n
  | none => s

/-- The reduction in progress in a slot completes with SLOT_LOST. -/
def slotLost (s : State) (i : Nat) : State :=
  match getSlot s i with
  | some x => settle (abortSlot s i 7 true) x.sub
  | none => s

/-- The lanes or channels of a loop that unlocked go down and are retrained (PLL_UNLOCK). -/
def loopUnlocked (s : State) (n : Nat) : State :=
  if n < 96 then (groupsOfNode n).foldl (fun s g => if pStage s (portOfGroup g) == 0 then s else losePort s (portOfGroup g)) s
  else if 105 ≤ n && n < 109 then
    forUp (fun s i => if bit s (pLpddr (8 * (n - 105) + i) + 0x40) 31 then ctrAdd s (pLpddr (8 * (n - 105) + i)) 2 1 else s) 8 0 s
  else s

/-- The Outcome of a record found by a checker that no other command stands for. -/
def foundOutcome (s : State) (r : FaultRec) : State :=
  let ty := r.sourceType.toNat
  let i := r.sourceInst.toNat
  let a := r.address.toNat
  match r.kind.toNat with
  | 0x01 => if ty == 0x29 then slotLost (ctrAdd s (pReduce i) 35 1) (a % 4096) else if ty == 0xF1 then stageResidue s r.subscriber.toNat (a / 2 ^ 32) else s
  | 0x02 => if ty == 0xF1 then stageResidue s r.subscriber.toNat (a / 2 ^ 32) else s
  | 0x04 => discardCell s a
  | 0x08 => withdrawCell s a
  | 0x09 => engineFault s i
  | 0x19 => if 16 ≤ i && i < 32 then groupDown s (i / 8) else s
  | 0x31 => loopUnlocked s a
  | 0x39 => portFault s (portOfGroup i)
  | 0x41 => withdrawTile s i
  | _ => s

/-! ## Fallow entry (R360, Table 17.5) -/

/-- Every egress port stops: a packet on the link ends with STOMP, and FENCE follows (step 2). -/
def fencePorts (s : State) : State :=
  forUp (fun s p =>
    let s := match (getPort s p).sending with
      | some (e, _) => emit (decCell (modPort s p fun x => { x with sending := none }) e.cell e.gen) (.link p "STOMP" 0)
      | none => s
    if admitted s p || pState s p == 5 then emit s (.link p "FENCE" 0) else s) 160 0 s

/-- FLT_STATUS as fallow entry writes it (R360): FALLOW, REQ_PIN, HW_PATH and CAUSE_KIND. -/
def fallowStatus (request hw : Bool) (kind : Nat) : Word :=
  BitVec.ofNat 32 (2 ^ 31 + b2n request * 2 ^ 30 + b2n hw * 2 ^ 29 + kind * 256)

/-- Fallow entry: steps 1 to 5 and 7; a second cause changes nothing. Kind 0 stands for a cause that is no fault record (a boot check,
JTAG), which the always-on record does not take. -/
def enterFallow (s : State) (kind : Nat) (record : BitVec 128) (hw : Bool) : State :=
  if fallow s then s
  else
    let s := wr s (pFlt + 0x44) (fallowStatus s.faults.requestHeld hw kind)
    let s := showPin (if kind == 0 then s else { s with alwaysOn := { record := record, time := s.time } })
    let s := raise s pFlt 9
    let s := forUp (fun s n => closeNow s n 2) 12 0 (fencePorts (abandonSwath s))
    if s.faults.mute then s else auditDevice s 0x0C 0 0 (leBytes 16 record.toNat)

/-! ## The collector (R347, R350, R351) -/

/-- The class of a record: by kind, or by source for LPDDR_TRAIN and STALL. -/
def classOf (r : FaultRec) : Nat :=
  match kindOf r.kind.toNat with
  | none => 3
  | some k =>
    if k.cls != 3 then k.cls
    else if r.kind.toNat == 0x19 then (if r.sourceInst.toNat < 16 then 2 else 1)
    else if r.sourceType.toNat == 0xF1 then 1 else 2

/-- The reactions of a record: the kind's word, with FALLOW and PIN for a fatal one. -/
def reactionsOf (s : State) (r : FaultRec) (cls : Nat) : Word :=
  (rd s (wReact r.kind.toNat) &&& 0x3F) ||| (if cls == 2 then 0x30 else 0)

/-- Write a record into the ring (R347, Table 17.1b). -/
def logRecord (s : State) (r : FaultRec) : State :=
  let seq := (fget s (pFltLog + 0x40) 31 0 + 1) % 2 ^ 32
  let a := wFltLog (seq % 4096)
  let isOver := decide ((rd s (pFltLog + 0x44)).toNat < (rd s (a + 24)).toNat)
  let s := if isOver then ctrAdd s pFltLog 0 1 else s
  let b := faultBits { r with overflow := isOver }
  let s := forUp (fun s j => wr s (a + 4 * j) (b.extractLsb' (32 * j) 32)) 4 0 s
  let s := wr (wr s (a + 16) (BitVec.ofNat 32 s.time)) (a + 20) (BitVec.ofNat 32 (s.time / 2 ^ 32))
  wr (wr s (a + 24) (BitVec.ofNat 32 seq)) (pFltLog + 0x40) (BitVec.ofNat 32 seq)

/-- A trap to the management core: taken now, or when the running handler returns (R351). -/
def trap (s : State) (seq : Nat) : State :=
  let s := ctrAdd s pFlt 4 1
  if s.faults.inHandler then { s with faults := { s.faults with traps := s.faults.traps ++ [seq] } }
  else ctrAdd { s with faults := { s.faults with inHandler := true } } pMgmt 1 1

/-- The reactions in the order of R351; while the device is fallow only PIN and EVENT. -/
def react (s : State) (r : FaultRec) (w : Word) (hw : Bool) : State :=
  let was := fallow s
  let s := if w.getLsbD 4 then assertPin s else s
  let goes := w.getLsbD 5 && !was
  let s := if goes then enterFallow s r.kind.toNat (faultBits r) hw else s
  let rest := !was && !goes
  let s := if rest && w.getLsbD 2 then
      (match pageOfSource r.sourceType.toNat r.sourceInst.toNat with
       | some p => resetBlock s p 3
       | none => s)
    else s
  let s := if rest && w.getLsbD 1 then trap s (fget s (pFltLog + 0x40) 31 0) else s
  let s := if w.getLsbD 0 then raise s pFlt 8 else s
  if goes && w.getLsbD 3 then { s with faults := { s.faults with chipResetOwed := true } } else s

/-- The key under which corrected records of one source and kind coalesce. -/
def coalesceKey (r : FaultRec) : Nat := (r.sourceType.toNat * 4096 + r.sourceInst.toNat) * 256 + r.kind.toNat

/-- The collector serves a record: class, coalescing, log, counters, reactions (R347 to R351). A COLLECTOR_MISMATCH record
bypasses the log (R357). -/
def serve (s : State) (r : FaultRec) : State :=
  match kindOf r.kind.toNat with
  | none => s
  | some k =>
    let cls := classOf r
    let r := { r with cls := BitVec.ofNat 2 cls, overflow := false, repeated := false }
    if r.kind.toNat == 0x23 then
      raise (enterFallow (assertPin (ctrAdd s pFlt 2 1)) 0x23 (faultBits r) true) pFlt 8
    else
      let key := coalesceKey r
      let last := Sparse.get (fun _ => none) s.faults.lastCorrected key
      let merged := cls == 0 && (match last with
        | some e => decide (s.uptime ≤ e.1 + 1000000)
        | none => false)
      if merged then
        let at' := match last with
          | some e => e.1
          | none => 0
        ctrAdd { s with faults := { s.faults with
          lastCorrected := Sparse.set (fun _ => none) s.faults.lastCorrected key (some (at', true)) } } pFlt 3 1
      else
        let owed := cls == 0 && (match last with
          | some e => e.2
          | none => false)
        let s := if cls == 0 then
            { s with faults := { s.faults with
              lastCorrected := Sparse.set (fun _ => none) s.faults.lastCorrected key (some (s.uptime, false)) } }
          else s
        let r := { r with repeated := owed }
        let s := ctrAdd (logRecord s r) pFlt cls 1
        let s := react s r (reactionsOf s r cls) k.fixed
        if r.sourceType.toNat == 0xF1 && (r.kind.toNat == 1 || r.kind.toNat == 2) then noteResidue s r.sourceInst.toNat else s

/-- The collector runs: the device has power and RESET_N is high. -/
def collecting (s : State) : Bool := live s

/-- FAULT_RECORD (R347): the oldest record reported, or one that a checker has just found, with its Outcome. -/
def execFaultRecord (src : FaultSrc) (s : State) : Out :=
  if !collecting s then .next s
  else
    match src with
    | .reported =>
      (match s.faults.reported with
       | [] => .next s
       | r :: rs => .next (atRest (serve (takeRecord { s with faults := { s.faults with reported := rs } } r) r)))
    | .found r =>
      if (kindOf r.kind.toNat).isNone then .next s
      else
        let s := match pageOfSource r.sourceType.toNat r.sourceInst.toNat with
          | some p => fset s (p + 0x18) 7 0 r.kind.toNat
          | none => s
        .next (atRest (serve (takeRecord (foundOutcome s r) r) r))

/-! ## The hardware path and its pins (R352, R358) -/

/-- FALLOW_REQ_N is acted on from the end of start-up step 2 (R413). -/
def requestArmed (s : State) : Bool :=
  match s.phase with
  | .ready => true
  | .bootRom => true
  | .starting k => 2 < k
  | _ => false

/-- EXT_FALLOW_REQ of page FLT. -/
def requestFault : FaultRec := mkFault 0x0B 0 0x4A 2 0 0xFF 0

/-- EXT_FALLOW_REQ (R352): REQ_PIN follows the level; the hardware path takes the device fallow. -/
def execExtFallowReq (s : State) : Out :=
  let s := setBit { s with faults := { s.faults with requestHeld := true } } (pFlt + 0x44) 30 true
  .next (if requestArmed s then serve s requestFault else s)

/-- FALLOW_REQ_N_HIGH (R352). -/
def execFallowReqNHigh (s : State) : Out :=
  .next (setBit { s with faults := { s.faults with requestHeld := false } } (pFlt + 0x44) 30 false)

/-- FAULT_N_PULSE_END (R352). -/
def execFaultNPulseEnd (s : State) : Out := .next (showPin { s with faults := { s.faults with pulse := false } })

/-- MGMT_LOCKSTEP (R358): the pair disagrees; no Shafort message is sent until reset. -/
def execMgmtLockstep (s : State) : Out :=
  if !live s then .next s
  else
    let s := setBit { s with faults := { s.faults with mute := true } } (pMgmt + 0x40) 31 false
    .next (serve s (mkFault 0x10 0 0x24 2 0 0xFF 0))

/-- MGMT_WATCHDOG (R358). -/
def execMgmtWatchdog (s : State) : Out :=
  if !live s then .next s
  else .next (serve { s with faults := { s.faults with mute := true } } (mkFault 0x10 0 0x25 2 0 0xFF 0))

/-- WATCHDOG_SERVICE (R358): the 100 ms count starts again. -/
def execWatchdogService (s : State) : Out :=
  if !live s then .next s else .next (ctrAdd { s with faults := { s.faults with wdogAt := s.uptime } } pMgmt 0 1)

/-- TRAP_RETURN (R351): the next waiting trap is taken. -/
def execTrapReturn (s : State) : Out :=
  if !s.faults.inHandler then .next s
  else
    match s.faults.traps with
    | [] => .next { s with faults := { s.faults with inHandler := false } }
    | _ :: ts => .next (ctrAdd { s with faults := { s.faults with traps := ts } } pMgmt 1 1)

/-! ## Stalls, parity, self-test, crossings (R20, R355, R356, R359) -/

/-- HANDSHAKE_STALL (R355): a tile's stall fails the jobs of its cluster and loses the reductions with an addition in flight;
the record is contained for a tile and fatal elsewhere. -/
def execHandshakeStall (sourceType : BitVec 8) (inst : Nat) (slotsInFlight : List Nat) (s : State) : Out :=
  if !live s then .next s
  else
    let s := if sourceType == 0xF1 then slotsInFlight.foldl slotLost (failCluster s (inst / 16)) else s
    .next (report s (mkFault sourceType.toNat inst 0x22 (if sourceType == 0xF1 then 1 else 2) 0 0xFF 0))

/-- REGISTER_SWEEP (R359): each word with bad parity is restored to what it held and reported; one that fails again is reported
as REG_PARITY_HARD. -/
def execRegisterSweep (bad : List (Nat × Bool)) (s : State) : Out :=
  if !live s then .next s
  else
    .next (bad.foldl (fun s b =>
      match pageOf b.1 with
      | none => s
      | some (k, a) =>
        let s := report s (mkFault k.ty (k.inst a) 0x20 0 b.1 0xFF 0)
        if b.2 then report s (mkFault k.ty (k.inst a) 0x21 2 b.1 0xFF 0) else s) s)

/-- TILE_SELF_TEST (R356): on a tile that no job owns. -/
def execTileSelfTest (tile : Nat) (s : State) : Out :=
  if !inService s || s.faults.held || 512 ≤ tile || (ownerOfTile s tile).isSome || s.faults.tilesWithdrawn.contains tile then .next s
  else .next { s with faults := { s.faults with tilesUnderTest := addNat s.faults.tilesUnderTest tile } }

/-- TILE_SELF_TEST_DONE (R356): a failing tile is withdrawn and reported. -/
def execTileSelfTestDone (tile : Nat) (pass : Bool) (s : State) : Out :=
  if !s.faults.tilesUnderTest.contains tile then .next s
  else
    let s := { s with faults := { s.faults with tilesUnderTest := s.faults.tilesUnderTest.filter (· != tile) } }
    .next (if pass then s else report (withdrawTile s tile) (mkFault 0xF1 tile 0x41 1 tile 0xFF 0))

/-- A 1-of-4 code has exactly one wire raised (R20). -/
def codeOk4 (c : BitVec 4) : Bool := c == 1 || c == 2 || c == 4 || c == 8

/-- Dies that send to or receive from a packet's cell: its own, and those of the ports it is queued at or being sent from. -/
def cellUsers (s : State) (c : Nat) : List Nat :=
  let queued := s.queues.filter fun q => q.2.any fun e => e.cell == c
  let ports := (queued.map fun q => fget s (wQueue q.1) 15 8) ++
    (s.ports.filter fun p => p.2.sending.any fun e => e.1.cell == c).map (·.1)
  cellDie c :: ports.map dieOfPort

/-- Dies among which the data of a crossing's channel goes for a victim (R25, R27): a packet's cell, the dies that host a slot's open
chunks with those its packets arrive on, a stage's tiles, and an engine's die, which the control channel joins to the island. -/
def victimDies (s : State) (channel victim : Nat) : List Nat × List Nat :=
  match channel with
  | 0 => ([cellDie victim], cellUsers s victim)
  | 1 =>
    (List.range 8, match getSlot s victim with
      | some x => (x.chunks.filter fun e => e.2.st != .unopened && e.2.st != .released).map fun e => hostDie victim e.1
      | none => [])
  | 2 =>
    (match getJob s (victim / 1024) with
     | some j => (match stageOf j (victim % 1024) with
       | some t =>
         let ds := ((List.range t.tiles).map fun i => (t.tileFirst + i) / 64).eraseDups
         (ds, List.range 8)
       | none => ([], []))
     | none => ([], []))
  | _ => ([victim / 8], List.range 8)

/-- A crossing lies on a path that the victim's words take (R18; log 78): a crossing between two dies on a path between its dies, the
bond or the island's link of one of its dies. -/
def usesCrossing (s : State) (crossing channel victim : Nat) : Bool :=
  let v := victimDies s channel victim
  if crossing < 12 then v.1.any fun a => v.2.any fun b => (crossingsOf a b).contains crossing || (crossingsOf b a).contains crossing
  else (v.1 ++ v.2).contains (if crossing < 20 then crossing - 12 else crossing - 20)

/-- CROSSING_WORD_RX (R20, Table 17.2): a poisoned word is not used; what it belonged to is lost by channel: packet (a cell),
reduction (a slot), tile (1,024 x subscriber + stage), control (an engine). A victim whose words do not take the crossing loses
nothing. -/
def execCrossingWordRx (crossing channel : Nat) (codes : List (BitVec 4)) (victim : Nat) (s : State) : Out :=
  if !live s || codes.all codeOk4 then .next s
  else
    let sub := match channel with
      | 1 => (match getSlot s victim with
        | some x => x.sub
        | none => 0xFF)
      | 2 => victim / 1024
      | _ => 0xFF
    let s := if !usesCrossing s crossing channel victim then s else match channel with
      | 0 => discardCell s victim
      | 1 => slotLost s victim
      | 2 => stageResidue s (victim / 1024) (victim % 1024)
      | _ => engineFault s victim
    .next (report s (mkFault 0xF0 crossing 3 1 (if channel == 2 then victim % 1024 else victim) sub 0))

/-! ## HELD (Table 17.5 step 6, R361, R374, R395) -/

/-- What the held device loses: packets, ricks, stashes and digests not yet released. -/
def loseWork (s : State) : State :=
  forUp showPools 8 0 { s with
    seals := s.seals.map fun r => { r with digests := [] },
    queues := [], deliv := [], cells := s.cells.filterMap fun e => if e.2.withdrawn then some (e.1, { cellInit with withdrawn := true }) else none, origWait := [], slots := [], heldPkts := [], pendingPosts := [], streams := [], msgs := [],
    jobs := s.jobs.map fun e => (e.1, e.2.map fun j =>
      { j with failed := true, hold := [], waitPosts := [], steps := [], members := [], ended := [], stash := [], recvMsgs := [],
               digests := [], sealedLens := [], staging := [], sealWaiting := false }) }

/-- Every regulator is commanded off, in the reverse order of R373; without its rails the device answers nothing. -/
def railsOff (s : State) : State :=
  let off := [8, 7, 6, 5, 4, 3, 1, 2].filter fun r => s.rails.contains r
  let s := off.foldl (fun s r => setBit (emit s (.pmbus r 1 0)) (pPwr + 0xC0 + 4 * r) 31 false) s
  { s with rails := [], phase := .unpowered, faults := { s.faults with supplyOff := false } }

/-- FALLOW_BLOCKS_HELD: every block is HELD, a launch that waited runs, and after a SUPPLY_FAULT the rails go off. -/
def execFallowBlocksHeld (s : State) : Out :=
  if !fallow s || s.faults.held then .next s
  else
    let s := loseWork { s with faults := { s.faults with held := true } }
    let s := match s.swathWait with
      | some q => runSwath { s with swathWait := none } q
      | none => s
    .next (if s.faults.supplyOff then railsOff s else s)

end Sys2Proof.Machine
end

