-- ==== Sys2Proof/Machine/Sessions.lean ====
section
/-! DEFINITION. The host port, Shafort datagrams, sessions and their events (R302 to R315, R331 to R335). The rows that carry a
message's content stand for that message, whole and with its datagrams accepted (log 36). -/
namespace Sys2Proof.Machine

open Sys2Proof

/-! ## The port (R302, R303) -/

/-- LINK_UP. -/
def hostUp (s : State) : Bool := bit s (pHostIf + 0x44) 31

/-- HOST_LINK_UP: a training attempt of a mode ends. Three failures in succession leave only the lower modes offered (R302). -/
def execHostLinkUp (mode : Nat) (trained : Bool) (s : State) : Out :=
  if !live s || 4 ≤ mode || !bit s (pHostIf + 0x40) (28 + mode) || mode < s.hostSt.offered then .next s
  else if trained then
    let s := fset (setBit s (pHostIf + 0x44) 31 true) (pHostIf + 0x44) 25 24 mode
    .next { s with hostSt := { s.hostSt with
      fails := Sparse.set (fun _ => 0) s.hostSt.fails mode 0, activeCfg := rd s (pHostIf + 0x40),
      activeAddrs := (List.range 11).map fun i => rd s (pHostIf + 0x54 + 4 * i) } }
  else
    let n := Sparse.get (fun _ => 0) s.hostSt.fails mode + 1
    let h := { s.hostSt with fails := Sparse.set (fun _ => 0) s.hostSt.fails mode n }
    .next { s with hostSt := if 3 ≤ n then { h with offered := mode + 1 } else h }

/-- HOST_LINK_LOSS: all enabled modes are offered again. -/
def execHostLinkLoss (s : State) : Out :=
  if !live s then .next s else .next (hostLinkDown s)

/-- The link-local address: fe80::/64 with the modified EUI-64 of HIF_MAC (R303). -/
def linkLocal : BitVec 128 :=
  let m := Config.hifMac.toNat
  let hi := m / 2 ^ 24
  let hi := if hi / 2 ^ 17 % 2 == 1 then hi - 2 ^ 17 else hi + 2 ^ 17
  BitVec.ofNat 128 (0xFE80 * 2 ^ 112 + hi * 2 ^ 40 + 0xFFFE * 2 ^ 24 + m % 2 ^ 24)

/-- HIF_IP4 in force. -/
def ip4 (s : State) : Nat := (s.hostSt.activeAddrs.getD 0 0).toNat
/-- HIF_IP6 in force. -/
def ip6 (s : State) : Nat :=
  (List.range 4).foldl (fun n i => n * 2 ^ 32 + (s.hostSt.activeAddrs.getD (3 + i) 0).toNat) 0
/-- IP4_EN. -/
def ip4On (s : State) : Bool := bit s (pHostIf + 0x40) 26
/-- An IPv6 address of the device. -/
def ownIp6 (s : State) (a : BitVec 128) : Bool := a == linkLocal || (ip6 s != 0 && a.toNat == ip6 s)
/-- An IPv4 address of the device. -/
def ownIp4 (s : State) (a : Word) : Bool := ip4On s && a.toNat == ip4 s

/-- A frame is accepted: its length, and its tag under VLAN_EN (R303). -/
def frameOk (s : State) (f : HostFrame) : Bool :=
  decide (f.len ≤ 9216) && (!bit s (pHostIf + 0x40) 25 || (match f.vlan with
    | some v => v.toNat == fget s (pHostIf + 0x40) 23 12
    | none => false))

/-- HOST_FRAME_RX (R303). -/
def execHostFrameRx (frame : HostFrame) (s : State) : Out :=
  if !live s || !hostUp s then .next s
  else
    let s := ctrAdd s pHostIf 0 1
    let drop := ctrAdd s pHostIf 2 1
    let answer := fun (t : String) (d : List Byte) => emit (ctrAdd s pHostIf 1 1) (.frame t d)
    if !frameOk s frame then .next drop
    else
      match frame.payload with
      | .arp t => .next (if ownIp4 s t then answer "ARP" [] else drop)
      | .neighbourSolicit t => .next (if ownIp6 s t then answer "NEIGHBOUR ADVERTISEMENT" [] else drop)
      | .icmpEcho d data => .next (if ownIp4 s d then answer "ICMP ECHO REPLY" data else drop)
      | .icmp6Echo d data => .next (if ownIp6 s d then answer "ICMPV6 ECHO REPLY" data else drop)
      | .fragment => .next s
      | .udp v6 p =>
        .next (if (v6 || ip4On s) && (p.toNat == 319 || p.toNat == 320 || p.toNat == fdef s (pHostIf + 0x48) 15 0 47190) then s else drop)
      | .other => .next drop

/-! ## Datagrams (R305, R306, R309) -/

/-- Types that a host sends: value and whether tagged (Table 15.3). -/
def hostTypes : List (Nat × Bool) :=
  [(0x01, false), (0x03, false), (0x05, true), (0x06, true), (0x10, true), (0x20, true), (0x22, true), (0x30, true), (0x31, true),
   (0x32, true), (0x33, true), (0x40, true), (0x42, true), (0x50, true)]

/-- The 32 header bytes (Table 15.2). -/
def headerBytes (d : Dgram) : List Byte :=
  [d.ver, d.ty] ++ beBytes 2 d.flags.toNat ++ beBytes 4 d.session.toNat ++ beBytes 8 d.seq.toNat ++ beBytes 4 d.msgNum.toNat ++
    beBytes 4 d.msgLen.toNat ++ beBytes 4 d.segOff.toNat ++ beBytes 2 d.segLen.toNat ++ beBytes 2 d.status.toNat

/-- TAG under a session key. -/
def tagOf (key : List Byte) (d : Dgram) : List Byte := kmac256 key (headerBytes d ++ d.segment) 16 "SHAFORT M"

/-- Version, type and lengths are consistent (R305). -/
def dgramOk (d : Dgram) : Bool :=
  d.ver == 1 && (hostTypes.any fun t => t.1 == d.ty.toNat) && d.segLen.toNat == d.segment.length &&
    decide (d.segOff.toNat + d.segLen.toNat ≤ d.msgLen.toNat) && decide (d.msgLen.toNat ≤ 1048576)

/-- A SEQ that R309 accepts: above H, or in the record of the 1,024 below H and not yet accepted. -/
def seqFresh (x : Session) (q : Nat) : Bool :=
  decide (x.highSeq < q) || (decide (x.highSeq ≤ q + 1024) && decide (q < x.highSeq) && !x.seen.contains q)

/-- The replay record with one more number. -/
def takeSeq (x : Session) (q : Nat) : Session :=
  if x.highSeq < q then
    { x with highSeq := q, seen := ((if x.highSeq == 0 then [] else [x.highSeq]) ++ x.seen).filter fun n => decide (q ≤ n + 1024) }
  else { x with seen := q :: x.seen }

/-- Bytes of a message that its segments cover. -/
def covered (got : List (Nat × List Byte)) (n : Nat) : Bool :=
  let rs := (got.map fun g => (g.1, g.1 + g.2.length)).mergeSort fun a b => decide (a.1 ≤ b.1)
  decide (n ≤ rs.foldl (fun e r => if r.1 ≤ e then Nat.max e r.2 else e) 0)

/-- Buffer a segment (R306): four incomplete messages at most; a complete one leaves the buffer for its own row. -/
def bufferSegment (x : Session) (d : Dgram) : Session :=
  let same := fun (p : Partial) => p.msgNum == d.msgNum.toNat && p.ty == d.ty.toNat
  let old := match x.partials.find? same with
    | some p => p.got
    | none => []
  let got := old ++ [(d.segOff.toNat, d.segment)]
  let rest := x.partials.filter fun p => !same p
  if covered got d.msgLen.toNat then { x with partials := rest }
  else if 4 ≤ rest.length && old.isEmpty then x
  else { x with partials := rest ++ [{ msgNum := d.msgNum.toNat, ty := d.ty.toNat, total := d.msgLen.toNat, got := got }] }

/-- SHAFORT_SEGMENT_RX (R305, R306, R309). -/
def execShafortSegmentRx (d : Dgram) (s : State) : Out :=
  if !live s || !hostUp s then .next s
  else if !dgramOk d then .next (ctrAdd s pHostIf 2 1)
  else if hostTypes.contains (d.ty.toNat, false) then
    .next (if d.tag == List.replicate 16 0 then s else ctrAdd s pHostIf 3 1)
  else
    match getSession s d.session.toNat with
    | none => .next s
    | some x =>
      if !x.accepted then .next s
      else if d.tag != tagOf x.key d then .next (ctrAdd s pHostIf 3 1)
      else if !seqFresh x d.seq.toNat then .next (ctrAdd s pHostIf 4 1)
      else .next (setSession s d.session.toNat (some (bufferSegment (takeSeq x d.seq.toNat) d)))

/-- SEGMENT_TIMEOUT (R306). -/
def execSegmentTimeout (session : Nat) (msgNum : Word) (s : State) : Out :=
  match getSession s session with
  | none => .next s
  | some x => .next (setSession s session (some { x with partials := x.partials.filter fun p => p.msgNum != msgNum.toNat }))

/-! ## Opening (R308, R310, R331 to R335) -/

/-- Shafort is served: start-up step 10 has run, or the boot ROM serves it; R358 may forbid every message. -/
def served (s : State) : Bool :=
  !s.faults.mute && (inService s || (match s.phase with
    | .bootRom => true
    | _ => false))

/-- Only the requests of R310's list are served. -/
def limited (s : State) : Bool :=
  fallow s || (match s.phase with
    | .bootRom => true
    | _ => false)

/-- The sessions, as identifier and session. -/
def sessionList (s : State) : List (Nat × Session) := s.sessions.filterMap fun e => e.2.map fun x => (e.1, x)
/-- Open sessions, and openings between CHALLENGE and ACCEPT. -/
def openCount (s : State) : Nat := ((sessionList s).filter fun e => e.2.accepted).length
def openingCount (s : State) : Nat := ((sessionList s).filter fun e => !e.2.accepted).length
/-- A maker session is open. -/
def makerOpen (s : State) : Bool := (sessionList s).any fun e => e.2.accepted && e.2.role == 2

/-- The session with an identifier, once accepted. -/
def openSession (s : State) (sid : Nat) : Option Session :=
  match getSession s sid with
  | some x => if x.accepted then some x else none
  | none => none

/-- HELLO (R308, R310, R334). -/
def execHello (ver : Byte) (role : Nat) (nonce : List Byte) (linkLocal : Bool) (s : State) : Out :=
  if !served s || !hostUp s then .next s
  else if ver != 1 then .next (sendError s 0 0 1)
  else if 4 ≤ openingCount s || 16 ≤ openCount s || (role == 2 && makerOpen s) then .next (sendError s 0 0 2)
  else if 2 < role || nonce.length != 32 || (s.fuses.secState == 0 && !(role == 1 && linkLocal)) then .next (sendError s 0 0 3)
  else
    let sid := s.nextSession
    let d := draw s
    let s := d.2
    let devNonce := freeBytes d.1 32
    let unsigned := beBytes 4 sid ++ devNonce ++ Config.kemKey d.1 ++ Config.deviceCert
    let t1 := shake256 ([BitVec.ofNat 8 role] ++ nonce ++ unsigned) 64
    let x : Session :=
      { accepted := false, role := role, keyDigest := [], cred := 0x3F, key := [], hostNonce := nonce, devNonce := devNonce, draw := d.1,
        t1 := t1, scope := 0, highSeq := 0, seen := [], nextSeq := 1, done := [], ranges := [], lastBits := [],
        ackedPages := [], events := [], trigQueue := [], dropped := 0, partials := [], audit := none }
    let s := setSession { s with nextSession := s.nextSession % (2 ^ 32 - 1) + 1 } sid (some x)
    .next (sendMsg s 0 2 0 0 0 (unsigned ++ Config.slhSign "SHAFORT" t1 d.1))

/-- The credential entry of an operator key (R332). -/
def credOf (s : State) (dig : List Byte) : Option Nat :=
  findUp (fun e => bit s (wCred e) 31 && ((List.range 8).map fun j => leBytes 4 (rd s (wCred e + 4 + 4 * j)).toNat).flatten == dig) 64 0

/-- The unlock token of a maker's PROOF (R335): its SCOPE. -/
def unlockScope (s : State) (x : Session) (t : Option Token) : Option Nat :=
  match t with
  | none => none
  | some t =>
    let b := t.statement
    let ok := b.length == 96 && slice b 0 4 == [0x50, 0x55, 0x4C, 0x31] && leAt b 4 4 < 8 && slice b 8 32 == deviceId &&
      slice b 40 32 == x.devNonce && (slice b 72 24).all (· == 0)
    match chainLeaf s Config.makerRoot 3 t.chain with
    | some leaf => if ok && Config.slhVerify (Config.certKey leaf) "PAROON UNLOCK" b t.sig then some (leAt b 4 4) else none
    | none => none

/-- The consent token (R335). -/
def consentOk (s : State) (dig : List Byte) (t : Option Token) : Bool :=
  match t with
  | none => false
  | some t =>
    let b := t.statement
    b.length == 96 && slice b 0 4 == [0x50, 0x43, 0x4E, 0x31] && (slice b 4 4).all (· == 0) && slice b 8 32 == deviceId &&
      slice b 40 32 == dig && decide (s.time < leAt b 72 8) && (slice b 80 16).all (· == 0) &&
      (match roleKey s s.fuses.secRoot 1 t.chain with
       | some key => Config.slhVerify key "PAROON CONSENT" b t.sig
       | none => false)

/-- What a verified PROOF gives: the leaf key, the credential entry, and the SCOPE of a maker. -/
structure Proven where
  key : List Byte
  cred : Nat
  scope : Nat
  deriving DecidableEq, Repr

/-- The leaf key a PROOF shows for the session's role (R331, R334): a single self-signed role 1 certificate while UNCOMMISSIONED. -/
def proofKey (s : State) (x : Session) (b : ProofBody) : Option (List Byte) :=
  if x.role == 2 then roleKey s Config.makerRoot 2 b.chain
  else if s.fuses.secState == 0 then
    (match b.chain with
     | [c] => if Config.certSignedBy c (Config.certKey c) && Config.certRole c == some 1 then some (Config.certKey c) else none
     | _ => none)
  else roleKey s s.fuses.secRoot x.role b.chain

/-- The check of step 4 of Table 15.4. -/
def proofOk (s : State) (x : Session) (b : ProofBody) (t2 : List Byte) : Option Proven :=
  match proofKey s x b with
  | none => none
  | some key =>
    let dig := keyDigest key
    if b.ct.length != 1568 || !Config.slhVerify key "SHAFORT" t2 b.sig then none
    else
      match x.role with
      | 0 => (credOf s dig).map fun e => ⟨key, e, 0⟩
      | 1 => if s.fuses.secState == 0 && auditBlocked s then none else some ⟨key, 0x3F, 0⟩
      | _ =>
        match unlockScope s x b.unlock with
        | some sc =>
          if bit s (pRst + 0x44) 9 && s.fuses.unlocks < 16 && (s.fuses.secState == 0 || consentOk s dig b.consent) then
            some ⟨key, 0x3F, sc⟩
          else none
        | none => none

/-- SEC_ROOT and STATE become those of a first installer, and batches are numbered from then on (R219, R334); or a maker's unlock is
counted (R335). -/
def openEffects (s : State) (x : Session) (sid : Nat) (p : Proven) : State :=
  let dig := keyDigest p.key
  if x.role == 2 then
    let s := auditAdd s 0x0D 2 0 (p.scope % 65536) sid dig []
    refreshCert { s with fuses := { s.fuses with unlocks := s.fuses.unlocks + 1, secState := 2 } }
  else if s.fuses.secState == 0 then
    let s := auditAdd s 0x10 1 0 0 sid dig []
    refreshCert { s with fuses := { s.fuses with secState := 1, secRoot := dig, unlocksRecorded := s.fuses.unlocks, batches := 0 },
                         audit := { s.audit with lost := 0 } }
  else s

/-- PROOF (R308, R310, R332 to R335). -/
def execProof (session : Nat) (body : ProofBody) (s : State) : Out :=
  match getSession s session with
  | none => .next s
  | some x =>
    if x.accepted || !served s then .next s
    else
      let t2 := shake256 (x.t1 ++ body.ct ++ body.chain.flatten) 64
      let gone := setSession s session none
      match proofOk s x body t2 with
      | none => .next (sendError gone 0 0 3)
      | some p =>
        if 16 ≤ openCount s || (x.role == 2 && makerOpen s) then .next (sendError gone 0 0 2)
        else
          let key := kmac256 (Config.kemDecaps x.draw body.ct) t2 32 "SHAFORT K"
          let dig := keyDigest p.key
          let s := openEffects s x session p
          let s := auditAdd s 3 x.role 0 x.role session dig []
          let s := setSession s session (some { x with accepted := true, key := key, keyDigest := dig, cred := p.cred, scope := p.scope })
          .next (sendMsg s session 4 0 0 0 [])

/-- PROOF_TIMEOUT (R308): the identifier is released. -/
def execProofTimeout (session : Nat) (s : State) : Out :=
  match getSession s session with
  | some x => if x.accepted then .next s else .next (setSession s session none)
  | none => .next s

/-! ## Aborted transfers (R316, R317) and closing (R310) -/

/-- The range of a DIR 0 REGION transfer that ends without a commit is unsettled. -/
def unsettle (s : State) (t : Transfer) : State :=
  if t.req.target == 1 && !t.req.dir && !t.waiting then
    (match getJob s t.req.subscriber with
     | some j => setJob s t.req.subscriber (some { j with
         unsettled := j.unsettled ++ [(t.req.region, t.req.offset, t.req.offset + t.req.length)] })
     | none => s)
  else s

/-- A transfer is aborted. -/
def abortTransfer (s : State) (sid tr : Nat) : State :=
  let gone := s.transfers.filter fun t => t.session == sid && t.req.transfer == tr
  gone.foldl unsettle { s with transfers := s.transfers.filter fun t => !(t.session == sid && t.req.transfer == tr) }

/-- A session closes: its record, its transfers, its requests; the device's own CLOSE where it closes (R310). -/
def closeSession (s : State) (sid cause : Nat) : State :=
  match openSession s sid with
  | none => s
  | some x =>
    let s := auditAdd s 4 x.role cause x.role sid [] []
    let s := if cause == 1 || cause == 2 || cause == 4 then sendMsg s sid 5 0 0 0 [BitVec.ofNat 8 cause] else s
    let s := ((s.transfers.filter fun t => t.session == sid).map (·.req.transfer)).foldl (fun s t => abortTransfer s sid t) s
    let s := { s with attests := s.attests.filter fun a => a.1 != sid,
                      heldReqs := s.heldReqs.filter fun h => match h with
                        | .bulkOpen q _ _ => q != sid
                        | .load _ _ _ => true }
    setSession s sid none

/-- CLOSE from the host. -/
def execClose (session : Nat) (s : State) : Out := if served s then .next (closeSession s session 0) else .next s

/-- KEEPALIVE: the idle time of the session starts again; that timer runs outside the model (log 1). -/
def execKeepalive (_session : Nat) (s : State) : Out := .next s

/-- SESSION_IDLE_TIMEOUT. -/
def execSessionIdleTimeout (session : Nat) (s : State) : Out := .next (closeSession s session 1)

/-! ## Requests once each (R313) -/

/-- What a request number stands for. -/
inductive ReqKind where
  | fresh
  | again (resp : Option HostMsg)
  | stale
  deriving DecidableEq, Repr

/-- The outcome of R313 for a MSG_NUM. -/
def reqKind (x : Session) (m : Nat) : ReqKind :=
  match x.done.find? fun d => d.1 == m with
  | some d => .again d.2
  | none => if 64 ≤ x.done.length && m < (x.done.headD (0, none)).1 then .stale else .fresh

/-- Enter an executed number with its response; the 64 highest are kept. -/
def keepDone (x : Session) (m : Nat) (r : Option HostMsg) : Session :=
  let rest := x.done.filter fun d => d.1 != m
  let all := rest.takeWhile (fun d => decide (d.1 < m)) ++ [(m, r)] ++ rest.dropWhile (fun d => decide (d.1 < m))
  { x with done := all.drop (all.length - 64) }

/-- A request begins: its number is executed. -/
def begin' (s : State) (sid m : Nat) : State :=
  match getSession s sid with
  | some x => setSession s sid (some (keepDone x m none))
  | none => s

/-- Send a response and keep it. -/
def respond (s : State) (sid m ty status : Nat) (body : List Byte) : State :=
  match getSession s sid with
  | some x =>
    let r : HostMsg := { ty := ty, queue := hostQueue ty, session := sid, seq := x.nextSeq, msgNum := m, flags := 0, status := status, body := body }
    sendMsg (setSession s sid (some (keepDone x m (some r)))) sid ty m 0 status body
  | none => s

/-- Run `f` for a request of an open session, once (R313); under R310 a request that is not `allowed` is answered FALLOW. -/
def request (s : State) (sid m : Nat) (allowed : Bool) (f : State → Session → State) : State :=
  match openSession s sid with
  | none => s
  | some x =>
    if !served s then s
    else
      match reqKind x m with
      | .again (some r) => sendMsg s sid r.ty m r.flags r.status r.body
      | .again none => s
      | .stale => sendError s sid m 5
      | .fresh => if limited s && !allowed then sendError s sid m 6 else f (begin' s sid m) (keepDone x m none)

/-! ## Events (R314, R315) -/

/-- Pages whose EVT_STATUS holds anything. -/
def eventPages (s : State) : List Nat :=
  (s.regs.filter fun e => e.1 % 0x1000 == 0x10 && decide (e.1 < 0x1000000)).map fun e => e.1 - 0x10

/-- SUBSCRIBE (R314): the ranges replace the earlier ones; what stands already is no change (R315). -/
def execSubscribe (session : Nat) (msgNum : Word) (ranges : List (Nat × Nat)) (s : State) : Out :=
  .next (request s session msgNum.toNat true fun s x =>
    if 64 < ranges.length then respond s session msgNum.toNat 0x7F 4 []
    else
      let x := { x with ranges := ranges }
      setSession s session (some { x with
        lastBits := (eventPages s).foldl (fun m p =>
          if subscribed x p then Sparse.set (fun _ => 0) m p (evBits s x p) else m) x.lastBits }))

/-- After an acknowledgement, the page's next event: bits gained since its last EVENT. -/
def nextPageEvent (s : State) (sid page : Nat) : State :=
  match getSession s sid with
  | none => s
  | some x =>
    let v := evBits s x page
    let old := Sparse.get (fun _ => 0) x.lastBits page
    if subscribed x page && v &&& ~~~ old != 0 then sendPageEvent s sid x page v
    else setSession s sid (some { x with lastBits := Sparse.set (fun _ => 0) x.lastBits page v })

/-- The KIND 2 event once the queue has drained (R315). -/
def lostEvent (s : State) (sid : Nat) : State :=
  match getSession s sid with
  | none => s
  | some x =>
    if x.dropped == 0 || !x.trigQueue.isEmpty then s
    else
      let n := s.evtSeq
      let body := beBytes 4 n ++ [2] ++ beBytes 4 x.dropped
      let x := { x with dropped := 0, trigQueue := [{ evtSeq := n, page := 0, bits := 0, body := body }] }
      sendMsg (setSession { s with evtSeq := (n + 1) % 2 ^ 32 } sid (some x)) sid 0x21 0 0 0 body

/-- EVENT_ACK (R315). -/
def execEventAck (session : Nat) (evtSeq : Nat) (s : State) : Out :=
  match openSession s session with
  | none => .next s
  | some x =>
    match x.events.find? fun e => e.evtSeq == evtSeq with
    | some e =>
      let x := { x with events := x.events.filter fun f => f.evtSeq != evtSeq, ackedPages := addNat x.ackedPages e.page }
      .next (nextPageEvent (setSession s session (some x)) session e.page)
    | none =>
      if x.trigQueue.any fun e => e.evtSeq == evtSeq then
        .next (lostEvent (setSession s session (some { x with trigQueue := x.trigQueue.filter fun e => e.evtSeq != evtSeq })) session)
      else .next s

/-- An EVENT of the session that is not acknowledged. -/
def unackedEvent (x : Session) (q : Nat) : Option EventOut := (x.events ++ x.trigQueue).find? fun e => e.evtSeq == q

/-- EVENT_RESEND_TIMER (R315). -/
def execEventResendTimer (session : Nat) (evtSeq : Nat) (s : State) : Out :=
  match openSession s session with
  | none => .next s
  | some x =>
    match unackedEvent x evtSeq with
    | some e => .next (sendMsg s session 0x21 0 0 0 e.body)
    | none => .next s

/-- EVENT_ACK_TIMEOUT (R310): the session closes with cause 2. -/
def execEventAckTimeout (session : Nat) (evtSeq : Nat) (s : State) : Out :=
  match openSession s session with
  | none => .next s
  | some x => if (unackedEvent x evtSeq).isSome then .next (closeSession s session 2) else .next s

end Sys2Proof.Machine
end

