-- ==== Sys2Proof/Machine/Bulk.lean ====
section
/-! DEFINITION. Bulk transfers (R316 to R318). -/
namespace Sys2Proof.Machine

open Sys2Proof

/-- The open transfer of a session with a TRANSFER number. -/
def getTransfer (s : State) (sid tr : Nat) : Option Transfer := s.transfers.find? fun t => t.session == sid && t.req.transfer == tr
def setTransfer (s : State) (x : Transfer) : State :=
  { s with transfers := s.transfers.map fun t => if t.session == x.session && t.req.transfer == x.req.transfer then x else t }
def dropTransfer (s : State) (sid tr : Nat) : State :=
  { s with transfers := s.transfers.filter fun t => !(t.session == sid && t.req.transfer == tr) }

/-- Segments of a transfer. -/
def segCount (r : BulkReq) (len : Nat) : Nat := ceilDiv len (Nat.max 1 r.segSize)
/-- Bytes of segment `g`. -/
def segBytes (r : BulkReq) (len g : Nat) : Nat := Nat.min r.segSize (len - g * r.segSize)

/-- The role and quire test of Table 15.6. -/
def bulkRole (s : State) (x : Session) (r : BulkReq) : Bool :=
  match r.target with
  | 0 => x.role == 0 || x.role == 1
  | 5 => x.role == 1
  | _ => x.role == 0 && ownsSub s x r.subscriber

/-- The direction of Table 15.6. -/
def bulkDir (r : BulkReq) : Bool :=
  match r.target with
  | 0 => !r.dir
  | 1 => true
  | 5 => !r.dir
  | _ => r.dir

/-- The records a SEAL_RECORDS or CHUNK_DIGESTS open names: from a first STEP on, in step order. -/
def sealRange (s : State) (r : BulkReq) : List SealRec :=
  ((s.seals.filter fun e => e.sub == r.subscriber && decide (r.offset ≤ e.step)).mergeSort fun a b => decide (a.step ≤ b.step)).take r.length

/-- The region of a subscriber's LOADED job. -/
def bulkRegion (s : State) (r : BulkReq) : Option (JobSt × Region) :=
  match getJob s r.subscriber with
  | some j => if jobState s r.subscriber == 2 then (regionOf j r.region).map fun e => (j, e) else none
  | none => none

/-- The range test of Table 15.6. -/
def bulkRange (s : State) (r : BulkReq) : Bool :=
  match r.target with
  | 0 => loadAreaOk s r.offset r.length
  | 1 =>
    (match bulkRegion s r with
     | some (j, e) => decide (r.offset + r.length ≤ e.bytes) && (r.dir || e.source == 2 || writtenInPlace j r.region)
     | none => false)
  | 2 => (sealRange s r).length == r.length
  | 3 => (sealRange s r).length == r.length
  | 4 => r.offset == 0 && r.length == 50048 && s.lastBatch.any fun b => b.sub == r.subscriber
  | 5 => r.offset == 0 && decide (r.length ≤ 33554432)
  | _ => false

/-- A step of the subscriber's job is in progress (R317). -/
def stepRuns (s : State) (n : Nat) : Bool :=
  match getJob s n with
  | some j => !j.steps.isEmpty
  | none => false

/-- An update is between steps 1 and 5 of Table 16.5. -/
def updateRuns (s : State) : Bool :=
  s.fw.staged.isSome || s.fw.writing.isSome || s.transfers.any fun t => t.req.target == 5

/-- Bytes of a region for the host; a poisoned codeword delivers none, so its bytes are free values (R297, log 37). -/
def regionForHost (s : State) (j : JobSt) (e : Region) (o n : Nat) : List Byte × State :=
  let d := draw s
  let bs := (List.range n).map fun i =>
    if s.memSt.poison.contains (regionAddr j e (o + i) / 32) then Config.freeByte d.1 i else memRead s (regionAddr j e (o + i))
  (bs, if regionPoisoned s j e then d.2 else s)

/-- What a DIR 1 transfer sends. -/
def bulkData (s : State) (r : BulkReq) : List Byte × State :=
  match r.target with
  | 1 =>
    (match bulkRegion s r with
     | some (j, e) => regionForHost s j e r.offset r.length
     | none => ([], s))
  | 2 => (((sealRange s r).map sealBytes).flatten, s)
  | 3 => (((sealRange s r).map fun e => e.digests.flatten).flatten, s)
  | 4 =>
    (match s.lastBatch.find? fun b => b.sub == r.subscriber with
     | some b => (b.statement ++ b.sig, s)
     | none => ([], s))
  | _ => ([], s)

/-- Bytes of the transfer. -/
def transferLen (t : Transfer) : Nat := if t.req.dir then t.data.length else t.req.length

/-- BULK_DATA of one segment. -/
def sendSegment (s : State) (t : Transfer) (g : Nat) : State :=
  let bs := slice t.data (g * t.req.segSize) t.req.segSize
  sendMsg (ctrAdd s pHostIf 5 bs.length) t.session 0x31 0 0 0 (beBytes 2 t.req.transfer ++ [0, 0] ++ beBytes 4 g ++ bs)

/-- Bytes sent and not acknowledged. -/
def outstanding (t : Transfer) : Nat := ((List.range t.sent).filter fun g => !t.segs.contains g).length * t.req.segSize

/-- Send segments while at most 16 MiB stand unacknowledged. -/
def pumpTransfer : Nat → State → Transfer → State
  | 0, s, t => setTransfer s t
  | fuel + 1, s, t =>
    if t.sent < segCount t.req t.data.length && outstanding t + t.req.segSize ≤ 16777216 then
      pumpTransfer fuel (sendSegment s t t.sent) { t with sent := t.sent + 1 }
    else setTransfer s t

/-- The open is served: BULK_RESP OK, and a DIR 1 transfer begins to send. -/
def serveOpen (s : State) (t : Transfer) : State :=
  let b := if t.req.dir then bulkData s t.req
    else (if t.req.target == 5 then List.replicate t.req.length 0 else [], s)
  let t := { t with waiting := false, data := b.1 }
  let s := respond (setTransfer b.2 t) t.session t.msgNum 0x34 0 (beBytes 2 t.req.transfer)
  if t.req.dir then pumpTransfer (segCount t.req t.data.length) s t else s

/-- BULK_OPEN past R313: the checks, the wait for BIST (R385) or a step (R317), or the open. -/
def bulkOpenNow (s : State) (sid m : Nat) (x : Session) (r : BulkReq) : State :=
  let mine := s.transfers.filter fun t => t.session == sid
  if !(r.segSize % 1024 == 0 && 1024 ≤ r.segSize && r.segSize ≤ 8192) || mine.any (fun t => t.req.transfer == r.transfer) then
    respond s sid m 0x34 4 (beBytes 2 r.transfer)
  else if 5 < r.target || !bulkDir r then respond s sid m 0x34 8 (beBytes 2 r.transfer)
  else if !bulkRole s x r then respond s sid m 0x34 7 (beBytes 2 r.transfer)
  else if 8 ≤ mine.length || 32 ≤ s.transfers.length || (r.target == 5 && updateRuns s) then respond s sid m 0x34 10 (beBytes 2 r.transfer)
  else if s.bistRunning && r.target ≤ 1 then { s with heldReqs := s.heldReqs ++ [.bulkOpen sid m r] }
  else if !bulkRange s r then respond s sid m 0x34 8 (beBytes 2 r.transfer)
  else
    let t : Transfer :=
      { session := sid, req := r, msgNum := m, waiting := true, segs := [], unacked := 0, data := [], sent := 0 }
    let s := { s with transfers := s.transfers ++ [t] }
    if r.target == 1 && stepRuns s r.subscriber then s else serveOpen s t

/-- BULK_OPEN (R316, R317). -/
def execBulkOpen (session : Nat) (msgNum : Word) (req : BulkReq) (s : State) : Out :=
  .next (request s session msgNum.toNat (req.target == 5 && (match openSession s session with
      | some x => x.role == 1
      | none => false))
    fun s x => bulkOpenNow s session msgNum.toNat x req)

/-- BULK_OPEN_RESUME (R317): no step is in progress now; a region that has gone meanwhile is no longer a target. -/
def execBulkOpenResume (session transfer : Nat) (s : State) : Out :=
  match getTransfer s session transfer with
  | none => .next s
  | some t =>
    if !t.waiting || stepRuns s t.req.subscriber then .next s
    else if bulkRange s t.req then .next (serveOpen s t)
    else .next (respond (dropTransfer s session transfer) session t.msgNum 0x34 8 (beBytes 2 transfer))

/-- A host datagram of an open transfer of an open session; under R310 only target FIRMWARE may run. -/
def bulkMsg (s : State) (sid tr : Nat) (f : Transfer → State) : State :=
  match openSession s sid, getTransfer s sid tr with
  | some _, some t => if !served s || t.waiting then s else if limited s && t.req.target != 5 then sendError s sid 0 6 else f t
  | _, _ => s

/-- CUM and the 256 bits of SACK (R318). -/
def bulkAckBody (t : Transfer) : List Byte :=
  let cum := (findUp (fun g => !t.segs.contains g) (t.segs.length + 1) 0).getD 0
  let bits := ((List.range 256).map fun i => if t.segs.contains (cum + 1 + i) then 2 ^ i else 0).sum
  beBytes 2 t.req.transfer ++ [0, 0] ++ beBytes 4 cum ++ beBytes 32 bits

/-- Send BULK_ACK of a DIR 0 transfer. -/
def sendBulkAck (s : State) (t : Transfer) : State :=
  sendMsg (setTransfer s { t with unacked := 0 }) t.session 0x32 0 0 0 (bulkAckBody t)

/-- `data` with `bs` at byte `o`. -/
def patch (data : List Byte) (o : Nat) (bs : List Byte) : List Byte := data.take o ++ bs ++ data.drop (o + bs.length)

/-- Write a segment where its target says. -/
def writeSegment (s : State) (t : Transfer) (g : Nat) (bs : List Byte) : State × Transfer :=
  let o := g * t.req.segSize
  match t.req.target with
  | 0 => (memStore s (t.req.offset + o) bs, t)
  | 1 =>
    (match bulkRegion s t.req with
     | some (j, e) => (regionWrite s j e (t.req.offset + o) bs, t)
     | none => (s, t))
  | _ => (s, { t with data := patch t.data o bs })

/-- BULK_DATA from the host (R316, R318). A region whose job has gone is no target any more: the transfer is aborted. -/
def execBulkData (session transfer seg : Nat) (data : List Byte) (s : State) : Out :=
  .next (bulkMsg s session transfer fun t =>
    if t.req.dir || segCount t.req t.req.length ≤ seg || data.length != segBytes t.req t.req.length seg then sendError s session 0 4
    else if t.req.target == 1 && (bulkRegion s t.req).isNone then sendError (abortTransfer s session transfer) session 0 8
    else
      let w := writeSegment (ctrAdd s pHostIf 5 data.length) t seg data
      let t := { w.2 with segs := addNat t.segs seg, unacked := t.unacked + 1 }
      let s := setTransfer w.1 t
      if 64 ≤ t.unacked then sendBulkAck s t else s)

/-- BULK_ACK_TIMER (R318). -/
def execBulkAckTimer (session transfer : Nat) (s : State) : Out :=
  match getTransfer s session transfer with
  | some t => if t.req.dir || t.unacked == 0 then .next s else .next (sendBulkAck s t)
  | none => .next s

/-- BULK_ACK from the host (R318): segments below CUM and those of SACK are acknowledged; one missing behind three later ones is
sent again. -/
def execBulkAck (session transfer cum : Nat) (sack : List Nat) (s : State) : Out :=
  .next (bulkMsg s session transfer fun t =>
    if !t.req.dir then s
    else
      let got := (List.range t.sent).filter fun g => g < cum || sack.contains g || t.segs.contains g
      let t := { t with segs := got }
      let lost := (List.range t.sent).filter fun g => !got.contains g && decide (3 ≤ (sack.filter fun h => g < h).length)
      let s := lost.foldl (fun s g => sendSegment s t g) (setTransfer s t)
      pumpTransfer (segCount t.req t.data.length) s t)

/-- BULK_RESEND_TIMER (R318). -/
def execBulkResendTimer (session transfer seg : Nat) (s : State) : Out :=
  match getTransfer s session transfer with
  | some t => if t.req.dir && seg < t.sent && !t.segs.contains seg then .next (sendSegment s t seg) else .next s
  | none => .next s

/-- What a committed range leaves of an unsettled one. -/
def cutRange (reg lo hi : Nat) (u : Nat × Nat × Nat) : List (Nat × Nat × Nat) :=
  if u.1 != reg || hi ≤ u.2.1 || u.2.2 ≤ lo then [u]
  else (if u.2.1 < lo then [(reg, u.2.1, lo)] else []) ++ (if hi < u.2.2 then [(reg, hi, u.2.2)] else [])

/-- A complete transfer closes: a REGION is settled where it was covered; an image goes to its checks (Table 16.5 step 2). -/
def commitTransfer (s : State) (t : Transfer) : State :=
  let s := dropTransfer s t.session t.req.transfer
  if t.req.target == 1 && !t.req.dir then
    (match getJob s t.req.subscriber with
     | some j => setJob s t.req.subscriber (some { j with
         unsettled := (j.unsettled.map (cutRange t.req.region t.req.offset (t.req.offset + t.req.length))).flatten })
     | none => s)
  else if t.req.target == 5 then fset { s with fw := { s.fw with staged := some t.data } } (pSec + 0x50) 2 0 1
  else s

/-- The first segment of the transfer not received or not acknowledged. -/
def firstMissing (t : Transfer) : Option Nat := findUp (fun g => !t.segs.contains g) (segCount t.req (transferLen t)) 0

/-- BULK_COMMIT (R318): OK and closed, or INCOMPLETE with the offset of the first 4 KiB unit not whole. -/
def execBulkCommit (session : Nat) (msgNum : Word) (transfer : Nat) (s : State) : Out :=
  let fw := match getTransfer s session transfer with
    | some t => t.req.target == 5
    | none => false
  .next (request s session msgNum.toNat fw fun s _ =>
    match getTransfer s session transfer with
    | none => respond s session msgNum.toNat 0x34 8 (beBytes 2 transfer)
    | some t =>
      if t.waiting then respond s session msgNum.toNat 0x34 9 (beBytes 8 0)
      else
        match firstMissing t with
        | some g => respond s session msgNum.toNat 0x34 9 (beBytes 8 (g * t.req.segSize / 4096 * 4096))
        | none => respond (commitTransfer s t) session msgNum.toNat 0x34 0 (beBytes 2 transfer))

/-- BULK_IDLE_TIMEOUT (R316, R317). -/
def execBulkIdleTimeout (session transfer : Nat) (s : State) : Out :=
  match getTransfer s session transfer with
  | some t => if t.waiting then .next s else .next (abortTransfer s session transfer)
  | none => .next s

end Sys2Proof.Machine
end

