-- ==== Sys2Proof/Machine/Audit.lean ====
section
/-! DEFINITION. Firmware checks and updates (R327 to R330), the audit ring and its streams (R320, R340 to R343), attestation
(R321, R339), RECOMMISSION, DECOMMISSION and JTAG (R334, R336, R337). -/
namespace Sys2Proof.Machine

open Sys2Proof

/-! ## Firmware images (R327, R328) -/

/-- SIG_OFFSET of an image. -/
def sigOffset (img : List Byte) : Nat := leAt img 20 4
/-- The firmware digest. -/
def fwDigest (img : List Byte) : List Byte := shake256 (img.take (sigOffset img)) 32
/-- ROLLBACK of an image. -/
def fwRollback (img : List Byte) : Nat := leAt img 12 4

/-- Check 3: MAGIC, FORMAT, and lengths that hold together. -/
def fwFormatOk (img : List Byte) : Bool :=
  slice img 0 4 == [0x50, 0x46, 0x57, 0x31] && leAt img 4 2 == 1 && decide (leAt img 16 4 ≤ 33554432) &&
    decide (leAt img 16 4 ≤ img.length) && decide (256 ≤ sigOffset img) && decide (sigOffset img + 29792 ≤ leAt img 16 4)

/-- Check 4: the chain of at most two certificates to the firmware root, and the signature. -/
def fwSignatureOk (s : State) (img : List Byte) : Bool :=
  let cs := chainAndSig ((img.take (leAt img 16 4)).drop (sigOffset img))
  match chainLeaf s Config.firmwareRoot 2 cs.1 with
  | some leaf => Config.slhVerify (Config.certKey leaf) "PAROON FW" (img.take (sigOffset img)) cs.2
  | none => false

/-- Checks 3 to 7 of Table 16.4 in order: the code of the first that fails, 0 when all pass. -/
def fwCode (s : State) (img : List Byte) : Nat :=
  if !fwFormatOk img then 3
  else if !fwSignatureOk s img then 4
  else if leAt img 6 2 != 768 then 5
  else if leAt img 8 1 != fget s (pGlb + 0x40) 15 8 then 6
  else if fwRollback img < s.fuses.rollback then 7
  else 0

/-- FW_STATE. -/
def fwState (s : State) : Nat := fget s (pSec + 0x50) 2 0
def setFwState (s : State) (v : Nat) : State := fset s (pSec + 0x50) 2 0 v

/-- An FW_UPDATE record (Table 16.10). -/
def fwRecord (s : State) (img : List Byte) (code : Nat) : State :=
  auditDevice s 8 (b2n (code != 0)) (fwRollback img % 65536) (if code != 0 then leBytes 1 code else fwDigest img)

/-- FW_CHECK_DONE (Table 16.5 step 3). -/
def execFwCheckDone (s : State) : Out :=
  match s.fw.staged with
  | none => .next s
  | some img =>
    if fwState s != 1 then .next s
    else
      let code := fwCode s img
      let s := { s with fw := { s.fw with staged := none } }
      if code != 0 then .next (setFwState (fset (fwRecord s img code) (pSec + 0x50) 31 24 code) 4)
      else
        .next { (setFwState (fset s (pSec + 0x50) 31 24 0) 2) with
          fw := { s.fw with writing := some img }, flash := { s.flash with image := [] } }

/-- FW_PROGRAM_DONE (Table 16.5 steps 4 and 5); a read-back that differs fails the update. -/
def execFwProgramDone (readBackOk : Bool) (s : State) : Out :=
  match s.fw.writing with
  | none => .next s
  | some img =>
    let s := { s with fw := { s.fw with writing := none } }
    if readBackOk then .next (setFwState (fwRecord { s with flash := { s.flash with image := img } } img 0) 3)
    else .next (setFwState (auditDevice s 8 1 (fwRollback img % 65536) []) 4)

/-! ## The ring and its streams (R320, R341 to R343) -/

/-- The 64 bytes of a record. -/
def recordBytes (r : AuditRec) : List Byte :=
  auditBytes r.seq r.kind r.time r.role r.result r.subject r.session r.detail ++ r.link

/-- Send AUDIT messages of up to 128 records while at most 1 MiB stands unacknowledged; the first may carry GAP. -/
def pumpAudit : Nat → Bool → State → Nat → State
  | 0, _, s, _ => s
  | fuel + 1, gap, s, sid =>
    match getSession s sid with
    | none => s
    | some x =>
      match x.audit with
      | none => s
      | some a =>
        let rs := (s.flash.ring.filter fun r => a.next ≤ r.seq).take 128
        match rs.getLast? with
        | none => s
        | some l =>
          if 16384 < l.seq + 1 - a.acked then s
          else
            let s := setSession s sid (some { x with audit := some { a with next := l.seq + 1 } })
            pumpAudit fuel false (sendMsg s sid 0x41 0 (if gap then 2 else 0) 0 ((rs.map recordBytes).flatten)) sid

/-- Messages that the window of a stream can hold. -/
def auditFuel : Nat := 16385

/-- Every stream goes on after a record is programmed. -/
def pumpStreams (s : State) : State := ((sessionList s).map (·.1)).foldl (fun s sid => pumpAudit auditFuel false s sid) s

/-- AUDIT_START (R320): a session holds one stream; a new FROM replaces it. -/
def execAuditStart (session : Nat) (fromSeq : Nat) (s : State) : Out :=
  match openSession s session with
  | none => .next s
  | some x =>
    if !served s then .next s
    else
      let old := auditOldest s
      let start := Nat.max fromSeq old
      let s := setSession s session (some { x with audit := some { next := start, acked := start } })
      .next (pumpAudit auditFuel (decide (fromSeq < old)) s session)

/-- AUDIT_ACK (R320, R343). -/
def execAuditAck (session : Nat) (next : Nat) (s : State) : Out :=
  match openSession s session with
  | none => .next s
  | some x =>
    match x.audit with
    | none => .next s
    | some a =>
      if !served s || a.next < next then .next s
      else
        let s := setSession s session (some { x with audit := some { a with acked := Nat.max a.acked next } })
        let s := if x.role == 1 then { s with audit := { s.audit with acked := Nat.max s.audit.acked next } } else s
        .next (pumpAudit auditFuel false s session)

/-- AUDIT_RESEND_TIMER (R320). -/
def execAuditResendTimer (session : Nat) (s : State) : Out :=
  match openSession s session with
  | none => .next s
  | some x =>
    match x.audit with
    | none => .next s
    | some a =>
      if !served s || a.next ≤ a.acked then .next s
      else .next (pumpAudit auditFuel false (setSession s session (some { x with audit := some { a with next := a.acked } })) session)

/-- The ring takes a record; a full ring loses its oldest, and an unacknowledged one counts as lost (R343). -/
def ringTake (s : State) (r : AuditRec) : State :=
  if s.flash.ring.length < s.flash.capacity then { s with flash := { s.flash with ring := s.flash.ring ++ [r] } }
  else
    let gone := match s.flash.ring with
      | o :: _ => decide (s.audit.acked ≤ o.seq)
      | [] => false
    let s := { s with flash := { s.flash with ring := s.flash.ring.drop 1 ++ [r] } }
    if gone then
      raise (refreshCert { s with audit := { s.audit with lost := Nat.min (s.audit.lost + 1) (2 ^ 32 - 1) } }) pAudit 8
    else s

/-- AUDIT_RECORD_PROGRAM (R342): the oldest staged record, then its settings. -/
def execAuditRecordProgram (s : State) : Out :=
  match s.audit.staged with
  | [] => .next s
  | (r, sets) :: rest =>
    if !s.flash.present then .next s
    else .next (pumpStreams (commitTxn (ringTake { s with audit := { s.audit with staged := rest } } r) sets))

/-! ## Attestation (R321, R339) -/

/-- Colophon digests of the loaded jobs in subscriber order. -/
def loadedDigests (s : State) : List (List Byte) :=
  s.jobs.filterMap fun e => if jobState s e.1 == 2 then e.2.map (·.colophonDigest) else none

/-- The 256-byte statement (Table 16.8). -/
def attestStatement (s : State) (nonce : List Byte) : List Byte :=
  let st := rd s (pSec + 0x44)
  let ds := loadedDigests s
  [0x50, 0x41, 0x54, 0x31] ++ leBytes 4 1 ++ deviceId ++ nonce ++ leBytes 8 s.time ++ leBytes 4 (rd s (pGlb + 0x40)).toNat ++
    leBytes 1 s.fuses.rollback ++ leBytes 1 s.fuses.unlocks ++ leBytes 1 s.fuses.secState ++
    leBytes 1 (b2n (st.getLsbD 31) * 128 + b2n (st.getLsbD 30) * 64 + bitsOf st 5 0) ++ leBytes 1 (bitsOf st 6 6) ++
    List.replicate 7 0 ++ (s.fw.runningDigest ++ List.replicate 32 0).take 32 ++
    (s.fuses.secRoot ++ List.replicate 32 0).take 32 ++ leBytes 8 (s.audit.nextSeq - 1) ++ s.audit.head ++
    leBytes 4 ds.length ++ shake256 ds.flatten 32 ++ List.replicate 20 0

/-- The report at the head of the queue is formed as its signing begins. -/
def formReport (s : State) : State :=
  match s.attests with
  | (sid, m, n) :: rest => if n.length == 32 then { s with attests := (sid, m, attestStatement s n) :: rest } else s
  | [] => s

/-- ATTEST_REQ (R321). -/
def execAttestReq (session : Nat) (msgNum : Word) (nonce : List Byte) (s : State) : Out :=
  .next (request s session msgNum.toNat true fun s _ =>
    if nonce.length != 32 then respond s session msgNum.toNat 0x7F 4 []
    else formReport { s with attests := s.attests ++ [(session, msgNum.toNat, nonce)] })

/-- ATTEST_SIGNED (R321, R339): the report and its signature are sent, and the next report is formed. -/
def execAttestSigned (s : State) : Out :=
  let s := formReport s
  match s.attests with
  | [] => .next s
  | (sid, m, st) :: rest =>
    let d := draw s
    let s := respond { d.2 with attests := rest } sid m 0x51 0 (st ++ Config.slhSign "PAROON ATTEST" st d.1)
    .next (formReport s)

/-! ## SEC_CMD (R334, R337) -/

/-- A RECOMMISSION is refused (R337). -/
def recommissionRefused (s : State) (who : Requester) : Bool :=
  who == .mgmt || bit s (pRst + 0x44) 9 || makerOpen s

/-- RECOMMISSION (R337); a known-answer test that fails is KAT_FAIL, of a source the command does not name. -/
def recommission (s : State) (who : Requester) (katPass : Bool) : State :=
  if !katPass then
    let d := draw s
    serve d.2 (mkFault 0xF1 (Config.freeNat d.1 % 512) 0x42 2 0 0xFF 0)
  else
    let s := auditAdd s 0x10 (whoRole s who) 0 1 (whoSession who) s.fuses.secRoot []
    refreshCert { s with fuses := { s.fuses with secState := 1, unlocksRecorded := s.fuses.unlocks },
                         audit := { s.audit with lost := 0 }, fw := { s.fw with discarded := false } }

/-- DECOMMISSION (R334): SEC_ROOT and the credential table are cleared and every session closes. -/
def decommission (s : State) (who : Requester) : State :=
  let creds := (Sparse.range s.regs (wCred 0) (wCred 64)).map fun e => ({ addr := e.1, value := 0, mask := 0xFFFFFFFF } : Setting)
  let s := auditAdd s 0x10 (whoRole s who) 0 2 (whoSession who) s.fuses.secRoot creds
  let s := regsReset s (wCred 0) (wCred 64)
  let s := ((sessionList s).map (·.1)).foldl (fun s sid => setSession (closeSession s sid 4) sid none) s
  refreshCert { s with fuses := { s.fuses with secState := 0, secRoot := [] } }

/-- JTAG_EXTEST (R336): the device goes fallow until RESET_N. -/
def execJtagExtest (instruction : Nat) (s : State) : Out :=
  if !live s then .next s
  else .next (enterFallow { (auditDevice s 0x0F 0 (instruction % 65536) []) with fw := { s.fw with jtag := true } } 0 0 false)

end Sys2Proof.Machine
end

