-- ==== Sys2Proof/Machine/Power.lean ====
section
/-! DEFINITION. References, fallback, pace, VCORE, supplies and temperature (R364 to R375). -/
namespace Sys2Proof.Machine

open Sys2Proof

/-! ## References and coasting (R365, Table 18.1) -/

/-- REF_A_OK or REF_B_OK. -/
def refOk (s : State) (r : Bool) : Bool := bit s (pClk + 0x44) (if r then 30 else 31)
def setRefOk (s : State) (r v : Bool) : State := setBit s (pClk + 0x44) (if r then 30 else 31) v
/-- REF_IN_USE. -/
def refInUse (s : State) : Bool := bit s (pClk + 0x44) 29

/-- The loops of the gating tree (Table 18.2). -/
def loopNodes : List Nat := List.range 96 ++ [104, 105, 106, 107, 108, 109, 110]

/-- A loop coasts, or no longer does. -/
def setCoast (s : State) (n : Nat) (v : Bool) : State :=
  let s := setBit s (pClk + 0x60 + 4 * (n / 32)) (n % 32) v
  let s := if n < 96 || (105 ≤ n && n < 109) then showClock s n (!v) else s
  setBit s (pClk + 0x44) 27 (loopNodes.any fun m => bit s (pClk + 0x60 + 4 * (m / 32)) (m % 32))

/-- Every loop that is on coasts. -/
def coastAll (s : State) : State := (loopNodes.filter fun n => nodeOn s n).foldl (fun s n => setCoast s n true) s

/-- Partners lose lock on the coasting lanes: links down, stitches of affected spine ports close; the host link falls too. -/
def linksLost (s : State) : State :=
  hostLinkDown (forUp (fun s p => if pStage s p == 0 then s else losePort s p) 160 0 s)

/-- Every loop moves to the other reference with its ramp, locks, and coasts no longer; LPDDR6 retrains (Table 18.1, 3 to 5). -/
def moveLoops (s : State) (ref : Bool) : State :=
  let on := loopNodes.filter fun n => nodeOn s n
  let s := setBit s (pClk + 0x44) 29 ref
  let was := on.filter fun n => bit s (pClk + 0x60 + 4 * (n / 32)) (n % 32)
  let s := { s with ramps := (s.ramps.filter fun r => !on.contains r.1) ++ on.map fun n => (n, true) }
  let s := loopNodes.foldl (fun s n => if bit s (pClk + 0x60 + 4 * (n / 32)) (n % 32) then setCoast s n false else s) s
  if was.isEmpty then s
  else forUp (fun s c => if bit s (pLpddr c + 0x40) 31 then ctrAdd s (pLpddr c) 2 1 else s) 32 0 s

/-- REF_CLOCK_LOSS (R365): coasting, the record, and failover when the other reference is good and AUTO_SWITCH is 1. -/
def execRefClockLoss (ref : Bool) (s : State) : Out :=
  if !live s then .next s
  else
    let used := refInUse s == ref
    let s := ctrAdd (setRefOk s ref false) pClk 0 1
    let s := report s (mkFault 0x07 0 0x30 1 (b2n ref) 0xFF 0)
    if !used then .next s
    else
      let s := linksLost (coastAll s)
      .next (if refOk s (!ref) && bit s (pClk + 0x40) 1 then moveLoops s (!ref) else s)

/-- REF_CLOCK_RETURN (R365): the reference is available again; the device does not switch back by itself. -/
def execRefClockReturn (ref : Bool) (s : State) : Out := if !live s then .next s else .next (setRefOk s ref true)

/-- A write of REF_SEL (R365): the loops move to the named reference; where it is not good they coast on it. -/
def refSelect (s : State) (sel : Bool) : State :=
  let coasting := bit s (pClk + 0x44) 27
  if refOk s sel then (if coasting || refInUse s != sel then moveLoops s sel else s)
  else if refInUse s == sel then s
  else linksLost (coastAll (setBit s (pClk + 0x44) 29 sel))

/-- CLOCK_FALLBACK (R366): both clocks go to the reserve oscillator; without a good reserve the hardware path goes fallow. -/
def execClockFallback (reserveGood : Bool) (s : State) : Out :=
  if !live s then .next s
  else if !reserveGood then
    .next (serve { s with faults := { s.faults with mute := true } } (mkFault 0x07 0 0x33 2 0 0xFF 0))
  else if bit s (pClk + 0x44) 28 then .next s
  else .next (report (unlockTime (setBit s (pClk + 0x44) 28 true)) (mkFault 0x07 0 0x32 1 0 0xFF 0))

/-! ## Pace (R370) -/

/-- The lowest rate among the monitors that have reported one; the lowest index wins a tie. -/
def lowestPace (s : State) : Option (Nat × Nat) :=
  s.pace.foldl (fun best e =>
    match e.2, best with
    | none, _ => best
    | some r, none => some (e.1, r)
    | some r, some b => if r < b.2 then some (e.1, r) else best) none

/-- PACE_SAMPLE (R370). Table 18.11 gives PWR_PACE[16] to [24] the addresses of the PWR_RAIL words: those words show the rails
(log 35). -/
def execPaceSample (monitor rate : Nat) (s : State) : Out :=
  if !live s || 40 ≤ monitor then .next s
  else
    let r := Nat.min rate 65535
    let s := { s with pace := Sparse.set (fun _ => none) s.pace monitor (some r) }
    let s := if 16 ≤ monitor && monitor < 25 then s else fset s (pPwr + 0x80 + 4 * monitor) 15 0 r
    match lowestPace s with
    | none => .next (wr s (pPwr + 0x48) 0)
    | some b => .next (wr s (pPwr + 0x48) (BitVec.ofNat 32 (b.1 * 2 ^ 24 + b.2)))

/-! ## VCORE, power and temperature (R371) -/

/-- VCORE in 5 mV steps above 0.70 V, set over PMBus when it moves. -/
def setVcore (s : State) (v : Nat) : State :=
  if fget s (pPwr + 0x44) 31 24 == v then s
  else emit (fset s (pPwr + 0x44) 31 24 v) (.pmbus 1 0x21 (700 + 5 * v))

/-- POWER_CONTROL_TICK (R371): rails, sensors, VCORE, THROTTLE, CAP_UNMET and OVER, once a millisecond. -/
def execPowerControlTick (railDw railMv tj : List Nat) (s : State) : Out :=
  if !live s then .next s
  else
    let s := forUp (fun s r =>
      fset (fset s (pPwr + 0xC0 + 4 * r) 30 16 (railDw.getD r 0)) (pPwr + 0xC0 + 4 * r) 15 0 (railMv.getD r 0)) 9 0 s
    let s := forUp (fun s i => fset s (pTherm + 0x80 + 4 * i) 7 0 (tj.getD i 0)) 17 0 s
    let hot := (List.range 17).foldl (fun b i => if (tj.getD b 0) < tj.getD i 0 then i else b) 0
    let tmax := tj.getD hot 0
    let s := fset (fset s (pTherm + 0x44) 31 24 tmax) (pTherm + 0x44) 23 16 hot
    let isOver := decide (105 < tmax)
    let wasOver := bit s (pTherm + 0x44) 0
    let s := setBit s (pTherm + 0x44) 0 isOver
    let s := if isOver && !wasOver then raise s pTherm 8 else s
    let watts := ((List.range 9).map fun r => railDw.getD r 0).sum / 10
    let s := ctrAdd (fset s (pPwr + 0x44) 15 0 watts) pPwr 1 watts
    let cap := fdef s (pPwr + 0x40) 15 0 1700
    let vmax := fdef s (pPwr + 0x40) 23 16 30
    let limit := fdef s (pTherm + 0x40) 7 0 100
    let v := fget s (pPwr + 0x44) 31 24
    let down := decide (cap < watts) || decide (limit < tmax)
    let unmet := decide (cap < watts) && v == 0
    let wasUnmet := bit s (pPwr + 0x44) 22
    let s := setBit (setBit s (pPwr + 0x44) 23 down) (pPwr + 0x44) 22 unmet
    let s := if unmet && !wasUnmet then raise s pPwr 8 else s
    let s := if down then ctrAdd s pPwr 0 1000 else s
    let up := decide (watts * 100 < cap * 97) && decide (tmax + 3 ≤ limit)
    .next (setVcore s (if down then Nat.min (v - 10) vmax else if up then Nat.min (v + 1) vmax else Nat.min v vmax))

/-- PMBUS_ALERT (R372): STATUS_WORD of every regulator is read. -/
def execPmbusAlert (s : State) : Out :=
  if !live s then .next s else .next (forUp (fun s r => emit s (.pmbus r 0x79 0)) 8 1 s)

/-- THERMAL_TRIP (R348, R358). -/
def execThermalTrip (sensor : Nat) (s : State) : Out :=
  if !live s then .next s else .next (serve s (mkFault 0x09 0 0x48 2 sensor 0xFF 0))

/-! ## Supplies (R373, R374) -/

/-- Every stitch closes by the supply logic (R275). -/
def closeBySupply (s : State) : State := forUp (fun s n => closeNow s n 1) 12 0 s

/-- SUPPLY_FAULT of a rail: the hardware path goes fallow, and the regulators go off once step 4 is complete; a device already
HELD has completed it. -/
def supplyFault (s : State) (rail : Nat) : State :=
  let s := setBit s (pPwr + 0xC0 + 4 * rail) 31 false
  let s := serve { (closeBySupply s) with faults := { (closeBySupply s).faults with supplyOff := true } }
    (mkFault 0x08 0 0x49 2 rail 0xFF 0)
  if s.faults.held then railsOff s else s

/-- SUPPLY_OUT_OF_RANGE (R374); at step 1 it also stands for a rail that holds POWER_GOOD uncommanded (R416). -/
def execSupplyOutOfRange (rail : Nat) (s : State) : Out :=
  if !live s || 9 ≤ rail then .next s else .next (supplyFault s rail)

/-- The order of R373: VSRAM, VCORE, VBASE, VDRAM, VSER_A, VSER_B and VSER_C, VDDQ. -/
def railOrder : List Nat := [2, 1, 3, 4, 5, 6, 7, 8]

/-- Rails commanded on, in order (PMBus OPERATION; VCORE at 0.85 V first). -/
def commandRails (s : State) (rs : List Nat) : State :=
  let s := rs.foldl (fun s r => emit (if r == 1 then emit s (.pmbus 1 0x21 850) else s) (.pmbus r 1 1)) s
  { s with rails := rs }

/-- RAIL_POWER_GOOD_TIMEOUT (R373): the rails up to this one have been commanded, and it has not come up. -/
def execRailPowerGoodTimeout (rail : Nat) (s : State) : Out :=
  match s.phase with
  | .starting 1 =>
    if !railOrder.contains rail || !s.rails.isEmpty then .next s
    else
      let before := railOrder.takeWhile (· != rail)
      let s := (before.foldl (fun s r => setBit s (pPwr + 0xC0 + 4 * r) 31 true) (commandRails s (before ++ [rail])))
      .next (supplyFault s rail)
  | _ => .next s

/-- VIO_LOSS (R275, R374): the bias is gone and every stitch closes; without VIO the device has no I/O and no always-on domain. -/
def execVioLoss (s : State) : Out := .next { (closeBySupply s) with phase := .unpowered }

end Sys2Proof.Machine
end

