-- ==== Sys2Proof/Machine/Startup.lean ====
section
/-! DEFINITION. Resets (R376 to R378) and start-up (R383 to R385). -/
namespace Sys2Proof.Machine

open Sys2Proof

/-! ## Resets (Table 18.5) -/

/-- A session's SESSION_CLOSE record at a reset; no CLOSE is sent (R310). -/
def resetSessions (s : State) : State :=
  ((sessionList s).filter fun e => e.2.accepted).foldl (fun s e => auditAdd s 4 e.2.role 3 e.2.role e.1 [] []) s

/-- The device with everything at reset that Table 18.5 loses; the firmware area stays erased when programming is cut (R330). -/
def afterReset (s : State) (kind : Nat) (straps : Word) : State :=
  let t := { State.reset with
    flash := s.flash, audit := s.audit, alwaysOn := s.alwaysOn, fuses := s.fuses, rails := s.rails,
    faults := { faultInit with requestHeld := s.faults.requestHeld }, out := s.out, freeCtr := s.freeCtr, pending := s.pending }
  let t := wr (realign t) (pRst + 0x44) (BitVec.ofNat 32 (bitsOf straps 9 8 * 256 + kind))
  let t := setBit t (pFlt + 0x44) 30 s.faults.requestHeld
  forUp (fun t n => if stState s n == 0 || stState s n == 5 then t else fset t (pStitch n + 0x44) 23 16 1) 12 0 t

/-- The bits of RST_STATUS that show the straps. -/
def strapWord (makerEn bistQuick : Bool) : Word := BitVec.ofNat 32 (b2n makerEn * 512 + b2n bistQuick * 256)

/-- FAULT_N is released (R377). -/
def releasePin (s t : State) : State :=
  if bit s (pFlt + 0x40) 1 then emit t (.boundary "FAULT_N released") else t

/-- A RESET_N pulse or what acts as one, from its start to the release. -/
def resetTo (s : State) (kind : Nat) (straps : Word) (ph : Phase) : State :=
  { (releasePin s (afterReset (resetSessions s) kind straps)) with phase := ph }

/-- RESET_N_ASSERT (R377). -/
def execResetNAssert (s : State) : Out :=
  if s.phase == .unpowered || s.phase == .inReset then .next s
  else .next (resetTo s (fget s (pRst + 0x44) 2 0) (rd s (pRst + 0x44)) .inReset)

/-- RESET_N_RELEASE (R383, Table 18.5): the straps are sampled. Rails that have never been sequenced make it the release of a power-on. -/
def execResetNRelease (makerEn bistQuick : Bool) (s : State) : Out :=
  if s.phase != .inReset then .next s
  else
    .next { (wr s (pRst + 0x44) (strapWord makerEn bistQuick ||| BitVec.ofNat 32 (b2n (!s.rails.isEmpty)))) with phase := .starting 1 }

/-- The chain head from the last CHECKPOINT of the ring (R341). -/
def ringHead (ring : List AuditRec) : List Byte :=
  ring.foldl (fun h r =>
    let prev := if r.kind == 2 then r.detail else h
    shake256 (prev ++ auditBytes r.seq r.kind r.time r.role r.result r.subject r.session r.detail) 32) (List.replicate 32 0)

/-- SEQ and H recomputed from the ring; what was staged only is lost (R341, R342). -/
def recomputeAudit (s : State) : State :=
  { s with audit := { s.audit with
      nextSeq := match s.flash.ring.getLast? with
        | some r => r.seq + 1
        | none => 0,
      head := ringHead s.flash.ring, staged := [] } }

/-- POWER_ON (R373, R376). -/
def execPowerOn (makerEn bistQuick : Bool) (s : State) : Out :=
  let t := recomputeAudit { s with rails := [], alwaysOn := { record := 0, time := 0 } }
  .next { (afterReset t 0 (strapWord makerEn bistQuick)) with phase := .starting 1 }

/-- Fallow step 4 is complete: every stitch is closed or out of service. -/
def stitchesClosed (s : State) : Bool := (List.range 12).all fun n => stState s n == 0 || stState s n == 5

/-- A chip reset (R378): JTAG keeps the device fallow until RESET_N (R336). -/
def chipResetNow (s : State) (kind : Nat) : State :=
  if s.fw.jtag then s else resetTo s kind (rd s (pRst + 0x44)) (.starting 1)

/-- The CHIP_RESET reaction once it is due (R351, R378). -/
def chipResetReaction (s : State) : State :=
  if s.faults.chipResetOwed && stitchesClosed s then chipResetNow s 3 else s

/-! ## Start-up steps (Table 18.8) -/

/-- STEP of RST_STATUS. -/
def setStep' (s : State) (k : Nat) : State := fset s (pRst + 0x44) 19 16 k

/-- Step 1 (R373): the rails are on in order, or confirmed after a reset that kept them. -/
def stepRails (s : State) : State :=
  let s := if s.rails.isEmpty then commandRails s railOrder else s
  forUp (fun s r => setBit s (pPwr + 0xC0 + 4 * r) 31 true) 9 0 s

/-- Step 2: the management loop and the monitor run; FALLOW_REQ_N is acted on from its end (R413). -/
def stepRom (s : State) : State :=
  let s := turnOnChain (turnOnChain s 109) 110
  let s := setBit (setBit s (pClk + 0x44) 31 true) (pClk + 0x44) 30 true
  if s.faults.requestHeld then serve s requestFault else s

/-- A boot check fails: BOOT_STATUS.CODE, fallow, and the boot ROM serves Shafort (R328). -/
def bootFails (s : State) (code : Nat) : State :=
  { (enterFallow (fset s (pBoot + 0x40) 7 0 code) 0 0 false) with phase := .bootRom }

/-- Step 4 passes: the image runs. -/
def runImage (s : State) : State :=
  { s with fw := { s.fw with runningDigest := fwDigest s.flash.image, runningCert := leAt s.flash.image 9 1 % 2 == 1 } }

/-- HELD of a retirement map's entries, after a reset that ended every job. -/
def releaseRetired (s : State) (unit : Nat) : State :=
  showRetired (forUp (fun s i => if bit s (retireEntry unit i) 30 then setBit s (retireEntry unit i) 30 false else s) 256 0 s) unit

/-- What the settings of the buffer pools, meters and gate lists put in force (R226, R251, R254). -/
def settleSettings (s : State) : State :=
  let s := forUp releaseRetired 12 0 s
  let s := forUp (fun s d => forUp (fun s n => fset s (pBufPool d + 0x44 + 4 * n) 19 0 (poolTotal s d n)) 4 0 s) 8 0 s
  let s := forUp (fun s p => forUp (fun s c => if meterCbs s p c == 0 && meterPbs s p c == 0 then s else fillMeter s p c) 8 0 s) 161 0 s
  forUp (fun s p =>
    let len := fget s (pGate p + 0x40) 8 0
    if len == 0 then s
    else
      let s := setGate s p { gateInit with len := len, since := gateNow s p, base := gateNow s p, waitBase := gateNow s p }
      wr s (pGate p + 0x4C) (BitVec.ofNat 32 ((List.range len).map fun i => (gateEntry s p i).2).sum)) 161 0 s

/-- Step 5 (R326, R298); the coordinate restored, the switch counts itself there (R41). -/
def stepSettings (s : State) : State :=
  let old := ownIndex s
  let s := moveOwnReach (settleSettings (loadSettings s)) old
  refSelect s (bit s (pClk + 0x40) 0)

/-- The rollback fuses follow the running image (R329). -/
def blowRollback (s : State) : State :=
  let r := fwRollback s.flash.image
  if s.fuses.rollback < r then
    auditDevice { s with fuses := { s.fuses with rollback := r } } 9 0 (r % 65536) s.fw.runningDigest
  else s

/-- Step 6 (R175, R281, R384). -/
def stepKat (s : State) (r : StepReport) : State :=
  let s := r.badCheckers.foldl (fun s g => report (portFault s (portOfGroup g)) (mkFault 0x2E g 0x39 1 0 0xFF 0)) s
  if r.ok then refreshCert (blowRollback s)
  else
    let d := draw s
    serve d.2 (mkFault 0xF1 (Config.freeNat d.1 % 512) 0x42 2 0 0xFF 0)

/-- Frames found bad by a memory test are retired (R298, R384). -/
def retireBad (s : State) (frames : List (Nat × Nat)) : State := frames.foldl (fun s f => retireFrame s f.1 f.2 3) s

/-- Step 7, on-package part (R384). -/
def stepSram (s : State) (r : StepReport) : State :=
  let s := retireBad s r.badFrames
  if r.ok then s
  else
    let d := draw s
    serve d.2 (mkFault 0x2C (Config.freeNat d.1 % 8) 0x14 2 0 0xFF 0)

/-- Step 8 (R291, R293): the channels train; a bad one takes its group out of service, or the device fallow. Every channel fails where
its devices are none of Table 14.2's. -/
def stepLpddr (s : State) (r : StepReport) : State :=
  let r := if 1 ≤ r.density && r.density ≤ 4 then r else { r with badChannels := List.range 32, density := 0 }
  let s := forUp (fun s g => turnOnChain s (105 + g)) 4 0 s
  let s := forUp (fun s c =>
    fset (setBit s (pLpddr c + 0x40) 31 (!r.badChannels.contains c)) (pLpddr c + 0x40) 25 24 (r.tries.getD c 1)) 32 0 s
  let s := fset (fset s (pLpddr 32 + 0x44) 19 16 r.density) (pLpddr 32 + 0x44) 31 28 15
  let s := (r.badChannels.filter fun c => c < 32).foldl (fun s c =>
    let f := mkFault 0x2D c 0x19 (if c < 16 then 2 else 1) 0 0xFF 0
    if c < 16 then serve s f else serve (groupDown s (c / 8)) f) s
  { (showCapacity s) with bistRunning := true }

/-- Step 10: HOST_READY when the host port trained (R384), and the BOOT record. -/
def stepFirmware (s : State) : State :=
  let s := auditDevice s 1 0 (fget s (pRst + 0x44) 2 0) s.fw.runningDigest
  if hostUp s then raise (setBit s (pRst + 0x44) 24 true) pRst 9 else s

/-- The enabled ports of a range start their bring-up. -/
def startPorts (s : State) (first count : Nat) : State := forUp (fun s p => if portEn s p then startPort s p else s) count first s

/-- A stitch whose ports are both enabled has been through its opening: OPEN with both ports ADMITTED, closed with a cause, or kept
closed (R383; log 101). -/
def stitchSettled (s : State) (n : Nat) : Bool :=
  let pq := portsOfStitch n
  !(portEn s pq.1 && portEn s pq.2) || (stState s n == 3 && admitted s pq.1 && admitted s pq.2) || stState s n == 5 ||
    (stState s n == 0 && (fget s (pStitch n + 0x44) 23 16 != 0 || bit s (pStitch n + 0x40) 0))

/-- Step 13 is complete. -/
def stepFabric (s : State) : State :=
  raise (setBit (setStep' { s with phase := .ready } 13) (pRst + 0x44) 25 true) pRst 8

/-- The next step begins. -/
def nextStep (s : State) (k : Nat) : State := setStep' { s with phase := .starting (k + 1) } k

/-- Step k has ended. -/
def endStartStep (s : State) (k : Nat) (r : StepReport) : State :=
  match k with
  | 1 => if r.ok then nextStep (stepRails s) 1 else s
  | 2 => if r.ok then stepRom (nextStep s 2) else s
  | 3 =>
    if !(s.flash.present && r.ok) then bootFails s 1
    else if !s.flash.headerGood then bootFails s 2
    else nextStep s 3
  | 4 => if fwCode s s.flash.image != 0 then bootFails s (fwCode s s.flash.image) else nextStep (runImage s) 4
  | 5 => nextStep (stepSettings s) 5
  | 6 => nextStep (stepKat s r) 6
  | 7 => nextStep (stepSram s r) 7
  | 8 => nextStep (stepLpddr s r) 8
  | 9 => nextStep (turnOnChain s 104) 9
  | 10 => startPorts (startPorts (nextStep (stepFirmware s) 10) 0 128) 152 8
  | 11 => nextStep s 11
  | 12 => startPorts (nextStep s 12) 128 24
  | _ => if s.bistRunning || !((List.range 12).all (stitchSettled s)) then s else stepFabric s

/-- START_UP_STEP_END (R383, R384). -/
def execStartUpStepEnd (report : StepReport) (s : State) : Out :=
  match s.phase with
  | .starting k => .next (endStartStep s k report)
  | _ => .next s

/-- Requests held by R385 are served, unless fallow has come meanwhile. -/
def serveHeld (s : State) (h : Held) : State :=
  match h with
  | .load n role session => serveLoad s n role session
  | .bulkOpen sid m r =>
    match openSession s sid with
    | some x => if limited s then sendError s sid m 6 else bulkOpenNow s sid m x r
    | none => s

/-- LPDDR_BIST_DONE (R383, R385). -/
def execLpddrBistDone (badFrames : List (Nat × Nat)) (s : State) : Out :=
  if !s.bistRunning then .next s
  else
    let held := s.heldReqs
    let s := retireBad { s with bistRunning := false, heldReqs := [] } badFrames
    let s := raise (setBit s (pRst + 0x44) 26 true) pRst 10
    .next (held.foldl serveHeld s)

end Sys2Proof.Machine
end

