-- ==== Sys2Proof/Machine/Read.lean ====
section
/-! DEFINITION. What a register read returns (R311, R312, R387, R389, R400): the stored word, or the word a block computes. -/
namespace Sys2Proof.Machine

open Sys2Proof

/-- Word `j` of a byte string, byte 0 in [7:0]. -/
def bytesWord (bs : List Byte) (j : Nat) : Word := BitVec.ofNat 32 (leAt bs (4 * j) 4)

/-- The most and least significant words of a 64-bit number: `hi` selects. -/
def halfOf (v : Nat) (hi : Bool) : Word := BitVec.ofNat 32 (if hi then v / 2 ^ 32 else v)

/-- A counter slot of a page, live or shadow (R387, R389, R399). -/
def counterWord (s : State) (k : PageKind) (page off : Nat) : Word :=
  let i := (off % 0x400) / 8
  if k.counters ≤ i then 0
  else
    let v := if off < 0xC00 then ctrGet s page i else Sparse.get (fun _ => 0) s.shadows (page + 0x800 + 8 * i)
    halfOf v.toNat (off % 8 == 0)

/-- Words of page AUDIT (Table 16.12). -/
def auditWord (s : State) (off : Nat) : Word :=
  match off with
  | 0x040 => halfOf s.audit.nextSeq true
  | 0x044 => halfOf s.audit.nextSeq false
  | 0x048 => halfOf (auditOldest s) true
  | 0x04C => halfOf (auditOldest s) false
  | 0x050 => halfOf s.audit.acked true
  | 0x054 => halfOf s.audit.acked false
  | 0x058 => BitVec.ofNat 32 (auditFree s)
  | 0x05C => BitVec.ofNat 32 s.audit.lost
  | _ => if 0x060 ≤ off && off < 0x080 then bytesWord s.audit.head ((off - 0x060) / 4) else 0

/-- Words of page SEC that are not stored (Table 16.11). -/
def secWord (s : State) (off : Nat) : Option Word :=
  match off with
  | 0x040 => some (BitVec.ofNat 32 (s.fuses.unlocks * 8 + s.fuses.secState))
  | 0x054 => some (BitVec.ofNat 32 s.fuses.rollback)
  | 0x058 => some 0
  | _ => if 0x060 ≤ off && off < 0x080 then some (bytesWord s.fuses.secRoot ((off - 0x060) / 4)) else none

/-- Words of page FLT that the always-on record holds (R362). -/
def fltWord (s : State) (off : Nat) : Option Word :=
  match off with
  | 0x060 => some (halfOf s.alwaysOn.time true)
  | 0x064 => some (halfOf s.alwaysOn.time false)
  | _ => if 0x050 ≤ off && off < 0x060 then some (s.alwaysOn.record.extractLsb' (8 * (off - 0x050)) 32) else none

/-- Firmware runs: start-up step 4 has passed, and the boot ROM does not serve Shafort (Table 20.13). -/
def fwRunning (s : State) : Bool :=
  match s.phase with
  | .ready => true
  | .starting k => 4 < k
  | _ => false

/-- Milliseconds left of the management watchdog's 100 (R358). -/
def wdogMs (s : State) : Nat := 100 - (s.uptime - s.faults.wdogAt) / 1000000

/-- Collectives in progress on an engine, and the hold queue of the job that owns it (Table 7.6). -/
def collStatus (s : State) (e : Nat) : Word :=
  let n := (s.slots.filter fun x => match x.2 with
    | some y => y.desc.engine == e
    | none => false).length
  let hold := if bit s (pColl e + 0x40) 31 then
      (match getJob s (fget s (pColl e + 0x40) 7 0) with
       | some j => j.hold.length
       | none => 0)
    else 0
  BitVec.ofNat 32 (n * 65536 + hold)

/-- Words of a slot's entry that follow the collective in it (Table 6.9). -/
def slotWord (s : State) (i off : Nat) : Option Word :=
  match getSlot s i with
  | none => none
  | some x =>
    let count := fun (p : ChunkState → Bool) => (x.chunks.filter fun e => p e.2.st).length
    match off with
    | 8 => some (BitVec.ofNat 32 (slotChunks x))
    | 12 => some (BitVec.ofNat 32 (count fun c => c == .released))
    | 16 => some (BitVec.ofNat 32 (count (fun c => c == .spilled) * 65536 + count fun c => c == .hot || c == .spilled))
    | 20 => some (BitVec.ofNat 32 x.expected)
    | 24 => some (BitVec.ofNat 32 (Nat.min x.escapes (2 ^ 32 - 1)))
    | _ => none

/-- CL_PRESS_BUSY: REF and BUSY of the cluster's 16 tiles (Table 8.9). -/
def pressWord (s : State) (c : Nat) : Word :=
  BitVec.ofNat 32 (((List.range 16).map fun t =>
    2 ^ t * b2n (pressHolds s (16 * c + t) false) + 2 ^ (16 + t) * b2n (pressHolds s (16 * c + t) true)).sum)

/-- Block registers of a page that are computed and not stored. USED_MIB counts 192 KiB for each spilled chunk, a chunk's spill area in
Table 6.10, rounded up to a MiB: the model's choice (log 99). -/
def pageWord (s : State) (k : PageKind) (page off : Nat) : Option Word :=
  let i := k.inst page
  match k.ty, off with
  | 0x0E, 0x050 => some (halfOf s.time true)
  | 0x0E, 0x054 => some (halfOf s.time false)
  | 0x0F, 0x044 => some (putBits (putBits (rd s (page + 0x044)) 20 16 (openCount s)) 5 0 s.transfers.length)
  | 0x10, 0x040 => some (putBits (putBits (rd s (page + 0x040)) 30 30 (b2n (fwRunning s))) 6 0 (wdogMs s))
  | 0x11, 0x040 => some (BitVec.ofNat 32 s.seals.length)
  | 0x11, 0x044 => some (BitVec.ofNat 32 (digestsHeld s))
  | 0x11, 0x048 => some (BitVec.ofNat 32 ((s.jobs.filter fun e => match e.2 with
      | some j => j.sealWaiting
      | none => false).length))
  | 0x20, 0x06C => some (BitVec.ofNat 32 (portUsed s i))
  | 0x23, 0x04C => some (BitVec.ofInt 32 (bucketNow s i / 2048))
  | 0x27, 0x040 => some (BitVec.ofNat 32 ((Sparse.range s.regs wRank (wRank + 524288)).filter fun e => e.2.getLsbD 31).length)
  | 0x29, 0x044 => some (BitVec.ofNat 32 (hotUsed s i))
  | 0x29, 0x048 => some (putBits (rd s (page + 0x048)) 31 16 (ceilDiv (192 * spilledOn s i) 1024))
  | 0x2A, 0x044 => some (collStatus s i)
  | 0x2B, 0x040 => some (pressWord s i)
  | 0x04, _ => some (auditWord s off)
  | 0x05, _ => secWord s off
  | 0x06, _ => if 0x040 ≤ off && off < 0x060 then some (bytesWord deviceId ((off - 0x040) / 4)) else none
  | 0x0B, _ => fltWord s off
  | 0x10, _ => if 0x060 ≤ off && off < 0x080 then some (bytesWord s.fw.runningDigest ((off - 0x060) / 4)) else none
  | _, _ => none

/-- Header words that are computed: a port's ENABLE, HELD of the held device, PENDING of a swath (Tables 20.5, 19.2). -/
def headShown (s : State) (k : PageKind) (page off : Nat) : Option Word :=
  match off with
  | 0x008 => if k.ty == 0x20 then some (BitVec.ofNat 32 (b2n (portEn s (k.inst page)))) else none
  | 0x00C => if s.faults.held && k.ty != 0x12 then some 0x00000404 else none
  | 0x024 => some (putBits (rd s (page + 0x024)) 30 30 (b2n (swathPending s page)))
  | _ => none

/-- The word at an address, whoever reads it. -/
def shown (s : State) (addr : Nat) : Word :=
  match pageOf addr with
  | some (k, page) =>
    let off := addr - page
    if 0x800 ≤ off then counterWord s k page off
    else ((if off < 0x40 then headShown s k page off else pageWord s k page off)).getD (rd s addr)
  | none =>
    match windowOf addr with
    | some (0x1100000, i, off) => (slotWord s i off).getD (rd s addr)
    | some (0x1151000, n, off) => BitVec.ofNat 32 (subUsed s n (off / 4))
    | some (0x1280000, c, off) => halfOf (getEvCtr s c).toNat (off == 0)
    | some (0x1C00000, n, off) =>
      if jobState s n == 2 then
        (match getJob s n with
         | some j => bytesWord j.colophon (off / 4)
         | none => 0)
      else 0
    | _ => rd s addr

/-! ## Reads by a session -/

/-- Whether the subscriber `n` of an operator's session lies in its quires; other roles have no such test (R312). -/
def subAllowed (s : State) (x : Session) (n : Nat) : Bool := x.role != 0 || ownsSub s x n

/-- A field's Rights hold the role. -/
def Fld.allows (f : Fld) (role : Nat) : Bool :=
  match role with
  | 0 => f.o
  | 1 => f.i
  | 2 => f.m
  | _ => true

/-- A page that a subscriber owns, and that subscriber (R403, RIGHTS.SELF): an engine's. -/
def pageOwner (s : State) (k : PageKind) (page : Nat) : Option Nat :=
  if k.ty == 0x2A && bit s (page + 0x40) 31 then some (fget s (page + 0x40) 7 0) else none

/-- RIGHTS with SELF (Table 20.7). -/
def rightsWord (s : State) (x : Session) (k : PageKind) (page : Nat) : Word :=
  let fs := (fieldOffsets.map fun off => pageFields k page off).flatten
  let may := fs.any (fun f => f.allows x.role) && (match pageOwner s k page with
    | some n => subAllowed s x n
    | none => true)
  putBits (rd s (page + 0x1C)) 8 8 (b2n may)

/-- Words of page ROLE (Table 20.12). -/
def roleWord (s : State) (sid : Nat) (x : Session) (off : Nat) : Word :=
  match off with
  | 0x040 => BitVec.ofNat 32 (x.role * 2 ^ 30 + (if x.role == 0 then x.cred else 0x3F))
  | 0x044 => BitVec.ofNat 32 sid
  | 0x058 => BitVec.ofNat 32 x.nextSeq
  | _ => if 0x048 ≤ off && off < 0x058 && x.role == 0 then rd s (wCred x.cred + 36 + (off - 0x048)) else 0

/-- Windows indexed by subscriber (R338, R409). -/
def subscriberWindows : List Nat :=
  [0x1120000, 0x1130000, 0x1140000, 0x1150000, 0x1151000, 0x1154000, 0x1310000, 0x1800000, 0x1C00000, 0x1C20000]

/-- A read that quiet mode denies an operator (R338, R387). -/
def quietDenied (s : State) (x : Session) (addr : Nat) : Bool :=
  quiet s && x.role == 0 && (match pageOf addr with
    | some (k, page) => decide (0x800 ≤ addr - page) && [0x28, 0x29, 0x2A, 0x2F].contains k.ty
    | none =>
      match windowOf addr with
      | some (b, n, _) => subscriberWindows.contains b && !ownsSub s x n
      | none => false)

/-- OP_STATUS and value of one word read by a session (Table 15.5). -/
def readWord (s : State) (sid : Nat) (x : Session) (addr : Nat) : Nat × Word :=
  if 0x03FFFFFF < addr || addr % 4 != 0 then (4, 0)
  else if !mapped addr then (3, 0)
  else if quietDenied s x addr then (1, 0)
  else if addr == pSec + 0x58 then (1, 0)
  else
    match pageOf addr with
    | some (k, page) =>
      if addr - page == 0x1C then (0, rightsWord s x k page)
      else if k.ty == 0x03 && 0x40 ≤ addr - page && addr - page < 0x800 then (0, roleWord s sid x (addr - page))
      else (0, shown s addr)
    | none => (0, shown s addr)

end Sys2Proof.Machine
end

