-- ==== Sys2Proof/Machine/Write.lean ====
section
/-! DEFINITION. Register writes (R312, R340, R400 to R410): the tests a write passes, the refusal rules of each block, its audit
record, and what it does. -/
namespace Sys2Proof.Machine

open Sys2Proof

/-! ## The word a write leaves -/

/-- The fields that are not RO which a mask covers. -/
def touched (addr : Nat) (mask : Word) : List Fld := (fieldsAt addr).filter fun f => f.mask &&& mask != 0

/-- The mask of the fields of one access type. -/
def accMask (fs : List Fld) (p : Acc → Bool) : Word := fs.foldl (fun m f => if p f.acc then m ||| f.mask else m) 0

/-- The word at a port's ENABLE is its PORT_CFG (R381); every other word is its own. -/
def homeOf (addr : Nat) : Nat :=
  match pageOf addr with
  | some (k, page) => if k.ty == 0x20 && addr - page == 0x008 then page + 0x40 else addr
  | none => addr

/-- The stored word after RW and RWL fields take `value` under `mask` and W1C bits written 1 clear (R400); FADDR [23] of a rank
translation entry is stored as 0 (R37). -/
def mergeWord (addr : Nat) (old value mask : Word) : Word :=
  let fs := fieldsAt addr
  let m := accMask fs (fun a => a == .rw || a == .rwl) &&& mask
  let w := ((old &&& ~~~m) ||| (value &&& m)) &&& ~~~(accMask fs (· == .w1c) &&& mask &&& value)
  if wRank ≤ addr && addr < wRank + 524288 then w &&& ~~~maskOf 23 23 else w

/-- The bits of a word that a write keeps in the persistent-settings log (log 33): those of block registers and windows. -/
def settingMask (addr : Nat) : Word :=
  match pageOf addr with
  | some (_, page) => if addr - page < 0x40 then 0 else keptMask addr
  | none => keptMask addr

/-- Home, old word, new word and the setting of a write. A port's ENABLE writes PORT_CFG.EN. -/
structure Change where
  home : Nat
  old : Word
  new : Word
  mask : Word
  sets : List Setting
  deriving DecidableEq, Repr

def changeOf (s : State) (addr : Nat) (value mask : Word) : Change :=
  let home := homeOf addr
  let v := if home == addr then value else BitVec.ofNat 32 (bitsOf value 0 0 * 2 ^ 31)
  let m := if home == addr then mask else BitVec.ofNat 32 (bitsOf mask 0 0 * 2 ^ 31)
  let old := rd s home
  let new := mergeWord home old v m
  let k := settingMask home &&& m
  { home := home, old := old, new := new, mask := m,
    sets := if k == 0 then [] else [{ addr := home, value := new, mask := k }] }

/-! ## Refusal rules -/

/-- Bits [hi:lo] are masked, at least in part. -/
def hits (mask : Word) (hi lo : Nat) : Bool := mask &&& maskOf hi lo != 0

/-- The value that a WO field takes from a write. -/
def woVal (value mask : Word) (hi lo : Nat) : Nat := bitsOf (value &&& mask) hi lo

/-- A value lies outside a range whose 0 selects the default. -/
def outside (v lo hi : Nat) : Bool := v != 0 && (decide (v < lo) || decide (hi < v))

/-- A gathering, descriptor set or slot of a subscriber is loaded (R35, R114). -/
def subLoaded (s : State) (n : Nat) : Bool :=
  (getJob s n).isSome || jobState s n == 1 || jobState s n == 2 || jobState s n == 3 ||
    s.slots.any fun e => match e.2 with
      | some x => x.sub == n
      | none => false

/-- Some quire table entry is valid (R32). -/
def anyQuire (s : State) : Bool := (List.range 256).any fun n => quireValid s n

/-- A coordinate word lies in a torus word (Tables 2.2, 2.3). -/
def coordFits (coord torus : Word) : Bool :=
  bitsOf coord 22 19 ≤ bitsOf torus 3 0 && bitsOf coord 18 15 ≤ bitsOf torus 7 4 && bitsOf coord 14 11 ≤ bitsOf torus 11 8

/-- Line-rate family of a PORT_CFG word: MODE [1] (R22). -/
def familyOf (w : Word) : Nat := bitsOf w 1 1

/-- R261: PORT_CFG writes of port p. -/
def portCfgRefused (s : State) (p : Nat) (old new : Word) : Bool :=
  let q := p + 1 - 2 * (p % 2)
  p == 160 ||
    (!isLeaf p && (familyOf new == 1 || new.getLsbD 28)) ||
    (bitsOf old 1 0 != bitsOf new 1 0 && old.getLsbD 31) ||
    (isLeaf p && portEn s q && familyOf new != familyOf (rd s (pPort q + 0x40))) ||
    (isSpine p && new.getLsbD 31 && axisSize s (spineAxis p) == 1)

/-- PORT_BUF_QUOTA (Table 11.8). -/
def bufQuotaRefused (p : Nat) (w : Word) : Bool :=
  let q := if bitsOf w 10 0 == 0 then (if isLeaf p then 24 else 96) else bitsOf w 10 0
  decide (1024 < bitsOf w 10 0) || decide (q ≤ bitsOf w 26 16)

/-- The intervals of the waiting bank of a port. -/
def waitingList (s : State) (p len : Nat) : List Nat :=
  (List.range len).map fun i => (rd s (wGate p (1 - operBank s p) i + 4)).toNat

/-- CHANGE is refused (R253, R255). -/
def gateChangeRefused (s : State) (p len : Nat) : Bool :=
  let xs := waitingList s p len
  bit s (pGate p + 0x40) 29 || len == 0 || decide (256 < len) || xs.any (fun x => decide (x < 64) || decide (1000000000 < x)) ||
    decide (1000000000 < xs.sum)

/-- R252: a meter with one word replaced. -/
def meterRefused (s : State) (addr : Nat) (new : Word) : Bool :=
  let a := addr - addr % 16
  let s := wr s addr new
  decide (fget s (a + 4) 15 0 < fget s a 15 0) || decide (fget s (a + 8) 31 16 < fget s (a + 8) 15 0)

/-- R240. -/
def bpCfgRefused (s : State) (d : Nat) (new : Word) : Bool :=
  let m0 := if bitsOf new 7 0 == 0 then 4 else bitsOf new 7 0
  let m1 := if bitsOf new 15 8 == 0 then 4 else bitsOf new 15 8
  let m2 := if bitsOf new 23 16 == 0 then 8 else bitsOf new 23 16
  (portsOfDie d).any (fun p => portEn s p) || decide (m0 < 2) || decide (m1 < 3) || decide (m2 < 4) || decide (64 < m0 + m1 + m2 + 2)

/-- The job that owns an event counter. -/
def counterOwner (s : State) (c : Nat) : Option Nat :=
  (s.jobs.find? fun e => match e.2 with
    | some j => j.counters.contains c
    | none => false).map (·.1)

/-- The job that owns a trigger. -/
def triggerOwner (s : State) (t : Nat) : Option Nat :=
  (s.jobs.find? fun e => match e.2 with
    | some j => j.triggers.contains t
    | none => false).map (·.1)

/-- A requester may act for a subscriber: an operator within its quires (R312). -/
def whoOwns (s : State) (who : Requester) (n : Nat) : Bool :=
  match who with
  | .mgmt => true
  | .session i =>
    match getSession s i with
    | some x => subAllowed s x n
    | none => false

/-- TRIG_ADD (Table 7.8). -/
def trigAddRefused (s : State) (who : Requester) (d : Nat) : Bool :=
  let c := fget s (pTrig d + 0x40) 14 0
  decide (c < 16384) || (match counterOwner s c with
    | some n => !whoOwns s who n
    | none => true)

/-- R35 for the entry of subscriber `n` with word 0 as `new`. -/
def quireEntryBad (s : State) (n : Nat) (new : Word) : Bool :=
  let t := wr s (wQuire n) new
  let others := (List.range 256).filter fun m => m != n && quireValid s m
  let base := rankBase t n
  let last := base + ranksM1 t n
  let live := fget t (wQuire n + 12) 9 0
  ((List.range 3).any fun a => decide (axisSize t a < blockExtent t n a)) || !indexInBlock t n (ownIndex t) ||
    (others.any fun m => quireId s m == quireId t n ||
      ((List.range 4).any fun j => rd s (wQuire m + 16 + 4 * j) &&& rd t (wQuire n + 16 + 4 * j) != 0) ||
      (decide (base ≤ rankBase s m + ranksM1 s m) && decide (rankBase s m ≤ last))) ||
    decide (131071 < last) || outside live 5 1000

/-- Quire table writes (R35, R410). -/
def quireRefused (s : State) (n off : Nat) (old new : Word) : Bool :=
  if off != 0 then quireValid s n
  else (subLoaded s n && old != new) || (new.getLsbD 31 && quireEntryBad s n new)

/-- The valid quire whose rank range holds an entry. -/
def rankQuire (s : State) (e : Nat) : Option Nat :=
  findUp (fun n => quireValid s n && decide (rankBase s n ≤ e) && decide (e ≤ rankBase s n + ranksM1 s n)) 256 0

/-- R37. -/
def rankRefused (s : State) (e : Nat) (new : Word) : Bool :=
  new.getLsbD 31 && (match rankQuire s e with
    | none => true
    | some n =>
      let i := bitsOf new 22 11
      let p := bitsOf new 10 3
      !indexInBlock s n i || (128 ≤ p && p ≤ 254) || (p == 255 && bitsOf new 2 0 != 0) ||
        (p < 128 && i == ownIndex s && !inLeafMask s n p))

/-- R114. -/
def slotQuotaRefused (s : State) (n : Nat) (old new : Word) : Bool :=
  let b := bitsOf new 11 0
  let k := bitsOf new 28 16
  decide (4096 < b + k) || (subLoaded s n && old != new) ||
    (List.range 256).any fun m =>
      let c := fget s (wSlotQuota m) 11 0
      let l := fget s (wSlotQuota m) 28 16
      m != n && k != 0 && l != 0 && decide (b < c + l) && decide (c < b + k)

/-- Table 11.11. -/
def subQuotaRefused (new : Word) : Bool :=
  let q := if bitsOf new 10 0 == 0 then 1024 else bitsOf new 10 0
  decide (1024 < bitsOf new 10 0) || decide (q ≤ bitsOf new 26 16)

/-- The KEY of a credential entry. -/
def credKey (s : State) (e : Nat) : List Word := (List.range 8).map fun j => rd s (wCred e + 4 + 4 * j)

/-- Credential writes (R333, R410). -/
def credRefused (s : State) (e off : Nat) (new : Word) : Bool :=
  if off != 0 then bit s (wCred e) 31
  else new.getLsbD 31 && (List.range 64).any fun f => f != e && bit s (wCred f) 31 && credKey s f == credKey s e

/-- R350. -/
def reactRefused (k : Nat) (new : Word) : Bool :=
  match kindOf k with
  | none => true
  | some r =>
    r.fixed || BitVec.ofNat 32 r.mand &&& ~~~new != 0 || (r.cls == 0 && new &&& 0x2E != 0) || (new.getLsbD 3 && !new.getLsbD 5) ||
      (new.getLsbD 2 && !r.resets)

/-- The rules of chip pages. -/
def chipRefused (s : State) (who : Requester) (ty off : Nat) (old new value mask : Word) : Bool :=
  match ty, off with
  | 0x01, 0x048 => anyQuire s || !coordFits new (rd s (pGlb + 0x4C))
  | 0x01, 0x04C => anyQuire s || !coordFits (rd s (pGlb + 0x48)) new
  | 0x01, 0x050 => decide (new.toNat ≤ old.toNat)
  | 0x05, 0x04C => woVal value mask 1 0 == 1 && recommissionRefused s who
  | 0x07, 0x048 => decide (112 < woVal value mask 7 0) || woVal value mask 7 0 == 111
  | 0x08, 0x040 => outside (bitsOf new 15 0) 600 1700 || outside (bitsOf new 23 16) 1 30
  | 0x09, 0x040 => outside (bitsOf new 7 0) 85 105
  | 0x0B, 0x040 => woVal value mask 31 31 == 1 && fallow s
  | 0x0C, 0x044 => decide ((rd s (pFltLog + 0x40)).toNat < new.toNat)
  | 0x0D, 0x040 => swathRefused s (woVal value mask 15 0)
  | 0x0F, 0x040 => bitsOf new 31 28 == 0
  | _, _ => false

/-- The rules of block pages. -/
def blockRefused (s : State) (who : Requester) (k : PageKind) (page off : Nat) (old new value mask : Word) : Bool :=
  let i := k.inst page
  match k.ty, off with
  | 0x20, 0x040 => portCfgRefused s i old new
  | 0x20, 0x04C => woVal value mask 0 0 == 1 && fget s (page + 0x48) 7 0 != 5
  | 0x20, 0x064 => bufQuotaRefused i new
  | 0x20, 0x068 => outside (bitsOf new 29 16) 17 16383
  | 0x21, 0x044 => pState s (portOfGroup i) != 7
  | 0x22, 0x040 => new.getLsbD 0 && new.getLsbD 1
  | 0x23, 0x040 => decide (16 < bitsOf new 23 16)
  | 0x24, 0x040 => woVal value mask 30 30 == 1 && gateChangeRefused s i (bitsOf new 8 0)
  | 0x25, _ => meterRefused s (page + off) new
  | 0x26, 0x044 => outside (bitsOf new 9 0) 5 1000
  | 0x28, 0x040 => bpCfgRefused s i new
  | 0x29, 0x040 => slotsAssigned s || decide (32 < bitsOf new 5 0)
  | 0x2E, 0x040 => pState s (portOfGroup i) != 7 || decide (10 < bitsOf new 3 0) || decide (64 < bitsOf new 13 8)
  | 0x2F, 0x044 => trigAddRefused s who i
  | ty, _ => chipRefused s who ty off old new value mask

/-- The rules of the common header (R381, R400, R407). -/
def headerRefused (s : State) (k : PageKind) (page off : Nat) (old new value mask : Word) : Bool :=
  match off with
  | 0x008 =>
    (woVal value mask 1 1 == 1 && !k.hasReset) ||
      (mask.getLsbD 0 && (if k.ty == 0x20 then portCfgRefused s (k.inst page) old new
        else !value.getLsbD 0 && (!k.hasEnable || jobHolds s k.ty (k.inst page))))
  | 0x020 => mask.getLsbD 0 && s.hostSt.lockWritten.contains page
  | _ => false

/-- The rules of table windows. -/
def windowRefused (s : State) (base e off : Nat) (old new mask : Word) : Bool :=
  match base with
  | 0x1010000 => rankRefused s e new
  | 0x1120000 => slotQuotaRefused s e old new
  | 0x1150000 => subQuotaRefused new
  | 0x1154000 => bitsOf new 10 8 == 7 || (hits mask 10 8 && subLoaded s e)
  | 0x1180000 => (triggerOwner s e).isNone
  | 0x1310000 => quireRefused s e off old new
  | 0x1D00000 => credRefused s e off new
  | 0x1E00000 => reactRefused e new
  | 0x3000000 => off / 0x800 == operBank s e
  | _ => false

/-- A block's rules refuse a write. -/
def rulesRefuse (s : State) (who : Requester) (addr : Nat) (c : Change) (value mask : Word) : Bool :=
  match pageOf addr with
  | some (k, page) =>
    if addr - page < 0x40 then headerRefused s k page (addr - page) c.old c.new value mask
    else blockRefused s who k page (addr - page) c.old c.new value mask
  | none =>
    match windowOf addr with
    | some (b, e, off) => windowRefused s b e off c.old c.new mask
    | none => false

/-! ## Rights, the lock and the record -/

/-- The subscriber whose word an address is (R409): by index, or the owner of a trigger. -/
def wordOwner (s : State) (addr : Nat) : Option Nat :=
  match pageOf addr with
  | some (k, page) => pageOwner s k page
  | none =>
    match windowOf addr with
    | some (b, e, _) => if b == 0x1180000 then triggerOwner s e else if subscriberWindows.contains b && e < 256 then some e else none
    | none => none

/-- RIGHTS (R312, R401). The management core has no such test. -/
def rightsFail (s : State) (who : Requester) (addr : Nat) (mask : Word) : Bool :=
  match who with
  | .mgmt => false
  | .session i =>
    match getSession s i with
    | none => true
    | some x =>
      let fs := touched addr mask
      fs.any (fun f => !f.allows x.role) || (!fs.isEmpty && x.role == 0 && (match wordOwner s addr with
        | some n => !ownsSub s x n
        | none => false))

/-- LOCKED covers a session's write (R405). -/
def lockRefuses (s : State) (who : Requester) (addr : Nat) (mask : Word) : Bool :=
  match who, pageOf addr with
  | .session _, some (_, page) => bit s (page + 0x20) 0 && (touched addr mask).any fun f => f.i && !f.o
  | _, _ => false

/-- The subscriber's job is LOADING or UNLOADING (R409); job words w0 are exempt. -/
def busyRefuses (s : State) (addr : Nat) (mask : Word) : Bool :=
  !(touched addr mask).isEmpty && (match windowOf addr with
    | some (b, _, off) =>
      !(b == 0x1140000 && off == 0) && (pageOf addr).isNone && (match wordOwner s addr with
        | some n => jobState s n == 1 || jobState s n == 3
        | none => false)
    | none => false)

/-- A write to KST_CTRL: the stitch (R278). -/
def stitchCtrl (addr : Nat) (mask : Word) : Option Nat :=
  match pageOf addr with
  | some (k, page) => if k.ty == 0x22 && addr - page == 0x040 && !(touched addr mask).isEmpty then some (k.inst page) else none
  | none => none

/-- The write gives the job words a CMD (Table 9.11). -/
def cmdWritten (addr : Nat) (value mask : Word) : Bool :=
  match windowOf addr with
  | some (0x1140000, _, 0) => woVal value mask 31 28 != 0
  | _ => false

/-- The write masks a bit of a field whose Rights include I or M, or is a CMD write of the job words (R340, log 97). -/
def recorded (addr : Nat) (value mask : Word) : Bool := ((touched addr mask).any fun f => f.i || f.m) || cmdWritten addr value mask

/-- A session's write needs a record that the ring cannot take (R343). -/
def recordBlocked (s : State) (who : Requester) (addr : Nat) (value mask : Word) : Bool :=
  who != .mgmt && auditBlocked s && recorded addr value mask

/-- OP_STATUS of a write (Table 15.5). -/
def writeStatus (s : State) (who : Requester) (addr : Nat) (value mask : Word) : Nat :=
  if 0x03FFFFFF < addr || addr % 4 != 0 then 4
  else if !mapped addr then 3
  else if rightsFail s who addr mask then 1
  else if recordBlocked s who addr value mask || lockRefuses s who addr mask || busyRefuses s addr mask ||
      (!(touched addr mask).isEmpty && rulesRefuse s who addr (changeOf s addr value mask) value mask) then 2
  else 0

/-- The record of a write: STITCH_OVERRIDE for KST_CTRL, else REG_WRITE where R340 calls for one. -/
def recordWrite (s : State) (who : Requester) (addr : Nat) (value mask : Word) (c : Change) (st : Nat) : State :=
  let new := if st == 0 then c.new else c.old
  let sets := if st == 0 then c.sets else []
  match stitchCtrl addr mask with
  | some n => auditAdd s 0x0B (whoRole s who) st n (whoSession who) (leBytes 4 c.old.toNat ++ leBytes 4 new.toNat) sets
  | none =>
    if recorded addr value mask then
      auditAdd s 5 (whoRole s who) st 0 (whoSession who)
        (leBytes 4 addr ++ leBytes 4 mask.toNat ++ leBytes 4 c.old.toNat ++ leBytes 4 new.toNat) sets
    else s

/-! ## What a write does -/

/-- PORT_CFG: EN and TEST (R264, R279, R381). -/
def portCfgActs (s : State) (p : Nat) (old new : Word) : State :=
  let s := if new.getLsbD 30 && !old.getLsbD 30 then enterTest s p
    else if !new.getLsbD 30 && old.getLsbD 30 then leaveTest s p else s
  if new.getLsbD 31 && !old.getLsbD 31 then enablePort s p
  else if !new.getLsbD 31 && old.getLsbD 31 then disablePort s p
  else s

/-- ADOPT (R272): the record, the expectation, its setting, and stage 9 again. -/
def adoptPort (s : State) (who : Requester) (p : Nat) : State :=
  let a := pPort p
  let w0 := rd s (a + 0x80)
  let w1 := rd s (a + 0x84)
  let w2 := putBits (rd s (a + 0x78)) 7 0 (foundPort s p)
  let sets : List Setting := [⟨a + 0x70, w0, 0xFFFFFFFF⟩, ⟨a + 0x74, w1, 0xFFFFFFFF⟩, ⟨a + 0x78, w2, maskOf 31 30 ||| maskOf 7 0⟩]
  let s := auditAdd s 0x0A (whoRole s who) 0 p (whoSession who) (leBytes 4 w0.toNat ++ leBytes 4 w1.toNat ++ leBytes 1 (foundPort s p)) sets
  let s := wr (wr (wr s (a + 0x70) w0) (a + 0x74) w1) (a + 0x78) w2
  let s := if isSpine p then fset s (pStitch (stitchOfPort p) + 0x44) 9 8 0 else s
  if pState s p == 5 then stage9 s p else s

/-- CHANGE (R255): the start instant of the waiting list. -/
def gateChangeNow (s : State) (p : Nat) : State :=
  let a := pGate p
  let len := fget s (a + 0x40) 8 0
  let cyc := (waitingList s p len).sum
  let base := rdPair s (a + 0x44)
  let t := gateNow s p + 10000
  let start := if t ≤ base then base else base + ceilDiv (t - base) cyc * cyc
  setGate (setBit s (a + 0x40) 29 true) p { getGate s p with waitLen := len, startAt := start, waitBase := base }

/-- The trigger's VALID: armed and tested, or idle with its unfinished posts withdrawn (R158, R159). A trigger that has FIRED keeps
VALID 1: only clearing VALID and setting it again arms it anew (log 98). -/
def triggerActs (s : State) (t : Nat) (on : Bool) : State :=
  if on then (if trigState s t == 0 || trigState s t == 3 then testTrigger (fset s (wTrig t) 30 28 1) t else s)
  else { (fset s (wTrig t) 30 28 0) with pendingPosts := Sparse.erase s.pendingPosts t }

/-- VALID of a credential entry cleared: every open session of that key closes (R333). -/
def credCleared (s : State) (e : Nat) : State :=
  (((sessionList s).filter fun x => x.2.accepted && x.2.role == 0 && x.2.cred == e).map (·.1)).foldl (fun s sid => closeSession s sid 4) s

/-- Known-answer tests of a RECOMMISSION whose command does not say how they end (log 8). -/
def katOf (s : State) (kat : Option Bool) : Bool × State :=
  match kat with
  | some b => (b, s)
  | none => (Config.freeNat (draw s).1 % 2 == 0, (draw s).2)

/-- Actions of chip pages. -/
def chipActs (s : State) (who : Requester) (kat : Option Bool) (ty off : Nat) (old value mask : Word) : State :=
  match ty, off with
  | 0x01, 0x048 => moveOwnReach s (bitsOf old 22 11)
  | 0x05, 0x048 => refreshCert s
  | 0x05, 0x04C =>
    (match woVal value mask 1 0 with
     | 1 => let b := katOf s kat; recommission b.2 who b.1
     | 2 => decommission s who
     | _ => s)
  | 0x07, 0x040 => if mask.getLsbD 0 then refSelect s (value.getLsbD 0) else s
  | 0x07, 0x048 => if woVal value mask 31 31 == 1 then clkOn s (woVal value mask 7 0) else clkOff s (woVal value mask 7 0)
  | 0x0A, 0x040 => if woVal value mask 0 0 == 1 then chipResetNow s 2 else s
  | 0x0B, 0x040 => if woVal value mask 31 31 == 1 then showPin { s with faults := { s.faults with latched := false } } else s
  | 0x0B, 0x048 => if woVal value mask 0 0 == 1 then serve s (mkFault 0x0B 0 0x4B 2 0 0xFF 0) else s
  | 0x0D, 0x040 => launchSwath s (woVal value mask 15 0)
  | 0x0E, 0x040 => disciplineActs s old
  | _, _ => s

/-- Actions of block pages. -/
def blockActs (s : State) (who : Requester) (kat : Option Bool) (k : PageKind) (page off : Nat) (old new value mask : Word) : State :=
  let i := k.inst page
  match k.ty, off with
  | 0x20, 0x040 => portCfgActs s i old new
  | 0x20, 0x04C =>
    let s := if woVal value mask 0 0 == 1 then adoptPort s who i else s
    if woVal value mask 1 1 == 1 then retrainPort s i else s
  | 0x20, 0x064 => releaseBanked s i
  | 0x20, 0x068 => releaseBanked s i
  | 0x22, 0x040 =>
    let s := if new.getLsbD 0 && !old.getLsbD 0 then closeNow s i 3 else s
    if woVal value mask 2 2 == 1 then
      openStart (setStitch (fset s (page + 0x44) 9 8 0) i { getStitch s i with retryOwed := false }) i
    else s
  | 0x24, 0x040 => pump (if woVal value mask 30 30 == 1 then gateChangeNow s i else s) i
  | 0x25, _ => fillMeter s i ((off - 0x40) / 16)
  | 0x28, 0x040 => showPools s i
  | 0x2C, 0x04C => if woVal value mask 0 0 == 1 then clearRetired s i else s
  | 0x2D, 0x04C => forUp (fun s j => if woVal value mask j j == 1 then clearRetired s (8 + j) else s) 4 0 s
  | 0x2E, 0x040 => if mask.getLsbD 30 && new.getLsbD 30 then ctrsReset s page else s
  | 0x2F, 0x044 => advanceCounter s (fget s (page + 0x40) 14 0) (value &&& mask).toNat
  | ty, _ => chipActs s who kat ty off old value mask

/-- Actions of the common header. -/
def headerActs (s : State) (k : PageKind) (page off : Nat) (old new value mask : Word) : State :=
  match off with
  | 0x008 =>
    let s := if !mask.getLsbD 0 then s
      else if k.ty == 0x20 then portCfgActs s (k.inst page) old new
      else enableBlock s page (value.getLsbD 0)
    if woVal value mask 1 1 == 1 then resetBlock s page 2 else s
  | 0x010 => notify s page
  | 0x014 => notify s page
  | 0x020 => { s with hostSt := { s.hostSt with lockWritten := addNat s.hostSt.lockWritten page } }
  | _ => s

/-- Actions of table windows. -/
def windowActs (s : State) (who : Requester) (base e off : Nat) (old new value mask : Word) : State :=
  match base with
  | 0x1140000 =>
    (match off, woVal value mask 31 28 with
     | 0, 1 => jobLoadCmd s e (whoRole s who) (whoSession who)
     | 0, 2 => jobUnloadCmd s e (whoRole s who) (whoSession who)
     | _, _ => s)
  | 0x1150000 => serveWaiters ((List.range 8).foldl releaseDie s)
  | 0x1180000 => if old.getLsbD 31 != new.getLsbD 31 then triggerActs s e (new.getLsbD 31) else s
  | 0x1C20000 =>
    (match off, woVal value mask 31 28 with
     | 0, 1 => signBatchCmd s e
     | 0, 2 => releaseBatchCmd s e
     | _, _ => s)
  | 0x1D00000 => if off == 0 && old.getLsbD 31 && !new.getLsbD 31 then credCleared s e else s
  | _ => s

/-- Before a register changes, what it has governed so far is settled: a transit bucket fills at the old TRANSIT_256 up to now
(R250). -/
def settleBefore (s : State) (addr : Nat) : State :=
  match pageOf addr with
  | some (k, page) => if k.ty == 0x23 && addr - page == 0x040 then settleBucket s (k.inst page) else s
  | none => s

/-- An accepted write: its record, then the fields, then the actions (R342, R401). -/
def acceptWrite (s : State) (who : Requester) (kat : Option Bool) (addr : Nat) (value mask : Word) : State :=
  let c := changeOf s addr value mask
  let s := recordWrite s who addr value mask c 0
  let s := wr (settleBefore s addr) c.home c.new
  match pageOf addr with
  | some (k, page) =>
    if addr - page < 0x40 then headerActs s k page (addr - page) c.old c.new value mask
    else blockActs s who kat k page (addr - page) c.old c.new value mask
  | none =>
    match windowOf addr with
    | some (b, e, off) => windowActs s who b e off c.old c.new value mask
    | none => s

/-- A write that fails with status 1 or 2: its record, and CFG_REFUSED for status 2 (R312, R340, R404). -/
def refuseWrite (s : State) (who : Requester) (addr : Nat) (value mask : Word) (st : Nat) : State :=
  let s' := if recordBlocked s who addr value mask then s else recordWrite s who addr value mask (changeOf s addr value mask) st
  if st == 2 then cfgRefused s' addr else s'

/-- One write of a register (R311, R312): OP_STATUS and the state. -/
def writeWord (s : State) (who : Requester) (kat : Option Bool) (addr : Nat) (value mask : Word) : Nat × State :=
  let st := writeStatus s who addr value mask
  if st == 0 then
    (0, if (touched addr mask).isEmpty then s else acceptWrite s who kat addr value mask)
  else if st ≤ 2 then (st, refuseWrite s who addr value mask st)
  else (st, s)

/-! ## Register writes as commands -/

/-- A requester that can make a write now: firmware runs, and a session is open; a held or fallow device serves no session's
write (R310). -/
def mayWrite (s : State) (who : Requester) : Bool :=
  match who with
  | .mgmt => live s && fwRunning s
  | .session i => served s && (openSession s i).isSome && !limited s

/-- One register write as a command of its own. -/
def commandWrite (who : Requester) (kat : Option Bool) (addr : Nat) (value mask : Word) (s : State) : State :=
  if mayWrite s who then (writeWord s who kat addr value mask).2 else s

end Sys2Proof.Machine
end

