-- ==== Sys2Proof/Machine/Rows.lean ====
section
/-! DEFINITION. REG and the commands that are one register write each (R311, R312). An instance number the device does not have
names no populated word: the write is UNMAPPED and changes nothing (R398). -/
namespace Sys2Proof.Machine

open Sys2Proof

/-- A write to one instance's word, where the instance exists. -/
def writeIf (ok : Bool) (who : Requester) (addr : Nat) (value mask : Word) (s : State) : Out :=
  .next (if ok then commandWrite who none addr value mask s else s)

/-! ## REG (R311, R312) -/

/-- An operation that writes. -/
def opWrites (o : RegOp) : Bool := o.op == 2 || o.op == 4

/-- The first word of a pair that is read atomically: an event counter's, or TIME_NOW's (R163, Table 12.8). -/
def firstOfPair (a : Nat) : Bool :=
  a == pTime + 0x50 || (match windowOf a with
    | some (0x1280000, _, off) => off == 0
    | _ => false)

/-- READ32 by a session: the first word of a pair takes the second with it, which the session's next read of that second returns. -/
def readOne (s : State) (sid : Nat) (x : Session) (a : Nat) : (Nat × Word) × State :=
  let key := sid * 2 ^ 27 + a
  let r := readWord s sid x a
  let put := fun (k : Nat) (v : Option Word) => { s with latches := Sparse.set (fun _ => none) s.latches k v }
  if r.1 != 0 then (r, s)
  else if firstOfPair a then (r, put (key + 4) (some (shown s (a + 4))))
  else
    match Sparse.get (fun _ => none) s.latches key with
    | some v => ((0, v), put key none)
    | none => (r, s)

/-- One operation of a batch: status, HIGH, LOW and the state. A session that has gone executes nothing more. -/
def runOp (s : State) (sid : Nat) (o : RegOp) : (Nat × Word × Word) × State :=
  match openSession s sid with
  | none => ((5, 0, 0), s)
  | some x =>
    let a := o.addr.toNat
    match o.op.toNat with
    | 1 =>
      let r := readOne s sid x a
      ((r.1.1, 0, r.1.2), r.2)
    | 3 =>
      if a % 8 != 0 then ((4, 0, 0), s)
      else
        let h := readWord s sid x a
        let l := readWord s sid x (a + 4)
        if h.1 != 0 then ((h.1, 0, 0), s) else if l.1 != 0 then ((l.1, 0, 0), s) else ((0, h.2, l.2), s)
    | n =>
      let w := writeWord s (.session sid) none a o.value (if n == 2 then 0xFFFFFFFF else o.mask)
      ((w.1, 0, 0), w.2)

/-- The operations in order; under STOP those after a failure are SKIPPED. -/
def runOps (sid : Nat) (stop : Bool) : List RegOp → Bool → State → List (Nat × Word × Word) × State
  | [], _, s => ([], s)
  | o :: os, failed, s =>
    if failed then
      let r := runOps sid stop os true s
      ((5, 0, 0) :: r.1, r.2)
    else
      let x := runOp s sid o
      let r := runOps sid stop os (stop && x.1.1 != 0) x.2
      (x.1 :: r.1, r.2)

/-- The 12 bytes of a result. -/
def resultBytes (r : Nat × Word × Word) : List Byte :=
  beBytes 1 r.1 ++ [0, 0, 0] ++ beBytes 4 r.2.1.toNat ++ beBytes 4 r.2.2.toNat

/-- REG (R310, R311, R312). -/
def execReg (session : Nat) (msgNum : Word) (stop : Bool) (ops : List RegOp) (s : State) : Out :=
  .next (request s session msgNum.toNat (!ops.any opWrites) fun s _ =>
    if ops.isEmpty || 256 < ops.length || ops.any (fun o => o.op.toNat == 0 || decide (4 < o.op.toNat)) then
      respond s session msgNum.toNat 0x7F 4 []
    else
      let r := runOps session stop ops false s
      respond r.2 session msgNum.toNat 0x11 0 (beBytes 2 ops.length ++ [0, 0] ++ (r.1.map resultBytes).flatten))

/-- REGISTER_WRITE: WRITE_MASKED of any word. -/
def execRegisterWrite (who : Requester) (addr value mask : Word) (s : State) : Out :=
  .next (commandWrite who none addr.toNat value mask s)

/-! ## The common header -/

/-- A byte address is the base of a page. -/
def isPage (page : Nat) : Bool := page % 0x1000 == 0 && (pageOf page).isSome

/-- BLOCK_ENABLE (R381). -/
def execBlockEnable (who : Requester) (page : Nat) (s : State) : Out := writeIf (isPage page) who (page + 0x08) 1 1 s
/-- BLOCK_DISABLE (R381). -/
def execBlockDisable (who : Requester) (page : Nat) (s : State) : Out := writeIf (isPage page) who (page + 0x08) 0 1 s
/-- BLOCK_RESET: BLK_RESET written 1, or a BLOCK_RESET reaction (R379). -/
def execBlockReset (who : Option Requester) (page : Nat) (s : State) : Out :=
  match who with
  | some w => writeIf (isPage page) w (page + 0x08) 2 2 s
  | none => .next (if live s then resetBlock s page 3 else s)
/-- EVENT_STATUS_CLEAR (R404). -/
def execEventStatusClear (who : Requester) (page : Nat) (bits : Word) (s : State) : Out :=
  writeIf (isPage page) who (page + 0x10) bits bits s
/-- PAGE_LOCK (R405). -/
def execPageLock (who : Requester) (page : Nat) (s : State) : Out := writeIf (isPage page) who (page + 0x20) 1 1 s

/-! ## Chip pages -/

/-- CHIP_RESET (R378): RST_CMD, or the CHIP_RESET reaction. -/
def execChipReset (who : Option Requester) (s : State) : Out :=
  match who with
  | some w => writeIf true w (pRst + 0x40) 1 1 s
  | none => .next (chipResetReaction s)
/-- REF_SELECT_WRITE (R365). -/
def execRefSelectWrite (who : Requester) (sel : Bool) (s : State) : Out :=
  writeIf true who (pClk + 0x40) (BitVec.ofNat 32 (b2n sel)) 1 s
/-- CLK_GATE ON (R369). -/
def execClkGateOn (who : Requester) (node : Nat) (s : State) : Out :=
  writeIf (decide (node < 256)) who (pClk + 0x48) (BitVec.ofNat 32 (2 ^ 31 + node)) 0x800000FF s
/-- CLK_GATE OFF (R369). -/
def execClkGateOff (who : Requester) (node : Nat) (s : State) : Out :=
  writeIf (decide (node < 256)) who (pClk + 0x48) (BitVec.ofNat 32 node) 0x800000FF s
/-- MANUAL_FALLOW: FLT_CMD.FALLOW (R363). -/
def execManualFallow (who : Requester) (s : State) : Out := writeIf true who (pFlt + 0x48) 1 1 s
/-- FLT_PIN.CLEAR (R352). -/
def execFaultPinClear (who : Requester) (s : State) : Out := writeIf true who (pFlt + 0x40) 0x80000000 0x80000000 s
/-- FLT_ACK (R347, R363). -/
def execFltAckWrite (who : Requester) (seq : Word) (s : State) : Out := writeIf true who (pFltLog + 0x44) seq 0xFFFFFFFF s
/-- FLT_REACT (R350). -/
def execFltReactWrite (who : Requester) (kind : Nat) (value mask : Word) (s : State) : Out :=
  writeIf (decide (kind < 256)) who (wReact kind) value mask s
/-- SEC_CMD RECOMMISSION (R337). -/
def execSecRecommission (who : Requester) (katPass : Bool) (s : State) : Out :=
  .next (commandWrite who (some katPass) (pSec + 0x4C) 1 3 s)
/-- SEC_CMD DECOMMISSION (R334). -/
def execSecDecommission (who : Requester) (s : State) : Out := writeIf true who (pSec + 0x4C) 2 3 s
/-- SWATH_CMD (R390). -/
def execSwathLaunch (who : Requester) (seq : BitVec 16) (s : State) : Out :=
  writeIf true who (pSwath + 0x40) (BitVec.ofNat 32 seq.toNat) 0xFFFF s
/-- GLB_COORD (R32). -/
def execGlbCoordWrite (who : Requester) (value mask : Word) (s : State) : Out := writeIf true who (pGlb + 0x48) value mask s
/-- GLB_TORUS (R32). -/
def execGlbTorusWrite (who : Requester) (value mask : Word) (s : State) : Out := writeIf true who (pGlb + 0x4C) value mask s
/-- GLB_FABRIC_EPOCH (R43). -/
def execFabricEpochWrite (who : Requester) (value : Word) (s : State) : Out := writeIf true who (pGlb + 0x50) value 0xFFFFFFFF s

/-! ## Ports, stitches and patterns -/

/-- PORT_CFG.EN written 1 with a MODE (R261, R264). -/
def execPortEnable (who : Requester) (port : Nat) (mode : BitVec 2) (s : State) : Out :=
  writeIf (decide (port ≤ 160)) who (pPort port + 0x40) (BitVec.ofNat 32 (2 ^ 31 + mode.toNat)) 0x80000003 s
/-- PORT_CFG.EN written 0 (R275). -/
def execPortDisable (who : Requester) (port : Nat) (s : State) : Out :=
  writeIf (decide (port ≤ 160)) who (pPort port + 0x40) 0 0x80000000 s
/-- PORT_CFG.TEST written 1 (R279). -/
def execPortTestEnter (who : Requester) (port : Nat) (s : State) : Out :=
  writeIf (decide (port ≤ 160)) who (pPort port + 0x40) 0x40000000 0x40000000 s
/-- PORT_CMD.RETRAIN (R266). -/
def execPortRetrain (who : Requester) (port : Nat) (s : State) : Out :=
  writeIf (decide (port ≤ 160)) who (pPort port + 0x4C) 2 2 s
/-- PORT_CMD.ADOPT (R272). -/
def execPortAdopt (who : Requester) (port : Nat) (s : State) : Out := writeIf (decide (port ≤ 160)) who (pPort port + 0x4C) 1 1 s
/-- KST_CTRL.FORCE_CLOSE written 1 (R275, R278). -/
def execKstForceClose (who : Requester) (stitch : Nat) (s : State) : Out :=
  writeIf (decide (stitch < 12)) who (pStitch stitch + 0x40) 1 1 s
/-- KST_CTRL.HOLD_OPEN (R278). -/
def execKstHoldOpen (who : Requester) (stitch : Nat) (hold : Bool) (s : State) : Out :=
  writeIf (decide (stitch < 12)) who (pStitch stitch + 0x40) (BitVec.ofNat 32 (2 * b2n hold)) 2 s
/-- KST_CTRL.RETRY (R274, R278). -/
def execKstRetry (who : Requester) (stitch : Nat) (s : State) : Out :=
  writeIf (decide (stitch < 12)) who (pStitch stitch + 0x40) 4 4 s
/-- PAT_CTRL (R279). -/
def execPatCtrlWrite (who : Requester) (group : Nat) (value mask : Word) (s : State) : Out :=
  writeIf (decide (group ≤ 192)) who (pPattern group + 0x40) value mask s

/-! ## Buffers, gates, meters, quotas -/

/-- BP_CFG (R240). -/
def execBpCfgWrite (who : Requester) (die : Nat) (value mask : Word) (s : State) : Out :=
  writeIf (decide (die < 8)) who (pBufPool die + 0x40) value mask s
/-- GATE_CTRL.CHANGE (R255). -/
def execGateChange (who : Requester) (port : Nat) (s : State) : Out :=
  writeIf (decide (port ≤ 160)) who (pGate port + 0x40) 0x40000000 0x40000000 s
/-- A word of a meter (R252). -/
def execMeterWrite (who : Requester) (port cls word : Nat) (value mask : Word) (s : State) : Out :=
  writeIf (decide (port ≤ 160) && decide (cls < 8) && decide (word < 4)) who (meterAddr port cls word) value mask s
/-- RED_SLOT_QUOTA (R114). -/
def execSlotQuotaWrite (who : Requester) (sub : Nat) (value mask : Word) (s : State) : Out :=
  writeIf (decide (sub < 256)) who (wSlotQuota sub) value mask s
/-- RED_SPILL_CFG (R140). -/
def execRedSpillCfgWrite (who : Requester) (die : Nat) (value mask : Word) (s : State) : Out :=
  writeIf (decide (die < 8)) who (pReduce die + 0x40) value mask s
/-- TRIG_ADD_AMT (Table 7.8). -/
def execTrigAdd (who : Requester) (die : Nat) (amount : Word) (s : State) : Out :=
  writeIf (decide (die < 8)) who (pTrig die + 0x44) amount 0xFFFFFFFF s
/-- VALID of a trigger (R157 to R159). -/
def execTriggerValidWrite (who : Requester) (trigger : Nat) (valid : Bool) (s : State) : Out :=
  writeIf (decide (trigger < 32768)) who (wTrig trigger) (BitVec.ofNat 32 (b2n valid * 2 ^ 31)) 0x80000000 s

/-! ## Tables -/

/-- A word of a quire table entry (R35, R410). -/
def execQuireTableWrite (who : Requester) (entry word : Nat) (value mask : Word) (s : State) : Out :=
  writeIf (decide (entry < 256) && decide (word < 8)) who (wQuire entry + 4 * word) value mask s
/-- A rank translation entry (R37). -/
def execRankXlatWrite (who : Requester) (entry : Nat) (value mask : Word) (s : State) : Out :=
  writeIf (decide (entry < 131072)) who (wRank + 4 * entry) value mask s
/-- A word of a credential entry (R333, R410). -/
def execCredentialWrite (who : Requester) (entry word : Nat) (value mask : Word) (s : State) : Out :=
  writeIf (decide (entry < 64) && decide (word < 16)) who (wCred entry + 4 * word) value mask s
/-- CLEAR of a retirement map: stacks 0 to 7, then groups (R299). -/
def execRetireClear (who : Requester) (unit : Nat) (s : State) : Out :=
  if unit < 8 then writeIf true who (pStackMem unit + 0x4C) 1 1 s
  else writeIf (decide (unit < 12)) who (pLpddr 32 + 0x4C) (BitVec.ofNat 32 (2 ^ (unit - 8))) (BitVec.ofNat 32 (2 ^ (unit - 8))) s

/-! ## Job and seal words -/

/-- CMD LOAD (R200, R201). -/
def execJobLoad (who : Requester) (sub : Nat) (s : State) : Out :=
  writeIf (decide (sub < 256)) who (wJob sub) 0x10000000 0xF0000000 s
/-- CMD UNLOAD (R201). -/
def execJobUnload (who : Requester) (sub : Nat) (s : State) : Out :=
  writeIf (decide (sub < 256)) who (wJob sub) 0x20000000 0xF0000000 s
/-- CMD SIGN_BATCH (R219). -/
def execSignBatch (who : Requester) (sub : Nat) (s : State) : Out :=
  writeIf (decide (sub < 256)) who (wSeal sub) 0x10000000 0xF0000000 s
/-- CMD RELEASE (R218). -/
def execReleaseBatch (who : Requester) (sub : Nat) (s : State) : Out :=
  writeIf (decide (sub < 256)) who (wSeal sub) 0x20000000 0xF0000000 s

end Sys2Proof.Machine
end

