-- ==== Sys2Proof/Machine/Dispatch.lean ====
section
/-! DEFINITION. The meaning of each command: one arm per row of the table of operations and events. -/
namespace Sys2Proof.Machine

open Sys2Proof

def exec (i : Instr) (s : State) : Host.Outcome State Fault Refusal :=
  match i with
  | .powerOn makerEn bistQuick => Sys2Proof.Machine.execPowerOn makerEn bistQuick s
  | .resetNAssert => Sys2Proof.Machine.execResetNAssert s
  | .resetNRelease makerEn bistQuick => Sys2Proof.Machine.execResetNRelease makerEn bistQuick s
  | .chipReset who => Sys2Proof.Machine.execChipReset who s
  | .railPowerGoodTimeout rail => Sys2Proof.Machine.execRailPowerGoodTimeout rail s
  | .supplyOutOfRange rail => Sys2Proof.Machine.execSupplyOutOfRange rail s
  | .vioLoss => Sys2Proof.Machine.execVioLoss s
  | .lpddrBistDone badFrames => Sys2Proof.Machine.execLpddrBistDone badFrames s
  | .refClockLoss ref => Sys2Proof.Machine.execRefClockLoss ref s
  | .refSelectWrite who sel => Sys2Proof.Machine.execRefSelectWrite who sel s
  | .clockFallback reserveGood => Sys2Proof.Machine.execClockFallback reserveGood s
  | .clkGateOn who node => Sys2Proof.Machine.execClkGateOn who node s
  | .clkGateOff who node => Sys2Proof.Machine.execClkGateOff who node s
  | .paceSample monitor rate => Sys2Proof.Machine.execPaceSample monitor rate s
  | .powerControlTick railDw railMv tj => Sys2Proof.Machine.execPowerControlTick railDw railMv tj s
  | .pmbusAlert => Sys2Proof.Machine.execPmbusAlert s
  | .thermalTrip sensor => Sys2Proof.Machine.execThermalTrip sensor s
  | .blockEnable who page => Sys2Proof.Machine.execBlockEnable who page s
  | .blockDisable who page => Sys2Proof.Machine.execBlockDisable who page s
  | .blockStopDone page => Sys2Proof.Machine.execBlockStopDone page s
  | .blockReset who page => Sys2Proof.Machine.execBlockReset who page s
  | .blockResetDone page => Sys2Proof.Machine.execBlockResetDone page s
  | .faultRecord src => Sys2Proof.Machine.execFaultRecord src s
  | .extFallowReq => Sys2Proof.Machine.execExtFallowReq s
  | .manualFallow who => Sys2Proof.Machine.execManualFallow who s
  | .faultPinClear who => Sys2Proof.Machine.execFaultPinClear who s
  | .fltAckWrite who seq => Sys2Proof.Machine.execFltAckWrite who seq s
  | .fltReactWrite who kind value mask => Sys2Proof.Machine.execFltReactWrite who kind value mask s
  | .handshakeStall sourceType inst slotsInFlight => Sys2Proof.Machine.execHandshakeStall sourceType inst slotsInFlight s
  | .registerSweep bad => Sys2Proof.Machine.execRegisterSweep bad s
  | .mgmtLockstep => Sys2Proof.Machine.execMgmtLockstep s
  | .mgmtWatchdog => Sys2Proof.Machine.execMgmtWatchdog s
  | .tileSelfTest tile => Sys2Proof.Machine.execTileSelfTest tile s
  | .tileSelfTestDone tile pass => Sys2Proof.Machine.execTileSelfTestDone tile pass s
  | .fenceRx port => Sys2Proof.Machine.execFenceRx port s
  | .crossingWordRx crossing channel codes victim => Sys2Proof.Machine.execCrossingWordRx crossing channel codes victim s
  | .hostLinkUp mode trained => Sys2Proof.Machine.execHostLinkUp mode trained s
  | .hostLinkLoss => Sys2Proof.Machine.execHostLinkLoss s
  | .hostFrameRx frame => Sys2Proof.Machine.execHostFrameRx frame s
  | .ptpMessageRx msg => Sys2Proof.Machine.execPtpMessageRx msg s
  | .shafortSegmentRx d => Sys2Proof.Machine.execShafortSegmentRx d s
  | .segmentTimeout session msgNum => Sys2Proof.Machine.execSegmentTimeout session msgNum s
  | .hello ver role nonce linkLocal => Sys2Proof.Machine.execHello ver role nonce linkLocal s
  | .proof session body => Sys2Proof.Machine.execProof session body s
  | .proofTimeout session => Sys2Proof.Machine.execProofTimeout session s
  | .close session => Sys2Proof.Machine.execClose session s
  | .keepalive session => Sys2Proof.Machine.execKeepalive session s
  | .sessionIdleTimeout session => Sys2Proof.Machine.execSessionIdleTimeout session s
  | .reg session msgNum stop ops => Sys2Proof.Machine.execReg session msgNum stop ops s
  | .registerWrite who addr value mask => Sys2Proof.Machine.execRegisterWrite who addr value mask s
  | .eventStatusClear who page bits => Sys2Proof.Machine.execEventStatusClear who page bits s
  | .pageLock who page => Sys2Proof.Machine.execPageLock who page s
  | .subscribe session msgNum ranges => Sys2Proof.Machine.execSubscribe session msgNum ranges s
  | .eventAck session evtSeq => Sys2Proof.Machine.execEventAck session evtSeq s
  | .eventResendTimer session evtSeq => Sys2Proof.Machine.execEventResendTimer session evtSeq s
  | .eventAckTimeout session evtSeq => Sys2Proof.Machine.execEventAckTimeout session evtSeq s
  | .bulkOpen session msgNum req => Sys2Proof.Machine.execBulkOpen session msgNum req s
  | .bulkOpenResume session transfer => Sys2Proof.Machine.execBulkOpenResume session transfer s
  | .bulkData session transfer seg data => Sys2Proof.Machine.execBulkData session transfer seg data s
  | .bulkAck session transfer cum sack => Sys2Proof.Machine.execBulkAck session transfer cum sack s
  | .bulkAckTimer session transfer => Sys2Proof.Machine.execBulkAckTimer session transfer s
  | .bulkResendTimer session transfer seg => Sys2Proof.Machine.execBulkResendTimer session transfer seg s
  | .bulkCommit session msgNum transfer => Sys2Proof.Machine.execBulkCommit session msgNum transfer s
  | .bulkIdleTimeout session transfer => Sys2Proof.Machine.execBulkIdleTimeout session transfer s
  | .fwCheckDone => Sys2Proof.Machine.execFwCheckDone s
  | .fwProgramDone readBackOk => Sys2Proof.Machine.execFwProgramDone readBackOk s
  | .auditStart session fromSeq => Sys2Proof.Machine.execAuditStart session fromSeq s
  | .auditAck session next => Sys2Proof.Machine.execAuditAck session next s
  | .auditResendTimer session => Sys2Proof.Machine.execAuditResendTimer session s
  | .auditRecordProgram => Sys2Proof.Machine.execAuditRecordProgram s
  | .attestReq session msgNum nonce => Sys2Proof.Machine.execAttestReq session msgNum nonce s
  | .attestSigned => Sys2Proof.Machine.execAttestSigned s
  | .secRecommission who katPass => Sys2Proof.Machine.execSecRecommission who katPass s
  | .secDecommission who => Sys2Proof.Machine.execSecDecommission who s
  | .credentialWrite who entry word value mask => Sys2Proof.Machine.execCredentialWrite who entry word value mask s
  | .jtagExtest instruction => Sys2Proof.Machine.execJtagExtest instruction s
  | .portEnable who port mode => Sys2Proof.Machine.execPortEnable who port mode s
  | .portDisable who port => Sys2Proof.Machine.execPortDisable who port s
  | .portTestEnter who port => Sys2Proof.Machine.execPortTestEnter who port s
  | .signalDetect port lane => Sys2Proof.Machine.execSignalDetect port lane s
  | .trainingFrameRx port lane frame => Sys2Proof.Machine.execTrainingFrameRx port lane frame s
  | .bringupStageTimeout port => Sys2Proof.Machine.execBringupStageTimeout port s
  | .bringupRestart port => Sys2Proof.Machine.execBringupRestart port s
  | .identTimer port => Sys2Proof.Machine.execIdentTimer port s
  | .identRx port payload => Sys2Proof.Machine.execIdentRx port payload s
  | .identAckRx port => Sys2Proof.Machine.execIdentAckRx port s
  | .portRetrain who port => Sys2Proof.Machine.execPortRetrain who port s
  | .portAdopt who port => Sys2Proof.Machine.execPortAdopt who port s
  | .heldDownRetry port => Sys2Proof.Machine.execHeldDownRetry port s
  | .laneUnhealthy port lane dir cause => Sys2Proof.Machine.execLaneUnhealthy port lane dir cause s
  | .restripeDone port dir => Sys2Proof.Machine.execRestripeDone port dir s
  | .laneRejoin port lane dir => Sys2Proof.Machine.execLaneRejoin port lane dir s
  | .linkFrameRx port frame => Sys2Proof.Machine.execLinkFrameRx port frame s
  | .llrRetryRx port lsn => Sys2Proof.Machine.execLlrRetryRx port lsn s
  | .linkAckRx port lsn => Sys2Proof.Machine.execLinkAckRx port lsn s
  | .creditReturnRx port vc count => Sys2Proof.Machine.execCreditReturnRx port vc count s
  | .stitchOpenStart stitch => Sys2Proof.Machine.execStitchOpenStart stitch s
  | .stitchSenseSample stitch openMade closedMade => Sys2Proof.Machine.execStitchSenseSample stitch openMade closedMade s
  | .stitchAdmitTimeout stitch => Sys2Proof.Machine.execStitchAdmitTimeout stitch s
  | .stitchRetryTimer stitch => Sys2Proof.Machine.execStitchRetryTimer stitch s
  | .kstForceClose who stitch => Sys2Proof.Machine.execKstForceClose who stitch s
  | .kstHoldOpen who stitch hold => Sys2Proof.Machine.execKstHoldOpen who stitch hold s
  | .kstRetry who stitch => Sys2Proof.Machine.execKstRetry who stitch s
  | .patCtrlWrite who group value mask => Sys2Proof.Machine.execPatCtrlWrite who group value mask s
  | .packetRx port bytes stomped => Sys2Proof.Machine.execPacketRx port bytes stomped s
  | .packetTxDone port => Sys2Proof.Machine.execPacketTxDone port s
  | .origCellWaitEnd die pool => Sys2Proof.Machine.execOrigCellWaitEnd die pool s
  | .leakAuditPass die => Sys2Proof.Machine.execLeakAuditPass die s
  | .bpCfgWrite who die value mask => Sys2Proof.Machine.execBpCfgWrite who die value mask s
  | .gateEntryBoundary port => Sys2Proof.Machine.execGateEntryBoundary port s
  | .gateChange who port => Sys2Proof.Machine.execGateChange who port s
  | .gateListStart port => Sys2Proof.Machine.execGateListStart port s
  | .transitBucketRecover port => Sys2Proof.Machine.execTransitBucketRecover port s
  | .meterWrite who port cls word value mask => Sys2Proof.Machine.execMeterWrite who port cls word value mask s
  | .linkStateCtrlTimer => Sys2Proof.Machine.execLinkStateCtrlTimer s
  | .linkStateCtrlRx port view => Sys2Proof.Machine.execLinkStateCtrlRx port view s
  | .reachMapUpdate => Sys2Proof.Machine.execReachMapUpdate s
  | .routeTableRecompute => Sys2Proof.Machine.execRouteTableRecompute s
  | .timeSyncTimer => Sys2Proof.Machine.execTimeSyncTimer s
  | .timePacketRx port bytes ingress => Sys2Proof.Machine.execTimePacketRx port bytes ingress s
  | .timeRootTimeout => Sys2Proof.Machine.execTimeRootTimeout s
  | .ppsInEdge => Sys2Proof.Machine.execPpsInEdge s
  | .ppsOutPulse => Sys2Proof.Machine.execPpsOutPulse s
  | .ackDelayExpiry ctx => Sys2Proof.Machine.execAckDelayExpiry ctx s
  | .ackRx handle => Sys2Proof.Machine.execAckRx handle s
  | .rtoExpiry ctx seq => Sys2Proof.Machine.execRtoExpiry ctx seq s
  | .dataRx handle => Sys2Proof.Machine.execDataRx handle s
  | .slotQuotaWrite who sub value mask => Sys2Proof.Machine.execSlotQuotaWrite who sub value mask s
  | .redSpillCfgWrite who die value mask => Sys2Proof.Machine.execRedSpillCfgWrite who die value mask s
  | .holdQueueFree sub => Sys2Proof.Machine.execHoldQueueFree sub s
  | .postPendingResume trigger => Sys2Proof.Machine.execPostPendingResume trigger s
  | .slotTake slot => Sys2Proof.Machine.execSlotTake slot s
  | .contribRx handle => Sys2Proof.Machine.execContribRx handle s
  | .partialRx handle => Sys2Proof.Machine.execPartialRx handle s
  | .retentionFreed slot chunk => Sys2Proof.Machine.execRetentionFreed slot chunk s
  | .chunkDigest sub point chunk => Sys2Proof.Machine.execChunkDigest sub point chunk s
  | .resultRx handle => Sys2Proof.Machine.execResultRx handle s
  | .statusNoticeRx handle commitFault => Sys2Proof.Machine.execStatusNoticeRx handle commitFault s
  | .livenessExpiry slot => Sys2Proof.Machine.execLivenessExpiry slot s
  | .settlingEnd slot => Sys2Proof.Machine.execSettlingEnd slot s
  | .countRx handle => Sys2Proof.Machine.execCountRx handle s
  | .trigAdd who die amount => Sys2Proof.Machine.execTrigAdd who die amount s
  | .triggerValidWrite who trigger valid => Sys2Proof.Machine.execTriggerValidWrite who trigger valid s
  | .glbCoordWrite who value mask => Sys2Proof.Machine.execGlbCoordWrite who value mask s
  | .glbTorusWrite who value mask => Sys2Proof.Machine.execGlbTorusWrite who value mask s
  | .fabricEpochWrite who value => Sys2Proof.Machine.execFabricEpochWrite who value s
  | .quireTableWrite who entry word value mask => Sys2Proof.Machine.execQuireTableWrite who entry word value mask s
  | .rankXlatWrite who entry value mask => Sys2Proof.Machine.execRankXlatWrite who entry value mask s
  | .jobLoad who sub => Sys2Proof.Machine.execJobLoad who sub s
  | .jobUnload who sub => Sys2Proof.Machine.execJobUnload who sub s
  | .jobUnloadDone sub => Sys2Proof.Machine.execJobUnloadDone sub s
  | .stepForwardResume sub => Sys2Proof.Machine.execStepForwardResume sub s
  | .stageExecute sub stage check => Sys2Proof.Machine.execStageExecute sub stage check s
  | .sealSpaceFreed sub => Sys2Proof.Machine.execSealSpaceFreed sub s
  | .signBatch who sub => Sys2Proof.Machine.execSignBatch who sub s
  | .batchSigned => Sys2Proof.Machine.execBatchSigned s
  | .releaseBatch who sub => Sys2Proof.Machine.execReleaseBatch who sub s
  | .scrubStep mem address found newerWrite => Sys2Proof.Machine.execScrubStep mem address found newerWrite s
  | .dramRefresh stack vault hot => Sys2Proof.Machine.execDramRefresh stack vault hot s
  | .lpddrRetrain channel temp => Sys2Proof.Machine.execLpddrRetrain channel temp s
  | .retireClear who unit => Sys2Proof.Machine.execRetireClear who unit s
  | .swathLaunch who seq => Sys2Proof.Machine.execSwathLaunch who seq s
  | .swathMarkerRx unit channel => Sys2Proof.Machine.execSwathMarkerRx unit channel s
  | .jobLoadDecided sub perms => Sys2Proof.Machine.execJobLoadDecided sub perms s
  | .startUpStepEnd report => Sys2Proof.Machine.execStartUpStepEnd report s
  | .fallowBlocksHeld => Sys2Proof.Machine.execFallowBlocksHeld s
  | .refClockReturn ref => Sys2Proof.Machine.execRefClockReturn ref s
  | .fallowReqNHigh => Sys2Proof.Machine.execFallowReqNHigh s
  | .faultNPulseEnd => Sys2Proof.Machine.execFaultNPulseEnd s
  | .dividerRampEnd node => Sys2Proof.Machine.execDividerRampEnd node s
  | .lpddrRefresh channel temp => Sys2Proof.Machine.execLpddrRefresh channel temp s
  | .watchdogService => Sys2Proof.Machine.execWatchdogService s
  | .trapReturn => Sys2Proof.Machine.execTrapReturn s

end Sys2Proof.Machine
end

