-- ==== Sys2Proof/Machine/Tick.lean ====
section
/-! DEFINITION. The passage of time: one cycle of the timebase clock (R256, R366; log 1). -/
namespace Sys2Proof.Machine

open Sys2Proof

/-- The servo's slew of one nanosecond where an offset is still owed: at most 100 ppm, one in 10,000 ns (R259). -/
def slewStep (s : State) : State :=
  if s.timeSt.slewAt + 10000 ≤ s.time && s.timeSt.slewLeft != 0 && fget s (pTime + 0x40) 1 0 != 0 then
    let d : Int := if 0 < s.timeSt.slewLeft then 1 else -1
    let t := ((s.time : Int) + d).toNat
    { s with time := t, timeSt := { s.timeSt with slewLeft := s.timeSt.slewLeft - d, slewAt := t } }
  else s

/-- The timebase counts while the device is out of reset: 1 ns a cycle, 20 ns a reserve cycle while FALLBACK is 1 (R366). The
follower copies count with it (R16, `dieTime`). -/
def tick (s : State) : State :=
  let n := if bit s (pClk + 0x44) 28 then 20 else 1
  if live s then slewStep { s with time := (s.time + n) % 2 ^ 64, uptime := s.uptime + n } else s

end Sys2Proof.Machine
end

