-- ==== Sys2Proof/Machine/Package.lean ====
section
/-! DEFINITION. The contacts of the package (21_pins_package_electrical.md): the grid and the place of every lane contact (R411, R424,
R425). Nothing in the machine's steps reads them. -/
namespace Sys2Proof.Machine

open Sys2Proof

/-- The four contacts of a lane (R411). -/
inductive LaneContact where
  | txp
  | txn
  | rxp
  | rxn
  deriving DecidableEq, Repr

/-- A position of the contact grid: row and column, 1 to 100 from the keying corner. -/
structure Contact where
  row : Nat
  col : Nat
  deriving DecidableEq, Repr

/-- A grid position that has a contact: none stands in the corner squares of 7 x 7 nor on a keying position (R424). -/
def populated (c : Contact) : Bool :=
  let edge := fun n => decide (n ≤ 7) || decide (94 ≤ n)
  decide (1 ≤ c.row) && decide (c.row ≤ 100) && decide (1 ≤ c.col) && decide (c.col ≤ 100) && !(edge c.row && edge c.col) &&
    !(List.contains [(1, 50), (50, 1), (100, 51), (51, 100)] (c.row, c.col))

/-- The die of a lane (Table 1.5): host lanes 768 to 771 stand on dies 0 to 3. -/
def dieOfLane (l : Nat) : Nat := if 768 ≤ l then l - 768 else dieOfPort (portOfGroup (l / 4))

/-- The slot of a lane in its die's region: the die's lanes in increasing number, and the host lane in slot 96 (R425). -/
def slotOfLane (l : Nat) : Nat :=
  if l < 512 then l % 64
  else if l < 704 then 64 + 8 * ((l - 512) / 64) + l % 8
  else if l < 768 then 88 + l % 8
  else 96

/-- The contact of a lane's signal (R425): TXP and TXN in the slot's first row, RXP and RXN in its second; dies 4 to 7 mirror dies 0 to
3 through the centre. -/
def laneContact (l : Nat) (x : LaneContact) : Contact :=
  let d := dieOfLane l
  let s := slotOfLane l
  let r := 2 * (s / 10) + 1 + (match x with
    | .txp => 0
    | .txn => 0
    | .rxp => 1
    | .rxn => 1)
  let c := 9 + 21 * (d % 4) + 2 * (s % 10) + (match x with
    | .txp => 0
    | .rxp => 0
    | .txn => 1
    | .rxn => 1)
  if d < 4 then ⟨r, c⟩ else ⟨101 - r, 101 - c⟩

end Sys2Proof.Machine
end

