-- ==== Sys2Proof/Safety.lean ====
section
/-! DEFINITION. What a safe run is, and the conditions and parts of the state that claims are stated with. -/
namespace Sys2Proof.Machine

open Sys2Proof

/-- The tables of the state are in canonical form: the register space, the page counters with their parts, the event counters and the
memory. -/
def Canonical (s : State) : Prop :=
  Sparse.wf resetWord s.regs = true ∧ Sparse.wf (fun _ => 0) s.ctrs = true ∧ Sparse.wf (fun _ => 0) s.parts = true ∧
    Sparse.wf (fun _ => 0) s.evCtrs = true ∧ Memory.wf s.mem = true

/-- No one-time counter of the fuses falls from `s` to `t`: unlocks and rollback level. Batches are numbered anew by each commissioning
(R219). -/
def FusesGrow (s t : State) : Prop :=
  s.fuses.unlocks ≤ t.fuses.unlocks ∧ s.fuses.rollback ≤ t.fuses.rollback

/-- What only grows until a reset: outputs already sent stay sent, delivery handles are never used twice, a delivery once taken stays
taken, reported faults stay in order, and a muted device stays mute (R358). -/
def Grows (s t : State) : Prop :=
  s.out <+: t.out ∧ s.nextHandle ≤ t.nextHandle ∧
    (∀ h, h < s.nextHandle → getDeliv s h = none → getDeliv t h = none) ∧
    s.faults.reported <+: t.faults.reported ∧ (s.faults.mute = true → t.faults.mute = true)

/-- A command completes: it answers a next state, and `P` holds of it. -/
def Runs (c : Instr) (s : State) (P : State → Prop) : Prop := ∃ t, exec c s = .next t ∧ P t

/-- A requester's register write is carried out: it can be made now, no test of R312 refuses it, and it masks a field that is
not read-only. -/
def Accepts (s : State) (who : Requester) (addr : Nat) (value mask : Word) : Prop :=
  mayWrite s who = true ∧ writeStatus s who addr value mask = 0 ∧ touched addr mask ≠ []

/-- Between `s` and `t` the device sends `o`. -/
def Emits (s t : State) (o : Output) : Prop := ∃ l, t.out = s.out ++ l ∧ o ∈ l

/-- Between `s` and `t` the device sends session `sid` a message of type `ty` for request `m` with a status. -/
def Answers (s t : State) (sid ty m status : Nat) : Prop :=
  ∃ h : HostMsg, Emits s t (.host h) ∧ h.session = sid ∧ h.ty = ty ∧ h.msgNum = m ∧ h.status = status

/-- Between `s` and `t` a fault record reaches the collector (R354). -/
def Reports (s t : State) (r : FaultRec) : Prop := ∃ l, t.faults.reported = s.faults.reported ++ l ∧ r ∈ l

/-- A delivery that waited has been taken (R224). -/
def Taken (t : State) (h : Nat) : Prop := getDeliv t h = none

/-- A request of an open session that the device serves for the first time (R313): Shafort is served, no request is limited to
R310's list, and its number is new. -/
def Fresh (s : State) (sid m : Nat) (x : Session) : Prop :=
  served s = true ∧ limited s = false ∧ openSession s sid = some x ∧ reqKind x m = .fresh

/-- The parts of the state, for what a command leaves alone. -/
inductive Part where
  | registers
  | counters
  | eventCounters
  | memory
  | memoryState
  | clock
  | crossings
  | phase
  | power
  | ramps
  | ports
  | lanes
  | stitches
  | cells
  | queues
  | deliveries
  | origins
  | meters
  | gates
  | streams
  | messages
  | jobs
  | loads
  | slots
  | waiting
  | seals
  | batches
  | sessions
  | requests
  | transfers
  | flash
  | audit
  | fuses
  | alwaysOn
  | faults
  | swaths
  | timeSync
  | reach
  | host
  | firmware
  | output
  | freeValues
  deriving DecidableEq, Repr

/-- A part has not changed from `s` to `t`. -/
@[reducible] def Part.same (p : Part) (s t : State) : Prop :=
  match p with
  | .registers => t.regs = s.regs
  | .counters => (t.ctrs, t.parts) = (s.ctrs, s.parts)
  | .eventCounters => t.evCtrs = s.evCtrs
  | .memory => t.mem = s.mem
  | .memoryState => t.memSt = s.memSt
  | .clock => (t.time, t.uptime, t.align) = (s.time, s.uptime, s.align)
  | .crossings => (t.crossings, t.hand) = (s.crossings, s.hand)
  | .phase => (t.phase, t.bistRunning) = (s.phase, s.bistRunning)
  | .power => (t.rails, t.pace) = (s.rails, s.pace)
  | .ramps => t.ramps = s.ramps
  | .ports => t.ports = s.ports
  | .lanes => t.lanes = s.lanes
  | .stitches => t.stitches = s.stitches
  | .cells => t.cells = s.cells
  | .queues => t.queues = s.queues
  | .deliveries => (t.deliv, t.nextHandle) = (s.deliv, s.nextHandle)
  | .origins => t.origWait = s.origWait
  | .meters => t.meters = s.meters
  | .gates => t.gates = s.gates
  | .streams => t.streams = s.streams
  | .messages => t.msgs = s.msgs
  | .jobs => t.jobs = s.jobs
  | .loads => (t.loads, t.unloadHeld) = (s.loads, s.unloadHeld)
  | .slots => t.slots = s.slots
  | .waiting => (t.heldPkts, t.pendingPosts) = (s.heldPkts, s.pendingPosts)
  | .seals => t.seals = s.seals
  | .batches => (t.batch, t.lastBatch) = (s.batch, s.lastBatch)
  | .sessions => (t.sessions, t.nextSession, t.evtSeq, t.latches) = (s.sessions, s.nextSession, s.evtSeq, s.latches)
  | .requests => (t.heldReqs, t.attests) = (s.heldReqs, s.attests)
  | .transfers => t.transfers = s.transfers
  | .flash => t.flash = s.flash
  | .audit => t.audit = s.audit
  | .fuses => t.fuses = s.fuses
  | .alwaysOn => t.alwaysOn = s.alwaysOn
  | .faults => t.faults = s.faults
  | .swaths => (t.swath, t.swathWait, t.shadows) = (s.swath, s.swathWait, s.shadows)
  | .timeSync => t.timeSt = s.timeSt
  | .reach => t.reach = s.reach
  | .host => t.hostSt = s.hostSt
  | .firmware => t.fw = s.fw
  | .output => t.out = s.out
  | .freeValues => t.freeCtr = s.freeCtr

/-- The parts of the state that a command may change; every other part it leaves alone. -/
def touches (c : Instr) : List Part :=
  match c with
  | .keepalive _ =>
      []
  | .pmbusAlert | .ppsOutPulse =>
      [.output]
  | .routeTableRecompute | .dramRefresh _ _ _ | .refClockReturn _ | .lpddrRefresh _ _ =>
      [.registers]
  | .segmentTimeout _ _ | .proofTimeout _ =>
      [.sessions]
  | .stepForwardResume _ =>
      [.jobs]
  | .tileSelfTest _ =>
      [.faults]
  | .bulkIdleTimeout _ _ =>
      [.jobs, .transfers]
  | .dividerRampEnd _ =>
      [.registers, .ramps]
  | .hostFrameRx _ =>
      [.counters, .output]
  | .hostLinkUp _ _ | .hostLinkLoss =>
      [.registers, .host]
  | .livenessExpiry _ =>
      [.streams, .slots]
  | .lpddrRetrain _ _ =>
      [.registers, .counters]
  | .paceSample _ _ =>
      [.registers, .power]
  | .registerSweep _ | .fallowReqNHigh =>
      [.registers, .faults]
  | .resetNRelease _ _ =>
      [.registers, .phase]
  | .shafortSegmentRx _ =>
      [.counters, .sessions]
  | .watchdogService | .trapReturn =>
      [.counters, .faults]
  | .faultNPulseEnd =>
      [.registers, .faults, .output]
  | .identTimer _ | .linkStateCtrlTimer =>
      [.counters, .ports, .output]
  | .linkStateCtrlRx _ _ =>
      [.counters, .reach, .output]
  | .stitchAdmitTimeout _ =>
      [.registers, .counters, .stitches]
  | .subscribe _ _ _ | .eventAck _ _ | .eventResendTimer _ _ | .bulkResendTimer _ _ _ | .auditStart _ _
  | .auditResendTimer _ =>
      [.counters, .sessions, .output]
  | .attestReq _ _ _ =>
      [.counters, .sessions, .requests, .output]
  | .auditAck _ _ =>
      [.counters, .sessions, .audit, .output]
  | .bringupRestart _ =>
      [.registers, .ramps, .ports, .lanes]
  | .bulkAck _ _ _ _ | .bulkAckTimer _ _ =>
      [.counters, .sessions, .transfers, .output]
  | .fwCheckDone | .fwProgramDone _ =>
      [.registers, .flash, .audit, .firmware]
  | .hello _ _ _ _ =>
      [.counters, .sessions, .output, .freeValues]
  | .powerControlTick _ _ _ =>
      [.registers, .counters, .sessions, .output]
  | .signalDetect _ _ | .trainingFrameRx _ _ _ =>
      [.registers, .ports, .lanes, .output]
  | .attestSigned =>
      [.counters, .sessions, .requests, .output, .freeValues]
  | .bulkOpenResume _ _ =>
      [.counters, .sessions, .transfers, .output, .freeValues]
  | .fltAckWrite _ _ | .fltReactWrite _ _ _ _ | .eventStatusClear _ _ _ | .pageLock _ _ | .kstHoldOpen _ _ _
  | .patCtrlWrite _ _ _ _ | .bpCfgWrite _ _ _ _ | .slotQuotaWrite _ _ _ _ | .redSpillCfgWrite _ _ _ _ | .glbTorusWrite _ _ _
  | .fabricEpochWrite _ _ | .quireTableWrite _ _ _ _ _ | .rankXlatWrite _ _ _ _ =>
      [.registers, .counters, .sessions, .audit, .output]
  | .linkFrameRx _ _ =>
      [.registers, .counters, .ports, .faults, .output]
  | .reachMapUpdate =>
      [.registers, .counters, .slots, .sessions, .output]
  | .swathMarkerRx _ _ =>
      [.registers, .counters, .sessions, .swaths, .output]
  | .timeRootTimeout =>
      [.registers, .counters, .sessions, .timeSync, .output]
  | .auditRecordProgram | .retireClear _ _ =>
      [.registers, .counters, .sessions, .flash, .audit, .output]
  | .batchSigned =>
      [.registers, .counters, .batches, .sessions, .output, .freeValues]
  | .bulkOpen _ _ _ =>
      [.counters, .sessions, .requests, .transfers, .output, .freeValues]
  | .chunkDigest _ _ _ =>
      [.registers, .counters, .jobs, .seals, .sessions, .output]
  | .clkGateOn _ _ | .clkGateOff _ _ =>
      [.registers, .counters, .ramps, .sessions, .audit, .output]
  | .faultPinClear _ =>
      [.registers, .counters, .sessions, .audit, .faults, .output]
  | .glbCoordWrite _ _ _ =>
      [.registers, .counters, .slots, .sessions, .audit, .output]
  | .meterWrite _ _ _ _ _ _ =>
      [.registers, .counters, .meters, .sessions, .audit, .output]
  | .proof _ _ =>
      [.registers, .counters, .sessions, .audit, .fuses, .output]
  | .swathLaunch _ _ =>
      [.registers, .counters, .sessions, .audit, .swaths, .output]
  | .timeSyncTimer =>
      [.registers, .counters, .ports, .sessions, .timeSync, .output]
  | .bulkCommit _ _ _ =>
      [.registers, .counters, .jobs, .sessions, .transfers, .firmware, .output]
  | .bulkData _ _ _ _ =>
      [.counters, .memory, .memoryState, .jobs, .sessions, .transfers, .output]
  | .close _ | .sessionIdleTimeout _ | .eventAckTimeout _ _ =>
      [.counters, .jobs, .sessions, .requests, .transfers, .audit, .output]
  | .holdQueueFree _ | .postPendingResume _ =>
      [.registers, .counters, .eventCounters, .jobs, .waiting, .sessions, .output]
  | .jobLoad _ _ =>
      [.registers, .counters, .loads, .sessions, .requests, .audit, .output]
  | .releaseBatch _ _ =>
      [.registers, .counters, .seals, .batches, .sessions, .audit, .output]
  | .credentialWrite _ _ _ _ _ =>
      [.registers, .counters, .jobs, .sessions, .requests, .transfers, .audit, .output]
  | .jobUnloadDone _ =>
      [.registers, .counters, .streams, .messages, .jobs, .waiting, .sessions, .output]
  | .signBatch _ _ =>
      [.registers, .counters, .seals, .batches, .sessions, .audit, .fuses, .output]
  | .trigAdd _ _ _ | .triggerValidWrite _ _ _ =>
      [.registers, .counters, .eventCounters, .jobs, .waiting, .sessions, .audit, .output]
  | .secDecommission _ =>
      [.registers, .counters, .jobs, .sessions, .requests, .transfers, .audit, .fuses, .output]
  | .restripeDone _ _ | .linkAckRx _ _ | .creditReturnRx _ _ _ | .transitBucketRecover _ =>
      [.registers, .counters, .crossings, .ports, .cells, .queues, .sessions, .faults, .swaths, .output]
  | .gateEntryBoundary _ | .gateListStart _ =>
      [.registers, .counters, .crossings, .ports, .cells, .queues, .gates, .sessions, .faults, .swaths, .output]
  | .gateChange _ _ =>
      [.registers, .counters, .crossings, .ports, .cells, .queues, .gates, .sessions, .audit, .faults, .swaths,
       .output]
  | .packetRx _ _ _ =>
      [.registers, .counters, .crossings, .ports, .cells, .queues, .deliveries, .meters, .sessions, .faults,
       .swaths, .output]
  | .packetTxDone _ | .origCellWaitEnd _ _ | .leakAuditPass _ =>
      [.registers, .counters, .crossings, .ports, .cells, .queues, .deliveries, .origins, .sessions, .faults,
       .swaths, .output]
  | .ackDelayExpiry _ | .rtoExpiry _ _ =>
      [.registers, .counters, .crossings, .ports, .cells, .queues, .deliveries, .origins, .streams, .sessions,
       .faults, .swaths, .output]
  | .lpddrBistDone _ =>
      [.registers, .counters, .memoryState, .phase, .loads, .sessions, .requests, .transfers, .flash, .audit,
       .faults, .output, .freeValues]
  | .ptpMessageRx _ | .timePacketRx _ _ _ | .ppsInEdge =>
      [.registers, .counters, .clock, .crossings, .ports, .cells, .queues, .gates, .sessions, .faults, .swaths,
       .timeSync, .output]
  | .bringupStageTimeout _ | .identRx _ _ | .identAckRx _ =>
      [.registers, .counters, .crossings, .ports, .stitches, .cells, .queues, .deliveries, .origins, .sessions,
       .faults, .swaths, .timeSync, .output]
  | .blockStopDone _ | .heldDownRetry _ =>
      [.registers, .counters, .crossings, .ramps, .ports, .lanes, .cells, .queues, .deliveries, .origins, .sessions,
       .faults, .swaths, .timeSync, .output]
  | .portAdopt _ _ | .kstForceClose _ _ =>
      [.registers, .counters, .crossings, .ports, .stitches, .cells, .queues, .deliveries, .origins, .sessions,
       .audit, .faults, .swaths, .timeSync, .output]
  | .vioLoss =>
      [.registers, .counters, .crossings, .phase, .ports, .stitches, .cells, .queues, .deliveries, .origins,
       .sessions, .faults, .swaths, .timeSync, .output]
  | .fenceRx _ | .laneUnhealthy _ _ _ _ | .laneRejoin _ _ _ | .llrRetryRx _ _ | .stitchOpenStart _
  | .stitchSenseSample _ _ _ | .stitchRetryTimer _ =>
      [.registers, .counters, .crossings, .ramps, .ports, .lanes, .stitches, .cells, .queues, .deliveries, .origins,
       .sessions, .faults, .swaths, .timeSync, .output]
  | .blockEnable _ _ | .blockDisable _ _ | .portEnable _ _ _ | .portDisable _ _ | .portTestEnter _ _ | .portRetrain _ _
  | .kstRetry _ _ =>
      [.registers, .counters, .crossings, .ramps, .ports, .lanes, .stitches, .cells, .queues, .deliveries, .origins,
       .sessions, .audit, .faults, .swaths, .timeSync, .output]
  | .blockResetDone _ =>
      [.registers, .counters, .crossings, .ramps, .ports, .lanes, .cells, .queues, .deliveries, .origins, .meters,
       .gates, .sessions, .faults, .swaths, .timeSync, .output]
  | .jtagExtest _ =>
      [.registers, .counters, .crossings, .ports, .stitches, .cells, .queues, .deliveries, .origins, .sessions,
       .audit, .alwaysOn, .faults, .swaths, .timeSync, .firmware, .output]
  | .refClockLoss _ =>
      [.registers, .counters, .crossings, .ramps, .ports, .lanes, .stitches, .cells, .queues, .deliveries, .origins,
       .sessions, .faults, .swaths, .timeSync, .host, .output]
  | .fallowBlocksHeld =>
      [.registers, .counters, .phase, .power, .cells, .queues, .deliveries, .origins, .streams, .messages, .jobs,
       .slots, .waiting, .seals, .sessions, .faults, .swaths, .output]
  | .refSelectWrite _ _ =>
      [.registers, .counters, .crossings, .ramps, .ports, .lanes, .stitches, .cells, .queues, .deliveries, .origins,
       .sessions, .audit, .faults, .swaths, .timeSync, .host, .output]
  | .handshakeStall _ _ _ | .tileSelfTestDone _ _ | .crossingWordRx _ _ _ _ | .ackRx _ | .dataRx _ | .slotTake _
  | .contribRx _ | .partialRx _ | .retentionFreed _ _ | .resultRx _ | .statusNoticeRx _ _ | .settlingEnd _ | .countRx _
  | .stageExecute _ _ _ | .sealSpaceFreed _ =>
      [.registers, .counters, .eventCounters, .memory, .memoryState, .crossings, .ports, .cells, .queues,
       .deliveries, .origins, .streams, .messages, .jobs, .slots, .waiting, .seals, .sessions, .faults, .swaths,
       .output, .freeValues]
  | .jobUnload _ _ =>
      [.registers, .counters, .eventCounters, .crossings, .ports, .cells, .queues, .deliveries, .origins, .streams,
       .messages, .jobs, .loads, .slots, .waiting, .seals, .sessions, .audit, .faults, .swaths, .output,
       .freeValues]
  | .jobLoadDecided _ _ =>
      [.registers, .counters, .eventCounters, .memory, .memoryState, .crossings, .ports, .cells, .queues,
       .deliveries, .origins, .streams, .messages, .jobs, .loads, .slots, .waiting, .seals, .sessions, .audit,
       .faults, .swaths, .output, .freeValues]
  | .scrubStep _ _ _ _ =>
      [.registers, .counters, .eventCounters, .memory, .memoryState, .crossings, .ports, .cells, .queues,
       .deliveries, .origins, .streams, .messages, .jobs, .slots, .waiting, .seals, .sessions, .transfers, .flash,
       .faults, .swaths, .output, .freeValues]
  | .blockReset _ _ =>
      [.registers, .counters, .eventCounters, .memory, .memoryState, .crossings, .ports, .stitches, .cells, .queues,
       .deliveries, .origins, .streams, .messages, .jobs, .slots, .waiting, .seals, .sessions, .audit, .faults,
       .swaths, .timeSync, .output, .freeValues]
  | .clockFallback _ | .thermalTrip _ | .extFallowReq | .manualFallow _ | .mgmtLockstep | .mgmtWatchdog =>
      [.registers, .counters, .eventCounters, .memory, .memoryState, .crossings, .ports, .stitches, .cells, .queues,
       .deliveries, .origins, .streams, .messages, .jobs, .slots, .waiting, .seals, .sessions, .audit, .alwaysOn,
       .faults, .swaths, .timeSync, .output, .freeValues]
  | .faultRecord _ =>
      [.registers, .counters, .eventCounters, .memory, .memoryState, .crossings, .ramps, .ports, .lanes, .stitches,
       .cells, .queues, .deliveries, .origins, .streams, .messages, .jobs, .slots, .waiting, .seals, .sessions,
       .audit, .alwaysOn, .faults, .swaths, .timeSync, .output, .freeValues]
  | .railPowerGoodTimeout _ | .supplyOutOfRange _ =>
      [.registers, .counters, .eventCounters, .memory, .memoryState, .crossings, .phase, .power, .ports, .stitches,
       .cells, .queues, .deliveries, .origins, .streams, .messages, .jobs, .slots, .waiting, .seals, .sessions,
       .audit, .alwaysOn, .faults, .swaths, .timeSync, .output, .freeValues]
  | .secRecommission _ _ =>
      [.registers, .counters, .eventCounters, .memory, .memoryState, .crossings, .ports, .stitches, .cells, .queues,
       .deliveries, .origins, .streams, .messages, .jobs, .slots, .waiting, .seals, .sessions, .audit, .fuses,
       .alwaysOn, .faults, .swaths, .timeSync, .firmware, .output, .freeValues]
  | .startUpStepEnd _ =>
      [.registers, .counters, .eventCounters, .memory, .memoryState, .crossings, .phase, .power, .ramps, .ports,
       .lanes, .stitches, .cells, .queues, .deliveries, .origins, .meters, .gates, .streams, .messages, .jobs,
       .slots, .waiting, .seals, .sessions, .flash, .audit, .fuses, .alwaysOn, .faults, .swaths, .timeSync, .host,
       .firmware, .output, .freeValues]
  | .powerOn _ _ =>
      [.registers, .counters, .eventCounters, .memory, .memoryState, .clock, .crossings, .phase, .power, .ramps,
       .ports, .lanes, .stitches, .cells, .queues, .deliveries, .origins, .meters, .gates, .streams, .messages,
       .jobs, .loads, .slots, .waiting, .seals, .batches, .sessions, .requests, .transfers, .audit, .alwaysOn,
       .faults, .swaths, .timeSync, .reach, .host, .firmware, .freeValues]
  | .resetNAssert =>
      [.registers, .counters, .eventCounters, .memory, .memoryState, .clock, .crossings, .phase, .power, .ramps,
       .ports, .lanes, .stitches, .cells, .queues, .deliveries, .origins, .meters, .gates, .streams, .messages,
       .jobs, .loads, .slots, .waiting, .seals, .batches, .sessions, .requests, .transfers, .audit, .faults,
       .swaths, .timeSync, .reach, .host, .firmware, .output, .freeValues]
  | .chipReset _ | .reg _ _ _ _ | .registerWrite _ _ _ _ =>
      [.registers, .counters, .eventCounters, .memory, .memoryState, .clock, .crossings, .phase, .power, .ramps,
       .ports, .lanes, .stitches, .cells, .queues, .deliveries, .origins, .meters, .gates, .streams, .messages,
       .jobs, .loads, .slots, .waiting, .seals, .batches, .sessions, .requests, .transfers, .flash, .audit, .fuses,
       .alwaysOn, .faults, .swaths, .timeSync, .reach, .host, .firmware, .output, .freeValues]

/-- Commands that may end in a reset of the device: the resets themselves, a reaction, and writes of a word of the sender's choice. -/
def mayReset (c : Instr) : Bool :=
  match c with
  | .powerOn _ _ | .resetNAssert | .chipReset _ | .faultRecord _ | .reg _ _ _ _ | .registerWrite _ _ _ _ => true
  | _ => false

/-- A command that names memory the device does not have. -/
def memoryHole (c : Instr) (s : State) : Bool :=
  match c with
  | .scrubStep (.sram die part) address _ _ => decide (8 ≤ die) || decide (sramBytes part ≤ address)
  | .scrubStep (.stack d) address _ _ => decide (8 ≤ d) || decide (3221225472 ≤ address)
  | .scrubStep (.lpddr j) address _ _ => decide (4 ≤ j) || decide (groupBytes s j ≤ address)
  | .dramRefresh stack vault _ => decide (8 ≤ stack) || decide (64 ≤ vault)
  | .lpddrRetrain channel _ | .lpddrRefresh channel _ => decide (32 ≤ channel)
  | _ => false

/-- The one register write that a command is: its requester, word, value and mask; none where the command is more than a write, or
names an instance the device does not have. -/
def writeOf (c : Instr) : Option (Requester × Nat × Word × Word) :=
  match c with
  | .blockEnable who page => if isPage page = true then some (who, page + 0x08, 1, 1) else none
  | .blockDisable who page => if isPage page = true then some (who, page + 0x08, 0, 1) else none
  | .eventStatusClear who page bits => if isPage page = true then some (who, page + 0x10, bits, bits) else none
  | .pageLock who page => if isPage page = true then some (who, page + 0x20, 1, 1) else none
  | .refSelectWrite who sel => some (who, pClk + 0x40, BitVec.ofNat 32 (b2n sel), 1)
  | .clkGateOn who node => if node < 256 then some (who, pClk + 0x48, BitVec.ofNat 32 (2 ^ 31 + node), 0x800000FF) else none
  | .clkGateOff who node => if node < 256 then some (who, pClk + 0x48, BitVec.ofNat 32 node, 0x800000FF) else none
  | .manualFallow who => some (who, pFlt + 0x48, 1, 1)
  | .faultPinClear who => some (who, pFlt + 0x40, 0x80000000, 0x80000000)
  | .fltAckWrite who seq => some (who, pFltLog + 0x44, seq, 0xFFFFFFFF)
  | .fltReactWrite who kind value mask => if kind < 256 then some (who, wReact kind, value, mask) else none
  | .secDecommission who => some (who, pSec + 0x4C, 2, 3)
  | .swathLaunch who seq => some (who, pSwath + 0x40, BitVec.ofNat 32 seq.toNat, 0xFFFF)
  | .glbCoordWrite who value mask => some (who, pGlb + 0x48, value, mask)
  | .glbTorusWrite who value mask => some (who, pGlb + 0x4C, value, mask)
  | .fabricEpochWrite who value => some (who, pGlb + 0x50, value, 0xFFFFFFFF)
  | .portEnable who port mode =>
    if port ≤ 160 then some (who, pPort port + 0x40, BitVec.ofNat 32 (2 ^ 31 + mode.toNat), 0x80000003) else none
  | .portDisable who port => if port ≤ 160 then some (who, pPort port + 0x40, 0, 0x80000000) else none
  | .portTestEnter who port => if port ≤ 160 then some (who, pPort port + 0x40, 0x40000000, 0x40000000) else none
  | .portRetrain who port => if port ≤ 160 then some (who, pPort port + 0x4C, 2, 2) else none
  | .portAdopt who port => if port ≤ 160 then some (who, pPort port + 0x4C, 1, 1) else none
  | .kstForceClose who stitch => if stitch < 12 then some (who, pStitch stitch + 0x40, 1, 1) else none
  | .kstHoldOpen who stitch hold =>
    if stitch < 12 then some (who, pStitch stitch + 0x40, BitVec.ofNat 32 (2 * b2n hold), 2) else none
  | .kstRetry who stitch => if stitch < 12 then some (who, pStitch stitch + 0x40, 4, 4) else none
  | .patCtrlWrite who group value mask => if group ≤ 192 then some (who, pPattern group + 0x40, value, mask) else none
  | .bpCfgWrite who die value mask => if die < 8 then some (who, pBufPool die + 0x40, value, mask) else none
  | .gateChange who port => if port ≤ 160 then some (who, pGate port + 0x40, 0x40000000, 0x40000000) else none
  | .meterWrite who port cls word value mask =>
    if port ≤ 160 ∧ cls < 8 ∧ word < 4 then some (who, meterAddr port cls word, value, mask) else none
  | .slotQuotaWrite who sub value mask => if sub < 256 then some (who, wSlotQuota sub, value, mask) else none
  | .redSpillCfgWrite who die value mask => if die < 8 then some (who, pReduce die + 0x40, value, mask) else none
  | .trigAdd who die amount => if die < 8 then some (who, pTrig die + 0x44, amount, 0xFFFFFFFF) else none
  | .triggerValidWrite who trigger valid =>
    if trigger < 32768 then some (who, wTrig trigger, BitVec.ofNat 32 (b2n valid * 2 ^ 31), 0x80000000) else none
  | .quireTableWrite who entry word value mask =>
    if entry < 256 ∧ word < 8 then some (who, wQuire entry + 4 * word, value, mask) else none
  | .rankXlatWrite who entry value mask => if entry < 131072 then some (who, wRank + 4 * entry, value, mask) else none
  | .credentialWrite who entry word value mask =>
    if entry < 64 ∧ word < 16 then some (who, wCred entry + 4 * word, value, mask) else none
  | .jobLoad who sub => if sub < 256 then some (who, wJob sub, 0x10000000, 0xF0000000) else none
  | .jobUnload who sub => if sub < 256 then some (who, wJob sub, 0x20000000, 0xF0000000) else none
  | .signBatch who sub => if sub < 256 then some (who, wSeal sub, 0x10000000, 0xF0000000) else none
  | .releaseBatch who sub => if sub < 256 then some (who, wSeal sub, 0x20000000, 0xF0000000) else none
  | _ => none

/-- The writes whose only effect on the registers is on the word they name. -/
def plainWrite (c : Instr) : Bool :=
  match c with
  | .eventStatusClear _ _ _ | .pageLock _ _ | .fltAckWrite _ _ | .fltReactWrite _ _ _ _ | .glbTorusWrite _ _ _
  | .fabricEpochWrite _ _ | .kstHoldOpen _ _ _ | .patCtrlWrite _ _ _ _ | .meterWrite _ _ _ _ _ _ | .slotQuotaWrite _ _ _ _
  | .redSpillCfgWrite _ _ _ _ | .quireTableWrite _ _ _ _ _ | .rankXlatWrite _ _ _ _ | .credentialWrite _ _ _ _ _ => true
  | _ => false

end Sys2Proof.Machine
end

