-- ==== Sys2Proof/Certificates/Slice0/Obligations.lean ====
section
/-! DEFINITION. The statements for the provers, from the numbered rules of spec/. -/
open Sys2Proof Sys2Proof.Machine

/-- R348, R352, R358, R363, R366, R373, R374, Table 17.2: every fatal cause that a command stands for takes the device fallow,
and a fault of the management core or of its clock leaves it mute (R358). -/
def Obligations.FatalCausesEnterFallow : Prop := ∀ s : State,
  (live s = true →
    (∀ sensor, Runs (.thermalTrip sensor) s fun t => fallow t = true) ∧
    Runs .mgmtLockstep s (fun t => fallow t = true ∧ t.faults.mute = true) ∧
    Runs .mgmtWatchdog s (fun t => fallow t = true ∧ t.faults.mute = true) ∧
    Runs (.clockFallback false) s (fun t => fallow t = true ∧ t.faults.mute = true) ∧
    (∀ rail, rail < 9 → Runs (.supplyOutOfRange rail) s fun t => fallow t = true) ∧
    (∀ instruction, Runs (.jtagExtest instruction) s fun t => fallow t = true ∧ t.fw.jtag = true)) ∧
  (requestArmed s = true → Runs .extFallowReq s fun t => fallow t = true) ∧
  (∀ rail, s.phase = .starting 1 → s.rails = [] → rail ∈ railOrder →
    Runs (.railPowerGoodTimeout rail) s fun t => fallow t = true) ∧
  (∀ who, Accepts s who (pFlt + 0x48) 1 1 → Runs (.manualFallow who) s fun t => fallow t = true)

/-- R376 to R378, R374, Table 18.5: what a power-on, a RESET_N pulse, a chip reset and the loss of VIO leave. Settings,
records and fuses survive; sessions, jobs and the fallow state do not; a chip reset samples no strap. Conventions of the
model: log 3, 4. -/
def Obligations.ResetsStartOver : Prop := ∀ s : State,
  (∀ m b, Runs (.powerOn m b) s fun t => t.phase = .starting 1 ∧ t.rails = [] ∧ t.alwaysOn = ⟨0, 0⟩ ∧ t.sessions = [] ∧
    t.jobs = [] ∧ fget t (pRst + 0x44) 2 0 = 0 ∧ bit t (pRst + 0x44) 9 = m ∧ bit t (pRst + 0x44) 8 = b ∧
    t.flash = s.flash ∧ t.fuses = s.fuses) ∧
  (s.phase ≠ .unpowered → s.phase ≠ .inReset → Runs .resetNAssert s fun t => t.phase = .inReset ∧ t.sessions = [] ∧
    t.jobs = [] ∧ t.queues = [] ∧ fallow t = false ∧ t.flash = s.flash ∧ t.fuses = s.fuses ∧ t.alwaysOn = s.alwaysOn ∧
    t.rails = s.rails) ∧
  (s.phase = .inReset → ∀ m b, Runs (.resetNRelease m b) s fun t => t.phase = .starting 1 ∧ bit t (pRst + 0x44) 9 = m ∧
    bit t (pRst + 0x44) 8 = b ∧ fget t (pRst + 0x44) 2 0 = (if s.rails = [] then 0 else 1) ∧
    ∀ a, a ≠ pRst + 0x44 → rd t a = rd s a) ∧
  (s.faults.chipResetOwed = true → stitchesClosed s = true → s.fw.jtag = false → Runs (.chipReset none) s fun t =>
    t.phase = .starting 1 ∧ fget t (pRst + 0x44) 2 0 = 3 ∧ bit t (pRst + 0x44) 9 = bit s (pRst + 0x44) 9 ∧
    bit t (pRst + 0x44) 8 = bit s (pRst + 0x44) 8 ∧ fallow t = false ∧ t.sessions = [] ∧ t.jobs = [] ∧ t.fuses = s.fuses) ∧
  (∀ who, Accepts s who (pRst + 0x40) 1 1 → s.fw.jtag = false → Runs (.chipReset (some who)) s fun t =>
    t.phase = .starting 1 ∧ fget t (pRst + 0x44) 2 0 = 2 ∧ fallow t = false ∧ t.sessions = [] ∧ t.jobs = [] ∧
    t.flash = s.flash ∧ t.fuses = s.fuses ∧ t.alwaysOn = s.alwaysOn) ∧
  Runs .vioLoss s (fun t => t.phase = .unpowered)

/-- R383 to R385, Tables 18.8, 18.9, 16.4: what the end of a start-up step does: the next step begins, or a failed boot check
takes the device fallow in the boot ROM with its code; the LPDDR6 part of step 7 releases what it held. Conventions of the
model: log 62. -/
def Obligations.StartUpAdvances : Prop := ∀ (s : State) (r : StepReport),
  (s.phase = .starting 1 → r.ok = true → s.rails = [] → Runs (.startUpStepEnd r) s fun t =>
    t.phase = .starting 2 ∧ t.rails = railOrder ∧ fget t (pRst + 0x44) 19 16 = 1) ∧
  (s.phase = .starting 3 → (s.flash.present = false ∨ r.ok = false) → Runs (.startUpStepEnd r) s fun t =>
    t.phase = .bootRom ∧ fallow t = true) ∧
  (s.phase = .starting 3 → s.flash.present = true → s.flash.headerGood = true → r.ok = true →
    Runs (.startUpStepEnd r) s fun t => t.phase = .starting 4 ∧ fget t (pRst + 0x44) 19 16 = 3) ∧
  (s.phase = .starting 4 → fwCode s s.flash.image ≠ 0 → Runs (.startUpStepEnd r) s fun t =>
    t.phase = .bootRom ∧ fallow t = true) ∧
  (s.phase = .starting 4 → fwCode s s.flash.image = 0 → Runs (.startUpStepEnd r) s fun t =>
    t.phase = .starting 5 ∧ t.fw.runningDigest = fwDigest s.flash.image) ∧
  (s.phase = .starting 6 → r.ok = true → Runs (.startUpStepEnd r) s fun t =>
    t.phase = .starting 7 ∧ t.fuses.rollback = Nat.max s.fuses.rollback (fwRollback s.flash.image)) ∧
  (s.phase = .starting 13 → s.bistRunning = false → (∀ n, n < 12 → stitchSettled s n = true) → Runs (.startUpStepEnd r) s fun t =>
    t.phase = .ready ∧ bit t (pRst + 0x44) 25 = true ∧ bit t (pRst + 0x10) 8 = true) ∧
  (∀ bad, s.bistRunning = true → s.heldReqs = [] → Runs (.lpddrBistDone bad) s fun t =>
    t.bistRunning = false ∧ bit t (pRst + 0x44) 26 = true ∧ bit t (pRst + 0x10) 10 = true)

/-- R365 to R369, Table 18.1, Table 18.10: the references and the gating tree. A lost reference is reported; the device never
switches back by itself; a node turned on brings its ancestors with it; an OFF is refused for a node never gated or with a
child in use. Conventions of the model: log 47. -/
def Obligations.ClocksFollowTheirRules : Prop := ∀ s : State,
  (live s = true → ∀ ref,
    Runs (.refClockLoss ref) s (fun t => Reports s t (mkFault 0x07 0 0x30 1 (b2n ref) 0xFF 0)) ∧
    (refInUse s ≠ ref → Runs (.refClockLoss ref) s fun t =>
      refOk t ref = false ∧ ctrGet t pClk 0 = ctrGet s pClk 0 + 1 ∧ t.ports = s.ports) ∧
    Runs (.refClockReturn ref) s (fun t => refOk t ref = true ∧ refInUse t = refInUse s)) ∧
  (live s = true → bit s (pClk + 0x44) 28 = false → Runs (.clockFallback true) s fun t =>
    bit t (pClk + 0x44) 28 = true ∧ Reports s t (mkFault 0x07 0 0x32 1 0 0xFF 0)) ∧
  (∀ who sel, Accepts s who (pClk + 0x40) (BitVec.ofNat 32 (b2n sel)) 1 → refOk s sel = true → refInUse s ≠ sel →
    Runs (.refSelectWrite who sel) s fun t => refInUse t = sel ∧ t.phase = s.phase) ∧
  (∀ who node, node < 256 → Accepts s who (pClk + 0x48) (BitVec.ofNat 32 (2147483648 + node)) 0x800000FF →
    (∀ n, n = node ∨ parentNode node = some n → n < 113 → Runs (.clkGateOn who node) s fun t => nodeOn t n = true)) ∧
  (∀ who node, node < 256 → Accepts s who (pClk + 0x48) (BitVec.ofNat 32 node) 0x800000FF →
    (neverGated node = true → Runs (.clkGateOff who node) s fun t =>
      fget t (pClk + 0x4C) 31 30 = 2 ∧ ctrGet t pClk 1 = ctrGet s pClk 1 + 1 ∧ bit t (pClk + 0x10) 8 = true) ∧
    (neverGated node = false → ∀ c, childInUse s node = some c → c < 65536 → Runs (.clkGateOff who node) s fun t =>
      fget t (pClk + 0x4C) 31 30 = 1 ∧ fget t (pClk + 0x4C) 23 8 = c ∧ nodeOn t node = nodeOn s node) ∧
    (neverGated node = false → childInUse s node = none → nodeOn s node = true → Runs (.clkGateOff who node) s fun t =>
      fget t (pClk + 0x4C) 31 30 = 3 ∧ (node, false) ∈ t.ramps)) ∧
  (∀ node on, node < 128 → (s.ramps.find? fun r => r.1 == node) = some (node, on) → Runs (.dividerRampEnd node) s fun t =>
    (∀ r ∈ t.ramps, r.1 ≠ node) ∧ (on = false → nodeOn t node = false))

/-- R370 to R372: pace, power and temperature. PWR_PACE_MIN holds the lowest rate any monitor has reported; above 105 °C OVER
is set; over its limits the device throttles; VCORE does not exceed its limit. Conventions of the model: log 9, 35, 63. -/
def Obligations.PowerIsWatched : Prop := ∀ s : State, live s = true →
  (∀ monitor rate, monitor < 40 → Runs (.paceSample monitor rate) s fun t =>
    Sparse.get (fun _ => none) t.pace monitor = some (Nat.min rate 65535) ∧
    ∃ b, lowestPace t = some b ∧ rd t (pPwr + 0x48) = BitVec.ofNat 32 (b.1 * 16777216 + b.2) ∧
      ∀ m r, (m, some r) ∈ t.pace → b.2 ≤ r) ∧
  (∀ railDw railMv tj, Runs (.powerControlTick railDw railMv tj) s fun t =>
    (bit t (pTherm + 0x44) 0 = true ↔ ∃ i, i < 17 ∧ 105 < tj.getD i 0) ∧
    fget t (pPwr + 0x44) 31 24 ≤ fdef s (pPwr + 0x40) 23 16 30 ∧
    (fdef s (pPwr + 0x40) 15 0 1700 < ((List.range 9).map fun r => railDw.getD r 0).sum / 10 →
      bit t (pPwr + 0x44) 23 = true ∧ ctrGet t pPwr 0 = ctrGet s pPwr 0 + 1000)) ∧
  Runs .pmbusAlert s (fun t => ∀ r, 1 ≤ r → r ≤ 8 → Emits s t (.pmbus r 0x79 0))

/-- R381, R379, Tables 18.6 and 18.7: ENABLE, the end of a stop, and block resets of blocks other than ports. ENABLE 1 while
STOPPING is remembered in PEND_ON; a stop that ends clears it and starts the block. Conventions of the model: log 31, 52. -/
def Obligations.BlocksStopAndStart : Prop := ∀ (s : State) (k : PageKind) (page : Nat),
  pageOf page = some (k, page) → k.ty ≠ 0x20 → frozen s page = false →
  (∀ who, Accepts s who (page + 0x08) 1 1 →
    (blkState s page = 0 → Runs (.blockEnable who page) s fun t => blkState t page = 2) ∧
    (blkState s page = 3 → Runs (.blockEnable who page) s fun t => blkState t page = 3 ∧ pendOn t page = true)) ∧
  (∀ who, Accepts s who (page + 0x08) 0 1 →
    (blkState s page = 1 ∨ blkState s page = 2 → Runs (.blockDisable who page) s fun t =>
      blkState t page = 3 ∧ fget t (page + 0x0C) 15 8 = 1) ∧
    (blkState s page = 3 → Runs (.blockDisable who page) s fun t => blkState t page = 3 ∧ pendOn t page = false)) ∧
  (blkState s page = 3 → resetting s page = false → Runs (.blockStopDone page) s fun t =>
    blkState t page = (if pendOn s page then 2 else 0) ∧ pendOn t page = false) ∧
  (live s = true → k.hasReset = true → blkState s page ≠ 3 → k.ty ∉ [0x29, 0x2A, 0x2B] →
    Runs (.blockReset none page) s fun t => resetting t page = true ∧ fget t (page + 0x0C) 15 8 = 3) ∧
  (∀ who, Accepts s who (page + 0x08) 2 2 → blkState s page ≠ 3 → k.ty ∉ [0x29, 0x2A, 0x2B] →
    Runs (.blockReset (some who) page) s fun t => resetting t page = true ∧ fget t (page + 0x0C) 15 8 = 2) ∧
  (resetting s page = true → Runs (.blockResetDone page) s fun t =>
    blkState t page = (if bit s (page + 0x08) 0 then 2 else 0) ∧ pendOn t page = false)

/-- R347, R350, R351, Table 17.1b: a record that is served. A contained record whose reaction word holds EVENT alone is
written to the ring before its event, with the next sequence number and the time, and counted by its class; a fatal one takes
the device fallow. -/
def Obligations.RecordsAreServed : Prop := ∀ (s : State) (r : FaultRec) (rs : List FaultRec),
  live s = true → s.faults.reported = r :: rs →
  (∀ k, kindOf r.kind.toNat = some k → k.cls = 1 → 2 < r.kind.toNat → rd s (wReact r.kind.toNat) &&& 0x3F = 1 →
    Runs (.faultRecord .reported) s fun t =>
      let seq := (fget s (pFltLog + 0x40) 31 0 + 1) % 4294967296
      t.faults.reported = rs ∧ fget t (pFltLog + 0x40) 31 0 = seq ∧ bit t (pFlt + 0x10) 8 = true ∧
      ctrGet t pFlt 1 = ctrGet s pFlt 1 + 1 ∧ rd t (wFltLog (seq % 4096) + 24) = BitVec.ofNat 32 seq ∧
      rd t (wFltLog (seq % 4096) + 16) = BitVec.ofNat 32 s.time ∧
      rd t (wFltLog (seq % 4096) + 12) = r.sourceType ++ r.sourceInst ++ r.kind ++ 1#2 ++
        BitVec.ofBool (decide ((rd s (pFltLog + 0x44)).toNat < (rd s (wFltLog (seq % 4096) + 24)).toNat)) ++ 0#1) ∧
  (∀ k, kindOf r.kind.toNat = some k → k.cls = 2 → Runs (.faultRecord .reported) s fun t => fallow t = true)

/-- R351, R352, R354 to R361, R20: the other commands of the collector and of the checkers. Conventions of the model: log 64. -/
def Obligations.FaultPinsTrapsAndChecks : Prop := ∀ s : State,
  (∀ who, Accepts s who (pFlt + 0x40) 0x80000000 0x80000000 → fallow s = false → s.faults.pulse = false →
    Runs (.faultPinClear who) s fun t => t.faults.latched = false ∧ bit t (pFlt + 0x40) 1 = false) ∧
  Runs .fallowReqNHigh s (fun t => bit t (pFlt + 0x44) 30 = false ∧ t.faults.requestHeld = false) ∧
  (fallow s = false → s.faults.latched = false → Runs .faultNPulseEnd s fun t =>
    t.faults.pulse = false ∧ bit t (pFlt + 0x40) 1 = false) ∧
  (live s = true → Runs .watchdogService s fun t => t.faults.wdogAt = s.uptime ∧ ctrGet t pMgmt 0 = ctrGet s pMgmt 0 + 1) ∧
  (s.faults.inHandler = true →
    (s.faults.traps = [] → Runs .trapReturn s fun t => t.faults.inHandler = false) ∧
    (∀ q qs, s.faults.traps = q :: qs → Runs .trapReturn s fun t =>
      t.faults.inHandler = true ∧ t.faults.traps = qs ∧ ctrGet t pMgmt 1 = ctrGet s pMgmt 1 + 1)) ∧
  (live s = true → ∀ ty inst slots, Runs (.handshakeStall ty inst slots) s fun t =>
    Reports s t (mkFault ty.toNat inst 0x22 (if ty = 0xF1 then 1 else 2) 0 0xFF 0)) ∧
  (live s = true → ∀ bad, Runs (.registerSweep bad) s fun t => ∀ w ∈ bad, ∀ k a, pageOf w.1 = some (k, a) →
    Reports s t (mkFault k.ty (k.inst a) 0x20 0 w.1 0xFF 0) ∧
    (w.2 = true → Reports s t (mkFault k.ty (k.inst a) 0x21 2 w.1 0xFF 0))) ∧
  (∀ tile, inService s = true → s.faults.held = false → tile < 512 → ownerOfTile s tile = none →
    s.faults.tilesWithdrawn.contains tile = false → Runs (.tileSelfTest tile) s fun t => tile ∈ t.faults.tilesUnderTest) ∧
  (∀ tile, s.faults.tilesUnderTest.contains tile = true →
    Runs (.tileSelfTestDone tile true) s (fun t => tile ∉ t.faults.tilesUnderTest ∧
      t.faults.tilesWithdrawn = s.faults.tilesWithdrawn) ∧
    Runs (.tileSelfTestDone tile false) s (fun t => Reports s t (mkFault 0xF1 tile 0x41 1 tile 0xFF 0))) ∧
  (live s = true → ∀ crossing channel codes victim, codes.all codeOk4 = false →
    Runs (.crossingWordRx crossing channel codes victim) s fun t => ∃ a sub, Reports s t (mkFault 0xF0 crossing 3 1 a sub 0) ∧
      (channel = 0 → a = victim ∧ sub = 0xFF)) ∧
  (fallow s = true → s.faults.held = false → s.faults.supplyOff = false → Runs .fallowBlocksHeld s fun t =>
    t.faults.held = true ∧ t.queues = [] ∧ t.slots = [] ∧ t.deliv = [] ∧ t.phase = s.phase)

/-- R302, R303, R305, R306, R309: the host port. A mode that trains brings the link up with the settings then in force; three
failures in succession withdraw it. Frames are counted; ARP and ICMP for the device's own address are answered; a datagram
that fails a check is counted and dropped; a fresh tagged segment moves the session's highest SEQ. Conventions of the model:
log 9. -/
def Obligations.HostPortTakesFrames : Prop := ∀ s : State,
  (∀ mode, live s = true → mode < 4 → bit s (pHostIf + 0x40) (28 + mode) = true → s.hostSt.offered ≤ mode →
    Runs (.hostLinkUp mode true) s (fun t => hostUp t = true ∧ fget t (pHostIf + 0x44) 25 24 = mode ∧
      t.hostSt.activeCfg = rd s (pHostIf + 0x40)) ∧
    (Sparse.get (fun _ => 0) s.hostSt.fails mode = 2 → Runs (.hostLinkUp mode false) s fun t => t.hostSt.offered = mode + 1)) ∧
  (live s = true → Runs .hostLinkLoss s fun t => hostUp t = false ∧ t.hostSt.offered = 0) ∧
  (live s = true → hostUp s = true →
    (∀ f : HostFrame, Runs (.hostFrameRx f) s fun t => ctrGet t pHostIf 0 = ctrGet s pHostIf 0 + 1) ∧
    (∀ f : HostFrame, frameOk s f = false → Runs (.hostFrameRx f) s fun t => ctrGet t pHostIf 2 = ctrGet s pHostIf 2 + 1) ∧
    (∀ (f : HostFrame) a, frameOk s f = true → f.payload = .arp a → ownIp4 s a = true → Runs (.hostFrameRx f) s fun t =>
      Emits s t (.frame "ARP" [])) ∧
    (∀ d : Dgram, dgramOk d = false → Runs (.shafortSegmentRx d) s fun t => ctrGet t pHostIf 2 = ctrGet s pHostIf 2 + 1) ∧
    (∀ (d : Dgram) x, dgramOk d = true → hostTypes.contains (d.ty.toNat, false) = false → getSession s d.session.toNat = some x →
      x.accepted = true →
      (d.tag ≠ tagOf x.key d → Runs (.shafortSegmentRx d) s fun t => ctrGet t pHostIf 3 = ctrGet s pHostIf 3 + 1) ∧
      (d.tag = tagOf x.key d → seqFresh x d.seq.toNat = false → Runs (.shafortSegmentRx d) s fun t =>
        ctrGet t pHostIf 4 = ctrGet s pHostIf 4 + 1) ∧
      (d.tag = tagOf x.key d → x.highSeq < d.seq.toNat → Runs (.shafortSegmentRx d) s fun t =>
        ∃ y, getSession t d.session.toNat = some y ∧ y.highSeq = d.seq.toNat))) ∧
  (∀ sid m x, getSession s sid = some x → Runs (.segmentTimeout sid m) s fun t =>
    ∃ y, getSession t sid = some y ∧ ∀ p ∈ y.partials, p.msgNum ≠ m.toNat)

/-- R308, R310, R332, R335: sessions open by HELLO and PROOF and end by CLOSE or a time-out. Conventions of the model: log 1,
5, 6, 7, 61. -/
def Obligations.SessionsOpenAndClose : Prop := ∀ s : State,
  (∀ role nonce ll, served s = true → hostUp s = true → openingCount s < 4 → openCount s < 16 → role ≤ 2 →
    (role = 2 → makerOpen s = false) → nonce.length = 32 → s.fuses.secState ≠ 0 → Runs (.hello 1 role nonce ll) s fun t =>
      Answers s t 0 2 0 0 ∧ ∃ x, getSession t s.nextSession = some x ∧ x.accepted = false ∧ x.role = role ∧ x.hostNonce = nonce) ∧
  (∀ ver role nonce ll, served s = true → hostUp s = true → ver ≠ 1 → Runs (.hello ver role nonce ll) s fun t =>
    Answers s t 0 0x7F 0 1 ∧ t.nextSession = s.nextSession) ∧
  (∀ sid b x, served s = true → getSession s sid = some x → x.accepted = false →
    (proofOk s x b (shake256 (x.t1 ++ b.ct ++ b.chain.flatten) 64) = none → Runs (.proof sid b) s fun t =>
      getSession t sid = none ∧ Answers s t 0 0x7F 0 3) ∧
    (∀ p, proofOk s x b (shake256 (x.t1 ++ b.ct ++ b.chain.flatten) 64) = some p → openCount s < 16 →
      (x.role = 2 → makerOpen s = false) → Runs (.proof sid b) s fun t =>
        Answers s t sid 4 0 0 ∧ s.audit.nextSeq < t.audit.nextSeq ∧
        (x.role ≠ 2 → s.fuses.secState = 0 → t.fuses.secState = 1 ∧ t.fuses.batches = 0) ∧
        ∃ y, getSession t sid = some y ∧ y.accepted = true ∧ y.role = x.role ∧ y.scope = p.scope ∧
          y.key = kmac256 (Config.kemDecaps x.draw b.ct) (shake256 (x.t1 ++ b.ct ++ b.chain.flatten) 64) 32 "SHAFORT K") ∧
    Runs (.proofTimeout sid) s (fun t => getSession t sid = none)) ∧
  (∀ sid x, openSession s sid = some x →
    (served s = true → Runs (.close sid) s fun t => getSession t sid = none ∧ s.audit.nextSeq < t.audit.nextSeq ∧
      ∀ tr ∈ t.transfers, tr.session ≠ sid) ∧
    Runs (.sessionIdleTimeout sid) s (fun t => getSession t sid = none ∧ s.audit.nextSeq < t.audit.nextSeq) ∧
    (∀ q, (unackedEvent x q).isSome = true → Runs (.eventAckTimeout sid q) s fun t => getSession t sid = none) ∧
    (s.faults.mute = false → Runs (.sessionIdleTimeout sid) s fun t => Answers s t sid 5 0 0)) ∧
  (∀ sid, Runs (.keepalive sid) s fun t => t = s)

/-- R311 to R315, R321: requests of a session. A number is executed once; reads change nothing; a write does what
REGISTER_WRITE of the same session does to the registers; events are repeated until they are acknowledged. Conventions of the
model: log 60. -/
def Obligations.RequestsAreServedOnce : Prop := ∀ (s : State) (sid : Nat) (m : Word) (x : Session),
  (Fresh s sid m.toNat x →
    (∀ stop ops, ops ≠ [] → ops.length ≤ 256 → (∀ o ∈ ops, o.op = 1 ∨ o.op = 3) → Runs (.reg sid m stop ops) s fun t =>
      Answers s t sid 0x11 m.toNat 0 ∧ t.regs = s.regs ∧ t.jobs = s.jobs ∧ t.audit = s.audit) ∧
    (∀ stop o, o.op = 2 → writeStatus (begin' s sid m.toNat) (.session sid) o.addr.toNat o.value 0xFFFFFFFF = 4 →
      Runs (.reg sid m stop [o]) s fun t => Answers s t sid 0x11 m.toNat 0 ∧ t.regs = s.regs) ∧
    (∀ stop, Runs (.reg sid m stop []) s fun t => Answers s t sid 0x7F m.toNat 4) ∧
    (∀ ranges, ranges.length ≤ 64 → Runs (.subscribe sid m ranges) s fun t =>
      ∃ y, getSession t sid = some y ∧ y.ranges = ranges) ∧
    (∀ nonce, nonce.length = 32 → s.attests = [] → Runs (.attestReq sid m nonce) s fun t =>
      ∃ rest, t.attests = [(sid, m.toNat, [0x50, 0x41, 0x54, 0x31] ++ leBytes 4 1 ++ deviceId ++ nonce ++ rest)])) ∧
  (served s = true → openSession s sid = some x → ∀ r, reqKind x m.toNat = .again (some r) → ∀ stop ops,
    Runs (.reg sid m stop ops) s fun t => Answers s t sid r.ty m.toNat r.status ∧ t.regs = s.regs) ∧
  (openSession s sid = some x → ∀ q e,
    ((x.events.find? fun e => e.evtSeq == q) = some e → q ≠ s.evtSeq → Runs (.eventAck sid q) s fun t =>
      ∃ y, getSession t sid = some y ∧ ∀ f ∈ y.events, f.evtSeq ≠ q) ∧
    (unackedEvent x q = some e → s.faults.mute = false → Runs (.eventResendTimer sid q) s fun t => Answers s t sid 0x21 0 0)) ∧
  (∀ st rest, s.attests = (sid, m.toNat, st) :: rest → st.length ≠ 32 → getSession s sid = some x → s.faults.mute = false →
    Runs .attestSigned s fun t => Answers s t sid 0x51 m.toNat 0 ∧ t.attests.length = rest.length)

/-- R316 to R318: bulk transfers. Segments received are acknowledged, those sent are repeated until they are, and a transfer
commits only when it is whole. Conventions of the model: log 4. -/
def Obligations.BulkTransfersRun : Prop := ∀ (s : State) (sid : Nat) (m : Word) (x : Session),
  (∀ r, Fresh s sid m.toNat x → r.segSize % 1024 ≠ 0 → Runs (.bulkOpen sid m r) s fun t =>
    Answers s t sid 0x34 m.toNat 4 ∧ t.transfers = s.transfers) ∧
  (∀ r, Fresh s sid m.toNat x → s.transfers = [] → s.bistRunning = false → r.segSize = 1024 → r.target = 0 → r.dir = false →
    x.role = 1 → loadAreaOk s r.offset r.length = true → Runs (.bulkOpen sid m r) s fun t =>
      Answers s t sid 0x34 m.toNat 0 ∧ ∃ tr, getTransfer t sid r.transfer = some tr ∧ tr.req = r ∧ tr.waiting = false) ∧
  (∀ tr t0, getTransfer s sid tr = some t0 → t0.waiting = true → stepRuns s t0.req.subscriber = false →
    bulkRange s t0.req = false → getSession s sid = some x → s.faults.mute = false → Runs (.bulkOpenResume sid tr) s fun t =>
      getTransfer t sid tr = none ∧ Answers s t sid 0x34 t0.msgNum 8) ∧
  (∀ tr t0 seg data, served s = true → limited s = false → openSession s sid = some x → getTransfer s sid tr = some t0 →
    t0.waiting = false → t0.req.dir = false → t0.req.target = 0 → seg < segCount t0.req t0.req.length →
    data.length = segBytes t0.req t0.req.length seg → Runs (.bulkData sid tr seg data) s fun t =>
      (∀ a, memRead t a = if t0.req.offset + seg * t0.req.segSize ≤ a ∧ a < t0.req.offset + seg * t0.req.segSize + data.length
        then data.getD (a - (t0.req.offset + seg * t0.req.segSize)) 0 else memRead s a) ∧
      ∃ t1, getTransfer t sid tr = some t1 ∧ seg ∈ t1.segs) ∧
  (∀ tr t0 cum sack, served s = true → limited s = false → openSession s sid = some x → getTransfer s sid tr = some t0 →
    t0.waiting = false → t0.req.dir = true → Runs (.bulkAck sid tr cum sack) s fun t =>
      ∃ t1, getTransfer t sid tr = some t1 ∧ ∀ g, g < t0.sent → g < cum ∨ g ∈ sack → g ∈ t1.segs) ∧
  (∀ tr t0, getTransfer s sid tr = some t0 → s.faults.mute = false →
    (t0.req.dir = false → t0.unacked ≠ 0 → Runs (.bulkAckTimer sid tr) s fun t => Answers s t sid 0x32 0 0) ∧
    (∀ seg, t0.req.dir = true → seg < t0.sent → seg ∉ t0.segs → Runs (.bulkResendTimer sid tr seg) s fun t =>
      Answers s t sid 0x31 0 0) ∧
    (t0.waiting = false → Runs (.bulkIdleTimeout sid tr) s fun t => getTransfer t sid tr = none)) ∧
  (∀ tr t0, Fresh s sid m.toNat x → getTransfer s sid tr = some t0 → t0.waiting = false →
    (firstMissing t0 = none → Runs (.bulkCommit sid m tr) s fun t => Answers s t sid 0x34 m.toNat 0 ∧ getTransfer t sid tr = none) ∧
    (∀ g, firstMissing t0 = some g → Runs (.bulkCommit sid m tr) s fun t =>
      Answers s t sid 0x34 m.toNat 9 ∧ t.transfers = s.transfers))

/-- R320, R327 to R330, R334, R337, R341 to R343, Tables 16.4, 16.5: firmware updates, the audit ring and its streams, and
SEC_CMD. Conventions of the model: log 49, 50, 51. -/
def Obligations.FirmwareAuditAndSecurity : Prop := ∀ s : State,
  (∀ img, s.fw.staged = some img → fwState s = 1 →
    (fwCode s img = 0 → Runs .fwCheckDone s fun t => fwState t = 2 ∧ t.fw.writing = some img ∧ t.flash.image = []) ∧
    (fwCode s img ≠ 0 → Runs .fwCheckDone s fun t => fwState t = 4 ∧ t.flash = s.flash ∧ t.fw.writing = s.fw.writing ∧
      s.audit.nextSeq < t.audit.nextSeq)) ∧
  (∀ img, s.fw.writing = some img →
    Runs (.fwProgramDone true) s (fun t => fwState t = 3 ∧ t.flash.image = img ∧ t.fw.runningDigest = s.fw.runningDigest) ∧
    Runs (.fwProgramDone false) s (fun t => fwState t = 4 ∧ t.flash = s.flash)) ∧
  (∀ sid x fromSeq, served s = true → openSession s sid = some x → Runs (.auditStart sid fromSeq) s fun t =>
    ∃ y a, getSession t sid = some y ∧ y.audit = some a ∧ a.acked = Nat.max fromSeq (auditOldest s)) ∧
  (∀ sid x a next, served s = true → openSession s sid = some x → x.audit = some a → next ≤ a.next →
    Runs (.auditAck sid next) s fun t => (∃ y b, getSession t sid = some y ∧ y.audit = some b ∧ b.acked = Nat.max a.acked next) ∧
      (x.role = 1 → t.audit.acked = Nat.max s.audit.acked next)) ∧
  (∀ sid x a, served s = true → s.faults.mute = false → openSession s sid = some x → x.audit = some a → a.acked < a.next →
    (∃ r ∈ s.flash.ring, r.seq = a.acked ∧ ∀ q ∈ s.flash.ring, q.seq < a.acked + 128) → Runs (.auditResendTimer sid) s fun t =>
      Answers s t sid 0x41 0 0) ∧
  (∀ r sets rest, s.audit.staged = (r, sets) :: rest → s.flash.present = true → s.flash.ring.length < s.flash.capacity →
    Runs .auditRecordProgram s fun t => t.flash.ring = s.flash.ring ++ [r] ∧ t.audit.staged = rest) ∧
  (∀ who, Accepts s who (pSec + 0x4C) 1 3 →
    Runs (.secRecommission who true) s (fun t => t.fuses.secState = 1 ∧ t.fuses.unlocksRecorded = s.fuses.unlocks ∧
      t.audit.lost = 0 ∧ s.audit.nextSeq < t.audit.nextSeq) ∧
    Runs (.secRecommission who false) s (fun t => fallow t = true)) ∧
  (∀ who, Accepts s who (pSec + 0x4C) 2 3 → Runs (.secDecommission who) s fun t =>
    t.fuses.secState = 0 ∧ t.fuses.secRoot = [] ∧ (∀ sid ∈ s.sessions.map (·.1), getSession t sid = none) ∧
    ∀ a, wCred 0 ≤ a → a < wCred 64 → rd t a = resetWord a)

/-- R261, R264 to R272, R275, R277, R279, Tables 13.2 to 13.7: the life of a fabric port, from EN to admission. Conventions of
the model: log 59. -/
def Obligations.PortsComeUp : Prop := ∀ (s : State) (p : Nat), p < 160 →
  (∀ who mode, Accepts s who (pPort p + 0x40) (BitVec.ofNat 32 (2147483648 + mode.toNat)) 0x80000003 → portEn s p = false →
    portTest s p = false → blkState s (pPort p) = 0 → s.faults.held = false → Runs (.portEnable who p mode) s fun t =>
      portEn t p = true ∧ fget t (pPort p + 0x40) 1 0 = mode.toNat ∧ blkState t (pPort p) = 1 ∧ nodeOn t (nodeOfPort p) = true) ∧
  (∀ who, Accepts s who (pPort p + 0x40) 0 0x80000000 → portEn s p = true → blkState s (pPort p) = 2 → s.faults.held = false →
    Runs (.portDisable who p) s fun t => portEn t p = false ∧ blkState t (pPort p) = 3) ∧
  (∀ who, Accepts s who (pPort p + 0x40) 0x40000000 0x40000000 → portTest s p = false → frozen s (pPort p) = false →
    Runs (.portTestEnter who p) s fun t => portTest t p = true ∧ pState t p = 7 ∧ pStage t p = 0 ∧
      (getPort t p).credits = [] ∧ (getPort t p).replay = []) ∧
  (∀ lane, portEn s p = true → portTest s p = false → (getPort s p).waitRestart = false → pState s p = 1 → pStage s p < 8 →
    Runs (.signalDetect p lane) s fun t => pState t p = 2 ∧ lane ∈ (getPort t p).signal ∧ 2 ≤ pStage t p ∧
      ∃ a, Emits s t (.link p "TRAIN" a)) ∧
  (∀ lane f, frameCrcOk f.control = false → Runs (.trainingFrameRx p lane f) s fun t => t = s) ∧
  (∀ lane f, frameCrcOk f.control = true → portEn s p = true → portTest s p = false → 2 ≤ pStage s p →
    pStage s p < 8 → (getPort s p).signal.contains lane = true → Runs (.trainingFrameRx p lane f) s fun t => ∃ a, Emits s t (.link p "TRAIN" a)) ∧
  (pState s p = 2 ∨ pState s p = 3 → mayFallBack s p = false → Runs (.bringupStageTimeout p) s fun t =>
    pState t p = (if (getPort s p).inner then 8 else 1) ∧ (getPort t p).signal = [] ∧ (getPort t p).waitRestart = true) ∧
  (pState s p = 2 ∨ pState s p = 3 → mayFallBack s p = true → Runs (.bringupStageTimeout p) s fun t =>
    (getPort t p).halfReq = true ∧ pStage t p = pStage s p ∧
      ∀ lane ∈ (getPort s p).signal, ∃ a, Emits s t (.link p "TRAIN" a)) ∧
  (portEn s p = true → portTest s p = false → (getPort s p).waitRestart = true → Runs (.bringupRestart p) s fun t =>
    pStage t p = 1 ∧ (getPort t p).signal = [] ∧ (getPort t p).identGot = false ∧ (getPort t p).waitRestart = false) ∧
  (pStage s p = 8 → pState s p = 3 → (getPort s p).identGot = false → Runs (.identTimer p) s fun t =>
    Emits s t (.single p (ctrlPkt tCtrl 0x10 (identPayload s p)))) ∧
  (live s = true → s.faults.held = false → portEn s p = true → portTest s p = false → 8 ≤ pStage s p →
    (∀ payload, Runs (.identRx p payload) s fun t => Emits s t (.single p (ctrlPkt tCtrl 0x11 []))) ∧
    ((getPort s p).identGot = false → Runs (.identAckRx p) s fun t => (getPort t p).identAcked = true ∧ t.regs = s.regs) ∧
    ((getPort s p).identGot = true → pState s p = 3 → admissionCause s p = some 2 → Runs (.identAckRx p) s fun t =>
      pState t p = 5 ∧ pStage t p = 9 ∧ fget t (pPort p + 0x48) 7 0 = 2 ∧ bit t (pPort p + 0x10) 8 = true) ∧
    ((getPort s p).identGot = true → pState s p = 3 → isLeaf p = true → admissionCause s p = none → Runs (.identAckRx p) s fun t =>
      blkState t (pPort p) = 2 ∧ rd t (pPort p + 0x48) = 0 ∧ pState t p = 4)) ∧
  (∀ who, Accepts s who (pPort p + 0x4C) 2 2 → portEn s p = true → portTest s p = false → Runs (.portRetrain who p) s fun t =>
    pStage t p = 1 ∧ (getPort t p).replay = [] ∧ (getPort t p).credits = []) ∧
  (∀ who, Accepts s who (pPort p + 0x4C) 1 1 → pState s p ≠ 5 → Runs (.portAdopt who p) s fun t =>
    rd t (pPort p + 0x70) = rd s (pPort p + 0x80) ∧ rd t (pPort p + 0x74) = rd s (pPort p + 0x84) ∧
    fget t (pPort p + 0x78) 7 0 = foundPort s p ∧ s.audit.nextSeq < t.audit.nextSeq) ∧
  (pState s p = 6 → Runs (.heldDownRetry p) s fun t => pStage t p = 1 ∧ (getPort t p).signal = [])

/-- R63, R64, R71 to R73, R263, Table 17.5: frames, replays, acknowledgements, credits and widths of a link. A frame is
acknowledged only where its check and its LSN hold; a FENCE or a fall leaves neither credits nor replay buffer. Conventions of
the model: log 17, 18, 65. -/
def Obligations.LinksKeepTheirFrames : Prop := ∀ (s : State) (p : Nat), p < 160 →
  (live s = true → s.faults.held = false → framing s p = true →
    (∀ f : LinkFrame, f.uncorrectable = false → f.check = linkCheck f → f.lsn.toNat = (getPort s p).rxLsn →
      Runs (.linkFrameRx p f) s fun t => Emits s t (.link p "ACK" f.lsn.toNat) ∧
        (getPort t p).rxLsn = ((getPort s p).rxLsn + 1) % 4096 ∧ (getPort t p).rxDiscard = false) ∧
    (∀ f : LinkFrame, f.check ≠ linkCheck f → (getPort s p).rxDiscard = false → Runs (.linkFrameRx p f) s fun t =>
      Emits s t (.link p "RETRY" (getPort s p).rxLsn) ∧ (getPort t p).rxLsn = (getPort s p).rxLsn ∧
        (getPort t p).rxDiscard = true) ∧
    (∀ f : LinkFrame, f.check ≠ linkCheck f → (getPort s p).rxDiscard = true → f.lsn.toNat = (getPort s p).rxLsn →
      Runs (.linkFrameRx p f) s fun t => Emits s t (.link p "RETRY" (getPort s p).rxLsn) ∧ (getPort t p).rxDiscard = true) ∧
    (∀ f : LinkFrame, f.uncorrectable = false → (getPort s p).rxDiscard = true → f.lsn.toNat ≠ (getPort s p).rxLsn →
      Runs (.linkFrameRx p f) s fun t => t = s) ∧
    Runs (.fenceRx p) s (fun t => (getPort t p).credits = [] ∧ (getPort t p).replay = [])) ∧
  (∀ lsn, framing s p = true → (getPort s p).replayFails < 15 → Runs (.llrRetryRx p lsn) s fun t =>
    (getPort t p).replay = replayFrom lsn.toNat (getPort s p).replay ∧ ctrGet t (pPort p) 9 = ctrGet s (pPort p) 9 + 1 ∧
    Emits s t (.link p "REPLAY" lsn.toNat)) ∧
  (∀ lsn : BitVec 12, framing s p = true → (getPort s p).replayFails = 15 → (getPort s p).lastRetry = some lsn.toNat →
    widthTx s p ≠ 0 → Runs (.llrRetryRx p lsn) s fun t => (getPort t p).stripingTx = true ∧
      ctrGet t (pPort p) 12 = ctrGet s (pPort p) 12 + 1) ∧
  (∀ (lsn : BitVec 12) pre e post, (getPort s p).replay = pre ++ e :: post → e.1 = lsn.toNat → (∀ f ∈ pre, f.1 ≠ lsn.toNat) →
    mayStart s p = false → Runs (.linkAckRx p lsn) s fun t => (getPort t p).replay = post ∧ t.regs = s.regs) ∧
  (∀ vc n, admitted s p = true → mayStart s p = false → Runs (.creditReturnRx p vc n) s fun t =>
    vcGet (getPort t p).credits vc = vcGet (getPort s p).credits vc + n) ∧
  (∀ lane, lane < lanesOfPort p → striped s p = false → Runs (.laneUnhealthy p lane .rx .los) s fun t =>
    laneBit t p lane 12 = false ∧ laneBit t p lane 0 = true ∧ lane ∉ (getPort t p).signal ∧
    ctrGet t (pLaneGrp (laneGroup p lane)) 4 = ctrGet s (pLaneGrp (laneGroup p lane)) 4 + 1) ∧
  (∀ lane cause, lane < lanesOfPort p → striped s p = true →
    let u := setBit s (wAddr p) (8 + lane) false
    newWidth u p .tx ≠ 0 → newWidth u p .tx ≠ widthOf s p .tx → Runs (.laneUnhealthy p lane .tx cause) s fun t =>
      widthTx t p = newWidth u p .tx ∧ (getPort t p).stripingTx = true ∧ ctrGet t (pPort p) 12 = ctrGet s (pPort p) 12 + 1) ∧
  Runs (.restripeDone p .rx) s (fun t => (getPort t p).stripingRx = false ∧ (getPort t p).stripingTx = (getPort s p).stripingTx) ∧
  Runs (.restripeDone p .tx) s (fun t => (getPort t p).stripingTx = false ∧ (getPort t p).stripingRx = (getPort s p).stripingRx) ∧
  (∀ lane, lane < lanesOfPort p → striped s p = true → (getLane s (laneNum p lane)).stage = 7 →
    mayWiden s (getPort s p).widenedRx = true → Runs (.laneRejoin p lane .rx) s fun t => laneBit t p lane 12 = true) ∧
  (∀ lane d, striped s p = false → Runs (.laneRejoin p lane d) s fun t => t = s)

/-- R273 to R278, R280, Tables 13.9 to 13.11: kettle stitches. An opening starts with the inner check; the contacts decide
whether the commanded position is reached; a stitch whose contacts disagree is in FAULT with both its ports out of service. -/
def Obligations.StitchesOpenAndClose : Prop := ∀ (s : State) (n : Nat), n < 12 →
  (mayOpen s n = true → axisFree s n = true → axisTurn s n = true →
    ((getStitch s n).retryOwed = false → Runs (.stitchOpenStart n) s fun t => stState t n = 1) ∧
    ((getStitch s n).retryOwed = true → Runs (.stitchRetryTimer n) s fun t => stState t n = 1 ∧ (getStitch t n).retryOwed = false)) ∧
  ((getStitch s n).retryOwed = true → Runs (.stitchOpenStart n) s fun t => t = s) ∧
  (axisFree s n = false → Runs (.stitchOpenStart n) s fun t => t = s) ∧
  (mayOpen s n = false → Runs (.stitchOpenStart n) s fun t => t = s) ∧
  (stState s n = 2 → (getStitch s n).commandOpen = true → Runs (.stitchSenseSample n true false) s fun t =>
    stState t n = 3 ∧ ctrGet t (pStitch n) 0 = ctrGet s (pStitch n) 0 + 1) ∧
  (stState s n = 4 → (getStitch s n).commandOpen = false → Runs (.stitchSenseSample n false true) s fun t => stState t n = 0) ∧
  (stState s n ≠ 5 → ∀ made, Runs (.stitchSenseSample n made made) s fun t => stState t n = 5 ∧
    (getStitch t n).outOfService = true ∧ Reports s t (mkFault 0x22 n 0x38 1 n 0xFF 0) ∧
    blkState t (pPort (portsOfStitch n).1) = 5 ∧ blkState t (pPort (portsOfStitch n).2) = 5) ∧
  (stState s n = 3 → admitted s (portsOfStitch n).1 = false → holdOpen s n = false → Runs (.stitchAdmitTimeout n) s fun t =>
    stState t n = 4 ∧ (getStitch t n).retryOwed = true ∧ (getStitch t n).commandOpen = false) ∧
  (stState s n = 3 → ∀ who, Accepts s who (pStitch n + 0x40) 1 1 → bit s (pStitch n + 0x40) 0 = false →
    Runs (.kstForceClose who n) s fun t => stState t n = 4 ∧ fget t (pStitch n + 0x44) 23 16 = 3 ∧
      s.audit.nextSeq < t.audit.nextSeq) ∧
  (∀ who, Accepts s who (pStitch n + 0x40) 4 4 → mayOpen (fset s (pStitch n + 0x44) 9 8 0) n = true →
    bit s (pStitch n + 0x40) 0 = false → axisFree (fset s (pStitch n + 0x44) 9 8 0) n = true →
    axisTurn (fset s (pStitch n + 0x44) 9 8 0) n = true →
    Runs (.kstRetry who n) s fun t => stState t n = 1)

/-- R47, R49, R55, R56, R222, R223, R227, R234, R236, R238: the switch core. A packet that fails a check is discarded and
counted for the first check it fails, and takes no cell; a send that ends is counted and releases its cell's reference.
Conventions of the model: log 15, 65. -/
def Obligations.SwitchCoreTakesPackets : Prop := ∀ (s : State) (p : Nat), p < 161 →
  (∀ bs, live s = true → s.faults.held = false → portEn s p = true →
    (admitted s p = false → Runs (.packetRx p bs false) s fun t => ctrGet t (pPort p) 15 = ctrGet s (pPort p) 15 + 1 ∧ t.cells = s.cells) ∧
    (admitted s p = true → ∀ k, decodePkt bs = some k →
      (k.hcrc ≠ hcrcOf k → Runs (.packetRx p bs false) s fun t =>
        ctrGet t (pPort p) 4 = ctrGet s (pPort p) 4 + 1 ∧ t.cells = s.cells) ∧
      (k.hcrc = hcrcOf k → k.len.toNat ≤ 4096 → bs.length = 36 + k.len.toNat → k.ver ≠ 1 → Runs (.packetRx p bs false) s fun t =>
        ctrGet t (pPort p) 6 = ctrGet s (pPort p) 6 + 1 ∧ t.cells = s.cells) ∧
      (formatDrop bs k = none → k.ty ≠ tCtrl → k.ty ≠ tTime → addrOk s k.dst = true → classOk k = true → confined s k p = true →
        48 ≤ k.hops.toNat → Runs (.packetRx p bs false) s fun t =>
          ctrGet t (pPort p) 7 = ctrGet s (pPort p) 7 + 1 ∧ t.cells = s.cells) ∧
      (formatDrop bs k = none → k.ty = tAck → addressDrop s p k = none → chooseEgress s k (some p) = .here → trailerOk k = true →
        ∀ c, freeCell s (dieOfPort p) (poolOf (sizeOf' k)) = some c → Runs (.packetRx p bs false) s fun t =>
          ∃ d, getDeliv t s.nextHandle = some d ∧ d.pkt = k ∧ d.cell = c ∧ (getCell t c).allocated = true))) ∧
  (∀ e q, (getPort s p).sending = some (e, q) → e.cutThrough = false → Runs (.packetTxDone p) s fun t =>
    ctrGet t (pPort p) 1 = ctrGet s (pPort p) 1 + 1) ∧
  (∀ die pool w, (s.origWait.find? fun w =>
      w.die == die && poolOf (sizeOf' w.pkt) == pool && origReady s w) = some w →
    w.targets = [] → Runs (.origCellWaitEnd die pool) s fun t =>
      t.origWait.length + 1 = s.origWait.length ∧ ∃ d, getDeliv t s.nextHandle = some d ∧ d.pkt = w.pkt) ∧
  (∀ die, die < 8 → Runs (.leakAuditPass die) s fun t =>
    fget t (pBufPool die + 0x54) 31 16 = (fget s (pBufPool die + 0x54) 31 16 + 1) % 65536) ∧
  (mayStart s p = false →
    ((getGate s p).len ≠ 0 → (getGate s p).resync = none → Runs (.gateEntryBoundary p) s fun t =>
      (getGate t p).entry = ((getGate s p).entry + 1) % (getGate s p).len ∧ (getGate t p).since = gateEnd s p) ∧
    (bit s (pGate p + 0x40) 29 = true → Runs (.gateListStart p) s fun t =>
      bit t (pGate p + 0x40) 29 = false ∧ (getGate t p).entry = 0 ∧ (getGate t p).len = (getGate s p).waitLen ∧
      (getGate t p).since = (getGate s p).startAt) ∧
    Runs (.transitBucketRecover p) s (fun t => (getPort t p).bucketAt = s.uptime)) ∧
  (∀ who, Accepts s who (pGate p + 0x40) 0x40000000 0x40000000 → mayStart s p = false → Runs (.gateChange who p) s fun t =>
    bit t (pGate p + 0x40) 29 = true ∧ gateNow s p + 10000 ≤ (getGate t p).startAt) ∧
  (∀ who die v m, die < 8 → Accepts s who (pBufPool die + 0x40) v m → Runs (.bpCfgWrite who die v m) s fun t =>
    rd t (pBufPool die + 0x40) = mergeWord (pBufPool die + 0x40) (rd s (pBufPool die + 0x40)) v m)

/-- R40 to R43, R60, R61, R256 to R260: maps, routes and time. Conventions of the model: log 10, 42, 72, 73. -/
def Obligations.MapsRoutesAndTime : Prop := ∀ s : State,
  (fallow s = false →
    (∀ p ∈ spinePorts s, (getPort s p).replay = [] → 17 ≤ vcGet (getPort s p).credits 12 → Runs .linkStateCtrlTimer s fun t =>
      ∃ k, Emits s t (.single p k) ∧ k.ty = tCtrl) ∧
    (∀ p ∈ spinePorts s, (getPort s p).replay = [] → 1 ≤ vcGet (getPort s p).credits 12 → Runs .timeSyncTimer s fun t =>
      ∃ k, Emits s t (.single p k) ∧ k.ty = tTime)) ∧
  (∀ p v w, live s = true → isSpine p = true → portEn s p = true → admitted s p = true → v < 4096 → v ≠ ownIndex s → Runs (.linkStateCtrlRx p [(v, w)]) s fun t =>
    Sparse.get (fun _ => 0) t.reach.views v = w) ∧
  Runs .reachMapUpdate s (fun t => ∀ i, i < 4096 → (reachable t i = true ↔ i ∈ reachSet s)) ∧
  Runs .routeTableRecompute s (fun t => fget t (pRoute + 0x40) 31 16 = (fget s (pRoute + 0x40) 31 16 + 1) % 65536) ∧
  (∀ p bs g, live s = true → isSpine p = true →
    (decodePkt bs = none → Runs (.timePacketRx p bs g) s fun t => t.time = s.time ∧ t.timeSt = s.timeSt) ∧
    (∀ k, portEn s p = true → admitted s p = true → decodePkt bs = some k → formatDrop bs k = none → k.ty = tTime →
      trailerOk k = true → k.msg = 2 → 
        let r := timePkt 3 k.offset.toNat 0 g.toNat (stampOf s p)
        frameFits s p r = true → creditsOf r ≤ vcGet (getPort s p).credits 12 → Runs (.timePacketRx p bs g) s fun t =>
          Emits s t (.single p r))) ∧
  (∀ data, timeSrc s = 1 ∨ timeSrc s = 3 → s.timeSt.ptpMaster = none →
    let m := PtpMsg.announce (BitVec.ofNat 8 (fget s (pTime + 0x40) 31 24)) data
    (s.timeSt.ptpForeign = [] → Runs (.ptpMessageRx m) s fun t => t.timeSt.ptpMaster = none ∧ t.timeSt.ptpForeign ≠ []) ∧
    (∀ d u, s.timeSt.ptpForeign = [⟨d, [u]⟩] → d.source = data.source → data.steps.toNat < 255 → 0 < data.interval.toNat →
      s.uptime < u + 4 * data.interval.toNat → Runs (.ptpMessageRx m) s fun t =>
        t.timeSt.ptpMaster = some data.source ∧ t.time = s.time)) ∧
  (∀ d data, d.toNat ≠ fget s (pTime + 0x40) 31 24 → s.timeSt.ptpMaster = none → Runs (.ptpMessageRx (.announce d data)) s fun t =>
    t = s) ∧
  (timeSrc s = 2 → Runs .timeRootTimeout s fun t => t.timeSt.offers = [] ∧ t.timeSt.slewLeft = 0 ∧ timeLocked t = false) ∧
  (∀ now, timeSrc s = 3 → freeRunning s = false → ptpAlive s = true → ptpNow s = some now → Runs .ppsInEdge s fun t =>
    t.time = (now + 500000000) / 1000000000 * 1000000000 % 18446744073709551616) ∧
  (bit s (pTime + 0x40) 4 = true → live s = true → atSecond s = true → Runs .ppsOutPulse s fun t =>
    Emits s t (.boundary "PPS_OUT high for 1 us")) ∧
  (atSecond s = false → Runs .ppsOutPulse s fun t => t = s)

/-- R65 to R68: streams. An accepted packet is a duplicate from then on, so no packet is accepted twice; what is in flight
stays within the effective window; an acknowledged packet leaves the window; a time-out sends a packet again until it has been
sent 64 times. Conventions of the model: log 19. -/
def Obligations.StreamsAcceptOnce : Prop := ∀ (s : State) (c : Nat) (x : Stream), getStream s c = some x →
  (∀ k die, x.cum < 16777216 → (streamAccept s c k die).2 = true →
    ∃ y, getStream (streamAccept s c k die).1 c = some y ∧ isDuplicate y k.seq.toNat = true) ∧
  (∀ k die, isDuplicate x k.seq.toNat = true → (streamAccept s c k die).2 = false) ∧
  (∀ k control slot chunk, inFlight x ≤ x.effWindow → ∃ y, getStream (formPacket s c k control slot chunk).1 c = some y ∧
    inFlight y ≤ y.effWindow ∧
    (∀ q, (formPacket s c k control slot chunk).2 = some q → y.nextSeq = (x.nextSeq + 1) % 16777216 ∧ q.seq.toNat = x.nextSeq % 16777216) ∧
    ((formPacket s c k control slot chunk).2 = none → y.nextSeq = x.nextSeq ∧ y.unacked = x.unacked ∧
      y.waiting.length = x.waiting.length + 1)) ∧
  (∀ k, x.waiting = [] → ∃ y, getStream (takeAck s c x k).1 c = some y ∧ y.cum = x.cum ∧
    ∀ u ∈ y.unacked, ackShows (beAt k.payload 0 3) (beAt k.payload 4 8) u.seq = false) ∧
  (x.sinceAck = 0 → Runs (.ackDelayExpiry c) s fun t => t = s) ∧
  (x.sinceAck ≠ 0 → x.pair ≠ none → Runs (.ackDelayExpiry c) s fun t => ∃ y, getStream t c = some y ∧ y.sinceAck = 0 ∧
    y.ecnSeen = 0 ∧ y.cum = x.cum ∧ y.got = x.got ∧ t.slots = s.slots) ∧
  (∀ seq u, (x.unacked.find? fun w => w.seq == seq) = some u →
    (64 ≤ u.times → Runs (.rtoExpiry c seq) s fun t => t = s) ∧
    (u.times < 64 → Runs (.rtoExpiry c seq) s fun t => ∃ y w, getStream t c = some y ∧
      (y.unacked.find? fun w => w.seq == seq) = some w ∧ w.times = u.times + 1 ∧ w.pkt = u.pkt ∧ y.cum = x.cum))

/-- R122, R224, Table 6.4: a delivered packet is taken by the command of its type, once: its delivery is gone afterwards. A
packet of a quire this switch does not know is discarded and counted, and no slot changes. Conventions of the model: log 39,
41. -/
def Obligations.DeliveriesAreTakenOnce : Prop := ∀ (s : State) (h : Nat) (d : Delivery), getDeliv s h = some d → h < s.nextHandle →
  (d.pkt.ty = tContrib → Runs (.contribRx h) s fun t => Taken t h) ∧
  (d.pkt.ty = tPartial → Runs (.partialRx h) s fun t => Taken t h) ∧
  (d.pkt.ty = tCount → Runs (.countRx h) s fun t => Taken t h) ∧
  (d.pkt.ty = tResult → d.pkt.offset ≠ 0xFFFFFFFF → Runs (.resultRx h) s fun t => Taken t h) ∧
  (d.pkt.ty = tResult → d.pkt.offset = 0xFFFFFFFF → ∀ cf, Runs (.statusNoticeRx h cf) s fun t => Taken t h) ∧
  (d.pkt.ty = tAck → Runs (.ackRx h) s fun t => Taken t h) ∧
  (d.pkt.ty = tData ∨ d.pkt.ty = tTransit → Runs (.dataRx h) s fun t => Taken t h) ∧
  (d.pkt.ty ≠ tContrib → Runs (.contribRx h) s fun t => t = s) ∧
  (d.pkt.ty ≠ tPartial → Runs (.partialRx h) s fun t => t = s) ∧
  (d.pkt.ty ≠ tCount → Runs (.countRx h) s fun t => t = s) ∧
  (d.cell < 8388608 → d.die < 8 → subOfQuire s d.pkt.quire.toNat = none → contextOfPair s d.pkt = none →
    ∀ c ∈ [Instr.contribRx h, Instr.partialRx h, Instr.countRx h],
      d.pkt.ty = (match c with
        | .contribRx _ => tContrib
        | .partialRx _ => tPartial
        | _ => tCount) →
      Runs c s fun t => ctrGet t (pReduce d.die) 7 = ctrGet s (pReduce d.die) 7 + 1 ∧ t.slots = s.slots ∧ t.heldPkts = s.heldPkts)

/-- R122, R124, R131, R132, Table 6.4: what becomes of an accepted packet by its generation, and how a slot ends: a late
packet is counted, an early one held; an abort empties the slot under its code; a release advances the generation. Conventions
of the model: log 43, 66. -/
def Obligations.SlotsFollowTheirGenerations : Prop := ∀ (s : State) (i : Nat),
  (∀ n arrival j port k err, 8 ≤ genLead s k → (byGeneration s n i arrival j port k err).slots = s.slots ∧
    ctrGet (byGeneration s n i arrival j port k err) (pReduce arrival) 6 = ctrGet s (pReduce arrival) 6 + 1) ∧
  (∀ n arrival j port k err, genLead s k = 1 ∨ (genLead s k = 0 ∧ slotState s i = 1) →
    (byGeneration s n i arrival j port k err).slots = s.slots ∧
    Sparse.get (fun _ => []) (byGeneration s n i arrival j port k err).heldPkts i =
      Sparse.get (fun _ => []) s.heldPkts i ++ [(k, port, err)]) ∧
  (∀ code up x, getSlot s i = some x → x.okSent = false → slotState s i ≠ 4 →
    (getSlot (abortSlot s i code up) i = none ∨
      ∃ y, getSlot (abortSlot s i code up) i = some y ∧ y.code = code ∧ y.chunks = [] ∧ y.k = x.k) ∧
    ctrGet (abortSlot s i code up) (pReduce (i % 8)) 9 = ctrGet s (pReduce (i % 8)) 9 + 1) ∧
  (∀ code up x, getSlot s i = some x → x.okSent = true → abortSlot s i code up = s) ∧
  (∀ x, getSlot s i = some x → x.okSent = false → slotState s i ≠ 4 →
    (getSlot (rankLost s i) i = none ∨ ∃ y, getSlot (rankLost s i) i = some y ∧ y.code = 8) ∧
    ctrGet (rankLost s i) pRankXlat 1 = ctrGet s pRankXlat 1 + 1) ∧
  (∀ x, getSlot (releaseSlot s i x) i = none ∧ slotState (releaseSlot s i x) i = 1 ∧
    slotGen (releaseSlot s i x) i = (slotGen s i + 1) % 16) ∧
  (∀ x, getSlot s i = some x → x.settling = false → slotState s i ≠ 4 → Runs (.livenessExpiry i) s fun t =>
    ∃ y, getSlot t i = some y ∧ y.settling = true ∧ (x.okSent = false → y.chunks = []) ∧ t.regs = s.regs) ∧
  (∀ x, getSlot s i = some x → x.settling = false → Runs (.settlingEnd i) s fun t => t = s) ∧
  (∀ x, getSlot s i = some x → x.settling = true →
    (x.okSent = true → Runs (.settlingEnd i) s fun t => t =
      settle (releaseSlot (forgetRetained (forgetWaiting s i x.k) i x.k) i x) x.sub) ∧
    (x.okSent = false → Runs (.settlingEnd i) s fun t =>
      t = settle (abortSlot s i (if x.absent || blockAbsent s x.sub then 6 else 5) true) x.sub)) ∧
  (∀ x c, getSlot s i = some x → slotState s i = 2 ∨ slotState s i = 3 →
    Runs (.retentionFreed i c) s fun t => t = settle (rootOk (moveChunk s i x c) i) x.sub) ∧
  (∀ j k hs, getJob s (fget s (wSlot i) 15 8) = some j → j.hold = k :: hs → slotState s i = 1 → getSlot s i = none →
    slotOf s (fget s (wSlot i) 15 8) k = i → inProgress s (descOf s (fget s (wSlot i) 15 8) k).engine < 64 →
    k / slotQ s (fget s (wSlot i) 15 8) = Sparse.get (fun _ => 0) j.rounds (i - slotBase s (fget s (wSlot i) 15 8)) →
    lowerWaits s (fget s (wSlot i) 15 8) j k = false →
    Runs (.slotTake i) s fun t =>
      t = settle (takeSlot s i (fget s (wSlot i) 15 8) k j) (fget s (wSlot i) 15 8))

/-- R116, R149, R158, R159: posts and triggers. Waiting posts enter the hold queue until it is full; a trigger whose posts
find space goes on; a counter grows by what is added; arming and clearing VALID. Conventions of the model: log 44. -/
def Obligations.PostsAndTriggersGoOn : Prop := ∀ s : State,
  (∀ n j, getJob s n = some j → j.hold.length < 4096 → j.waitPosts.length ≤ 4096 → s.pendingPosts = [] →
    Runs (.holdQueueFree n) s fun t => ∃ y, getJob t n = some y ∧ (y.waitPosts = [] ∨ 4096 ≤ y.hold.length) ∧
      ∀ k, k ∈ y.hold ∨ k ∈ y.waitPosts ↔ k ∈ j.hold ∨ k ∈ j.waitPosts) ∧
  (∀ r, Sparse.get (fun _ => 0) s.pendingPosts r ≠ 0 → trigState s r = 2 → trigRearm s r = false →
    (s.pendingPosts.all fun e => e.1 == r || e.2 == 0 || trigSub s e.1 != trigSub s r) = true →
    (∀ j, getJob s (trigSub s r) = some j → j.hold.length + Sparse.get (fun _ => 0) s.pendingPosts r ≤ 4096 ∧ j.waitPosts = []) →
    Runs (.postPendingResume r) s fun t => trigState t r = 3 ∧ Sparse.get (fun _ => 0) t.pendingPosts r = 0) ∧
  (∀ r, trigState s r ≠ 2 → Runs (.postPendingResume r) s fun t => t = s) ∧
  (∀ who die amount, die < 8 → Accepts s who (pTrig die + 0x44) amount 0xFFFFFFFF →
    triggersOf s (fget s (pTrig die + 0x40) 14 0) = [] → Runs (.trigAdd who die amount) s fun t =>
      getEvCtr t (fget s (pTrig die + 0x40) 14 0) =
        getEvCtr s (fget s (pTrig die + 0x40) 14 0) + BitVec.ofNat 64 amount.toNat) ∧
  (∀ who r, r < 32768 →
    (Accepts s who (wTrig r) 0x80000000 0x80000000 → bit s (wTrig r) 31 = false → trigState s r = 0 ∨ trigState s r = 3 →
      (getEvCtr s (trigCounter s r)).toNat < trigThreshold s r → Runs (.triggerValidWrite who r true) s fun t =>
        trigState t r = 1 ∧ bit t (wTrig r) 31 = true) ∧
    (Accepts s who (wTrig r) 0 0x80000000 → bit s (wTrig r) 31 = true → Runs (.triggerValidWrite who r false) s fun t =>
      trigState t r = 0 ∧ bit t (wTrig r) 31 = false ∧ Sparse.get (fun _ => 0) t.pendingPosts r = 0))

/-- R188, R200, R201, Tables 9.9, 9.11: a job comes and goes. A load is held during BIST; an accepted load binds the job, a
refused one leaves REFUSED with its reason; an unload that has come to its end leaves nothing of the job. Conventions of the
model: log 28, 38, 58, 75. -/
def Obligations.JobsComeAndGo : Prop := ∀ (s : State) (n : Nat), n < 256 →
  (∀ who, Accepts s who (wJob n) 0x10000000 0xF0000000 →
    (s.bistRunning = true → Runs (.jobLoad who n) s fun t => jobState t n = jobState s n ∧ t.loads = s.loads ∧
      t.heldReqs = s.heldReqs ++ [.load n (whoRole s who) (whoSession who)] ∧ s.audit.nextSeq < t.audit.nextSeq) ∧
    (s.bistRunning = false → jobState s n = 0 ∨ jobState s n = 4 → Runs (.jobLoad who n) s fun t =>
      t.loads = s.loads ++ [(n, whoRole s who, whoSession who)] ∧ jobState t n = 1 ∧ s.audit.nextSeq < t.audit.nextSeq) ∧
    (s.bistRunning = false → jobState s n = 1 ∨ jobState s n = 2 ∨ jobState s n = 3 → Runs (.jobLoad who n) s fun t =>
      t.loads = s.loads ∧ jobState t n = jobState s n ∧ t.jobs = s.jobs ∧ s.audit.nextSeq < t.audit.nextSeq)) ∧
  (∀ who, Accepts s who (wJob n) 0x20000000 0xF0000000 →
    (jobState s n = 4 → Runs (.jobUnload who n) s fun t => jobState t n = 0 ∧ t.jobs = s.jobs) ∧
    (jobState s n = 1 → Runs (.jobUnload who n) s fun t => jobState t n = 1 ∧ n ∈ t.unloadHeld) ∧
    (jobState s n = 2 → Runs (.jobUnload who n) s fun t => s.audit.nextSeq < t.audit.nextSeq ∧
      ∀ y, getJob t n = some y → y.digests = [] ∧ y.sealedLens = [] ∧ y.ended = [] ∧ y.members = [])) ∧
  (∀ l perms, (s.loads.find? fun l => l.1 == n) = some l → jobState s n = 1 → waitsForTest s n = false →
    s.unloadHeld.contains n = false →
    (∀ d, loadTests (writePerms { s with loads := s.loads.filter fun e => e.1 != n } perms) n = .error d →
      Runs (.jobLoadDecided n perms) s fun t => jobState t n = 4 ∧ fget t (wJob n + 20) 15 8 = d.1 % 256 ∧ getJob t n = getJob s n ∧
        s.audit.nextSeq < t.audit.nextSeq) ∧
    (∀ i g, loadTests (writePerms { s with loads := s.loads.filter fun e => e.1 != n } perms) n = .ok (i, g) → g.triggers = [] →
      Runs (.jobLoadDecided n perms) s fun t => jobState t n = 2 ∧ s.audit.nextSeq < t.audit.nextSeq ∧
        getJob t n = some (jobNew (writePerms { s with loads := s.loads.filter fun e => e.1 != n } perms) i g))) ∧
  (∀ j, getJob s n = some j → jobState s n = 3 →
    (unloadReady s n j = true → Runs (.jobUnloadDone n) s fun t => getJob t n = none ∧ jobState t n = 0 ∧
      (∀ c ∈ j.streams, getStream t c = none) ∧ ∀ i x, getSlot t i = some x → x.sub ≠ n) ∧
    (unloadReady s n j = false → Runs (.jobUnloadDone n) s fun t => t = s))

/-- R184, R189, R190, R196: a stage runs for the earliest step it is ready for; a residue check that fails is reported; a step
that waited goes on once no stash it needs is missing; a held device runs no stage. Conventions of the model: log 8, 66, 67. -/
def Obligations.StagesRunForTheirStep : Prop := ∀ (s : State) (n g : Nat),
  (∀ check, s.faults.held = true → Runs (.stageExecute n g check) s fun t => t = s) ∧
  (∀ j, getJob s n = some j → s.faults.held = false →
    (∀ t' x, stageOf j g = some t' → (j.steps.find? fun x => stageReady s n j g t' x) = some x → t'.ty ≠ 0x12 →
      (∀ check, Runs (.stageExecute n g check) s fun t => t = settle (runStage s n g j x t' check) n) ∧
      (∀ tile element press, t'.ty ≠ 1 → inputTooLong j g t' (inputOf x g 0) (inputOf x g 1) = false →
        operandPoisoned (setJob s n (some j)) j t' (inputOf x g 0) = false → malformedInput j t' (inputOf x g 0) = false →
        Runs (.stageExecute n g (.residue tile element press)) s fun t =>
          Reports s t (mkFault 0xF1 tile (if press then 2 else 1) 1 (g * 4294967296 + element) n 0))) ∧
    (∀ t' x check, stageOf j g = some t' → (j.steps.find? fun x => stageReady s n j g t' x) = some x → t'.ty = 0x12 →
      sealFull s (Nat.max 1 (ceilDiv (sealBytesOf s n j g t' (inputOf x g 0)).length 65536)) = true →
      Runs (.stageExecute n g check) s fun t => ∃ y, getJob t n = some y ∧ y.sealWaiting = true ∧ y.steps = j.steps ∧ y.staging = j.staging) ∧
    (∀ t' check, stageOf j g = some t' → (∀ x ∈ j.steps, stageReady s n j g t' x = false) →
      Runs (.stageExecute n g check) s fun t => t = s) ∧
    Runs (.stepForwardResume n) s (fun t => ∃ y, getJob t n = some y ∧ y.steps.length = j.steps.length ∧
      ∀ x ∈ y.steps, x.waits = true → mustWait y x.s = true))

/-- R214, R215, R218 to R220: digests, records and batches of seals. Conventions of the model: log 6, 70. -/
def Obligations.SealsAreSignedInBatches : Prop := ∀ (s : State) (n : Nat),
  (∀ p c, 8388608 ≤ digestsHeld s → Runs (.chunkDigest n p c) s fun t => t = s) ∧
  (∀ j p st bs, getJob s n = some j → j.digests = [] → j.sealedLens = [(p, st, bs.length)] → j.staging = [(p, st, 0, bs)] →
    0 < bs.length → bs.length ≤ 65536 → digestsHeld s < 8388608 → Runs (.chunkDigest n p 0) s fun t =>
      t = trySeal (setJob s n (some { j with digests := [(p, st, 0, shake256 bs 32)], staging := [] })) n st) ∧
  (∀ j, getJob s n = some j → j.sealWaiting = true →
    (sealFull s 1 = true → Runs (.sealSpaceFreed n) s fun t => t = s) ∧
    (sealFull s 1 = false → j.sealedLens = [] → (s.slots.all fun e => e.2.all fun x => x.sub != n) = true →
      Runs (.sealSpaceFreed n) s fun t =>
        t = settle (ctrAdd (setJob s n (some { j with sealWaiting := false })) pSeal 2 ((s.uptime - j.sealSince) / 1000)) n)) ∧
  (∀ who, n < 256 → Accepts s who (wSeal n) 0x10000000 0xF0000000 →
    (getJob s n = none → Runs (.signBatch who n) s fun t =>
      fget t (wSeal n + 20) 2 0 = 3 ∧ fget t (wSeal n + 20) 15 8 = 1 ∧ t.batch = s.batch) ∧
    (getJob s n ≠ none → rdPair s (wSeal n + 4) ≤ rdPair s (wSeal n + 12) → s.seals.length ≤ 65536 →
      (∀ r ∈ s.seals, r.poisoned = false) → stepsIncomplete s n (rdPair s (wSeal n + 4)) (rdPair s (wSeal n + 12)) = false →
      s.batch = none → Runs (.signBatch who n) s fun t => ∃ b, t.batch = some b ∧ b.sub = n ∧ b.number = s.fuses.batches ∧
        b.first = rdPair s (wSeal n + 4) ∧ b.last = rdPair s (wSeal n + 12) ∧ t.fuses.batches = s.fuses.batches + 1 ∧
        fget t (wSeal n + 20) 2 0 = 1 ∧
        ∀ r ∈ t.seals, r.sub = n → b.first ≤ r.step → r.step ≤ b.last → r.signed = some b.number)) ∧
  (∀ b, s.batch = some b → b.sub < 256 → Runs .batchSigned s fun t => t.batch = none ∧ fget t (wSeal b.sub + 20) 2 0 = 2 ∧
    ∃ c, (t.lastBatch.find? fun x => x.sub == b.sub) = some c ∧ c.number = b.number ∧ c.statement = b.statement) ∧
  (∀ who, n < 256 → Accepts s who (wSeal n) 0x20000000 0xF0000000 →
    (∀ b, (s.lastBatch.find? fun b => b.sub == n) = some b → Runs (.releaseBatch who n) s fun t =>
      (∀ r, r ∈ t.seals ↔ r ∈ s.seals ∧ ¬(r.sub = n ∧ r.signed = some b.number)) ∧ (t.lastBatch.find? fun b => b.sub == n) = none) ∧
    ((s.lastBatch.find? fun b => b.sub == n) = none → Runs (.releaseBatch who n) s fun t => t.seals = s.seals))

/-- R285, R293, R295 to R299, Table 14.1: scrubbing, refresh and retirement. A corrected word is counted and reported as a
corrected error; an uncorrectable word of frame memory is poisoned; CLEAR empties the entries that no job holds. Conventions
of the model: log 4, 8. -/
def Obligations.MemoriesAreScrubbed : Prop := ∀ s : State,
  (∀ d address, d < 8 → address + 32 < 3221225472 →
    (Runs (.scrubStep (.stack d) address .clean false) s fun t => t = s) ∧
    (Runs (.scrubStep (.stack d) address .corrected false) s fun t => ctrGet t (pStackMem d) 3 = ctrGet s (pStackMem d) 3 + 1 ∧
      Reports s t (mkFault 0x2C d 0x15 0 address 0xFF 0) ∧ t.mem = s.mem) ∧
    (∀ good, s.jobs = [] → Runs (.scrubStep (.stack d) address (.uncorrectable good .nothing) false) s fun t =>
      (stackBase d + address) / 32 ∈ t.memSt.poison ∧ ctrGet t (pStackMem d) 4 = ctrGet s (pStackMem d) 4 + 1 ∧
      Reports s t (mkFault 0x2C d 0x16 1 (address / 262144) 0xFF 0))) ∧
  (∀ die part address, die < 8 → part < 4 → address < sramBytes part → Runs (.scrubStep (.sram die part) address .corrected true) s
    fun t => ctrGet t (pStackMem die) 0 = ctrGet s (pStackMem die) 0 + 1 ∧ ctrGet t (pStackMem die) 6 = ctrGet s (pStackMem die) 6 + 1 ∧
      Reports s t (mkFault 0x2C die 0x10 0 address 0xFF 0)) ∧
  (∀ j address good, j < 4 → address < groupBytes s j → s.jobs = [] →
    Runs (.scrubStep (.lpddr j) address (.uncorrectable good .nothing) false) s fun t =>
      (lpddrBase j + address) / 32 ∈ t.memSt.poison) ∧
  (∀ stack vault hot, stack < 8 → vault < 64 → Runs (.dramRefresh stack vault hot) s fun t =>
    bit t (pStackMem stack + 0x48) 0 = hot ∧ ∀ a, a ≠ pStackMem stack + 0x48 → rd t a = rd s a) ∧
  (∀ channel temp, channel < 32 → bit s (pLpddr channel + 0x40) 31 = true →
    (Runs (.lpddrRefresh channel temp) s fun t => fget t (pLpddr channel + 0x40) 23 16 = temp % 256 ∧ t.ctrs = s.ctrs) ∧
    (Runs (.lpddrRetrain channel temp) s fun t => fget t (pLpddr channel + 0x40) 23 16 = temp % 256 ∧
      ctrGet t (pLpddr channel) 2 = ctrGet s (pLpddr channel) 2 + 1)) ∧
  (∀ who unit i, i < 256 →
    (unit < 8 ∧ Accepts s who (pStackMem unit + 0x4C) 1 1) ∨
      (8 ≤ unit ∧ unit < 12 ∧ Accepts s who (pLpddr 32 + 0x4C) ([1, 2, 4, 8].getD (unit - 8) 0) ([1, 2, 4, 8].getD (unit - 8) 0)) →
    (bit s (retireEntry unit i) 31 = true → bit s (retireEntry unit i) 30 = false → Runs (.retireClear who unit) s fun t =>
      rd t (retireEntry unit i) = 0) ∧
    (bit s (retireEntry unit i) 30 = true → Runs (.retireClear who unit) s fun t =>
      rd t (retireEntry unit i) = rd s (retireEntry unit i)))

/-- R391, R394, R395: the copies of a swath. A marker is taken once, from a unit that has started; a unit that has taken all
its markers stamps its pages with the swath's number; the last marker ends the swath. Conventions of the model: log 34. -/
def Obligations.SwathMarkersComplete : Prop := ∀ (s : State) (u c : Nat),
  (s.swath = none → Runs (.swathMarkerRx u c) s fun t => t = s) ∧
  (∀ x, s.swath = some x → (u, c) ∈ x.left → channelSource u c ∈ x.started →
    (∀ e ∈ x.left, e = (u, c)) → Runs (.swathMarkerRx u c) s fun t => t.swath = none ∧ fget t (pSwath + 0x44) 2 0 = 2 ∧
      bit t (pSwath + 0x10) 8 = true) ∧
  (∀ x, s.swath = some x → (u, c) ∈ x.left → channelSource u c ∈ x.started → (∃ e ∈ x.left, e ≠ (u, c)) →
    Runs (.swathMarkerRx u c) s fun t => ∃ y, t.swath = some y ∧ y.seq = x.seq ∧ (u, c) ∉ y.left ∧ u ∈ y.started ∧
      (∀ e, e ∈ y.left ↔ e ∈ x.left ∧ e ≠ (u, c))) ∧
  (∀ x a, s.swath = some x → (u, c) ∈ x.left → channelSource u c ∈ x.started → (∀ e ∈ x.left, e.1 = u → e = (u, c)) →
    a ∈ pagesOf u → Runs (.swathMarkerRx u c) s fun t =>
      rd t (a + 0x24) = BitVec.ofNat 32 ((if x.broken.contains a then 2147483648 else 0) + x.seq)) ∧
  (∀ x, s.swath = some x → channelSource u c ∉ x.started → Runs (.swathMarkerRx u c) s fun t => t = s)

/-- R312, R400: each command that is one register write is that write: it leaves what `REGISTER_WRITE` of its word leaves.
Conventions of the model: log 2. -/
def Obligations.RowsAreRegisterWrites : Prop := ∀ (s : State) (c : Instr) who a v m, writeOf c = some (who, a, v, m) →
  exec c s = exec (.registerWrite who (BitVec.ofNat 32 a) v m) s

/-- R312, R400, R401: a plain write that is accepted leaves the merged word and no other register changed, by its own command
and by REGISTER_WRITE alike; a write that is refused leaves its word. Neither touches the parts of the device that no register
shows, but for the note that a page's LOCK has been written. -/
def Obligations.PlainWritesMergeTheirFields : Prop := ∀ (s : State) (c : Instr) who a v m, writeOf c = some (who, a, v, m) →
  plainWrite c = true →
  (Accepts s who a v m →
    Runs c s (fun t => rd t a = mergeWord a (rd s a) v m ∧ ∀ b, b ≠ a → rd t b = rd s b) ∧
    Runs (.registerWrite who (BitVec.ofNat 32 a) v m) s fun t => rd t a = mergeWord a (rd s a) v m ∧ ∀ b, b ≠ a → rd t b = rd s b) ∧
  (mayWrite s who = true → writeStatus s who a v m = 2 → a % 4096 ≠ 16 → Runs c s fun t => rd t a = rd s a) ∧
  (∀ t, exec c s = .next t → ∀ p ∈ [Part.memory, .clock, .phase, .ports, .lanes, .stitches, .cells, .queues, .deliveries, .gates,
    .streams, .slots, .seals, .flash, .fuses, .faults, .swaths, .timeSync, .reach, .firmware], p.same s t) ∧
  (∀ t, exec c s = .next t → t.hostSt = { s.hostSt with lockWritten := t.hostSt.lockWritten } ∧
    ((∀ w page, c ≠ .pageLock w page) → t.hostSt = s.hostSt))

/-- R400, R404, R405: a page's LOCK is written once, which PAGE_LOCK does; on a locked page every write by a session of a field that
the installer may write and the operator may not is refused with CFG_REFUSED and leaves its word. Conventions of the model: log
103. -/
def Obligations.LocksHold : Prop := ∀ (s : State) (who : Requester) (page : Nat) (k : PageKind), pageOf page = some (k, page) →
  (Accepts s who (page + 0x20) 1 1 → Runs (.pageLock who page) s fun t =>
    bit t (page + 0x20) 0 = true ∧ page ∈ t.hostSt.lockWritten) ∧
  (mayWrite s who = true → page ∈ s.hostSt.lockWritten → ∀ v m : Word, m.getLsbD 0 = true →
    Runs (.registerWrite who (BitVec.ofNat 32 (page + 0x20)) v m) s fun t => rd t (page + 0x20) = rd s (page + 0x20)) ∧
  (∀ i a v m, mayWrite s (.session i) = true → bit s (page + 0x20) 0 = true → pageOf a = some (k, page) → a % 4 = 0 →
    rightsFail s (.session i) a m = false → (∃ f ∈ touched a m, f.i = true ∧ f.o = false) →
    Runs (.registerWrite (.session i) (BitVec.ofNat 32 a) v m) s fun t =>
      rd t a = rd s a ∧ (k.ty ≠ 0x12 → bit t (page + 0x10) 0 = true))

/-- R310, R312, R400, R404, R409: a write that is refused changes no register but the CFG_REFUSED bit of a page's events, and
no job, memory or fuse; one that cannot be made changes nothing. Conventions of the model: log 29. -/
def Obligations.RefusedWritesChangeNothing : Prop := ∀ (s : State) (who : Requester) (a v m : Word),
  (mayWrite s who = false → Runs (.registerWrite who a v m) s fun t => t = s) ∧
  (mayWrite s who = true → writeStatus s who a.toNat v m ≠ 0 → Runs (.registerWrite who a v m) s fun t =>
    (∀ b, b % 4096 ≠ 16 → rd t b = rd s b) ∧ t.jobs = s.jobs ∧ t.mem = s.mem ∧ t.fuses = s.fuses ∧ t.ports = s.ports ∧
    (writeStatus s who a.toNat v m ≠ 2 → t.regs = s.regs) ∧ (2 < writeStatus s who a.toNat v m → t = s)) ∧
  (mayWrite s who = true → rightsFail s who a.toNat m = true → a.toNat ≤ 0x03FFFFFF → a.toNat % 4 = 0 → mapped a.toNat = true →
    writeStatus s who a.toNat v m = 1)

/-- R400, Table 20.3, bit by bit: a read-write bit takes the written value where it is masked, a write-1-to-clear bit falls
where it is written 1, every other bit stays. -/
def Obligations.AccessTypesBehave : Prop := ∀ (a : Nat) (old v m : Word) (b : Nat), b < 32 → a < wRank ∨ wRank + 524288 ≤ a →
  (∀ f ∈ fieldsAt a, f.mask.getLsbD b = true → ∀ g ∈ fieldsAt a, g.mask.getLsbD b = true → g = f) →
  (∀ f ∈ fieldsAt a, f.mask.getLsbD b = true → f.acc = .rw ∨ f.acc = .rwl →
    (mergeWord a old v m).getLsbD b = (if m.getLsbD b then v.getLsbD b else old.getLsbD b)) ∧
  (∀ f ∈ fieldsAt a, f.mask.getLsbD b = true → f.acc = .w1c →
    (mergeWord a old v m).getLsbD b = (old.getLsbD b && !(m.getLsbD b && v.getLsbD b))) ∧
  (∀ f ∈ fieldsAt a, f.mask.getLsbD b = true → f.acc = .wo → (mergeWord a old v m).getLsbD b = old.getLsbD b) ∧
  ((∀ f ∈ fieldsAt a, f.mask.getLsbD b = false) → (mergeWord a old v m).getLsbD b = old.getLsbD b)

/-- R43. The device refuses a GLB_FABRIC_EPOCH write whose value is not greater than the current value, and raises
CFG_REFUSED. An accepted write is recorded in the audit log and kept in the persistent-settings log. A change of epoch does
not affect jobs already loaded: their state, slots, streams and memory are as before. -/
def Obligations.FabricEpochOnlyRises : Prop := ∀ (s : State) (who : Requester) (value : Word), mayWrite s who = true →
  rightsFail s who (pGlb + 0x50) 0xFFFFFFFF = false →
  (value.toNat ≤ (rd s (pGlb + 0x50)).toNat → Runs (.fabricEpochWrite who value) s fun t =>
    rd t (pGlb + 0x50) = rd s (pGlb + 0x50) ∧ bit t (pGlb + 0x10) 0 = true) ∧
  ((rd s (pGlb + 0x50)).toNat < value.toNat → recordBlocked s who (pGlb + 0x50) value 0xFFFFFFFF = false →
    lockRefuses s who (pGlb + 0x50) 0xFFFFFFFF = false → Runs (.fabricEpochWrite who value) s fun t =>
      rd t (pGlb + 0x50) = value ∧
      (∃ l r, t.audit.staged = s.audit.staged ++ l ++ [(r, [⟨pGlb + 0x50, value, 0xFFFFFFFF⟩])] ∧ r.kind = 5) ∧
      t.jobs = s.jobs ∧ t.slots = s.slots ∧ t.streams = s.streams ∧ t.mem = s.mem) ∧
  (∀ r rest, s.audit.staged = (r, [⟨pGlb + 0x50, value, 0xFFFFFFFF⟩]) :: rest → s.flash.present = true → live s = true →
    bankUse (s.flash.settings ++ [mkTxn (match s.flash.settings.getLast? with
      | some x => x.number + 1
      | none => 1) [⟨pGlb + 0x50, value, 0xFFFFFFFF⟩]]) ≤ 131072 →
    Runs .auditRecordProgram s fun t => ∃ x, t.flash.settings = s.flash.settings ++ [x] ∧ x.committed = true ∧
      x.entries = [⟨pGlb + 0x50, value, 0xFFFFFFFF⟩])

/-- R390. A write of SWATH_CMD.SEQ launches a swath. The device refuses the write with CFG_REFUSED where SEQ is 0, equals the
SEQ of the last swath launched, or a swath is RUNNING; of two launches in a row the second is refused. Conventions of the
model: log 2. -/
def Obligations.SwathsLaunchOneAtATime : Prop := ∀ (s : State) (who : Requester) (seq : BitVec 16), mayWrite s who = true →
  rightsFail s who (pSwath + 0x40) 0xFFFF = false →
  (seq = 0 ∨ seq.toNat = fget s (pSwath + 0x44) 31 16 ∨ s.swath ≠ none → Runs (.swathLaunch who seq) s fun t =>
    t.swath = s.swath ∧ bit t (pSwath + 0x10) 0 = true ∧ rd t (pSwath + 0x44) = rd s (pSwath + 0x44)) ∧
  (seq ≠ 0 → seq.toNat ≠ fget s (pSwath + 0x44) 31 16 → s.swath = none → s.swathWait = none → fallow s = false →
    s.faults.held = false → recordBlocked s who (pSwath + 0x40) (BitVec.ofNat 32 seq.toNat) 0xFFFF = false →
    lockRefuses s who (pSwath + 0x40) 0xFFFF = false → Runs (.swathLaunch who seq) s fun t =>
      (∃ x, t.swath = some x ∧ x.seq = seq.toNat ∧ x.started = [0]) ∧ fget t (pSwath + 0x44) 31 16 = seq.toNat ∧
      fget t (pSwath + 0x44) 2 0 = 1 ∧ ctrGet t pSwath 0 = ctrGet s pSwath 0 + 1 ∧
      ∀ who' (seq' : BitVec 16), mayWrite t who' = true → rightsFail t who' (pSwath + 0x40) 0xFFFF = false →
        Runs (.swathLaunch who' seq') t fun u => u.swath = t.swath ∧ bit u (pSwath + 0x10) 0 = true)

/-- R18. Traffic between two compute dies first travels along the source row's ring and then takes one column crossing. The row
distance is the shorter way round. Where both ways have length 2, the traffic travels in increasing column order, modulo 4. No path
uses more than three die-to-die crossings. -/
def Obligations.PathsTakeTheShorterWay : Prop := ∀ a b, a < 8 → b < 8 →
  (crossPath a b).length = Nat.min ((b % 4 + 4 - a % 4) % 4) ((a % 4 + 4 - b % 4) % 4) + (if a / 4 = b / 4 then 0 else 1) ∧
  (crossPath a b).length ≤ 3 ∧ (crossPath a b).getLastD a = b ∧
  (∀ e ∈ (a :: crossPath a b).zip (crossPath a b),
    (e.1 / 4 = e.2 / 4 ∧ (e.2 % 4 = (e.1 % 4 + 1) % 4 ∨ e.1 % 4 = (e.2 % 4 + 1) % 4)) ∨
      (e.1 % 4 = e.2 % 4 ∧ e.1 / 4 ≠ e.2 / 4 ∧ e.2 = b)) ∧
  ((b % 4 + 4 - a % 4) % 4 = 2 → (crossPath a b).head? = some (a / 4 * 4 + (a % 4 + 1) % 4))

/-- R18, R19: an item on a channel of the crossings is carried once by each crossing of its path, and on no other; it is then in the
hand of the die it goes to, by the channel of its last crossing. Conventions of the model: log 34, 79. -/
def Obligations.ItemsCrossTheDies : Prop := ∀ (s : State) (a b ch : Nat), a < 8 → b < 8 → ch < 4 → s.swath = none →
  (a = b → (cross s a b ch).hand = none) ∧
  (a ≠ b → ∃ d, d ∈ a :: crossPath a b ∧ (cross s a b ch).hand = some (1 + b, inChannel (1 + d) (1 + b) ch) ∧
    channelSource (1 + b) (inChannel (1 + d) (1 + b) ch) = 1 + d) ∧
  (∀ u v k, u < 9 → v < 9 → Sparse.get (fun _ => 0) (getCross (cross s a b ch) u v).carried k =
    Sparse.get (fun _ => 0) (getCross s u v).carried k +
      (if k = ch ∧ (∃ e ∈ (a :: crossPath a b).zip (crossPath a b), u = 1 + e.1 ∧ v = 1 + e.2) then 1 else 0)) ∧
  (cross s a b ch).regs = s.regs ∧ (cross s a b ch).ctrs = s.ctrs ∧ (cross s a b ch).cells = s.cells

/-- R387, R392: a counter grows by what is added to it and no other changes; the advance belongs to the part of the input channel
whose item is in the hand of the counter's unit, and to the internal part otherwise; a swath's copy takes a channel's part when the
marker arrives on it. Conventions of the model: log 34. -/
def Obligations.CountersKeepTheirParts : Prop := ∀ (s : State) (page i n : Nat),
  ctrGet (ctrAdd s page i n) page i = ctrGet s page i + BitVec.ofNat 64 n ∧
  (∀ q j, q + 8 * j ≠ page + 8 * i → ctrGet (ctrAdd s page i n) q j = ctrGet s q j) ∧
  (s.hand = none → (ctrAdd s page i n).parts = s.parts) ∧
  (∀ u c, s.hand = some (u, c) → unitOfPage page ≠ u → (ctrAdd s page i n).parts = s.parts) ∧
  (∀ u c, s.hand = some (u, c) → unitOfPage page = u → ∀ p, Sparse.get (fun _ => 0) (ctrAdd s page i n).parts p =
    Sparse.get (fun _ => 0) s.parts p + (if p = 64 * (page + 0x800 + 8 * i) + c then BitVec.ofNat 64 n else 0)) ∧
  (∀ x u c, c < 64 → Sparse.wf (fun _ => 0) s.parts = true → x.started.contains u = true → page ∈ pagesOf u → i < 128 →
    (∃ e ∈ x.left, e ≠ (u, c)) → ∃ y, (takeMarker s x u c).swath = some y ∧ (u, c) ∉ y.left ∧
      Sparse.get (fun _ => 0) y.cut (page + 0x800 + 8 * i) = Sparse.get (fun _ => 0) x.cut (page + 0x800 + 8 * i) +
        Sparse.get (fun _ => 0) s.parts (64 * (page + 0x800 + 8 * i) + c))

/-- R16, R256, R259, R366: while no command waits the timebase counts one nanosecond a cycle, 20 ns in FALLBACK, with at most one
nanosecond of slew; every follower stands within 2 ns of every other and of the count; a reset realigns them and starts the count at 0.
Conventions of the model: log 1, 77. -/
def Obligations.TimePasses : Prop := ∀ s : State, s.pending = [] →
  (live s = false → step s = .next s) ∧
  (live s = true → ∃ t, step s = .next t ∧
    let n := if freeRunning s then 20 else 1
    let now := (s.time + n) % 18446744073709551616
    t.uptime = s.uptime + n ∧ (s.timeSt.slewLeft = 0 → t.time = now) ∧ t.time ≤ now + 1 ∧ now ≤ t.time + 1 ∧ t.regs = s.regs ∧
      t.align = s.align) ∧
  (∀ d e, dieTime s d ≤ dieTime s e + 2 ∧ s.time ≤ dieTime s d ∧ dieTime s d ≤ s.time + 2) ∧
  (∀ m b, Runs (.powerOn m b) s fun t => t.time = 0 ∧ t.align.isSome = true)

/-- R163, R311: a READ32 of the first word of an event counter takes the second word with it: the session's next read of that word
answers what it held then, whatever the counter has become. -/
def Obligations.PairsReadAtomically : Prop := ∀ (s : State) (sid : Nat) (x : Session) (c amt : Nat), c < 32768 →
  (readWord s sid x (wEvCtr c)).1 = 0 →
  let r := readOne s sid x (wEvCtr c)
  r.1 = (0, (getEvCtr s c).extractLsb' 32 32) ∧ r.2.evCtrs = s.evCtrs ∧ r.2.regs = s.regs ∧
  (advanceCounter r.2 c amt).latches = r.2.latches ∧
  ∀ (t : State) (y : Session), t.latches = r.2.latches → (readWord t sid y (wEvCtr c + 4)).1 = 0 →
    (readOne t sid y (wEvCtr c + 4)).1 = (0, (getEvCtr s c).extractLsb' 0 32)

/-- R411, R424, R425: every lane contact stands on a populated position of the grid, and no two share one. -/
def Obligations.LaneContactsAreDistinct : Prop :=
  (∀ l x, l < 772 → populated (laneContact l x) = true) ∧
  (∀ l m x y, l < 772 → m < 772 → laneContact l x = laneContact m y → l = m ∧ x = y)

/-- R32, R41: an accepted GLB_COORD moves the switch, and its own bit of the reachability map with it. -/
def Obligations.CoordinatesMoveTheSwitch : Prop := ∀ (s : State) (who : Requester) (v m : Word), Accepts s who (pGlb + 0x48) v m →
  Runs (.glbCoordWrite who v m) s fun t => rd t (pGlb + 0x48) = mergeWord (pGlb + 0x48) (rd s (pGlb + 0x48)) v m ∧
    reachable t (ownIndex t) = true ∧ t.swath = s.swath

/-- R101, Table 5.2. A rick carries V, the flags NAN, PINF, NINF and NEGZ, and COUNT; an empty rick has V = 0, NAN = PINF =
NINF = 0, NEGZ = 1 and COUNT = 0. In a merge the flags NAN, PINF and NINF are the OR, NEGZ the AND, COUNT the sum. -/
def Obligations.RicksCarryTheirSideFields : Prop :=
  rickEmpty.v = 0 ∧ rickEmpty.nan = false ∧ rickEmpty.pinf = false ∧ rickEmpty.ninf = false ∧ rickEmpty.negz = true ∧
  rickEmpty.count = 0 ∧
  (∀ a b : Rick, (rickMerge a b).nan = (a.nan || b.nan) ∧ (rickMerge a b).pinf = (a.pinf || b.pinf) ∧
    (rickMerge a b).ninf = (a.ninf || b.ninf) ∧ (rickMerge a b).negz = (a.negz && b.negz) ∧
    (rickMerge a b).count = a.count + b.count) ∧
  ∀ a b : Rick, a.special = false → b.special = false → (rickMerge a b).v = a.v + b.v

/-- R103: a rick's content depends only on the set of what was added, not on its order or grouping; while a special flag is
set V is 0. -/
def Obligations.RicksDependOnlyOnTheSet : Prop :=
  (∀ a b : Rick, rickMerge a b = rickMerge b a) ∧
  (∀ a b c : Rick, rickMerge (rickMerge a b) c = rickMerge a (rickMerge b c)) ∧
  (∀ a b : Rick, (rickMerge a b).special = true → (rickMerge a b).v = 0) ∧
  (∀ (r : Rick) code (xs ys : List Nat), xs.Perm ys → rickSum r code xs = rickSum r code ys) ∧
  (∀ code (xs ys : List Nat), rickSum rickEmpty code (xs ++ ys) = rickMerge (rickSum rickEmpty code xs) (rickSum rickEmpty code ys))

/-- R105 to R107, R109, R110, Tables 5.4, 5.6: a rick whose invariants hold reads back from its folded form where it folds,
and from its full form always. -/
def Obligations.RicksReadBack : Prop := ∀ r : Rick, signInvariant r.v = true →
  (folds r.v = true → (r.nan = true ∨ r.pinf = true ∨ r.ninf = true ∨ r.negz = true → r.v = 0) →
    unfold? (foldBytes r) r.count = some r) ∧
  (∀ e, r.count ≤ 2147483648 → e < 65536 → readFull? (fullForm r e) = some (r, e)) ∧
  (foldBytes r).length = 20 ∧ (∀ e, (fullForm r e).length = 48)

/-- R78. Two 4-bit elements share one byte. Element 2j occupies bits [3:0] of byte j, and element 2j + 1 occupies bits [7:4].
A vector with an odd number of 4-bit elements ends in a byte whose high nibble is padding. The device writes padding nibbles
as 0x0 and never reads them as operands. -/
def Obligations.NibblesShareBytes : Prop := ∀ code, fmtBits code = 4 →
  (∀ xs i, i < xs.length →
    ((packElems code xs).getD (i / 2) 0).toNat / (if i % 2 = 0 then 1 else 16) % 16 = xs.getD i 0 % 16) ∧
  (∀ xs, (packElems code xs).length = (xs.length + 1) / 2) ∧
  (∀ xs, xs.length % 2 = 1 → ((packElems code xs).getD (xs.length / 2) 0).toNat / 16 = 0) ∧
  (∀ bs i, elemAt code bs i = (bs.getD (i / 2) 0).toNat / (if i % 2 = 0 then 1 else 16) % 16) ∧
  (∀ bs b n, n % 2 = 1 → b.toNat % 16 = (bs.getD (n / 2) 0).toNat % 16 → elems code (bs.set (n / 2) b) n = elems code bs n)

/-- R47, Table 3.2: a packet reads back from the bytes it is sent as: no field is dropped or moved. -/
def Obligations.PacketsReadBack : Prop := ∀ p : Pkt, decodePkt (encodePkt p) = some p ∧
  (encodePkt p).length = 36 + p.payload.length

/-- R56 to R58, R235: what the mutable fields of a packet cover: a seal verifies, and a change of DL, ECN or HOPS with HCRC
regenerated leaves the trailer good. -/
def Obligations.MutableFieldsSpareTheTrailer : Prop := ∀ (p : Pkt) (dl ecn : Bool) (hops : BitVec 8),
  trailerOk (sealPkt p) = true ∧ (sealPkt p).hcrc = hcrcOf (sealPkt p) ∧
  (trailerOk p = true → trailerOk (withHcrc { p with dl := dl, ecn := ecn, hops := hops }) = true ∧
    (withHcrc { p with dl := dl, ecn := ecn, hops := hops }).hcrc = hcrcOf (withHcrc { p with dl := dl, ecn := ecn, hops := hops }))

/-- A step takes the command at the front of the queue and runs it with the queue's rest; on an empty queue the device idles
for one cycle of the timebase (log 1, log 2). -/
def Obligations.StepRunsTheFrontCommand : Prop := ∀ (s : State) (c : Instr) (cs : List Instr),
  step { s with pending := c :: cs } = exec c { s with pending := cs } ∧ step { s with pending := [] } = .next (tick { s with pending := [] })

/-- No command reaches the queue of those that wait behind it. Conventions of the model: log 2. -/
def Obligations.CommandsLeaveTheQueue : Prop := ∀ (s t : State) (c : Instr), exec c s = .next t → t.pending = s.pending

/-- Every command completes in every state, but for one that names memory the device does not have, which faults. Conventions
of the model: log 2. -/
def Obligations.CommandsComplete : Prop := ∀ (s : State) (c : Instr),
  (memoryHole c s = false → ∃ t, exec c s = .next t) ∧ (memoryHole c s = true → exec c s = .fault .memoryHole)

/-- Every step keeps the tables of registers, counters and memory in their canonical form. Conventions of the model: log 4. -/
def Obligations.StepsKeepTheTablesCanonical : Prop := ∀ s t : State, Canonical s → step s = .next t → Canonical t

/-- The tables are canonical at reset, and nothing waits. Conventions of the model: log 2, 3, 4. -/
def Obligations.ResetIsCanonical : Prop := Canonical State.reset ∧ State.reset.pending = []

/-- R329, R334: no step lowers the one-time counters of the fuses: unlocks, rollback level. -/
def Obligations.FusesNeverFall : Prop := ∀ s t : State, step s = .next t → FusesGrow s t

/-- R224, R354, R358: until a reset, what has been sent stays sent, no delivery is taken twice, reports stay in order, and a
muted device stays mute. Conventions of the model: log 9. -/
def Obligations.WhatHappenedStays : Prop := ∀ (s t : State) (c : Instr), mayReset c = false → exec c s = .next t → Grows s t

/-- The frame of every command: it changes no part of the state but those `touches` lists for it. -/
def Obligations.CommandsTouchOnlyTheirParts : Prop := ∀ (s t : State) (c : Instr), exec c s = .next t →
  ∀ p, p ∉ touches c → p.same s t
end

