-- ==== Sys2Proof/Laws/Sparse.lean ====
section
/-! SUPPORT. Laws of the sparse tables: read after write, and the canonical form under every operation. -/
namespace Sys2Proof.Machine

theorem Sparse.get_erase {α : Type} (d : Nat → α) (m : Sparse α) (k j : Nat) :
    Sparse.get d (Sparse.erase m k) j = if j = k then d k else Sparse.get d m j := by
  induction m with
  | nil => by_cases h : j = k <;> simp [Sparse.erase, Sparse.get, h]
  | cons e m ih =>
    obtain ⟨i, v⟩ := e
    by_cases hi : i = k
    · subst hi
      by_cases hj : j = i
      · subst hj; simp [Sparse.erase, ih]
      · simp [Sparse.erase, Sparse.get, ih, hj, Ne.symm hj]
    · by_cases hj : j = k
      · subst hj
        simp [Sparse.erase, Sparse.get, ih, hi]
      · simp [Sparse.erase, Sparse.get, ih, hi, hj]

theorem Sparse.get_insert {α : Type} (d : Nat → α) (m : Sparse α) (k j : Nat) (v : α)
    (h : ∀ e ∈ m, e.1 ≠ k) : Sparse.get d (Sparse.insert m k v) j = if j = k then v else Sparse.get d m j := by
  induction m with
  | nil =>
    by_cases hj : j = k
    · simp [Sparse.insert, Sparse.get, hj]
    · simp [Sparse.insert, Sparse.get, hj, Ne.symm hj]
  | cons e m ih =>
    obtain ⟨i, w⟩ := e
    have hi : i ≠ k := h (i, w) (by simp)
    have ih := ih fun e he => h e (by simp [he])
    by_cases hk : k < i
    · by_cases hj : j = k
      · simp [Sparse.insert, Sparse.get, hk, hj]
      · simp [Sparse.insert, Sparse.get, hk, hj, Ne.symm hj]
    · by_cases hj : j = k
      · subst hj
        simp [Sparse.insert, Sparse.get, hk, hi, ih]
      · simp [Sparse.insert, Sparse.get, hk, ih, hj]

theorem Sparse.mem_erase {α : Type} (m : Sparse α) (k : Nat) (e : Nat × α) :
    e ∈ Sparse.erase m k ↔ e ∈ m ∧ e.1 ≠ k := by
  induction m with
  | nil => simp [Sparse.erase]
  | cons f m ih =>
    obtain ⟨i, v⟩ := f
    by_cases hi : i = k
    · subst hi
      simp only [Sparse.erase, if_true, ih, List.mem_cons]
      refine ⟨fun h => ⟨.inr h.1, h.2⟩, fun h => ⟨?_, h.2⟩⟩
      rcases h.1 with h1 | h1
      · exact absurd (by rw [h1]) h.2
      · exact h1
    · simp only [Sparse.erase, if_neg hi, List.mem_cons, ih]
      refine ⟨?_, ?_⟩
      · rintro (h | h)
        · exact ⟨.inl h, by rw [h]; exact hi⟩
        · exact ⟨.inr h.1, h.2⟩
      · rintro ⟨h | h, h2⟩
        · exact .inl h
        · exact .inr ⟨h, h2⟩

/-- A read after a write: the key written holds the value, every other key what it held. -/
theorem Sparse.get_set {α : Type} [DecidableEq α] (d : Nat → α) (m : Sparse α) (k j : Nat) (v : α) :
    Sparse.get d (Sparse.set d m k v) j = if j = k then v else Sparse.get d m j := by
  by_cases hv : v = d k
  · simp only [Sparse.set, if_pos hv, Sparse.get_erase]
    by_cases hj : j = k <;> simp [hj, hv]
  · have h : ∀ e ∈ Sparse.erase m k, e.1 ≠ k := fun e he => ((Sparse.mem_erase m k e).1 he).2
    simp only [Sparse.set, if_neg hv, Sparse.get_insert d _ k j v h, Sparse.get_erase]
    by_cases hj : j = k <;> simp [hj]

@[simp] theorem Sparse.get_nil {α : Type} (d : Nat → α) (k : Nat) : Sparse.get d [] k = d k := rfl

theorem Sparse.sorted_iff {α : Type} (m : Sparse α) :
    Sparse.sorted m = true ↔ m.Pairwise fun e f => e.1 < f.1 := by
  induction m with
  | nil => simp [Sparse.sorted]
  | cons e m ih =>
    cases m with
    | nil => simp [Sparse.sorted]
    | cons f m =>
      obtain ⟨i, v⟩ := e
      obtain ⟨j, w⟩ := f
      simp only [Sparse.sorted, Bool.and_eq_true, decide_eq_true_eq, ih, List.pairwise_cons, List.mem_cons]
      refine ⟨fun h => ⟨?_, h.2⟩, fun h => ⟨h.1 (j, w) (.inl rfl), h.2⟩⟩
      rintro a (rfl | ha)
      · exact h.1
      · exact Nat.lt_trans h.1 (h.2.1 a ha)

theorem Sparse.mem_insert {α : Type} (m : Sparse α) (k : Nat) (v : α) (f : Nat × α) (hf : f ∈ Sparse.insert m k v) :
    f = (k, v) ∨ f ∈ m := by
  induction m with
  | nil => simpa [Sparse.insert] using hf
  | cons g m ih =>
    obtain ⟨l, u⟩ := g
    by_cases hl : k < l
    · simp only [Sparse.insert, if_pos hl, List.mem_cons] at hf
      rcases hf with h1 | h1 | h1
      · exact .inl h1
      · exact .inr (by simp [h1])
      · exact .inr (by simp [h1])
    · simp only [Sparse.insert, if_neg hl, List.mem_cons] at hf
      rcases hf with h1 | h1
      · exact .inr (by simp [h1])
      · rcases ih h1 with h2 | h2
        · exact .inl h2
        · exact .inr (by simp [h2])

theorem Sparse.pairwise_insert {α : Type} (m : Sparse α) (k : Nat) (v : α) (hm : m.Pairwise fun e f => e.1 < f.1)
    (h : ∀ e ∈ m, e.1 ≠ k) : (Sparse.insert m k v).Pairwise fun e f => e.1 < f.1 := by
  induction m with
  | nil => simp [Sparse.insert]
  | cons e m ih =>
    obtain ⟨i, w⟩ := e
    have hm' := List.pairwise_cons.1 hm
    have hi : i ≠ k := h (i, w) (by simp)
    by_cases hk : k < i
    · simp only [Sparse.insert, if_pos hk]
      refine List.pairwise_cons.2 ⟨?_, hm⟩
      intro f hf
      rcases List.mem_cons.1 hf with h1 | h1
      · rw [h1]; exact hk
      · exact Nat.lt_trans hk (hm'.1 f h1)
    · simp only [Sparse.insert, if_neg hk]
      refine List.pairwise_cons.2 ⟨?_, ih hm'.2 fun e he => h e (by simp [he])⟩
      intro f hf
      rcases Sparse.mem_insert m k v f hf with h1 | h1
      · rw [h1]; show i < k; omega
      · exact hm'.1 f h1

theorem Sparse.wf_iff {α : Type} [DecidableEq α] (d : Nat → α) (m : Sparse α) :
    Sparse.wf d m = true ↔ (m.Pairwise fun e f => e.1 < f.1) ∧ ∀ e ∈ m, e.2 ≠ d e.1 := by
  simp [Sparse.wf, Sparse.sorted_iff]

theorem Sparse.pairwise_erase {α : Type} (m : Sparse α) (k : Nat) (h : m.Pairwise fun e f => e.1 < f.1) :
    (Sparse.erase m k).Pairwise fun e f => e.1 < f.1 := by
  induction m with
  | nil => simp [Sparse.erase]
  | cons e m ih =>
    obtain ⟨i, v⟩ := e
    have h' := List.pairwise_cons.1 h
    by_cases hi : i = k
    · simp only [Sparse.erase, if_pos hi]; exact ih h'.2
    · simp only [Sparse.erase, if_neg hi]
      exact List.pairwise_cons.2 ⟨fun f hf => h'.1 f ((Sparse.mem_erase m k f).1 hf).1, ih h'.2⟩

/-- Removing a key keeps the canonical form. -/
theorem Sparse.wf_erase {α : Type} [DecidableEq α] (d : Nat → α) (m : Sparse α) (k : Nat) (h : Sparse.wf d m = true) :
    Sparse.wf d (Sparse.erase m k) = true := by
  rw [Sparse.wf_iff] at *
  exact ⟨Sparse.pairwise_erase m k h.1, fun e he => h.2 e ((Sparse.mem_erase m k e).1 he).1⟩

/-- A write keeps the canonical form. -/
theorem Sparse.wf_set {α : Type} [DecidableEq α] (d : Nat → α) (m : Sparse α) (k : Nat) (v : α) (h : Sparse.wf d m = true) :
    Sparse.wf d (Sparse.set d m k v) = true := by
  by_cases hv : v = d k
  · simp only [Sparse.set, if_pos hv]; exact Sparse.wf_erase d m k h
  · simp only [Sparse.set, if_neg hv]
    rw [Sparse.wf_iff] at *
    have hne : ∀ e ∈ Sparse.erase m k, e.1 ≠ k := fun e he => ((Sparse.mem_erase m k e).1 he).2
    refine ⟨Sparse.pairwise_insert _ k v (Sparse.pairwise_erase m k h.1) hne, ?_⟩
    intro e he
    rcases Sparse.mem_insert _ k v e he with h1 | h1
    · rw [h1]; exact hv
    · exact h.2 e ((Sparse.mem_erase m k e).1 h1).1

/-- Removing a range of keys keeps the canonical form. -/
theorem Sparse.wf_filter {α : Type} [DecidableEq α] (d : Nat → α) (m : Sparse α) (p : Nat × α → Bool)
    (h : Sparse.wf d m = true) : Sparse.wf d (m.filter p) = true := by
  rw [Sparse.wf_iff] at *
  exact ⟨h.1.filter p, fun e he => h.2 e (List.mem_filter.1 he).1⟩

theorem Sparse.wf_eraseRange {α : Type} [DecidableEq α] (d : Nat → α) (m : Sparse α) (lo hi : Nat)
    (h : Sparse.wf d m = true) : Sparse.wf d (Sparse.eraseRange m lo hi) = true := Sparse.wf_filter d m _ h

end Sys2Proof.Machine
end

