-- ==== Sys2Proof/Laws/State.lean ====
section
/-! SUPPORT. Every field of State under every basic update: what an update does not name it leaves alone. Each conjunct is a
rewriting rule of its own. -/
namespace Sys2Proof.Machine

open Sys2Proof

/-- `wr` changes only regs. -/
@[simp] theorem wr_frame (s : State) (a : Nat) (w : Word) :
    (wr s a w).ctrs = s.ctrs ∧ (wr s a w).parts = s.parts ∧ (wr s a w).hand = s.hand ∧ (wr s a w).crossings = s.crossings ∧
    (wr s a w).shadows = s.shadows ∧ (wr s a w).evCtrs = s.evCtrs ∧ (wr s a w).mem = s.mem ∧ (wr s a w).memSt = s.memSt ∧
    (wr s a w).time = s.time ∧ (wr s a w).uptime = s.uptime ∧ (wr s a w).align = s.align ∧ (wr s a w).phase = s.phase ∧
    (wr s a w).bistRunning = s.bistRunning ∧ (wr s a w).rails = s.rails ∧ (wr s a w).pace = s.pace ∧
    (wr s a w).ramps = s.ramps ∧ (wr s a w).ports = s.ports ∧ (wr s a w).lanes = s.lanes ∧
    (wr s a w).stitches = s.stitches ∧ (wr s a w).cells = s.cells ∧ (wr s a w).queues = s.queues ∧
    (wr s a w).deliv = s.deliv ∧ (wr s a w).nextHandle = s.nextHandle ∧ (wr s a w).origWait = s.origWait ∧
    (wr s a w).meters = s.meters ∧ (wr s a w).gates = s.gates ∧ (wr s a w).streams = s.streams ∧ (wr s a w).msgs = s.msgs ∧
    (wr s a w).jobs = s.jobs ∧ (wr s a w).slots = s.slots ∧ (wr s a w).heldPkts = s.heldPkts ∧
    (wr s a w).pendingPosts = s.pendingPosts ∧ (wr s a w).unloadHeld = s.unloadHeld ∧ (wr s a w).loads = s.loads ∧
    (wr s a w).seals = s.seals ∧ (wr s a w).batch = s.batch ∧ (wr s a w).lastBatch = s.lastBatch ∧
    (wr s a w).sessions = s.sessions ∧ (wr s a w).latches = s.latches ∧ (wr s a w).nextSession = s.nextSession ∧
    (wr s a w).evtSeq = s.evtSeq ∧ (wr s a w).transfers = s.transfers ∧ (wr s a w).heldReqs = s.heldReqs ∧
    (wr s a w).attests = s.attests ∧ (wr s a w).flash = s.flash ∧ (wr s a w).audit = s.audit ∧ (wr s a w).fuses = s.fuses ∧
    (wr s a w).alwaysOn = s.alwaysOn ∧ (wr s a w).faults = s.faults ∧ (wr s a w).swath = s.swath ∧
    (wr s a w).swathWait = s.swathWait ∧ (wr s a w).timeSt = s.timeSt ∧ (wr s a w).reach = s.reach ∧
    (wr s a w).hostSt = s.hostSt ∧ (wr s a w).fw = s.fw ∧ (wr s a w).out = s.out ∧ (wr s a w).freeCtr = s.freeCtr ∧
    (wr s a w).pending = s.pending := by
  and_intros <;> rfl

/-- `fset` changes only regs. -/
@[simp] theorem fset_frame (s : State) (a hi lo v : Nat) :
    (fset s a hi lo v).ctrs = s.ctrs ∧ (fset s a hi lo v).parts = s.parts ∧ (fset s a hi lo v).hand = s.hand ∧
    (fset s a hi lo v).crossings = s.crossings ∧ (fset s a hi lo v).shadows = s.shadows ∧
    (fset s a hi lo v).evCtrs = s.evCtrs ∧ (fset s a hi lo v).mem = s.mem ∧ (fset s a hi lo v).memSt = s.memSt ∧
    (fset s a hi lo v).time = s.time ∧ (fset s a hi lo v).uptime = s.uptime ∧ (fset s a hi lo v).align = s.align ∧
    (fset s a hi lo v).phase = s.phase ∧ (fset s a hi lo v).bistRunning = s.bistRunning ∧
    (fset s a hi lo v).rails = s.rails ∧ (fset s a hi lo v).pace = s.pace ∧ (fset s a hi lo v).ramps = s.ramps ∧
    (fset s a hi lo v).ports = s.ports ∧ (fset s a hi lo v).lanes = s.lanes ∧ (fset s a hi lo v).stitches = s.stitches ∧
    (fset s a hi lo v).cells = s.cells ∧ (fset s a hi lo v).queues = s.queues ∧ (fset s a hi lo v).deliv = s.deliv ∧
    (fset s a hi lo v).nextHandle = s.nextHandle ∧ (fset s a hi lo v).origWait = s.origWait ∧
    (fset s a hi lo v).meters = s.meters ∧ (fset s a hi lo v).gates = s.gates ∧ (fset s a hi lo v).streams = s.streams ∧
    (fset s a hi lo v).msgs = s.msgs ∧ (fset s a hi lo v).jobs = s.jobs ∧ (fset s a hi lo v).slots = s.slots ∧
    (fset s a hi lo v).heldPkts = s.heldPkts ∧ (fset s a hi lo v).pendingPosts = s.pendingPosts ∧
    (fset s a hi lo v).unloadHeld = s.unloadHeld ∧ (fset s a hi lo v).loads = s.loads ∧
    (fset s a hi lo v).seals = s.seals ∧ (fset s a hi lo v).batch = s.batch ∧ (fset s a hi lo v).lastBatch = s.lastBatch ∧
    (fset s a hi lo v).sessions = s.sessions ∧ (fset s a hi lo v).latches = s.latches ∧
    (fset s a hi lo v).nextSession = s.nextSession ∧ (fset s a hi lo v).evtSeq = s.evtSeq ∧
    (fset s a hi lo v).transfers = s.transfers ∧ (fset s a hi lo v).heldReqs = s.heldReqs ∧
    (fset s a hi lo v).attests = s.attests ∧ (fset s a hi lo v).flash = s.flash ∧ (fset s a hi lo v).audit = s.audit ∧
    (fset s a hi lo v).fuses = s.fuses ∧ (fset s a hi lo v).alwaysOn = s.alwaysOn ∧ (fset s a hi lo v).faults = s.faults ∧
    (fset s a hi lo v).swath = s.swath ∧ (fset s a hi lo v).swathWait = s.swathWait ∧
    (fset s a hi lo v).timeSt = s.timeSt ∧ (fset s a hi lo v).reach = s.reach ∧ (fset s a hi lo v).hostSt = s.hostSt ∧
    (fset s a hi lo v).fw = s.fw ∧ (fset s a hi lo v).out = s.out ∧ (fset s a hi lo v).freeCtr = s.freeCtr ∧
    (fset s a hi lo v).pending = s.pending := by
  and_intros <;> rfl

/-- `setBit` changes only regs. -/
@[simp] theorem setBit_frame (s : State) (a b : Nat) (v : Bool) :
    (setBit s a b v).ctrs = s.ctrs ∧ (setBit s a b v).parts = s.parts ∧ (setBit s a b v).hand = s.hand ∧
    (setBit s a b v).crossings = s.crossings ∧ (setBit s a b v).shadows = s.shadows ∧ (setBit s a b v).evCtrs = s.evCtrs ∧
    (setBit s a b v).mem = s.mem ∧ (setBit s a b v).memSt = s.memSt ∧ (setBit s a b v).time = s.time ∧
    (setBit s a b v).uptime = s.uptime ∧ (setBit s a b v).align = s.align ∧ (setBit s a b v).phase = s.phase ∧
    (setBit s a b v).bistRunning = s.bistRunning ∧ (setBit s a b v).rails = s.rails ∧ (setBit s a b v).pace = s.pace ∧
    (setBit s a b v).ramps = s.ramps ∧ (setBit s a b v).ports = s.ports ∧ (setBit s a b v).lanes = s.lanes ∧
    (setBit s a b v).stitches = s.stitches ∧ (setBit s a b v).cells = s.cells ∧ (setBit s a b v).queues = s.queues ∧
    (setBit s a b v).deliv = s.deliv ∧ (setBit s a b v).nextHandle = s.nextHandle ∧
    (setBit s a b v).origWait = s.origWait ∧ (setBit s a b v).meters = s.meters ∧ (setBit s a b v).gates = s.gates ∧
    (setBit s a b v).streams = s.streams ∧ (setBit s a b v).msgs = s.msgs ∧ (setBit s a b v).jobs = s.jobs ∧
    (setBit s a b v).slots = s.slots ∧ (setBit s a b v).heldPkts = s.heldPkts ∧
    (setBit s a b v).pendingPosts = s.pendingPosts ∧ (setBit s a b v).unloadHeld = s.unloadHeld ∧
    (setBit s a b v).loads = s.loads ∧ (setBit s a b v).seals = s.seals ∧ (setBit s a b v).batch = s.batch ∧
    (setBit s a b v).lastBatch = s.lastBatch ∧ (setBit s a b v).sessions = s.sessions ∧
    (setBit s a b v).latches = s.latches ∧ (setBit s a b v).nextSession = s.nextSession ∧
    (setBit s a b v).evtSeq = s.evtSeq ∧ (setBit s a b v).transfers = s.transfers ∧
    (setBit s a b v).heldReqs = s.heldReqs ∧ (setBit s a b v).attests = s.attests ∧ (setBit s a b v).flash = s.flash ∧
    (setBit s a b v).audit = s.audit ∧ (setBit s a b v).fuses = s.fuses ∧ (setBit s a b v).alwaysOn = s.alwaysOn ∧
    (setBit s a b v).faults = s.faults ∧ (setBit s a b v).swath = s.swath ∧ (setBit s a b v).swathWait = s.swathWait ∧
    (setBit s a b v).timeSt = s.timeSt ∧ (setBit s a b v).reach = s.reach ∧ (setBit s a b v).hostSt = s.hostSt ∧
    (setBit s a b v).fw = s.fw ∧ (setBit s a b v).out = s.out ∧ (setBit s a b v).freeCtr = s.freeCtr ∧
    (setBit s a b v).pending = s.pending := by
  and_intros <;> rfl

/-- `fieldSat` changes only regs. -/
@[simp] theorem fieldSat_frame (s : State) (a hi lo n : Nat) :
    (fieldSat s a hi lo n).ctrs = s.ctrs ∧ (fieldSat s a hi lo n).parts = s.parts ∧ (fieldSat s a hi lo n).hand = s.hand ∧
    (fieldSat s a hi lo n).crossings = s.crossings ∧ (fieldSat s a hi lo n).shadows = s.shadows ∧
    (fieldSat s a hi lo n).evCtrs = s.evCtrs ∧ (fieldSat s a hi lo n).mem = s.mem ∧
    (fieldSat s a hi lo n).memSt = s.memSt ∧ (fieldSat s a hi lo n).time = s.time ∧
    (fieldSat s a hi lo n).uptime = s.uptime ∧ (fieldSat s a hi lo n).align = s.align ∧
    (fieldSat s a hi lo n).phase = s.phase ∧ (fieldSat s a hi lo n).bistRunning = s.bistRunning ∧
    (fieldSat s a hi lo n).rails = s.rails ∧ (fieldSat s a hi lo n).pace = s.pace ∧
    (fieldSat s a hi lo n).ramps = s.ramps ∧ (fieldSat s a hi lo n).ports = s.ports ∧
    (fieldSat s a hi lo n).lanes = s.lanes ∧ (fieldSat s a hi lo n).stitches = s.stitches ∧
    (fieldSat s a hi lo n).cells = s.cells ∧ (fieldSat s a hi lo n).queues = s.queues ∧
    (fieldSat s a hi lo n).deliv = s.deliv ∧ (fieldSat s a hi lo n).nextHandle = s.nextHandle ∧
    (fieldSat s a hi lo n).origWait = s.origWait ∧ (fieldSat s a hi lo n).meters = s.meters ∧
    (fieldSat s a hi lo n).gates = s.gates ∧ (fieldSat s a hi lo n).streams = s.streams ∧
    (fieldSat s a hi lo n).msgs = s.msgs ∧ (fieldSat s a hi lo n).jobs = s.jobs ∧ (fieldSat s a hi lo n).slots = s.slots ∧
    (fieldSat s a hi lo n).heldPkts = s.heldPkts ∧ (fieldSat s a hi lo n).pendingPosts = s.pendingPosts ∧
    (fieldSat s a hi lo n).unloadHeld = s.unloadHeld ∧ (fieldSat s a hi lo n).loads = s.loads ∧
    (fieldSat s a hi lo n).seals = s.seals ∧ (fieldSat s a hi lo n).batch = s.batch ∧
    (fieldSat s a hi lo n).lastBatch = s.lastBatch ∧ (fieldSat s a hi lo n).sessions = s.sessions ∧
    (fieldSat s a hi lo n).latches = s.latches ∧ (fieldSat s a hi lo n).nextSession = s.nextSession ∧
    (fieldSat s a hi lo n).evtSeq = s.evtSeq ∧ (fieldSat s a hi lo n).transfers = s.transfers ∧
    (fieldSat s a hi lo n).heldReqs = s.heldReqs ∧ (fieldSat s a hi lo n).attests = s.attests ∧
    (fieldSat s a hi lo n).flash = s.flash ∧ (fieldSat s a hi lo n).audit = s.audit ∧
    (fieldSat s a hi lo n).fuses = s.fuses ∧ (fieldSat s a hi lo n).alwaysOn = s.alwaysOn ∧
    (fieldSat s a hi lo n).faults = s.faults ∧ (fieldSat s a hi lo n).swath = s.swath ∧
    (fieldSat s a hi lo n).swathWait = s.swathWait ∧ (fieldSat s a hi lo n).timeSt = s.timeSt ∧
    (fieldSat s a hi lo n).reach = s.reach ∧ (fieldSat s a hi lo n).hostSt = s.hostSt ∧ (fieldSat s a hi lo n).fw = s.fw ∧
    (fieldSat s a hi lo n).out = s.out ∧ (fieldSat s a hi lo n).freeCtr = s.freeCtr ∧
    (fieldSat s a hi lo n).pending = s.pending := by
  and_intros <;> rfl

/-- `regsReset` changes only regs. -/
@[simp] theorem regsReset_frame (s : State) (lo hi : Nat) :
    (regsReset s lo hi).ctrs = s.ctrs ∧ (regsReset s lo hi).parts = s.parts ∧ (regsReset s lo hi).hand = s.hand ∧
    (regsReset s lo hi).crossings = s.crossings ∧ (regsReset s lo hi).shadows = s.shadows ∧
    (regsReset s lo hi).evCtrs = s.evCtrs ∧ (regsReset s lo hi).mem = s.mem ∧ (regsReset s lo hi).memSt = s.memSt ∧
    (regsReset s lo hi).time = s.time ∧ (regsReset s lo hi).uptime = s.uptime ∧ (regsReset s lo hi).align = s.align ∧
    (regsReset s lo hi).phase = s.phase ∧ (regsReset s lo hi).bistRunning = s.bistRunning ∧
    (regsReset s lo hi).rails = s.rails ∧ (regsReset s lo hi).pace = s.pace ∧ (regsReset s lo hi).ramps = s.ramps ∧
    (regsReset s lo hi).ports = s.ports ∧ (regsReset s lo hi).lanes = s.lanes ∧ (regsReset s lo hi).stitches = s.stitches ∧
    (regsReset s lo hi).cells = s.cells ∧ (regsReset s lo hi).queues = s.queues ∧ (regsReset s lo hi).deliv = s.deliv ∧
    (regsReset s lo hi).nextHandle = s.nextHandle ∧ (regsReset s lo hi).origWait = s.origWait ∧
    (regsReset s lo hi).meters = s.meters ∧ (regsReset s lo hi).gates = s.gates ∧ (regsReset s lo hi).streams = s.streams ∧
    (regsReset s lo hi).msgs = s.msgs ∧ (regsReset s lo hi).jobs = s.jobs ∧ (regsReset s lo hi).slots = s.slots ∧
    (regsReset s lo hi).heldPkts = s.heldPkts ∧ (regsReset s lo hi).pendingPosts = s.pendingPosts ∧
    (regsReset s lo hi).unloadHeld = s.unloadHeld ∧ (regsReset s lo hi).loads = s.loads ∧
    (regsReset s lo hi).seals = s.seals ∧ (regsReset s lo hi).batch = s.batch ∧
    (regsReset s lo hi).lastBatch = s.lastBatch ∧ (regsReset s lo hi).sessions = s.sessions ∧
    (regsReset s lo hi).latches = s.latches ∧ (regsReset s lo hi).nextSession = s.nextSession ∧
    (regsReset s lo hi).evtSeq = s.evtSeq ∧ (regsReset s lo hi).transfers = s.transfers ∧
    (regsReset s lo hi).heldReqs = s.heldReqs ∧ (regsReset s lo hi).attests = s.attests ∧
    (regsReset s lo hi).flash = s.flash ∧ (regsReset s lo hi).audit = s.audit ∧ (regsReset s lo hi).fuses = s.fuses ∧
    (regsReset s lo hi).alwaysOn = s.alwaysOn ∧ (regsReset s lo hi).faults = s.faults ∧
    (regsReset s lo hi).swath = s.swath ∧ (regsReset s lo hi).swathWait = s.swathWait ∧
    (regsReset s lo hi).timeSt = s.timeSt ∧ (regsReset s lo hi).reach = s.reach ∧ (regsReset s lo hi).hostSt = s.hostSt ∧
    (regsReset s lo hi).fw = s.fw ∧ (regsReset s lo hi).out = s.out ∧ (regsReset s lo hi).freeCtr = s.freeCtr ∧
    (regsReset s lo hi).pending = s.pending := by
  and_intros <;> rfl

/-- `ctrAdd` changes only ctrs and parts. -/
@[simp] theorem ctrAdd_frame (s : State) (p i n : Nat) :
    (ctrAdd s p i n).regs = s.regs ∧ (ctrAdd s p i n).hand = s.hand ∧ (ctrAdd s p i n).crossings = s.crossings ∧
    (ctrAdd s p i n).shadows = s.shadows ∧ (ctrAdd s p i n).evCtrs = s.evCtrs ∧ (ctrAdd s p i n).mem = s.mem ∧
    (ctrAdd s p i n).memSt = s.memSt ∧ (ctrAdd s p i n).time = s.time ∧ (ctrAdd s p i n).uptime = s.uptime ∧
    (ctrAdd s p i n).align = s.align ∧ (ctrAdd s p i n).phase = s.phase ∧ (ctrAdd s p i n).bistRunning = s.bistRunning ∧
    (ctrAdd s p i n).rails = s.rails ∧ (ctrAdd s p i n).pace = s.pace ∧ (ctrAdd s p i n).ramps = s.ramps ∧
    (ctrAdd s p i n).ports = s.ports ∧ (ctrAdd s p i n).lanes = s.lanes ∧ (ctrAdd s p i n).stitches = s.stitches ∧
    (ctrAdd s p i n).cells = s.cells ∧ (ctrAdd s p i n).queues = s.queues ∧ (ctrAdd s p i n).deliv = s.deliv ∧
    (ctrAdd s p i n).nextHandle = s.nextHandle ∧ (ctrAdd s p i n).origWait = s.origWait ∧
    (ctrAdd s p i n).meters = s.meters ∧ (ctrAdd s p i n).gates = s.gates ∧ (ctrAdd s p i n).streams = s.streams ∧
    (ctrAdd s p i n).msgs = s.msgs ∧ (ctrAdd s p i n).jobs = s.jobs ∧ (ctrAdd s p i n).slots = s.slots ∧
    (ctrAdd s p i n).heldPkts = s.heldPkts ∧ (ctrAdd s p i n).pendingPosts = s.pendingPosts ∧
    (ctrAdd s p i n).unloadHeld = s.unloadHeld ∧ (ctrAdd s p i n).loads = s.loads ∧ (ctrAdd s p i n).seals = s.seals ∧
    (ctrAdd s p i n).batch = s.batch ∧ (ctrAdd s p i n).lastBatch = s.lastBatch ∧ (ctrAdd s p i n).sessions = s.sessions ∧
    (ctrAdd s p i n).latches = s.latches ∧ (ctrAdd s p i n).nextSession = s.nextSession ∧
    (ctrAdd s p i n).evtSeq = s.evtSeq ∧ (ctrAdd s p i n).transfers = s.transfers ∧
    (ctrAdd s p i n).heldReqs = s.heldReqs ∧ (ctrAdd s p i n).attests = s.attests ∧ (ctrAdd s p i n).flash = s.flash ∧
    (ctrAdd s p i n).audit = s.audit ∧ (ctrAdd s p i n).fuses = s.fuses ∧ (ctrAdd s p i n).alwaysOn = s.alwaysOn ∧
    (ctrAdd s p i n).faults = s.faults ∧ (ctrAdd s p i n).swath = s.swath ∧ (ctrAdd s p i n).swathWait = s.swathWait ∧
    (ctrAdd s p i n).timeSt = s.timeSt ∧ (ctrAdd s p i n).reach = s.reach ∧ (ctrAdd s p i n).hostSt = s.hostSt ∧
    (ctrAdd s p i n).fw = s.fw ∧ (ctrAdd s p i n).out = s.out ∧ (ctrAdd s p i n).freeCtr = s.freeCtr ∧
    (ctrAdd s p i n).pending = s.pending := by
  and_intros <;> rfl

/-- `ctrsReset` changes only ctrs and parts. -/
@[simp] theorem ctrsReset_frame (s : State) (p : Nat) :
    (ctrsReset s p).regs = s.regs ∧ (ctrsReset s p).hand = s.hand ∧ (ctrsReset s p).crossings = s.crossings ∧
    (ctrsReset s p).shadows = s.shadows ∧ (ctrsReset s p).evCtrs = s.evCtrs ∧ (ctrsReset s p).mem = s.mem ∧
    (ctrsReset s p).memSt = s.memSt ∧ (ctrsReset s p).time = s.time ∧ (ctrsReset s p).uptime = s.uptime ∧
    (ctrsReset s p).align = s.align ∧ (ctrsReset s p).phase = s.phase ∧ (ctrsReset s p).bistRunning = s.bistRunning ∧
    (ctrsReset s p).rails = s.rails ∧ (ctrsReset s p).pace = s.pace ∧ (ctrsReset s p).ramps = s.ramps ∧
    (ctrsReset s p).ports = s.ports ∧ (ctrsReset s p).lanes = s.lanes ∧ (ctrsReset s p).stitches = s.stitches ∧
    (ctrsReset s p).cells = s.cells ∧ (ctrsReset s p).queues = s.queues ∧ (ctrsReset s p).deliv = s.deliv ∧
    (ctrsReset s p).nextHandle = s.nextHandle ∧ (ctrsReset s p).origWait = s.origWait ∧ (ctrsReset s p).meters = s.meters ∧
    (ctrsReset s p).gates = s.gates ∧ (ctrsReset s p).streams = s.streams ∧ (ctrsReset s p).msgs = s.msgs ∧
    (ctrsReset s p).jobs = s.jobs ∧ (ctrsReset s p).slots = s.slots ∧ (ctrsReset s p).heldPkts = s.heldPkts ∧
    (ctrsReset s p).pendingPosts = s.pendingPosts ∧ (ctrsReset s p).unloadHeld = s.unloadHeld ∧
    (ctrsReset s p).loads = s.loads ∧ (ctrsReset s p).seals = s.seals ∧ (ctrsReset s p).batch = s.batch ∧
    (ctrsReset s p).lastBatch = s.lastBatch ∧ (ctrsReset s p).sessions = s.sessions ∧ (ctrsReset s p).latches = s.latches ∧
    (ctrsReset s p).nextSession = s.nextSession ∧ (ctrsReset s p).evtSeq = s.evtSeq ∧
    (ctrsReset s p).transfers = s.transfers ∧ (ctrsReset s p).heldReqs = s.heldReqs ∧ (ctrsReset s p).attests = s.attests ∧
    (ctrsReset s p).flash = s.flash ∧ (ctrsReset s p).audit = s.audit ∧ (ctrsReset s p).fuses = s.fuses ∧
    (ctrsReset s p).alwaysOn = s.alwaysOn ∧ (ctrsReset s p).faults = s.faults ∧ (ctrsReset s p).swath = s.swath ∧
    (ctrsReset s p).swathWait = s.swathWait ∧ (ctrsReset s p).timeSt = s.timeSt ∧ (ctrsReset s p).reach = s.reach ∧
    (ctrsReset s p).hostSt = s.hostSt ∧ (ctrsReset s p).fw = s.fw ∧ (ctrsReset s p).out = s.out ∧
    (ctrsReset s p).freeCtr = s.freeCtr ∧ (ctrsReset s p).pending = s.pending := by
  and_intros <;> rfl

/-- `setPort` changes only ports. -/
@[simp] theorem setPort_frame (s : State) (p : Nat) (x : PortSt) :
    (setPort s p x).regs = s.regs ∧ (setPort s p x).ctrs = s.ctrs ∧ (setPort s p x).parts = s.parts ∧
    (setPort s p x).hand = s.hand ∧ (setPort s p x).crossings = s.crossings ∧ (setPort s p x).shadows = s.shadows ∧
    (setPort s p x).evCtrs = s.evCtrs ∧ (setPort s p x).mem = s.mem ∧ (setPort s p x).memSt = s.memSt ∧
    (setPort s p x).time = s.time ∧ (setPort s p x).uptime = s.uptime ∧ (setPort s p x).align = s.align ∧
    (setPort s p x).phase = s.phase ∧ (setPort s p x).bistRunning = s.bistRunning ∧ (setPort s p x).rails = s.rails ∧
    (setPort s p x).pace = s.pace ∧ (setPort s p x).ramps = s.ramps ∧ (setPort s p x).lanes = s.lanes ∧
    (setPort s p x).stitches = s.stitches ∧ (setPort s p x).cells = s.cells ∧ (setPort s p x).queues = s.queues ∧
    (setPort s p x).deliv = s.deliv ∧ (setPort s p x).nextHandle = s.nextHandle ∧ (setPort s p x).origWait = s.origWait ∧
    (setPort s p x).meters = s.meters ∧ (setPort s p x).gates = s.gates ∧ (setPort s p x).streams = s.streams ∧
    (setPort s p x).msgs = s.msgs ∧ (setPort s p x).jobs = s.jobs ∧ (setPort s p x).slots = s.slots ∧
    (setPort s p x).heldPkts = s.heldPkts ∧ (setPort s p x).pendingPosts = s.pendingPosts ∧
    (setPort s p x).unloadHeld = s.unloadHeld ∧ (setPort s p x).loads = s.loads ∧ (setPort s p x).seals = s.seals ∧
    (setPort s p x).batch = s.batch ∧ (setPort s p x).lastBatch = s.lastBatch ∧ (setPort s p x).sessions = s.sessions ∧
    (setPort s p x).latches = s.latches ∧ (setPort s p x).nextSession = s.nextSession ∧ (setPort s p x).evtSeq = s.evtSeq ∧
    (setPort s p x).transfers = s.transfers ∧ (setPort s p x).heldReqs = s.heldReqs ∧ (setPort s p x).attests = s.attests ∧
    (setPort s p x).flash = s.flash ∧ (setPort s p x).audit = s.audit ∧ (setPort s p x).fuses = s.fuses ∧
    (setPort s p x).alwaysOn = s.alwaysOn ∧ (setPort s p x).faults = s.faults ∧ (setPort s p x).swath = s.swath ∧
    (setPort s p x).swathWait = s.swathWait ∧ (setPort s p x).timeSt = s.timeSt ∧ (setPort s p x).reach = s.reach ∧
    (setPort s p x).hostSt = s.hostSt ∧ (setPort s p x).fw = s.fw ∧ (setPort s p x).out = s.out ∧
    (setPort s p x).freeCtr = s.freeCtr ∧ (setPort s p x).pending = s.pending := by
  and_intros <;> rfl

/-- `modPort` changes only ports. -/
@[simp] theorem modPort_frame (s : State) (p : Nat) (f : PortSt → PortSt) :
    (modPort s p f).regs = s.regs ∧ (modPort s p f).ctrs = s.ctrs ∧ (modPort s p f).parts = s.parts ∧
    (modPort s p f).hand = s.hand ∧ (modPort s p f).crossings = s.crossings ∧ (modPort s p f).shadows = s.shadows ∧
    (modPort s p f).evCtrs = s.evCtrs ∧ (modPort s p f).mem = s.mem ∧ (modPort s p f).memSt = s.memSt ∧
    (modPort s p f).time = s.time ∧ (modPort s p f).uptime = s.uptime ∧ (modPort s p f).align = s.align ∧
    (modPort s p f).phase = s.phase ∧ (modPort s p f).bistRunning = s.bistRunning ∧ (modPort s p f).rails = s.rails ∧
    (modPort s p f).pace = s.pace ∧ (modPort s p f).ramps = s.ramps ∧ (modPort s p f).lanes = s.lanes ∧
    (modPort s p f).stitches = s.stitches ∧ (modPort s p f).cells = s.cells ∧ (modPort s p f).queues = s.queues ∧
    (modPort s p f).deliv = s.deliv ∧ (modPort s p f).nextHandle = s.nextHandle ∧ (modPort s p f).origWait = s.origWait ∧
    (modPort s p f).meters = s.meters ∧ (modPort s p f).gates = s.gates ∧ (modPort s p f).streams = s.streams ∧
    (modPort s p f).msgs = s.msgs ∧ (modPort s p f).jobs = s.jobs ∧ (modPort s p f).slots = s.slots ∧
    (modPort s p f).heldPkts = s.heldPkts ∧ (modPort s p f).pendingPosts = s.pendingPosts ∧
    (modPort s p f).unloadHeld = s.unloadHeld ∧ (modPort s p f).loads = s.loads ∧ (modPort s p f).seals = s.seals ∧
    (modPort s p f).batch = s.batch ∧ (modPort s p f).lastBatch = s.lastBatch ∧ (modPort s p f).sessions = s.sessions ∧
    (modPort s p f).latches = s.latches ∧ (modPort s p f).nextSession = s.nextSession ∧ (modPort s p f).evtSeq = s.evtSeq ∧
    (modPort s p f).transfers = s.transfers ∧ (modPort s p f).heldReqs = s.heldReqs ∧ (modPort s p f).attests = s.attests ∧
    (modPort s p f).flash = s.flash ∧ (modPort s p f).audit = s.audit ∧ (modPort s p f).fuses = s.fuses ∧
    (modPort s p f).alwaysOn = s.alwaysOn ∧ (modPort s p f).faults = s.faults ∧ (modPort s p f).swath = s.swath ∧
    (modPort s p f).swathWait = s.swathWait ∧ (modPort s p f).timeSt = s.timeSt ∧ (modPort s p f).reach = s.reach ∧
    (modPort s p f).hostSt = s.hostSt ∧ (modPort s p f).fw = s.fw ∧ (modPort s p f).out = s.out ∧
    (modPort s p f).freeCtr = s.freeCtr ∧ (modPort s p f).pending = s.pending := by
  and_intros <;> rfl

/-- `setStitch` changes only stitches. -/
@[simp] theorem setStitch_frame (s : State) (n : Nat) (x : StitchSt) :
    (setStitch s n x).regs = s.regs ∧ (setStitch s n x).ctrs = s.ctrs ∧ (setStitch s n x).parts = s.parts ∧
    (setStitch s n x).hand = s.hand ∧ (setStitch s n x).crossings = s.crossings ∧ (setStitch s n x).shadows = s.shadows ∧
    (setStitch s n x).evCtrs = s.evCtrs ∧ (setStitch s n x).mem = s.mem ∧ (setStitch s n x).memSt = s.memSt ∧
    (setStitch s n x).time = s.time ∧ (setStitch s n x).uptime = s.uptime ∧ (setStitch s n x).align = s.align ∧
    (setStitch s n x).phase = s.phase ∧ (setStitch s n x).bistRunning = s.bistRunning ∧ (setStitch s n x).rails = s.rails ∧
    (setStitch s n x).pace = s.pace ∧ (setStitch s n x).ramps = s.ramps ∧ (setStitch s n x).ports = s.ports ∧
    (setStitch s n x).lanes = s.lanes ∧ (setStitch s n x).cells = s.cells ∧ (setStitch s n x).queues = s.queues ∧
    (setStitch s n x).deliv = s.deliv ∧ (setStitch s n x).nextHandle = s.nextHandle ∧
    (setStitch s n x).origWait = s.origWait ∧ (setStitch s n x).meters = s.meters ∧ (setStitch s n x).gates = s.gates ∧
    (setStitch s n x).streams = s.streams ∧ (setStitch s n x).msgs = s.msgs ∧ (setStitch s n x).jobs = s.jobs ∧
    (setStitch s n x).slots = s.slots ∧ (setStitch s n x).heldPkts = s.heldPkts ∧
    (setStitch s n x).pendingPosts = s.pendingPosts ∧ (setStitch s n x).unloadHeld = s.unloadHeld ∧
    (setStitch s n x).loads = s.loads ∧ (setStitch s n x).seals = s.seals ∧ (setStitch s n x).batch = s.batch ∧
    (setStitch s n x).lastBatch = s.lastBatch ∧ (setStitch s n x).sessions = s.sessions ∧
    (setStitch s n x).latches = s.latches ∧ (setStitch s n x).nextSession = s.nextSession ∧
    (setStitch s n x).evtSeq = s.evtSeq ∧ (setStitch s n x).transfers = s.transfers ∧
    (setStitch s n x).heldReqs = s.heldReqs ∧ (setStitch s n x).attests = s.attests ∧ (setStitch s n x).flash = s.flash ∧
    (setStitch s n x).audit = s.audit ∧ (setStitch s n x).fuses = s.fuses ∧ (setStitch s n x).alwaysOn = s.alwaysOn ∧
    (setStitch s n x).faults = s.faults ∧ (setStitch s n x).swath = s.swath ∧ (setStitch s n x).swathWait = s.swathWait ∧
    (setStitch s n x).timeSt = s.timeSt ∧ (setStitch s n x).reach = s.reach ∧ (setStitch s n x).hostSt = s.hostSt ∧
    (setStitch s n x).fw = s.fw ∧ (setStitch s n x).out = s.out ∧ (setStitch s n x).freeCtr = s.freeCtr ∧
    (setStitch s n x).pending = s.pending := by
  and_intros <;> rfl

/-- `setCell` changes only cells. -/
@[simp] theorem setCell_frame (s : State) (c : Nat) (x : Cell) :
    (setCell s c x).regs = s.regs ∧ (setCell s c x).ctrs = s.ctrs ∧ (setCell s c x).parts = s.parts ∧
    (setCell s c x).hand = s.hand ∧ (setCell s c x).crossings = s.crossings ∧ (setCell s c x).shadows = s.shadows ∧
    (setCell s c x).evCtrs = s.evCtrs ∧ (setCell s c x).mem = s.mem ∧ (setCell s c x).memSt = s.memSt ∧
    (setCell s c x).time = s.time ∧ (setCell s c x).uptime = s.uptime ∧ (setCell s c x).align = s.align ∧
    (setCell s c x).phase = s.phase ∧ (setCell s c x).bistRunning = s.bistRunning ∧ (setCell s c x).rails = s.rails ∧
    (setCell s c x).pace = s.pace ∧ (setCell s c x).ramps = s.ramps ∧ (setCell s c x).ports = s.ports ∧
    (setCell s c x).lanes = s.lanes ∧ (setCell s c x).stitches = s.stitches ∧ (setCell s c x).queues = s.queues ∧
    (setCell s c x).deliv = s.deliv ∧ (setCell s c x).nextHandle = s.nextHandle ∧ (setCell s c x).origWait = s.origWait ∧
    (setCell s c x).meters = s.meters ∧ (setCell s c x).gates = s.gates ∧ (setCell s c x).streams = s.streams ∧
    (setCell s c x).msgs = s.msgs ∧ (setCell s c x).jobs = s.jobs ∧ (setCell s c x).slots = s.slots ∧
    (setCell s c x).heldPkts = s.heldPkts ∧ (setCell s c x).pendingPosts = s.pendingPosts ∧
    (setCell s c x).unloadHeld = s.unloadHeld ∧ (setCell s c x).loads = s.loads ∧ (setCell s c x).seals = s.seals ∧
    (setCell s c x).batch = s.batch ∧ (setCell s c x).lastBatch = s.lastBatch ∧ (setCell s c x).sessions = s.sessions ∧
    (setCell s c x).latches = s.latches ∧ (setCell s c x).nextSession = s.nextSession ∧ (setCell s c x).evtSeq = s.evtSeq ∧
    (setCell s c x).transfers = s.transfers ∧ (setCell s c x).heldReqs = s.heldReqs ∧ (setCell s c x).attests = s.attests ∧
    (setCell s c x).flash = s.flash ∧ (setCell s c x).audit = s.audit ∧ (setCell s c x).fuses = s.fuses ∧
    (setCell s c x).alwaysOn = s.alwaysOn ∧ (setCell s c x).faults = s.faults ∧ (setCell s c x).swath = s.swath ∧
    (setCell s c x).swathWait = s.swathWait ∧ (setCell s c x).timeSt = s.timeSt ∧ (setCell s c x).reach = s.reach ∧
    (setCell s c x).hostSt = s.hostSt ∧ (setCell s c x).fw = s.fw ∧ (setCell s c x).out = s.out ∧
    (setCell s c x).freeCtr = s.freeCtr ∧ (setCell s c x).pending = s.pending := by
  and_intros <;> rfl

/-- `setQueue` changes only queues. -/
@[simp] theorem setQueue_frame (s : State) (q : Nat) (x : List QEntry) :
    (setQueue s q x).regs = s.regs ∧ (setQueue s q x).ctrs = s.ctrs ∧ (setQueue s q x).parts = s.parts ∧
    (setQueue s q x).hand = s.hand ∧ (setQueue s q x).crossings = s.crossings ∧ (setQueue s q x).shadows = s.shadows ∧
    (setQueue s q x).evCtrs = s.evCtrs ∧ (setQueue s q x).mem = s.mem ∧ (setQueue s q x).memSt = s.memSt ∧
    (setQueue s q x).time = s.time ∧ (setQueue s q x).uptime = s.uptime ∧ (setQueue s q x).align = s.align ∧
    (setQueue s q x).phase = s.phase ∧ (setQueue s q x).bistRunning = s.bistRunning ∧ (setQueue s q x).rails = s.rails ∧
    (setQueue s q x).pace = s.pace ∧ (setQueue s q x).ramps = s.ramps ∧ (setQueue s q x).ports = s.ports ∧
    (setQueue s q x).lanes = s.lanes ∧ (setQueue s q x).stitches = s.stitches ∧ (setQueue s q x).cells = s.cells ∧
    (setQueue s q x).deliv = s.deliv ∧ (setQueue s q x).nextHandle = s.nextHandle ∧
    (setQueue s q x).origWait = s.origWait ∧ (setQueue s q x).meters = s.meters ∧ (setQueue s q x).gates = s.gates ∧
    (setQueue s q x).streams = s.streams ∧ (setQueue s q x).msgs = s.msgs ∧ (setQueue s q x).jobs = s.jobs ∧
    (setQueue s q x).slots = s.slots ∧ (setQueue s q x).heldPkts = s.heldPkts ∧
    (setQueue s q x).pendingPosts = s.pendingPosts ∧ (setQueue s q x).unloadHeld = s.unloadHeld ∧
    (setQueue s q x).loads = s.loads ∧ (setQueue s q x).seals = s.seals ∧ (setQueue s q x).batch = s.batch ∧
    (setQueue s q x).lastBatch = s.lastBatch ∧ (setQueue s q x).sessions = s.sessions ∧
    (setQueue s q x).latches = s.latches ∧ (setQueue s q x).nextSession = s.nextSession ∧
    (setQueue s q x).evtSeq = s.evtSeq ∧ (setQueue s q x).transfers = s.transfers ∧
    (setQueue s q x).heldReqs = s.heldReqs ∧ (setQueue s q x).attests = s.attests ∧ (setQueue s q x).flash = s.flash ∧
    (setQueue s q x).audit = s.audit ∧ (setQueue s q x).fuses = s.fuses ∧ (setQueue s q x).alwaysOn = s.alwaysOn ∧
    (setQueue s q x).faults = s.faults ∧ (setQueue s q x).swath = s.swath ∧ (setQueue s q x).swathWait = s.swathWait ∧
    (setQueue s q x).timeSt = s.timeSt ∧ (setQueue s q x).reach = s.reach ∧ (setQueue s q x).hostSt = s.hostSt ∧
    (setQueue s q x).fw = s.fw ∧ (setQueue s q x).out = s.out ∧ (setQueue s q x).freeCtr = s.freeCtr ∧
    (setQueue s q x).pending = s.pending := by
  and_intros <;> rfl

/-- `setStream` changes only streams. -/
@[simp] theorem setStream_frame (s : State) (c : Nat) (x : Option Stream) :
    (setStream s c x).regs = s.regs ∧ (setStream s c x).ctrs = s.ctrs ∧ (setStream s c x).parts = s.parts ∧
    (setStream s c x).hand = s.hand ∧ (setStream s c x).crossings = s.crossings ∧ (setStream s c x).shadows = s.shadows ∧
    (setStream s c x).evCtrs = s.evCtrs ∧ (setStream s c x).mem = s.mem ∧ (setStream s c x).memSt = s.memSt ∧
    (setStream s c x).time = s.time ∧ (setStream s c x).uptime = s.uptime ∧ (setStream s c x).align = s.align ∧
    (setStream s c x).phase = s.phase ∧ (setStream s c x).bistRunning = s.bistRunning ∧ (setStream s c x).rails = s.rails ∧
    (setStream s c x).pace = s.pace ∧ (setStream s c x).ramps = s.ramps ∧ (setStream s c x).ports = s.ports ∧
    (setStream s c x).lanes = s.lanes ∧ (setStream s c x).stitches = s.stitches ∧ (setStream s c x).cells = s.cells ∧
    (setStream s c x).queues = s.queues ∧ (setStream s c x).deliv = s.deliv ∧ (setStream s c x).nextHandle = s.nextHandle ∧
    (setStream s c x).origWait = s.origWait ∧ (setStream s c x).meters = s.meters ∧ (setStream s c x).gates = s.gates ∧
    (setStream s c x).msgs = s.msgs ∧ (setStream s c x).jobs = s.jobs ∧ (setStream s c x).slots = s.slots ∧
    (setStream s c x).heldPkts = s.heldPkts ∧ (setStream s c x).pendingPosts = s.pendingPosts ∧
    (setStream s c x).unloadHeld = s.unloadHeld ∧ (setStream s c x).loads = s.loads ∧ (setStream s c x).seals = s.seals ∧
    (setStream s c x).batch = s.batch ∧ (setStream s c x).lastBatch = s.lastBatch ∧
    (setStream s c x).sessions = s.sessions ∧ (setStream s c x).latches = s.latches ∧
    (setStream s c x).nextSession = s.nextSession ∧ (setStream s c x).evtSeq = s.evtSeq ∧
    (setStream s c x).transfers = s.transfers ∧ (setStream s c x).heldReqs = s.heldReqs ∧
    (setStream s c x).attests = s.attests ∧ (setStream s c x).flash = s.flash ∧ (setStream s c x).audit = s.audit ∧
    (setStream s c x).fuses = s.fuses ∧ (setStream s c x).alwaysOn = s.alwaysOn ∧ (setStream s c x).faults = s.faults ∧
    (setStream s c x).swath = s.swath ∧ (setStream s c x).swathWait = s.swathWait ∧ (setStream s c x).timeSt = s.timeSt ∧
    (setStream s c x).reach = s.reach ∧ (setStream s c x).hostSt = s.hostSt ∧ (setStream s c x).fw = s.fw ∧
    (setStream s c x).out = s.out ∧ (setStream s c x).freeCtr = s.freeCtr ∧ (setStream s c x).pending = s.pending := by
  and_intros <;> rfl

/-- `setJob` changes only jobs. -/
@[simp] theorem setJob_frame (s : State) (n : Nat) (x : Option JobSt) :
    (setJob s n x).regs = s.regs ∧ (setJob s n x).ctrs = s.ctrs ∧ (setJob s n x).parts = s.parts ∧
    (setJob s n x).hand = s.hand ∧ (setJob s n x).crossings = s.crossings ∧ (setJob s n x).shadows = s.shadows ∧
    (setJob s n x).evCtrs = s.evCtrs ∧ (setJob s n x).mem = s.mem ∧ (setJob s n x).memSt = s.memSt ∧
    (setJob s n x).time = s.time ∧ (setJob s n x).uptime = s.uptime ∧ (setJob s n x).align = s.align ∧
    (setJob s n x).phase = s.phase ∧ (setJob s n x).bistRunning = s.bistRunning ∧ (setJob s n x).rails = s.rails ∧
    (setJob s n x).pace = s.pace ∧ (setJob s n x).ramps = s.ramps ∧ (setJob s n x).ports = s.ports ∧
    (setJob s n x).lanes = s.lanes ∧ (setJob s n x).stitches = s.stitches ∧ (setJob s n x).cells = s.cells ∧
    (setJob s n x).queues = s.queues ∧ (setJob s n x).deliv = s.deliv ∧ (setJob s n x).nextHandle = s.nextHandle ∧
    (setJob s n x).origWait = s.origWait ∧ (setJob s n x).meters = s.meters ∧ (setJob s n x).gates = s.gates ∧
    (setJob s n x).streams = s.streams ∧ (setJob s n x).msgs = s.msgs ∧ (setJob s n x).slots = s.slots ∧
    (setJob s n x).heldPkts = s.heldPkts ∧ (setJob s n x).pendingPosts = s.pendingPosts ∧
    (setJob s n x).unloadHeld = s.unloadHeld ∧ (setJob s n x).loads = s.loads ∧ (setJob s n x).seals = s.seals ∧
    (setJob s n x).batch = s.batch ∧ (setJob s n x).lastBatch = s.lastBatch ∧ (setJob s n x).sessions = s.sessions ∧
    (setJob s n x).latches = s.latches ∧ (setJob s n x).nextSession = s.nextSession ∧ (setJob s n x).evtSeq = s.evtSeq ∧
    (setJob s n x).transfers = s.transfers ∧ (setJob s n x).heldReqs = s.heldReqs ∧ (setJob s n x).attests = s.attests ∧
    (setJob s n x).flash = s.flash ∧ (setJob s n x).audit = s.audit ∧ (setJob s n x).fuses = s.fuses ∧
    (setJob s n x).alwaysOn = s.alwaysOn ∧ (setJob s n x).faults = s.faults ∧ (setJob s n x).swath = s.swath ∧
    (setJob s n x).swathWait = s.swathWait ∧ (setJob s n x).timeSt = s.timeSt ∧ (setJob s n x).reach = s.reach ∧
    (setJob s n x).hostSt = s.hostSt ∧ (setJob s n x).fw = s.fw ∧ (setJob s n x).out = s.out ∧
    (setJob s n x).freeCtr = s.freeCtr ∧ (setJob s n x).pending = s.pending := by
  and_intros <;> rfl

/-- `setSlot` changes only slots. -/
@[simp] theorem setSlot_frame (s : State) (i : Nat) (x : Option SlotSt) :
    (setSlot s i x).regs = s.regs ∧ (setSlot s i x).ctrs = s.ctrs ∧ (setSlot s i x).parts = s.parts ∧
    (setSlot s i x).hand = s.hand ∧ (setSlot s i x).crossings = s.crossings ∧ (setSlot s i x).shadows = s.shadows ∧
    (setSlot s i x).evCtrs = s.evCtrs ∧ (setSlot s i x).mem = s.mem ∧ (setSlot s i x).memSt = s.memSt ∧
    (setSlot s i x).time = s.time ∧ (setSlot s i x).uptime = s.uptime ∧ (setSlot s i x).align = s.align ∧
    (setSlot s i x).phase = s.phase ∧ (setSlot s i x).bistRunning = s.bistRunning ∧ (setSlot s i x).rails = s.rails ∧
    (setSlot s i x).pace = s.pace ∧ (setSlot s i x).ramps = s.ramps ∧ (setSlot s i x).ports = s.ports ∧
    (setSlot s i x).lanes = s.lanes ∧ (setSlot s i x).stitches = s.stitches ∧ (setSlot s i x).cells = s.cells ∧
    (setSlot s i x).queues = s.queues ∧ (setSlot s i x).deliv = s.deliv ∧ (setSlot s i x).nextHandle = s.nextHandle ∧
    (setSlot s i x).origWait = s.origWait ∧ (setSlot s i x).meters = s.meters ∧ (setSlot s i x).gates = s.gates ∧
    (setSlot s i x).streams = s.streams ∧ (setSlot s i x).msgs = s.msgs ∧ (setSlot s i x).jobs = s.jobs ∧
    (setSlot s i x).heldPkts = s.heldPkts ∧ (setSlot s i x).pendingPosts = s.pendingPosts ∧
    (setSlot s i x).unloadHeld = s.unloadHeld ∧ (setSlot s i x).loads = s.loads ∧ (setSlot s i x).seals = s.seals ∧
    (setSlot s i x).batch = s.batch ∧ (setSlot s i x).lastBatch = s.lastBatch ∧ (setSlot s i x).sessions = s.sessions ∧
    (setSlot s i x).latches = s.latches ∧ (setSlot s i x).nextSession = s.nextSession ∧ (setSlot s i x).evtSeq = s.evtSeq ∧
    (setSlot s i x).transfers = s.transfers ∧ (setSlot s i x).heldReqs = s.heldReqs ∧ (setSlot s i x).attests = s.attests ∧
    (setSlot s i x).flash = s.flash ∧ (setSlot s i x).audit = s.audit ∧ (setSlot s i x).fuses = s.fuses ∧
    (setSlot s i x).alwaysOn = s.alwaysOn ∧ (setSlot s i x).faults = s.faults ∧ (setSlot s i x).swath = s.swath ∧
    (setSlot s i x).swathWait = s.swathWait ∧ (setSlot s i x).timeSt = s.timeSt ∧ (setSlot s i x).reach = s.reach ∧
    (setSlot s i x).hostSt = s.hostSt ∧ (setSlot s i x).fw = s.fw ∧ (setSlot s i x).out = s.out ∧
    (setSlot s i x).freeCtr = s.freeCtr ∧ (setSlot s i x).pending = s.pending := by
  and_intros <;> rfl

/-- `setSession` changes only sessions. -/
@[simp] theorem setSession_frame (s : State) (i : Nat) (x : Option Session) :
    (setSession s i x).regs = s.regs ∧ (setSession s i x).ctrs = s.ctrs ∧ (setSession s i x).parts = s.parts ∧
    (setSession s i x).hand = s.hand ∧ (setSession s i x).crossings = s.crossings ∧
    (setSession s i x).shadows = s.shadows ∧ (setSession s i x).evCtrs = s.evCtrs ∧ (setSession s i x).mem = s.mem ∧
    (setSession s i x).memSt = s.memSt ∧ (setSession s i x).time = s.time ∧ (setSession s i x).uptime = s.uptime ∧
    (setSession s i x).align = s.align ∧ (setSession s i x).phase = s.phase ∧
    (setSession s i x).bistRunning = s.bistRunning ∧ (setSession s i x).rails = s.rails ∧
    (setSession s i x).pace = s.pace ∧ (setSession s i x).ramps = s.ramps ∧ (setSession s i x).ports = s.ports ∧
    (setSession s i x).lanes = s.lanes ∧ (setSession s i x).stitches = s.stitches ∧ (setSession s i x).cells = s.cells ∧
    (setSession s i x).queues = s.queues ∧ (setSession s i x).deliv = s.deliv ∧
    (setSession s i x).nextHandle = s.nextHandle ∧ (setSession s i x).origWait = s.origWait ∧
    (setSession s i x).meters = s.meters ∧ (setSession s i x).gates = s.gates ∧ (setSession s i x).streams = s.streams ∧
    (setSession s i x).msgs = s.msgs ∧ (setSession s i x).jobs = s.jobs ∧ (setSession s i x).slots = s.slots ∧
    (setSession s i x).heldPkts = s.heldPkts ∧ (setSession s i x).pendingPosts = s.pendingPosts ∧
    (setSession s i x).unloadHeld = s.unloadHeld ∧ (setSession s i x).loads = s.loads ∧
    (setSession s i x).seals = s.seals ∧ (setSession s i x).batch = s.batch ∧ (setSession s i x).lastBatch = s.lastBatch ∧
    (setSession s i x).latches = s.latches ∧ (setSession s i x).nextSession = s.nextSession ∧
    (setSession s i x).evtSeq = s.evtSeq ∧ (setSession s i x).transfers = s.transfers ∧
    (setSession s i x).heldReqs = s.heldReqs ∧ (setSession s i x).attests = s.attests ∧
    (setSession s i x).flash = s.flash ∧ (setSession s i x).audit = s.audit ∧ (setSession s i x).fuses = s.fuses ∧
    (setSession s i x).alwaysOn = s.alwaysOn ∧ (setSession s i x).faults = s.faults ∧ (setSession s i x).swath = s.swath ∧
    (setSession s i x).swathWait = s.swathWait ∧ (setSession s i x).timeSt = s.timeSt ∧
    (setSession s i x).reach = s.reach ∧ (setSession s i x).hostSt = s.hostSt ∧ (setSession s i x).fw = s.fw ∧
    (setSession s i x).out = s.out ∧ (setSession s i x).freeCtr = s.freeCtr ∧ (setSession s i x).pending = s.pending := by
  and_intros <;> rfl

/-- `setDeliv` changes only deliv. -/
@[simp] theorem setDeliv_frame (s : State) (h : Nat) (x : Option Delivery) :
    (setDeliv s h x).regs = s.regs ∧ (setDeliv s h x).ctrs = s.ctrs ∧ (setDeliv s h x).parts = s.parts ∧
    (setDeliv s h x).hand = s.hand ∧ (setDeliv s h x).crossings = s.crossings ∧ (setDeliv s h x).shadows = s.shadows ∧
    (setDeliv s h x).evCtrs = s.evCtrs ∧ (setDeliv s h x).mem = s.mem ∧ (setDeliv s h x).memSt = s.memSt ∧
    (setDeliv s h x).time = s.time ∧ (setDeliv s h x).uptime = s.uptime ∧ (setDeliv s h x).align = s.align ∧
    (setDeliv s h x).phase = s.phase ∧ (setDeliv s h x).bistRunning = s.bistRunning ∧ (setDeliv s h x).rails = s.rails ∧
    (setDeliv s h x).pace = s.pace ∧ (setDeliv s h x).ramps = s.ramps ∧ (setDeliv s h x).ports = s.ports ∧
    (setDeliv s h x).lanes = s.lanes ∧ (setDeliv s h x).stitches = s.stitches ∧ (setDeliv s h x).cells = s.cells ∧
    (setDeliv s h x).queues = s.queues ∧ (setDeliv s h x).nextHandle = s.nextHandle ∧
    (setDeliv s h x).origWait = s.origWait ∧ (setDeliv s h x).meters = s.meters ∧ (setDeliv s h x).gates = s.gates ∧
    (setDeliv s h x).streams = s.streams ∧ (setDeliv s h x).msgs = s.msgs ∧ (setDeliv s h x).jobs = s.jobs ∧
    (setDeliv s h x).slots = s.slots ∧ (setDeliv s h x).heldPkts = s.heldPkts ∧
    (setDeliv s h x).pendingPosts = s.pendingPosts ∧ (setDeliv s h x).unloadHeld = s.unloadHeld ∧
    (setDeliv s h x).loads = s.loads ∧ (setDeliv s h x).seals = s.seals ∧ (setDeliv s h x).batch = s.batch ∧
    (setDeliv s h x).lastBatch = s.lastBatch ∧ (setDeliv s h x).sessions = s.sessions ∧
    (setDeliv s h x).latches = s.latches ∧ (setDeliv s h x).nextSession = s.nextSession ∧
    (setDeliv s h x).evtSeq = s.evtSeq ∧ (setDeliv s h x).transfers = s.transfers ∧
    (setDeliv s h x).heldReqs = s.heldReqs ∧ (setDeliv s h x).attests = s.attests ∧ (setDeliv s h x).flash = s.flash ∧
    (setDeliv s h x).audit = s.audit ∧ (setDeliv s h x).fuses = s.fuses ∧ (setDeliv s h x).alwaysOn = s.alwaysOn ∧
    (setDeliv s h x).faults = s.faults ∧ (setDeliv s h x).swath = s.swath ∧ (setDeliv s h x).swathWait = s.swathWait ∧
    (setDeliv s h x).timeSt = s.timeSt ∧ (setDeliv s h x).reach = s.reach ∧ (setDeliv s h x).hostSt = s.hostSt ∧
    (setDeliv s h x).fw = s.fw ∧ (setDeliv s h x).out = s.out ∧ (setDeliv s h x).freeCtr = s.freeCtr ∧
    (setDeliv s h x).pending = s.pending := by
  and_intros <;> rfl

/-- `setEvCtr` changes only evCtrs. -/
@[simp] theorem setEvCtr_frame (s : State) (c : Nat) (v : Dword) :
    (setEvCtr s c v).regs = s.regs ∧ (setEvCtr s c v).ctrs = s.ctrs ∧ (setEvCtr s c v).parts = s.parts ∧
    (setEvCtr s c v).hand = s.hand ∧ (setEvCtr s c v).crossings = s.crossings ∧ (setEvCtr s c v).shadows = s.shadows ∧
    (setEvCtr s c v).mem = s.mem ∧ (setEvCtr s c v).memSt = s.memSt ∧ (setEvCtr s c v).time = s.time ∧
    (setEvCtr s c v).uptime = s.uptime ∧ (setEvCtr s c v).align = s.align ∧ (setEvCtr s c v).phase = s.phase ∧
    (setEvCtr s c v).bistRunning = s.bistRunning ∧ (setEvCtr s c v).rails = s.rails ∧ (setEvCtr s c v).pace = s.pace ∧
    (setEvCtr s c v).ramps = s.ramps ∧ (setEvCtr s c v).ports = s.ports ∧ (setEvCtr s c v).lanes = s.lanes ∧
    (setEvCtr s c v).stitches = s.stitches ∧ (setEvCtr s c v).cells = s.cells ∧ (setEvCtr s c v).queues = s.queues ∧
    (setEvCtr s c v).deliv = s.deliv ∧ (setEvCtr s c v).nextHandle = s.nextHandle ∧
    (setEvCtr s c v).origWait = s.origWait ∧ (setEvCtr s c v).meters = s.meters ∧ (setEvCtr s c v).gates = s.gates ∧
    (setEvCtr s c v).streams = s.streams ∧ (setEvCtr s c v).msgs = s.msgs ∧ (setEvCtr s c v).jobs = s.jobs ∧
    (setEvCtr s c v).slots = s.slots ∧ (setEvCtr s c v).heldPkts = s.heldPkts ∧
    (setEvCtr s c v).pendingPosts = s.pendingPosts ∧ (setEvCtr s c v).unloadHeld = s.unloadHeld ∧
    (setEvCtr s c v).loads = s.loads ∧ (setEvCtr s c v).seals = s.seals ∧ (setEvCtr s c v).batch = s.batch ∧
    (setEvCtr s c v).lastBatch = s.lastBatch ∧ (setEvCtr s c v).sessions = s.sessions ∧
    (setEvCtr s c v).latches = s.latches ∧ (setEvCtr s c v).nextSession = s.nextSession ∧
    (setEvCtr s c v).evtSeq = s.evtSeq ∧ (setEvCtr s c v).transfers = s.transfers ∧
    (setEvCtr s c v).heldReqs = s.heldReqs ∧ (setEvCtr s c v).attests = s.attests ∧ (setEvCtr s c v).flash = s.flash ∧
    (setEvCtr s c v).audit = s.audit ∧ (setEvCtr s c v).fuses = s.fuses ∧ (setEvCtr s c v).alwaysOn = s.alwaysOn ∧
    (setEvCtr s c v).faults = s.faults ∧ (setEvCtr s c v).swath = s.swath ∧ (setEvCtr s c v).swathWait = s.swathWait ∧
    (setEvCtr s c v).timeSt = s.timeSt ∧ (setEvCtr s c v).reach = s.reach ∧ (setEvCtr s c v).hostSt = s.hostSt ∧
    (setEvCtr s c v).fw = s.fw ∧ (setEvCtr s c v).out = s.out ∧ (setEvCtr s c v).freeCtr = s.freeCtr ∧
    (setEvCtr s c v).pending = s.pending := by
  and_intros <;> rfl

/-- `memWrite` changes only mem and memSt. -/
@[simp] theorem memWrite_frame (s : State) (a : Nat) (b : Byte) :
    (memWrite s a b).regs = s.regs ∧ (memWrite s a b).ctrs = s.ctrs ∧ (memWrite s a b).parts = s.parts ∧
    (memWrite s a b).hand = s.hand ∧ (memWrite s a b).crossings = s.crossings ∧ (memWrite s a b).shadows = s.shadows ∧
    (memWrite s a b).evCtrs = s.evCtrs ∧ (memWrite s a b).time = s.time ∧ (memWrite s a b).uptime = s.uptime ∧
    (memWrite s a b).align = s.align ∧ (memWrite s a b).phase = s.phase ∧ (memWrite s a b).bistRunning = s.bistRunning ∧
    (memWrite s a b).rails = s.rails ∧ (memWrite s a b).pace = s.pace ∧ (memWrite s a b).ramps = s.ramps ∧
    (memWrite s a b).ports = s.ports ∧ (memWrite s a b).lanes = s.lanes ∧ (memWrite s a b).stitches = s.stitches ∧
    (memWrite s a b).cells = s.cells ∧ (memWrite s a b).queues = s.queues ∧ (memWrite s a b).deliv = s.deliv ∧
    (memWrite s a b).nextHandle = s.nextHandle ∧ (memWrite s a b).origWait = s.origWait ∧
    (memWrite s a b).meters = s.meters ∧ (memWrite s a b).gates = s.gates ∧ (memWrite s a b).streams = s.streams ∧
    (memWrite s a b).msgs = s.msgs ∧ (memWrite s a b).jobs = s.jobs ∧ (memWrite s a b).slots = s.slots ∧
    (memWrite s a b).heldPkts = s.heldPkts ∧ (memWrite s a b).pendingPosts = s.pendingPosts ∧
    (memWrite s a b).unloadHeld = s.unloadHeld ∧ (memWrite s a b).loads = s.loads ∧ (memWrite s a b).seals = s.seals ∧
    (memWrite s a b).batch = s.batch ∧ (memWrite s a b).lastBatch = s.lastBatch ∧ (memWrite s a b).sessions = s.sessions ∧
    (memWrite s a b).latches = s.latches ∧ (memWrite s a b).nextSession = s.nextSession ∧
    (memWrite s a b).evtSeq = s.evtSeq ∧ (memWrite s a b).transfers = s.transfers ∧
    (memWrite s a b).heldReqs = s.heldReqs ∧ (memWrite s a b).attests = s.attests ∧ (memWrite s a b).flash = s.flash ∧
    (memWrite s a b).audit = s.audit ∧ (memWrite s a b).fuses = s.fuses ∧ (memWrite s a b).alwaysOn = s.alwaysOn ∧
    (memWrite s a b).faults = s.faults ∧ (memWrite s a b).swath = s.swath ∧ (memWrite s a b).swathWait = s.swathWait ∧
    (memWrite s a b).timeSt = s.timeSt ∧ (memWrite s a b).reach = s.reach ∧ (memWrite s a b).hostSt = s.hostSt ∧
    (memWrite s a b).fw = s.fw ∧ (memWrite s a b).out = s.out ∧ (memWrite s a b).freeCtr = s.freeCtr ∧
    (memWrite s a b).pending = s.pending := by
  and_intros <;> rfl

/-- `memZero` changes only mem and memSt. -/
@[simp] theorem memZero_frame (s : State) (lo n : Nat) :
    (memZero s lo n).regs = s.regs ∧ (memZero s lo n).ctrs = s.ctrs ∧ (memZero s lo n).parts = s.parts ∧
    (memZero s lo n).hand = s.hand ∧ (memZero s lo n).crossings = s.crossings ∧ (memZero s lo n).shadows = s.shadows ∧
    (memZero s lo n).evCtrs = s.evCtrs ∧ (memZero s lo n).time = s.time ∧ (memZero s lo n).uptime = s.uptime ∧
    (memZero s lo n).align = s.align ∧ (memZero s lo n).phase = s.phase ∧ (memZero s lo n).bistRunning = s.bistRunning ∧
    (memZero s lo n).rails = s.rails ∧ (memZero s lo n).pace = s.pace ∧ (memZero s lo n).ramps = s.ramps ∧
    (memZero s lo n).ports = s.ports ∧ (memZero s lo n).lanes = s.lanes ∧ (memZero s lo n).stitches = s.stitches ∧
    (memZero s lo n).cells = s.cells ∧ (memZero s lo n).queues = s.queues ∧ (memZero s lo n).deliv = s.deliv ∧
    (memZero s lo n).nextHandle = s.nextHandle ∧ (memZero s lo n).origWait = s.origWait ∧
    (memZero s lo n).meters = s.meters ∧ (memZero s lo n).gates = s.gates ∧ (memZero s lo n).streams = s.streams ∧
    (memZero s lo n).msgs = s.msgs ∧ (memZero s lo n).jobs = s.jobs ∧ (memZero s lo n).slots = s.slots ∧
    (memZero s lo n).heldPkts = s.heldPkts ∧ (memZero s lo n).pendingPosts = s.pendingPosts ∧
    (memZero s lo n).unloadHeld = s.unloadHeld ∧ (memZero s lo n).loads = s.loads ∧ (memZero s lo n).seals = s.seals ∧
    (memZero s lo n).batch = s.batch ∧ (memZero s lo n).lastBatch = s.lastBatch ∧ (memZero s lo n).sessions = s.sessions ∧
    (memZero s lo n).latches = s.latches ∧ (memZero s lo n).nextSession = s.nextSession ∧
    (memZero s lo n).evtSeq = s.evtSeq ∧ (memZero s lo n).transfers = s.transfers ∧
    (memZero s lo n).heldReqs = s.heldReqs ∧ (memZero s lo n).attests = s.attests ∧ (memZero s lo n).flash = s.flash ∧
    (memZero s lo n).audit = s.audit ∧ (memZero s lo n).fuses = s.fuses ∧ (memZero s lo n).alwaysOn = s.alwaysOn ∧
    (memZero s lo n).faults = s.faults ∧ (memZero s lo n).swath = s.swath ∧ (memZero s lo n).swathWait = s.swathWait ∧
    (memZero s lo n).timeSt = s.timeSt ∧ (memZero s lo n).reach = s.reach ∧ (memZero s lo n).hostSt = s.hostSt ∧
    (memZero s lo n).fw = s.fw ∧ (memZero s lo n).out = s.out ∧ (memZero s lo n).freeCtr = s.freeCtr ∧
    (memZero s lo n).pending = s.pending := by
  and_intros <;> rfl

/-- `emit` changes only out. -/
@[simp] theorem emit_frame (s : State) (o : Output) :
    (emit s o).regs = s.regs ∧ (emit s o).ctrs = s.ctrs ∧ (emit s o).parts = s.parts ∧ (emit s o).hand = s.hand ∧
    (emit s o).crossings = s.crossings ∧ (emit s o).shadows = s.shadows ∧ (emit s o).evCtrs = s.evCtrs ∧
    (emit s o).mem = s.mem ∧ (emit s o).memSt = s.memSt ∧ (emit s o).time = s.time ∧ (emit s o).uptime = s.uptime ∧
    (emit s o).align = s.align ∧ (emit s o).phase = s.phase ∧ (emit s o).bistRunning = s.bistRunning ∧
    (emit s o).rails = s.rails ∧ (emit s o).pace = s.pace ∧ (emit s o).ramps = s.ramps ∧ (emit s o).ports = s.ports ∧
    (emit s o).lanes = s.lanes ∧ (emit s o).stitches = s.stitches ∧ (emit s o).cells = s.cells ∧
    (emit s o).queues = s.queues ∧ (emit s o).deliv = s.deliv ∧ (emit s o).nextHandle = s.nextHandle ∧
    (emit s o).origWait = s.origWait ∧ (emit s o).meters = s.meters ∧ (emit s o).gates = s.gates ∧
    (emit s o).streams = s.streams ∧ (emit s o).msgs = s.msgs ∧ (emit s o).jobs = s.jobs ∧ (emit s o).slots = s.slots ∧
    (emit s o).heldPkts = s.heldPkts ∧ (emit s o).pendingPosts = s.pendingPosts ∧ (emit s o).unloadHeld = s.unloadHeld ∧
    (emit s o).loads = s.loads ∧ (emit s o).seals = s.seals ∧ (emit s o).batch = s.batch ∧
    (emit s o).lastBatch = s.lastBatch ∧ (emit s o).sessions = s.sessions ∧ (emit s o).latches = s.latches ∧
    (emit s o).nextSession = s.nextSession ∧ (emit s o).evtSeq = s.evtSeq ∧ (emit s o).transfers = s.transfers ∧
    (emit s o).heldReqs = s.heldReqs ∧ (emit s o).attests = s.attests ∧ (emit s o).flash = s.flash ∧
    (emit s o).audit = s.audit ∧ (emit s o).fuses = s.fuses ∧ (emit s o).alwaysOn = s.alwaysOn ∧
    (emit s o).faults = s.faults ∧ (emit s o).swath = s.swath ∧ (emit s o).swathWait = s.swathWait ∧
    (emit s o).timeSt = s.timeSt ∧ (emit s o).reach = s.reach ∧ (emit s o).hostSt = s.hostSt ∧ (emit s o).fw = s.fw ∧
    (emit s o).freeCtr = s.freeCtr ∧ (emit s o).pending = s.pending := by
  and_intros <;> rfl

/-- `draw` changes only freeCtr. -/
@[simp] theorem draw_frame (s : State) :
    (draw s).2.regs = s.regs ∧ (draw s).2.ctrs = s.ctrs ∧ (draw s).2.parts = s.parts ∧ (draw s).2.hand = s.hand ∧
    (draw s).2.crossings = s.crossings ∧ (draw s).2.shadows = s.shadows ∧ (draw s).2.evCtrs = s.evCtrs ∧
    (draw s).2.mem = s.mem ∧ (draw s).2.memSt = s.memSt ∧ (draw s).2.time = s.time ∧ (draw s).2.uptime = s.uptime ∧
    (draw s).2.align = s.align ∧ (draw s).2.phase = s.phase ∧ (draw s).2.bistRunning = s.bistRunning ∧
    (draw s).2.rails = s.rails ∧ (draw s).2.pace = s.pace ∧ (draw s).2.ramps = s.ramps ∧ (draw s).2.ports = s.ports ∧
    (draw s).2.lanes = s.lanes ∧ (draw s).2.stitches = s.stitches ∧ (draw s).2.cells = s.cells ∧
    (draw s).2.queues = s.queues ∧ (draw s).2.deliv = s.deliv ∧ (draw s).2.nextHandle = s.nextHandle ∧
    (draw s).2.origWait = s.origWait ∧ (draw s).2.meters = s.meters ∧ (draw s).2.gates = s.gates ∧
    (draw s).2.streams = s.streams ∧ (draw s).2.msgs = s.msgs ∧ (draw s).2.jobs = s.jobs ∧ (draw s).2.slots = s.slots ∧
    (draw s).2.heldPkts = s.heldPkts ∧ (draw s).2.pendingPosts = s.pendingPosts ∧ (draw s).2.unloadHeld = s.unloadHeld ∧
    (draw s).2.loads = s.loads ∧ (draw s).2.seals = s.seals ∧ (draw s).2.batch = s.batch ∧
    (draw s).2.lastBatch = s.lastBatch ∧ (draw s).2.sessions = s.sessions ∧ (draw s).2.latches = s.latches ∧
    (draw s).2.nextSession = s.nextSession ∧ (draw s).2.evtSeq = s.evtSeq ∧ (draw s).2.transfers = s.transfers ∧
    (draw s).2.heldReqs = s.heldReqs ∧ (draw s).2.attests = s.attests ∧ (draw s).2.flash = s.flash ∧
    (draw s).2.audit = s.audit ∧ (draw s).2.fuses = s.fuses ∧ (draw s).2.alwaysOn = s.alwaysOn ∧
    (draw s).2.faults = s.faults ∧ (draw s).2.swath = s.swath ∧ (draw s).2.swathWait = s.swathWait ∧
    (draw s).2.timeSt = s.timeSt ∧ (draw s).2.reach = s.reach ∧ (draw s).2.hostSt = s.hostSt ∧ (draw s).2.fw = s.fw ∧
    (draw s).2.out = s.out ∧ (draw s).2.pending = s.pending := by
  and_intros <;> rfl

end Sys2Proof.Machine
end

