-- ==== Sys2Proof/Laws/Ops.lean ====
section
/-! SUPPORT. What the shared operations read and write: a register, a field, a bit, a counter, an entry of a sparse part and a
byte of memory after an update, and what messages, events, records and reports leave alone. -/
namespace Sys2Proof.Machine

open Sys2Proof

/-! ## Registers -/

theorem rd_wr (s : State) (a b : Nat) (w : Word) : rd (wr s a w) b = if b = a then w else rd s b :=
  Sparse.get_set resetWord s.regs a b w

@[simp] theorem rd_wr_same (s : State) (a : Nat) (w : Word) : rd (wr s a w) a = w := by simp [rd_wr]

theorem rd_wr_ne (s : State) (a b : Nat) (w : Word) (h : b ≠ a) : rd (wr s a w) b = rd s b := by simp [rd_wr, h]

theorem rd_fset_ne (s : State) (a b hi lo v : Nat) (h : b ≠ a) : rd (fset s a hi lo v) b = rd s b := rd_wr_ne s a b _ h

theorem rd_setBit_ne (s : State) (a b k : Nat) (v : Bool) (h : b ≠ a) : rd (setBit s a k v) b = rd s b := rd_wr_ne s a b _ h

/-- A register reads the same where the register tables are equal. -/
theorem rd_congr {s t : State} (h : t.regs = s.regs) (a : Nat) : rd t a = rd s a := by simp [rd, h]
theorem bit_congr {s t : State} (h : t.regs = s.regs) (a b : Nat) : bit t a b = bit s a b := by simp [bit, rd_congr h]
theorem fget_congr {s t : State} (h : t.regs = s.regs) (a hi lo : Nat) : fget t a hi lo = fget s a hi lo := by
  simp [fget, rd_congr h]

/-- Bit `i` of the mask of bits [hi:lo]. -/
theorem maskOf_bit (hi lo i : Nat) (hl : lo ≤ hi) (h : hi < 32) :
    (maskOf hi lo).getLsbD i = (decide (lo ≤ i) && decide (i ≤ hi)) := by
  simp only [maskOf, BitVec.getLsbD_ofNat, Nat.testBit_shiftLeft, Nat.testBit_two_pow_sub_one]
  by_cases h1 : lo ≤ i <;> by_cases h2 : i ≤ hi <;> simp [h1, h2] <;> omega

/-- Bit `i` after bits [hi:lo] of a word take the low bits of `v`. -/
theorem putBits_bit (w : Word) (hi lo v i : Nat) (hl : lo ≤ hi) (h : hi < 32) :
    (putBits w hi lo v).getLsbD i = if lo ≤ i ∧ i ≤ hi then v.testBit (i - lo) else w.getLsbD i := by
  simp only [putBits, BitVec.getLsbD_or, BitVec.getLsbD_and, BitVec.getLsbD_not, maskOf_bit hi lo i hl h]
  by_cases h1 : lo ≤ i <;> by_cases h2 : i ≤ hi
  · have h3 : i < 32 := by omega
    have e : (BitVec.ofNat 32 (v <<< lo)).getLsbD i = v.testBit (i - lo) := by
      rw [BitVec.getLsbD_ofNat, Nat.testBit_shiftLeft]
      simp [h1, h3]
    rw [e]
    simp [h1, h2, h3]
  all_goals (by_cases h3 : i < 32 <;> simp [h1, h2, h3])
  all_goals (try (have := BitVec.getLsbD_of_ge w i (by omega); simp [this]))

theorem bit_fset (s : State) (a c hi lo v i : Nat) (hl : lo ≤ hi) (h : hi < 32) :
    bit (fset s a hi lo v) c i = if c = a ∧ lo ≤ i ∧ i ≤ hi then v.testBit (i - lo) else bit s c i := by
  by_cases hc : c = a
  · subst hc
    simp [bit, fset, putBits_bit _ _ _ _ _ hl h]
  · simp [bit, rd_fset_ne _ _ _ _ _ _ hc, hc]

/-- A bit of a register after one bit is set. -/
theorem bit_setBit (s : State) (a c b i : Nat) (v : Bool) (h : b < 32) :
    bit (setBit s a b v) c i = if c = a ∧ i = b then v else bit s c i := by
  rw [setBit, bit_fset _ _ _ _ _ _ _ (Nat.le_refl b) h]
  by_cases hc : c = a
  · by_cases hi : i = b
    · subst hi; cases v <;> simp [b2n, hc]
    · have : ¬(b ≤ i ∧ i ≤ b) := by omega
      simp [hc, hi, this]
  · simp [hc]

theorem bit_setBit_same (s : State) (a b : Nat) (v : Bool) (h : b < 32) : bit (setBit s a b v) a b = v := by
  simp [bit_setBit _ _ _ _ _ _ h]

theorem bitsOf_bit (w : Word) (hi lo i : Nat) :
    (bitsOf w hi lo).testBit i = (decide (i < hi + 1 - lo) && w.getLsbD (lo + i)) := by
  simp [bitsOf, Nat.testBit_mod_two_pow, Nat.testBit_shiftRight, BitVec.getLsbD]

/-- A field after it is set to a value that fits. -/
theorem bitsOf_putBits (w : Word) (hi lo v : Nat) (hl : lo ≤ hi) (h : hi < 32) (hv : v < 2 ^ (hi + 1 - lo)) :
    bitsOf (putBits w hi lo v) hi lo = v := by
  apply Nat.eq_of_testBit_eq
  intro i
  rw [bitsOf_bit, putBits_bit _ _ _ _ _ hl h]
  by_cases hi' : i < hi + 1 - lo
  · have h1 : lo ≤ lo + i ∧ lo + i ≤ hi := by omega
    simp [hi', h1]
  · have : v.testBit i = false := Nat.testBit_lt_two_pow (Nat.lt_of_lt_of_le hv (Nat.pow_le_pow_right (by omega) (by omega)))
    simp [hi', this]

theorem fget_fset_same (s : State) (a hi lo v : Nat) (hl : lo ≤ hi) (h : hi < 32) (hv : v < 2 ^ (hi + 1 - lo)) :
    fget (fset s a hi lo v) a hi lo = v := by
  simp [fget, fset, bitsOf_putBits _ _ _ _ hl h hv]

theorem fget_wr_ne (s : State) (a b hi lo : Nat) (w : Word) (h : b ≠ a) : fget (wr s a w) b hi lo = fget s b hi lo := by
  simp [fget, rd_wr_ne _ _ _ _ h]

/-- A field of a word that another field's update leaves alone. -/
theorem fget_fset_apart (s : State) (a hi lo v hi' lo' : Nat) (hl : lo ≤ hi) (h : hi < 32) (hd : hi' < lo ∨ hi < lo') :
    fget (fset s a hi lo v) a hi' lo' = fget s a hi' lo' := by
  simp only [fget, fset, rd_wr_same]
  apply Nat.eq_of_testBit_eq
  intro i
  rw [bitsOf_bit, bitsOf_bit, putBits_bit _ _ _ _ _ hl h]
  by_cases hi1 : i < hi' + 1 - lo'
  · have : ¬(lo ≤ lo' + i ∧ lo' + i ≤ hi) := by omega
    simp [hi1, this]
  · simp [hi1]

/-! ## Counters and the sparse parts -/

theorem ctrGet_ctrAdd (s : State) (p i n q j : Nat) :
    ctrGet (ctrAdd s p i n) q j = if q + 0x800 + 8 * j = p + 0x800 + 8 * i then ctrGet s p i + BitVec.ofNat 64 n else ctrGet s q j :=
  Sparse.get_set _ _ _ _ _

/-- A counter advances by exactly what it counts, modulo 2^64 (R387). -/
@[simp] theorem ctrGet_ctrAdd_same (s : State) (p i n : Nat) : ctrGet (ctrAdd s p i n) p i = ctrGet s p i + BitVec.ofNat 64 n := by
  simp [ctrGet_ctrAdd]

theorem ctrGet_congr {s t : State} (h : t.ctrs = s.ctrs) (p i : Nat) : ctrGet t p i = ctrGet s p i := by simp [ctrGet, h]

theorem getPort_setPort (s : State) (p q : Nat) (x : PortSt) : getPort (setPort s p x) q = if q = p then x else getPort s q :=
  Sparse.get_set _ _ _ _ _
@[simp] theorem getPort_setPort_same (s : State) (p : Nat) (x : PortSt) : getPort (setPort s p x) p = x := by simp [getPort_setPort]
@[simp] theorem getPort_modPort_same (s : State) (p : Nat) (f : PortSt → PortSt) : getPort (modPort s p f) p = f (getPort s p) := by
  simp [modPort]
theorem getStitch_setStitch (s : State) (p q : Nat) (x : StitchSt) :
    getStitch (setStitch s p x) q = if q = p then x else getStitch s q := Sparse.get_set _ _ _ _ _
theorem getCell_setCell (s : State) (p q : Nat) (x : Cell) : getCell (setCell s p x) q = if q = p then x else getCell s q :=
  Sparse.get_set _ _ _ _ _
theorem getQueue_setQueue (s : State) (p q : Nat) (x : List QEntry) :
    getQueue (setQueue s p x) q = if q = p then x else getQueue s q := Sparse.get_set _ _ _ _ _
theorem getStream_setStream (s : State) (p q : Nat) (x : Option Stream) :
    getStream (setStream s p x) q = if q = p then x else getStream s q := Sparse.get_set _ _ _ _ _
theorem getJob_setJob (s : State) (p q : Nat) (x : Option JobSt) : getJob (setJob s p x) q = if q = p then x else getJob s q :=
  Sparse.get_set _ _ _ _ _
theorem getSlot_setSlot (s : State) (p q : Nat) (x : Option SlotSt) : getSlot (setSlot s p x) q = if q = p then x else getSlot s q :=
  Sparse.get_set _ _ _ _ _
theorem getSession_setSession (s : State) (p q : Nat) (x : Option Session) :
    getSession (setSession s p x) q = if q = p then x else getSession s q := Sparse.get_set _ _ _ _ _
@[simp] theorem getSession_setSession_same (s : State) (p : Nat) (x : Option Session) :
    getSession (setSession s p x) p = x := by simp [getSession_setSession]
theorem getDeliv_setDeliv (s : State) (p q : Nat) (x : Option Delivery) :
    getDeliv (setDeliv s p x) q = if q = p then x else getDeliv s q := Sparse.get_set _ _ _ _ _
theorem getEvCtr_setEvCtr (s : State) (c d : Nat) (v : Dword) : getEvCtr (setEvCtr s c v) d = if d = c then v else getEvCtr s d :=
  Sparse.get_set _ _ _ _ _

/-! ## Memory -/

/-- A byte of memory after one byte is written. -/
theorem memRead_memWrite (s : State) (a b : Nat) (v : Byte) : memRead (memWrite s a v) b = if b = a then v else memRead s b :=
  Sparse.get_set _ _ _ _ _

/-- A byte of memory after bytes are stored from `a` upwards. -/
theorem memRead_memStore (s : State) (a b : Nat) (bs : List Byte) :
    memRead (memStore s a bs) b = if a ≤ b ∧ b < a + bs.length then bs.getD (b - a) 0 else memRead s b := by
  induction bs generalizing s a with
  | nil =>
    have : ¬(a ≤ b ∧ b < a) := by omega
    simp [memStore, this]
  | cons v bs ih =>
    simp only [memStore, ih, memRead_memWrite, List.length_cons]
    by_cases h1 : b = a
    · subst h1
      have : ¬(b + 1 ≤ b ∧ b < b + 1 + bs.length) := by omega
      simp [this]
    · by_cases h2 : a + 1 ≤ b ∧ b < a + 1 + bs.length
      · have h3 : a ≤ b ∧ b < a + (bs.length + 1) := by omega
        have h4 : b - a = (b - (a + 1)) + 1 := by omega
        rw [if_pos h2, if_pos h3, h4]
        simp
      · have h3 : ¬(a ≤ b ∧ b < a + (bs.length + 1)) := by omega
        rw [if_neg h2, if_neg h3, if_neg h1]

theorem memory_wf_memWrite (s : State) (a : Nat) (v : Byte) (h : Memory.wf s.mem = true) : Memory.wf (memWrite s a v).mem = true :=
  Sparse.wf_set _ _ _ _ h

theorem memory_wf_memStore (s : State) (a : Nat) (bs : List Byte) (h : Memory.wf s.mem = true) :
    Memory.wf (memStore s a bs).mem = true := by
  induction bs generalizing s a with
  | nil => exact h
  | cons v bs ih => exact ih _ _ (memory_wf_memWrite s a v h)

theorem memory_wf_memZero (s : State) (lo n : Nat) (h : Memory.wf s.mem = true) : Memory.wf (memZero s lo n).mem = true :=
  Sparse.wf_eraseRange _ _ _ _ h

theorem memory_wf_reset : Memory.wf State.reset.mem = true := rfl

/-! ## Messages, events, records and reports -/

/-- A message leaves every register as it was. -/
@[simp] theorem sendMsg_regs (s : State) (sid ty msgNum flags status : Nat) (body : List Byte) :
    (sendMsg s sid ty msgNum flags status body).regs = s.regs := by
  unfold sendMsg
  split
  · rfl
  · dsimp only
    split <;> simp

@[simp] theorem sendError_regs (s : State) (sid msgNum status : Nat) : (sendError s sid msgNum status).regs = s.regs := by
  simp [sendError]

@[simp] theorem sendPageEvent_regs (s : State) (sid : Nat) (x : Session) (page : Nat) (v : Word) :
    (sendPageEvent s sid x page v).regs = s.regs := by
  simp [sendPageEvent]

@[simp] theorem notifySession_regs (s : State) (page sid : Nat) : (notifySession s page sid).regs = s.regs := by
  unfold notifySession
  repeat' split
  all_goals simp
  all_goals (repeat' split)
  all_goals simp

@[simp] theorem notify_regs (s : State) (page : Nat) : (notify s page).regs = s.regs := by
  unfold notify
  generalize s.sessions.map (·.1) = l
  induction l generalizing s with
  | nil => rfl
  | cons x l ih => simp [ih]

/-- An event of a page sets its bit of EVT_STATUS and no other register bit (R404). -/
theorem bit_raise (s : State) (p b a i : Nat) (h : b < 32) :
    bit (raise s p b) a i = if a = p + 0x10 ∧ i = b then true else bit s a i := by
  rw [raise, bit_congr (notify_regs _ _), bit_setBit _ _ _ _ _ _ h]

theorem rd_raise_ne (s : State) (p b a : Nat) (h : a ≠ p + 0x10) : rd (raise s p b) a = rd s a := by
  rw [raise, rd_congr (notify_regs _ _), rd_setBit_ne _ _ _ _ _ h]

/-- An audit record leaves everything but the audit state as it was. -/
theorem auditOne_frame (s : State) (kind role result subject session : Nat) (detail : List Byte) (sets : List Setting) :
    auditOne s kind role result subject session detail sets =
      { s with audit := (auditOne s kind role result subject session detail sets).audit } := rfl

theorem auditAdd_frame (s : State) (kind role result subject session : Nat) (detail : List Byte) (sets : List Setting) :
    auditAdd s kind role result subject session detail sets =
      { s with audit := (auditAdd s kind role result subject session detail sets).audit } := by
  unfold auditAdd
  dsimp only
  split <;> rfl

@[simp] theorem auditAdd_regs (s : State) (kind role result subject session : Nat) (detail : List Byte) (sets : List Setting) :
    (auditAdd s kind role result subject session detail sets).regs = s.regs := by rw [auditAdd_frame]

theorem auditDevice_frame (s : State) (kind result subject : Nat) (detail : List Byte) :
    auditDevice s kind result subject detail = { s with audit := (auditDevice s kind result subject detail).audit } :=
  auditAdd_frame s kind 3 result subject 0 detail []

@[simp] theorem auditDevice_regs (s : State) (kind result subject : Nat) (detail : List Byte) :
    (auditDevice s kind result subject detail).regs = s.regs := by rw [auditDevice_frame]

/-- A record advances SEQ (R341). -/
theorem auditAdd_nextSeq (s : State) (kind role result subject session : Nat) (detail : List Byte) (sets : List Setting) :
    s.audit.nextSeq < (auditAdd s kind role result subject session detail sets).audit.nextSeq := by
  unfold auditAdd
  dsimp only
  split
  · show s.audit.nextSeq < s.audit.nextSeq + 1 + 1; omega
  · show s.audit.nextSeq < s.audit.nextSeq + 1; omega

/-- A report joins the collector's queue at its end (R354). -/
@[simp] theorem report_reported (s : State) (r : FaultRec) : (report s r).faults.reported = s.faults.reported ++ [r] := by
  unfold report queueReport
  split <;> simp

end Sys2Proof.Machine
end

