-- ==== Sys2Proof/Laws/Fallow.lean ====
section
/-! SUPPORT. Entering the fallow state: what the entry does on its way leaves FALLOW set, so a fatal record takes the device
fallow (R348, R351, R360). -/
namespace Sys2Proof.Machine

open Sys2Proof

/-- From `s` to `t` the device stays fallow. -/
structure FallowStays (s t : State) : Prop where
  get : fallow s = true → fallow t = true

theorem stays_frame {s0 : State} (s : State) (ctrs₁ : Sparse Dword) (parts₁ : Sparse Dword) (hand₁ : Option (Nat × Nat))
     (crossings₁ : Sparse CrossSt) (shadows₁ : Sparse Dword) (evCtrs₁ : Sparse Dword) (mem₁ : List Host.Cell)
     (memSt₁ : MemSt) (time₁ : Nat) (uptime₁ : Nat) (align₁ : Option Nat) (phase₁ : Phase) (bistRunning₁ : Bool)
     (rails₁ : List Nat) (pace₁ : Sparse (Option Nat)) (ramps₁ : List (Nat × Bool)) (ports₁ : Sparse PortSt)
     (lanes₁ : Sparse LaneTrain) (stitches₁ : Sparse StitchSt) (cells₁ : Sparse Cell) (queues₁ : Sparse (List QEntry))
     (deliv₁ : Sparse (Option Delivery)) (nextHandle₁ : Nat) (origWait₁ : List OrigWait) (meters₁ : Sparse MeterSt)
     (gates₁ : Sparse GateSt) (streams₁ : Sparse (Option Stream)) (msgs₁ : List MsgSt) (jobs₁ : Sparse (Option JobSt))
     (slots₁ : Sparse (Option SlotSt)) (heldPkts₁ : Sparse (List (Pkt × Option Nat × Option Nat)))
     (pendingPosts₁ : Sparse Nat) (unloadHeld₁ : List Nat) (loads₁ : List (Nat × Nat × Nat)) (seals₁ : List SealRec)
     (batch₁ : Option Batch) (lastBatch₁ : List Batch) (sessions₁ : Sparse (Option Session))
     (latches₁ : Sparse (Option Word)) (nextSession₁ : Nat) (evtSeq₁ : Nat) (transfers₁ : List Transfer)
     (heldReqs₁ : List Held) (attests₁ : List (Nat × Nat × List Byte)) (flash₁ : Flash) (audit₁ : Audit) (fuses₁ : Fuses)
     (alwaysOn₁ : AlwaysOn) (faults₁ : FaultSt) (swath₁ : Option SwathSt) (swathWait₁ : Option Nat) (timeSt₁ : TimeSt)
     (reach₁ : ReachSt) (hostSt₁ : HostSt) (fw₁ : FwSt) (out₁ : List Output) (freeCtr₁ : Nat) (pending₁ : List Instr)
     (h : FallowStays s0 s) :
    FallowStays s0 { regs := s.regs, ctrs := ctrs₁, parts := parts₁, hand := hand₁, crossings := crossings₁,
                     shadows := shadows₁, evCtrs := evCtrs₁, mem := mem₁, memSt := memSt₁, time := time₁,
                     uptime := uptime₁, align := align₁, phase := phase₁, bistRunning := bistRunning₁,
                     rails := rails₁, pace := pace₁, ramps := ramps₁, ports := ports₁, lanes := lanes₁,
                     stitches := stitches₁, cells := cells₁, queues := queues₁, deliv := deliv₁,
                     nextHandle := nextHandle₁, origWait := origWait₁, meters := meters₁, gates := gates₁,
                     streams := streams₁, msgs := msgs₁, jobs := jobs₁, slots := slots₁, heldPkts := heldPkts₁,
                     pendingPosts := pendingPosts₁, unloadHeld := unloadHeld₁, loads := loads₁, seals := seals₁,
                     batch := batch₁, lastBatch := lastBatch₁, sessions := sessions₁, latches := latches₁,
                     nextSession := nextSession₁, evtSeq := evtSeq₁, transfers := transfers₁, heldReqs := heldReqs₁,
                     attests := attests₁, flash := flash₁, audit := audit₁, fuses := fuses₁, alwaysOn := alwaysOn₁,
                     faults := faults₁, swath := swath₁, swathWait := swathWait₁, timeSt := timeSt₁, reach := reach₁,
                     hostSt := hostSt₁, fw := fw₁, out := out₁, freeCtr := freeCtr₁, pending := pending₁ } := ⟨h.get⟩

theorem stays_of_snd {α : Type} {s0 : State} {p : α × State} {a : α} {t : State} (e : p = (a, t)) (h : FallowStays s0 p.2) : FallowStays s0 t := by
  rw [e] at h; exact h

theorem stays_of_fst {α : Type} {s0 : State} {p : State × α} {a : α} {t : State} (e : p = (t, a)) (h : FallowStays s0 p.1) : FallowStays s0 t := by
  rw [e] at h; exact h

theorem stays_ite {s0 : State} {c : Prop} [Decidable c] {a b : State} (h1 : c → FallowStays s0 a) (h2 : ¬c → FallowStays s0 b) :
    FallowStays s0 (if c then a else b) := by
  split
  · exact h1 ‹_›
  · exact h2 ‹_›

theorem stays_foldl {α : Type} {s0 : State} (f : State → α → State) (l : List α) (s : State)
    (hf : ∀ s x, FallowStays s0 s → FallowStays s0 (f s x)) (h : FallowStays s0 s) : FallowStays s0 (l.foldl f s) := by
  induction l generalizing s with
  | nil => exact h
  | cons x l ih => exact ih (f s x) (hf s x h)

theorem stays_foldl_fst {α β : Type} {s0 : State} (f : State × β → α → State × β) (l : List α) (p : State × β)
    (hf : ∀ p x, FallowStays s0 p.1 → FallowStays s0 (f p x).1) (h : FallowStays s0 p.1) : FallowStays s0 (l.foldl f p).1 := by
  induction l generalizing p with
  | nil => exact h
  | cons x l ih => exact ih (f p x) (hf p x h)

theorem stays_foldl_snd {α β : Type} {s0 : State} (f : β × State → α → β × State) (l : List α) (p : β × State)
    (hf : ∀ p x, FallowStays s0 p.2 → FallowStays s0 (f p x).2) (h : FallowStays s0 p.2) : FallowStays s0 (l.foldl f p).2 := by
  induction l generalizing p with
  | nil => exact h
  | cons x l ih => exact ih (f p x) (hf p x h)

theorem stays_ite_fst {β : Type} {s0 : State} {c : Prop} [Decidable c] {a b : State × β} (h1 : c → FallowStays s0 a.1) (h2 : ¬c → FallowStays s0 b.1) :
    FallowStays s0 (if c then a else b).1 := by
  split
  · exact h1 ‹_›
  · exact h2 ‹_›

theorem stays_ite_snd {β : Type} {s0 : State} {c : Prop} [Decidable c] {a b : β × State} (h1 : c → FallowStays s0 a.2) (h2 : ¬c → FallowStays s0 b.2) :
    FallowStays s0 (if c then a else b).2 := by
  split
  · exact h1 ‹_›
  · exact h2 ‹_›

theorem stays_forUp {s0 : State} (f : State → Nat → State) (n i : Nat) (s : State)
    (hf : ∀ s x, FallowStays s0 s → FallowStays s0 (f s x)) (h : FallowStays s0 s) : FallowStays s0 (forUp f n i s) := by
  induction n generalizing i s with
  | zero => exact h
  | succ n ih => exact ih (i + 1) (f s i) (hf s i h)

theorem wr_stays (s0 s : State) (a : Nat) (w : Word) (hn : a ≠ pFlt + 0x44) (h : FallowStays s0 s) : FallowStays s0 (wr s a w) := by
  refine ⟨fun k => ?_⟩; have := h.get k; simp only [fallow, bit] at *; rw [rd_wr_ne _ _ _ _ (Ne.symm hn)]; exact this

theorem fset_stays (s0 s : State) (a hi lo v : Nat) (hn : a ≠ pFlt + 0x44) (h : FallowStays s0 s) : FallowStays s0 (fset s a hi lo v) :=
  wr_stays _ _ _ _ hn h

theorem setBit_stays (s0 s : State) (a b : Nat) (v : Bool) (hn : a ≠ pFlt + 0x44) (h : FallowStays s0 s) : FallowStays s0 (setBit s a b v) :=
  wr_stays _ _ _ _ hn h

theorem fieldSat_stays (s0 s : State) (a hi lo n : Nat) (hn : a ≠ pFlt + 0x44) (h : FallowStays s0 s) : FallowStays s0 (fieldSat s a hi lo n) :=
  wr_stays _ _ _ _ hn h

theorem notify_stays (s0 s : State) (page : Nat) (h : FallowStays s0 s) : FallowStays s0 (notify s page) := by
  refine ⟨fun k => ?_⟩; have := h.get k; simp only [fallow] at *; rw [bit_congr (notify_regs _ _)]; exact this

theorem raise_stays (s0 s : State) (page b : Nat) (hn : page + 0x10 ≠ pFlt + 0x44) (h : FallowStays s0 s) : FallowStays s0 (raise s page b) :=
  notify_stays _ _ _ (setBit_stays _ _ _ _ _ hn h)

theorem pageOf_mod {addr : Nat} {k : PageKind} {p : Nat} (h : pageOf addr = some (k, p)) : p % 4096 = 0 := by
  unfold pageOf at h
  split at h
  · simp only [Option.some.injEq, Prod.mk.injEq] at h; omega
  · cases h

theorem pageBase_mod (ty i : Nat) : pageBase ty i % 4096 = 0 := by
  unfold pageBase
  split
  · rename_i k hk
    have : ∀ k ∈ pageKinds, k.base % 4096 = 0 := by decide
    have := this k (List.mem_of_find?_eq_some hk)
    omega
  · rfl

theorem pageOfSource_mod {ty i p : Nat} (h : pageOfSource ty i = some p) : p % 4096 = 0 := by
  unfold pageOfSource at h
  split at h
  · cases h; simp only [pCluster]; omega
  · split at h
    · cases h
    · cases h; exact pageBase_mod _ _

theorem ctrAdd_stays (s0 : State) (x0 : State) (page : Nat) (i : Nat) (n : Nat) (h : FallowStays s0 x0) :
    FallowStays s0 (ctrAdd x0 page i n) := by
  unfold ctrAdd
  try dsimp only
  repeat' first
    | (with_reducible first
        | assumption)
    | dsimp only | (fail_if_no_progress with_reducible apply stays_frame) | intro _

theorem setPort_stays (s0 : State) (x0 : State) (p : Nat) (x : PortSt) (h : FallowStays s0 x0) :
    FallowStays s0 (setPort x0 p x) := by
  unfold setPort
  try dsimp only
  repeat' first
    | (with_reducible first
        | assumption)
    | dsimp only | (fail_if_no_progress with_reducible apply stays_frame) | intro _

theorem modPort_stays (s0 : State) (x0 : State) (p : Nat) (f : PortSt → PortSt) (h : FallowStays s0 x0) :
    FallowStays s0 (modPort x0 p f) := by
  unfold modPort
  try dsimp only
  repeat' first
    | (with_reducible first
        | assumption | apply setPort_stays)
    | dsimp only

theorem setStitch_stays (s0 : State) (x0 : State) (n : Nat) (x : StitchSt) (h : FallowStays s0 x0) :
    FallowStays s0 (setStitch x0 n x) := by
  unfold setStitch
  try dsimp only
  repeat' first
    | (with_reducible first
        | assumption)
    | dsimp only | (fail_if_no_progress with_reducible apply stays_frame) | intro _

theorem setCell_stays (s0 : State) (x0 : State) (c : Nat) (x : Cell) (h : FallowStays s0 x0) :
    FallowStays s0 (setCell x0 c x) := by
  unfold setCell
  try dsimp only
  repeat' first
    | (with_reducible first
        | assumption)
    | dsimp only | (fail_if_no_progress with_reducible apply stays_frame) | intro _

theorem setQueue_stays (s0 : State) (x0 : State) (q : Nat) (x : List QEntry) (h : FallowStays s0 x0) :
    FallowStays s0 (setQueue x0 q x) := by
  unfold setQueue
  try dsimp only
  repeat' first
    | (with_reducible first
        | assumption)
    | dsimp only | (fail_if_no_progress with_reducible apply stays_frame) | intro _

theorem setSession_stays (s0 : State) (x0 : State) (i : Nat) (x : Option Session) (h : FallowStays s0 x0) :
    FallowStays s0 (setSession x0 i x) := by
  unfold setSession
  try dsimp only
  repeat' first
    | (with_reducible first
        | assumption)
    | dsimp only | (fail_if_no_progress with_reducible apply stays_frame) | intro _

theorem setDeliv_stays (s0 : State) (x0 : State) (x1 : Nat) (x : Option Delivery) (h : FallowStays s0 x0) :
    FallowStays s0 (setDeliv x0 x1 x) := by
  unfold setDeliv
  try dsimp only
  repeat' first
    | (with_reducible first
        | assumption)
    | dsimp only | (fail_if_no_progress with_reducible apply stays_frame) | intro _

theorem emit_stays (s0 : State) (x0 : State) (o : Output) (h : FallowStays s0 x0) :
    FallowStays s0 (emit x0 o) := by
  unfold emit
  try dsimp only
  repeat' first
    | (with_reducible first
        | assumption)
    | dsimp only | (fail_if_no_progress with_reducible apply stays_frame)

theorem sendMsg_stays (s0 : State) (x0 : State) (sid : Nat) (ty : Nat) (msgNum : Nat) (flags : Nat) (status : Nat) (body : List Byte) (h : FallowStays s0 x0) :
    FallowStays s0 (sendMsg x0 sid ty msgNum flags status body) := by
  unfold sendMsg
  try dsimp only
  repeat' first
    | (with_reducible first
        | assumption | apply stays_ite | apply setSession_stays | apply emit_stays | apply ctrAdd_stays)
    | dsimp only | (fail_if_no_progress with_reducible apply stays_frame) | split | intro _

theorem sendPageEvent_stays (s0 : State) (x0 : State) (sid : Nat) (x : Session) (page : Nat) (v : Word) (h : FallowStays s0 x0) :
    FallowStays s0 (sendPageEvent x0 sid x page v) := by
  unfold sendPageEvent
  try dsimp only
  repeat' first
    | (with_reducible first
        | assumption | apply setSession_stays | apply sendMsg_stays)
    | dsimp only | (fail_if_no_progress with_reducible apply stays_frame) | intro _

theorem notifySession_stays (s0 : State) (x0 : State) (page : Nat) (sid : Nat) (h : FallowStays s0 x0) :
    FallowStays s0 (notifySession x0 page sid) := by
  unfold notifySession
  try dsimp only
  repeat' first
    | (with_reducible first
        | assumption | apply stays_ite | apply setSession_stays | apply sendPageEvent_stays)
    | dsimp only | (fail_if_no_progress with_reducible apply stays_frame) | split | intro _

theorem auditOne_stays (s0 : State) (x0 : State) (kind : Nat) (role : Nat) (result : Nat) (subject : Nat) (session : Nat) (detail : List Byte) (sets : List Setting) (h : FallowStays s0 x0) :
    FallowStays s0 (auditOne x0 kind role result subject session detail sets) := by
  unfold auditOne
  try dsimp only
  repeat' first
    | (with_reducible first
        | assumption)
    | dsimp only | (fail_if_no_progress with_reducible apply stays_frame) | intro _

theorem auditAdd_stays (s0 : State) (x0 : State) (kind : Nat) (role : Nat) (result : Nat) (subject : Nat) (session : Nat) (detail : List Byte) (sets : List Setting) (h : FallowStays s0 x0) :
    FallowStays s0 (auditAdd x0 kind role result subject session detail sets) := by
  unfold auditAdd
  try dsimp only
  repeat' first
    | (with_reducible first
        | assumption | apply stays_ite | apply auditOne_stays)
    | dsimp only | split | intro _

theorem auditDevice_stays (s0 : State) (x0 : State) (kind : Nat) (result : Nat) (subject : Nat) (detail : List Byte) (h : FallowStays s0 x0) :
    FallowStays s0 (auditDevice x0 kind result subject detail) := by
  unfold auditDevice
  try dsimp only
  repeat' first
    | (with_reducible first
        | assumption | apply auditAdd_stays)
    | dsimp only

theorem serveCross_stays (s0 : State) (x0 : State) (u : Nat) (v : Nat) (ch : Nat) (h : FallowStays s0 x0) :
    FallowStays s0 (serveCross x0 u v ch) := by
  unfold serveCross
  try dsimp only
  repeat' first
    | (with_reducible first
        | assumption)
    | dsimp only | (fail_if_no_progress with_reducible apply stays_frame) | split | intro _

/-- Every page of a unit is a page base. -/
theorem pagesOf_mod (u a : Nat) (h : a ∈ pagesOf u) : a % 4096 = 0 := by
  simp only [pagesOf, swathPages, List.mem_map, List.mem_filter, List.mem_flatten, List.mem_range] at h
  obtain ⟨e, ⟨⟨l, ⟨k, ⟨hk, -⟩, rfl⟩, hl⟩, -⟩, rfl⟩ := h
  simp only [List.mem_map, List.mem_range] at hl
  obtain ⟨i, -, rfl⟩ := hl
  have : ∀ k ∈ pageKinds, k.base % 4096 = 0 := by decide
  have := this k hk
  show (k.base + 0x1000 * i) % 4096 = 0
  omega

/-- A write of SWATH_SEQ, of pages each, leaves the status word of the faults. -/
theorem foldl_pages_stays (s0 : State) (l : List Nat) (f : State → Nat → State) (hl : ∀ a ∈ l, a % 4096 = 0)
    (hf : ∀ s a, a % 4096 = 0 → FallowStays s0 s → FallowStays s0 (f s a)) (s : State) (h : FallowStays s0 s) :
    FallowStays s0 (l.foldl f s) := by
  induction l generalizing s with
  | nil => exact h
  | cons a l ih => exact ih (fun b hb => hl b (by simp [hb])) _ (hf s a (hl a (by simp)) h)

theorem completeUnit_stays (s0 : State) (s : State) (x : SwathSt) (u : Nat) (h : FallowStays s0 s) :
    FallowStays s0 (completeUnit s x u) := by
  unfold completeUnit
  refine foldl_pages_stays _ _ _ (fun a => pagesOf_mod u a) (fun s a ha h => ?_) _ h
  exact wr_stays _ _ _ _ (by simp only [pFlt]; omega) ⟨h.get⟩

theorem endSwath_stays (s0 : State) (x0 : State) (st : Nat) (ev : Nat) (h : FallowStays s0 x0) :
    FallowStays s0 (endSwath x0 st ev) := by
  unfold endSwath
  try dsimp only
  repeat' first
    | (with_reducible first
        | assumption | apply fset_stays | apply wr_stays | apply raise_stays)
    | dsimp only | (fail_if_no_progress with_reducible apply stays_frame) | (simp only [pFlt, pSwath]; omega) | intro _

theorem takeMarker_stays (s0 : State) (x0 : State) (x : SwathSt) (u : Nat) (c : Nat) (h : FallowStays s0 x0) :
    FallowStays s0 (takeMarker x0 x u c) := by
  unfold takeMarker
  try dsimp only
  repeat' first
    | (with_reducible first
        | assumption | apply stays_ite | apply stays_ite_fst | apply stays_ite_snd | apply completeUnit_stays
        | apply fset_stays | apply endSwath_stays | refine stays_of_snd (by assumption) ?_
        | refine stays_of_fst (by assumption) ?_)
    | dsimp only | (fail_if_no_progress with_reducible apply stays_frame) | (simp only [pFlt, pSwath]; omega) | split | intro _

theorem hop_stays (s0 : State) (x0 : State) (u : Nat) (v : Nat) (ch : Nat) (h : FallowStays s0 x0) :
    FallowStays s0 (hop x0 u v ch) := by
  unfold hop
  try dsimp only
  repeat' first
    | (with_reducible first
        | assumption | apply stays_ite | apply takeMarker_stays | apply serveCross_stays)
    | dsimp only | (fail_if_no_progress with_reducible apply stays_frame) | split | intro _

theorem cross_stays (s0 : State) (x0 : State) (x1 : Nat) (b : Nat) (ch : Nat) (h : FallowStays s0 x0) :
    FallowStays s0 (cross x0 x1 b ch) := by
  unfold cross
  try dsimp only
  repeat' first
    | (with_reducible first
        | assumption | apply stays_foldl | apply stays_foldl_fst | apply stays_foldl_snd | apply stays_ite_fst
        | apply stays_ite_snd | apply hop_stays | refine stays_of_snd (by assumption) ?_
        | refine stays_of_fst (by assumption) ?_)
    | dsimp only | (fail_if_no_progress with_reducible apply stays_frame) | intro _

theorem atRest_stays (s0 : State) (x0 : State) (h : FallowStays s0 x0) :
    FallowStays s0 (atRest x0) := by
  unfold atRest
  try dsimp only
  repeat' first
    | (with_reducible first
        | assumption)
    | dsimp only | (fail_if_no_progress with_reducible apply stays_frame)

theorem queueReport_stays (s0 : State) (x0 : State) (r : FaultRec) (h : FallowStays s0 x0) :
    FallowStays s0 (queueReport x0 r) := by
  unfold queueReport
  try dsimp only
  repeat' first
    | (with_reducible first
        | assumption)
    | dsimp only | (fail_if_no_progress with_reducible apply stays_frame)

theorem report_stays (s0 : State) (x0 : State) (r : FaultRec) (h : FallowStays s0 x0) :
    FallowStays s0 (report x0 r) := by
  unfold report
  try dsimp only
  repeat' first
    | (with_reducible first
        | assumption | apply fset_stays | apply queueReport_stays)
    | dsimp only | (fail_if_no_progress with_reducible apply stays_frame) | (have hm := pageOfSource_mod (by assumption); simp only [pFlt] at *; omega) | (simp only [pFlt]; omega) | split | intro _

theorem forgetHeld_stays (s0 : State) (x0 : State) (p : Nat) (h : FallowStays s0 x0) :
    FallowStays s0 (forgetHeld x0 p) := by
  unfold forgetHeld
  try dsimp only
  repeat' first
    | (with_reducible first
        | assumption | apply stays_ite | apply stays_foldl | apply stays_foldl_fst | apply stays_foldl_snd
        | apply stays_ite_fst | apply stays_ite_snd | apply setCell_stays | apply modPort_stays
        | refine stays_of_snd (by assumption) ?_ | refine stays_of_fst (by assumption) ?_)
    | dsimp only | (fail_if_no_progress with_reducible apply stays_frame) | split | intro _

theorem unbank_stays (s0 : State) (x0 : Nat) (x1 : State) (x2 : Nat) (h : FallowStays s0 x1) :
    FallowStays s0 (unbank x0 x1 x2) := by
  induction x0 generalizing x1 x2 with
  | zero =>
    unfold unbank
    try dsimp only
    repeat' first
      | (with_reducible first
          | assumption | apply stays_ite | apply modPort_stays | apply emit_stays)
      | dsimp only | (fail_if_no_progress with_reducible apply stays_frame) | split | intro _
  | succ k ih =>
    unfold unbank
    try dsimp only
    repeat' first
      | (with_reducible first
          | assumption | apply ih | apply stays_ite | apply modPort_stays | apply emit_stays)
      | dsimp only | (fail_if_no_progress with_reducible apply stays_frame) | split | intro _

theorem releaseBanked_stays (s0 : State) (x0 : State) (p : Nat) (h : FallowStays s0 x0) :
    FallowStays s0 (releaseBanked x0 p) := by
  unfold releaseBanked
  try dsimp only
  repeat' first
    | (with_reducible first
        | assumption | apply unbank_stays)
    | dsimp only

theorem releaseDie_stays (s0 : State) (x0 : State) (d : Nat) (h : FallowStays s0 x0) :
    FallowStays s0 (releaseDie x0 d) := by
  unfold releaseDie
  try dsimp only
  repeat' first
    | (with_reducible first
        | assumption | apply stays_foldl | apply releaseBanked_stays)
    | dsimp only | intro _

theorem returnCredits_stays (s0 : State) (x0 : State) (p : Nat) (v : Nat) (k : Nat) (h : FallowStays s0 x0) :
    FallowStays s0 (returnCredits x0 p v k) := by
  unfold returnCredits
  try dsimp only
  repeat' first
    | (with_reducible first
        | assumption | apply stays_ite | apply modPort_stays | apply ctrAdd_stays | apply emit_stays)
    | dsimp only | (fail_if_no_progress with_reducible apply stays_frame) | split | intro _

theorem takeCell_stays (s0 : State) (x0 : State) (c : Nat) (refs : Nat) (ch : Charge) (acct : Option Nat) (ing : Option (Prod Nat Nat)) (credits : Nat) (h : FallowStays s0 x0) :
    FallowStays s0 (takeCell x0 c refs ch acct ing credits) := by
  unfold takeCell
  try dsimp only
  repeat' first
    | (with_reducible first
        | assumption | apply stays_ite_fst | apply stays_ite_snd | apply setCell_stays | apply fset_stays
        | apply ctrAdd_stays | refine stays_of_snd (by assumption) ?_ | refine stays_of_fst (by assumption) ?_)
    | dsimp only | (fail_if_no_progress with_reducible apply stays_frame) | (simp only [pFlt, pBufPool]; omega) | intro _

theorem releaseCell_stays (s0 : State) (x0 : State) (c : Nat) (h : FallowStays s0 x0) :
    FallowStays s0 (releaseCell x0 c) := by
  unfold releaseCell
  try dsimp only
  repeat' first
    | (with_reducible first
        | assumption | apply stays_ite | apply setCell_stays | apply fset_stays | apply releaseDie_stays
        | apply returnCredits_stays)
    | dsimp only | (fail_if_no_progress with_reducible apply stays_frame) | (simp only [pFlt, pBufPool]; omega) | split | intro _

theorem decCell_stays (s0 : State) (x0 : State) (c : Nat) (gen : Nat) (h : FallowStays s0 x0) :
    FallowStays s0 (decCell x0 c gen) := by
  unfold decCell
  try dsimp only
  repeat' first
    | (with_reducible first
        | assumption | apply stays_ite | apply report_stays | apply ctrAdd_stays | apply releaseCell_stays
        | apply setCell_stays)
    | dsimp only | (fail_if_no_progress with_reducible apply stays_frame) | split | intro _

theorem storedAdd_stays (s0 : State) (x0 : State) (q : Nat) (n : Nat) (h : FallowStays s0 x0) :
    FallowStays s0 (storedAdd x0 q n) := by
  unfold storedAdd
  try dsimp only
  repeat' first
    | (with_reducible first
        | assumption | apply wr_stays)
    | dsimp only | (simp only [pFlt, wQueue]; omega)

theorem storedSub_stays (s0 : State) (x0 : State) (q : Nat) (n : Nat) (h : FallowStays s0 x0) :
    FallowStays s0 (storedSub x0 q n) := by
  unfold storedSub
  try dsimp only
  repeat' first
    | (with_reducible first
        | assumption | apply wr_stays)
    | dsimp only | (simp only [pFlt, wQueue]; omega)

theorem setBucket_stays (s0 : State) (x0 : State) (p : Nat) (v : Int) (h : FallowStays s0 x0) :
    FallowStays s0 (setBucket x0 p v) := by
  unfold setBucket
  try dsimp only
  repeat' first
    | (with_reducible first
        | assumption | apply modPort_stays | apply wr_stays)
    | dsimp only | (fail_if_no_progress with_reducible apply stays_frame) | (simp only [pFlt, pSched]; omega) | intro _

theorem settleBucket_stays (s0 : State) (x0 : State) (p : Nat) (h : FallowStays s0 x0) :
    FallowStays s0 (settleBucket x0 p) := by
  unfold settleBucket
  try dsimp only
  repeat' first
    | (with_reducible first
        | assumption | apply setBucket_stays)
    | dsimp only

theorem wakeAll_stays (s0 : State) (x0 : State) (p : Nat) (el : List (Prod Nat (Prod Nat Nat))) (h : FallowStays s0 x0) :
    FallowStays s0 (wakeAll x0 p el) := by
  unfold wakeAll
  try dsimp only
  repeat' first
    | (with_reducible first
        | assumption | apply stays_ite | apply stays_foldl | apply stays_foldl_fst | apply stays_foldl_snd
        | apply stays_ite_fst | apply stays_ite_snd | apply modPort_stays | refine stays_of_snd (by assumption) ?_
        | refine stays_of_fst (by assumption) ?_)
    | dsimp only | (fail_if_no_progress with_reducible apply stays_frame) | split | intro _

theorem settleAwake_stays (s0 : State) (x0 : State) (p : Nat) (h : FallowStays s0 x0) :
    FallowStays s0 (settleAwake x0 p) := by
  unfold settleAwake
  try dsimp only
  repeat' first
    | (with_reducible first
        | assumption | apply wakeAll_stays)
    | dsimp only

theorem pickQueue_stays (s0 : State) (x0 : State) (p : Nat) (h : FallowStays s0 x0) :
    FallowStays s0 (pickQueue x0 p).2 := by
  unfold pickQueue
  try dsimp only
  repeat' first
    | (with_reducible first
        | assumption | apply stays_ite_fst | apply stays_ite_snd | apply wakeAll_stays | apply modPort_stays
        | refine stays_of_snd (by assumption) ?_ | refine stays_of_fst (by assumption) ?_)
    | dsimp only | (fail_if_no_progress with_reducible apply stays_frame) | split | intro _

theorem keepFrame_stays (s0 : State) (x0 : State) (p : Nat) (k : Pkt) (h : FallowStays s0 x0) :
    FallowStays s0 (keepFrame x0 p k) := by
  unfold keepFrame
  try dsimp only
  repeat' first
    | (with_reducible first
        | assumption | apply modPort_stays)
    | dsimp only | (fail_if_no_progress with_reducible apply stays_frame) | intro _

theorem startSend_stays (s0 : State) (x0 : State) (p : Nat) (q : Nat) (e : QEntry) (h : FallowStays s0 x0) :
    FallowStays s0 (startSend x0 p q e) := by
  unfold startSend
  try dsimp only
  repeat' first
    | (with_reducible first
        | assumption | apply stays_ite | apply setBucket_stays | apply keepFrame_stays | apply cross_stays
        | apply atRest_stays | apply settleAwake_stays | apply modPort_stays)
    | dsimp only | (fail_if_no_progress with_reducible apply stays_frame) | split | intro _

theorem trailerFault_stays (s0 : State) (x0 : State) (p : Nat) (h : FallowStays s0 x0) :
    FallowStays s0 (trailerFault x0 p) := by
  unfold trailerFault
  try dsimp only
  repeat' first
    | (with_reducible first
        | assumption | apply report_stays | apply ctrAdd_stays)
    | dsimp only

theorem pumpFuel_stays (s0 : State) (x0 : Nat) (x1 : State) (x2 : Nat) (h : FallowStays s0 x1) :
    FallowStays s0 (pumpFuel x0 x1 x2) := by
  induction x0 generalizing x1 x2 with
  | zero =>
    unfold pumpFuel
    try dsimp only
    repeat' first
      | (with_reducible first
          | assumption | apply stays_ite | apply stays_ite_fst | apply stays_ite_snd | apply setQueue_stays
          | apply decCell_stays | apply storedSub_stays | apply settleAwake_stays | apply pickQueue_stays
          | apply startSend_stays | apply trailerFault_stays | refine stays_of_snd (by assumption) ?_
          | refine stays_of_fst (by assumption) ?_)
      | dsimp only | (fail_if_no_progress with_reducible apply stays_frame) | split | intro _
  | succ k ih =>
    unfold pumpFuel
    try dsimp only
    repeat' first
      | (with_reducible first
          | assumption | apply ih | apply stays_ite | apply stays_ite_fst | apply stays_ite_snd | apply setQueue_stays
          | apply decCell_stays | apply storedSub_stays | apply settleAwake_stays | apply pickQueue_stays
          | apply startSend_stays | apply trailerFault_stays | refine stays_of_snd (by assumption) ?_
          | refine stays_of_fst (by assumption) ?_)
      | dsimp only | (fail_if_no_progress with_reducible apply stays_frame) | split | intro _

theorem pump_stays (s0 : State) (x0 : State) (p : Nat) (h : FallowStays s0 x0) :
    FallowStays s0 (pump x0 p) := by
  unfold pump
  try dsimp only
  repeat' first
    | (with_reducible first
        | assumption | apply pumpFuel_stays)
    | dsimp only

theorem markEcn_stays (s0 : State) (x0 : State) (p : Nat) (k : Pkt) (h : FallowStays s0 x0) :
    FallowStays s0 (markEcn x0 p k).2 := by
  unfold markEcn
  try dsimp only
  repeat' first
    | (with_reducible first
        | assumption | apply stays_ite | apply stays_ite_fst | apply stays_ite_snd | apply ctrAdd_stays
        | refine stays_of_snd (by assumption) ?_ | refine stays_of_fst (by assumption) ?_)
    | dsimp only | (fail_if_no_progress with_reducible apply stays_frame) | split | intro _

theorem enqueue_stays (s0 : State) (x0 : State) (p : Nat) (c : Nat) (gen : Nat) (k : Pkt) (ing : Option Nat) (h : FallowStays s0 x0) :
    FallowStays s0 (enqueue x0 p c gen k ing) := by
  unfold enqueue
  try dsimp only
  repeat' first
    | (with_reducible first
        | assumption | apply stays_ite | apply stays_ite_fst | apply stays_ite_snd | apply cross_stays
        | apply markEcn_stays | apply atRest_stays | apply ctrAdd_stays | apply pump_stays | apply storedAdd_stays
        | apply setQueue_stays | refine stays_of_snd (by assumption) ?_ | refine stays_of_fst (by assumption) ?_)
    | dsimp only | split | intro _

theorem deliver_stays (s0 : State) (x0 : State) (d : Delivery) (h : FallowStays s0 x0) :
    FallowStays s0 (deliver x0 d) := by
  unfold deliver
  try dsimp only
  repeat' first
    | (with_reducible first
        | assumption | apply setDeliv_stays)
    | dsimp only | (fail_if_no_progress with_reducible apply stays_frame)

theorem origStore_stays (s0 : State) (x0 : State) (w : OrigWait) (h : FallowStays s0 x0) :
    FallowStays s0 (origStore x0 w) := by
  unfold origStore
  try dsimp only
  repeat' first
    | (with_reducible first
        | assumption | apply stays_ite | apply stays_foldl | apply stays_foldl_fst | apply stays_foldl_snd
        | apply stays_ite_fst | apply stays_ite_snd | apply takeCell_stays | apply deliver_stays | apply enqueue_stays
        | refine stays_of_snd (by assumption) ?_ | refine stays_of_fst (by assumption) ?_)
    | dsimp only | (fail_if_no_progress with_reducible apply stays_frame) | split | intro _

theorem serveOrig_stays (s0 : State) (x0 : Nat) (x1 : State) (h : FallowStays s0 x1) :
    FallowStays s0 (serveOrig x0 x1) := by
  induction x0 generalizing x1 with
  | zero =>
    unfold serveOrig
    try dsimp only
    repeat' first
      | (with_reducible first
          | assumption | apply origStore_stays)
      | dsimp only | (fail_if_no_progress with_reducible apply stays_frame) | split | intro _
  | succ k ih =>
    unfold serveOrig
    try dsimp only
    repeat' first
      | (with_reducible first
          | assumption | apply ih | apply origStore_stays)
      | dsimp only | (fail_if_no_progress with_reducible apply stays_frame) | split | intro _

theorem serveWaiters_stays (s0 : State) (x0 : State) (h : FallowStays s0 x0) :
    FallowStays s0 (serveWaiters x0) := by
  unfold serveWaiters
  try dsimp only
  repeat' first
    | (with_reducible first
        | assumption | apply serveOrig_stays)
    | dsimp only

theorem setPState_stays (s0 : State) (x0 : State) (p : Nat) (v : Nat) (h : FallowStays s0 x0) :
    FallowStays s0 (setPState x0 p v) := by
  unfold setPState
  try dsimp only
  repeat' first
    | (with_reducible first
        | assumption | apply setBit_stays | apply fset_stays)
    | dsimp only | (simp only [pFlt, pPort]; omega)

theorem setStage_stays (s0 : State) (x0 : State) (p : Nat) (v : Nat) (h : FallowStays s0 x0) :
    FallowStays s0 (setStage x0 p v) := by
  unfold setStage
  try dsimp only
  repeat' first
    | (with_reducible first
        | assumption | apply fset_stays)
    | dsimp only | (simp only [pFlt, pPort]; omega)

theorem setSt_stays (s0 : State) (x0 : State) (n : Nat) (v : Nat) (h : FallowStays s0 x0) :
    FallowStays s0 (setSt x0 n v) := by
  unfold setSt
  try dsimp only
  repeat' first
    | (with_reducible first
        | assumption | apply fset_stays)
    | dsimp only | (simp only [pFlt, pStitch]; omega)

theorem closeStitch_stays (s0 : State) (x0 : State) (n : Nat) (cause : Nat) (h : FallowStays s0 x0) :
    FallowStays s0 (closeStitch x0 n cause) := by
  unfold closeStitch
  try dsimp only
  repeat' first
    | (with_reducible first
        | assumption | apply stays_ite | apply fset_stays | apply setSt_stays | apply ctrAdd_stays | apply setStitch_stays)
    | dsimp only | (fail_if_no_progress with_reducible apply stays_frame) | (simp only [pFlt, pStitch]; omega) | split | intro _

theorem dropQueues_stays (s0 : State) (x0 : State) (p : Nat) (h : FallowStays s0 x0) :
    FallowStays s0 (dropQueues x0 p) := by
  unfold dropQueues
  try dsimp only
  repeat' first
    | (with_reducible first
        | assumption | apply stays_foldl | apply stays_foldl_fst | apply stays_foldl_snd | apply stays_ite_fst
        | apply stays_ite_snd | apply decCell_stays | apply modPort_stays | apply setQueue_stays | apply storedSub_stays
        | refine stays_of_snd (by assumption) ?_ | refine stays_of_fst (by assumption) ?_)
    | dsimp only | (fail_if_no_progress with_reducible apply stays_frame) | split | intro _

theorem forgetTime_stays (s0 : State) (x0 : State) (p : Nat) (h : FallowStays s0 x0) :
    FallowStays s0 (forgetTime x0 p) := by
  unfold forgetTime
  try dsimp only
  repeat' first
    | (with_reducible first
        | assumption | apply stays_ite_fst | apply stays_ite_snd | refine stays_of_snd (by assumption) ?_
        | refine stays_of_fst (by assumption) ?_)
    | dsimp only | (fail_if_no_progress with_reducible apply stays_frame)

theorem linkDown_stays (s0 : State) (x0 : State) (p : Nat) (h : FallowStays s0 x0) :
    FallowStays s0 (linkDown x0 p) := by
  unfold linkDown
  try dsimp only
  repeat' first
    | (with_reducible first
        | assumption | apply stays_ite | apply settleBucket_stays | apply dropQueues_stays | apply ctrAdd_stays
        | apply modPort_stays | apply forgetHeld_stays | apply serveWaiters_stays | apply wr_stays | apply forgetTime_stays)
    | dsimp only | (fail_if_no_progress with_reducible apply stays_frame) | (simp only [pFlt, pPort, wAddr]; omega) | split | intro _

theorem abandonSwath_stays (s0 : State) (s : State) (h : FallowStays s0 s) : FallowStays s0 (abandonSwath s) := by
  unfold abandonSwath
  split
  · exact h
  · apply endSwath_stays
    apply ctrAdd_stays
    refine foldl_pages_stays _ _ _ (fun a ha => ?_) (fun s a ha h => wr_stays _ _ _ _ (by simp only [pFlt]; omega) h) _ h
    simp only [List.mem_flatten, List.mem_map] at ha
    obtain ⟨l, ⟨u, -, rfl⟩, ha⟩ := ha
    exact pagesOf_mod u a ha

theorem closeNow_stays (s0 : State) (x0 : State) (n : Nat) (cause : Nat) (h : FallowStays s0 x0) :
    FallowStays s0 (closeNow x0 n cause) := by
  unfold closeNow
  try dsimp only
  repeat' first
    | (with_reducible first
        | assumption | apply stays_ite | apply stays_foldl | apply stays_foldl_fst | apply stays_foldl_snd
        | apply stays_ite_fst | apply stays_ite_snd | apply setStage_stays | apply setPState_stays | apply modPort_stays
        | apply linkDown_stays | apply closeStitch_stays | refine stays_of_snd (by assumption) ?_
        | refine stays_of_fst (by assumption) ?_)
    | dsimp only | (fail_if_no_progress with_reducible apply stays_frame) | split | intro _

theorem showPin_stays (s0 : State) (x0 : State) (h : FallowStays s0 x0) :
    FallowStays s0 (showPin x0) := by
  unfold showPin
  try dsimp only
  repeat' first
    | (with_reducible first
        | assumption | apply stays_ite | apply emit_stays | apply setBit_stays)
    | dsimp only | (simp only [pFlt]; omega) | split | intro _

theorem fencePorts_stays (s0 : State) (x0 : State) (h : FallowStays s0 x0) :
    FallowStays s0 (fencePorts x0) := by
  unfold fencePorts
  try dsimp only
  repeat' first
    | (with_reducible first
        | assumption | apply stays_ite | apply stays_forUp | apply emit_stays | apply decCell_stays
        | apply modPort_stays)
    | dsimp only | (fail_if_no_progress with_reducible apply stays_frame) | split | intro _

theorem statusWord_bit (a b : Bool) (kind : Nat) (hk : kind < 256) :
    (fallowStatus a b kind).getLsbD 31 = true := by
  rw [fallowStatus, BitVec.getLsbD_ofNat, Nat.testBit_eq_decide_div_mod_eq]
  have h1 : b2n a ≤ 1 := by cases a <;> decide
  have h2 : b2n b ≤ 1 := by cases b <;> decide
  have h3 : (2147483648 + b2n a * 1073741824 + b2n b * 536870912 + kind * 256) / 2147483648 = 1 := by omega
  simp only [Nat.reducePow, h3]
  decide

theorem fallow_wr (s : State) (w : Word) : fallow (wr s (pFlt + 0x44) w) = w.getLsbD 31 := by
  rw [fallow, bit, rd_wr_same]

theorem alwaysOn_stays (w : State) (x : AlwaysOn) : FallowStays w { w with alwaysOn := x } := ⟨fun h => h⟩

/-- What fallow entry does after it has set FALLOW. -/
theorem afterFallow (w w' : State) (kind : Nat) (record : BitVec 128) (aw : FallowStays w w') (set : fallow w = true) :
    fallow (if (forUp (fun s n => closeNow s n 2) 12 0 (fencePorts (abandonSwath
        (raise (showPin (if kind == 0 then w else w')) pFlt 9)))).faults.mute then
          forUp (fun s n => closeNow s n 2) 12 0 (fencePorts (abandonSwath (raise (showPin (if kind == 0 then w else w')) pFlt 9)))
        else auditDevice (forUp (fun s n => closeNow s n 2) 12 0 (fencePorts (abandonSwath
          (raise (showPin (if kind == 0 then w else w')) pFlt 9)))) 0x0C 0 0 (leBytes 16 record.toNat)) = true := by
  have all : FallowStays w (forUp (fun s n => closeNow s n 2) 12 0 (fencePorts (abandonSwath
      (raise (showPin (if kind == 0 then w else w')) pFlt 9)))) := by
    apply stays_forUp
    · intro s n h
      exact closeNow_stays _ _ _ _ h
    · apply fencePorts_stays
      apply abandonSwath_stays
      apply raise_stays _ _ _ _ (by decide)
      apply showPin_stays
      exact stays_ite (fun _ => ⟨fun h => h⟩) (fun _ => aw)
  generalize forUp _ _ _ _ = v at all ⊢
  split
  · exact all.get set
  · exact (auditDevice_stays _ _ _ _ _ _ all).get set

/-- Fallow entry sets FALLOW (R360). -/
theorem enterFallow_fallow (s : State) (kind : Nat) (record : BitVec 128) (hw : Bool) (hk : kind < 256) :
    fallow (enterFallow s kind record hw) = true := by
  unfold enterFallow
  split
  · assumption
  · exact afterFallow _ _ kind record (alwaysOn_stays _ _) ((fallow_wr _ _).trans (statusWord_bit _ _ _ hk))

theorem assertPin_stays (s0 s : State) (h : FallowStays s0 s) : FallowStays s0 (assertPin s) := by
  unfold assertPin
  split
  · exact showPin_stays _ _ ⟨h.get⟩
  · exact showPin_stays _ _ ⟨h.get⟩

/-- A reaction word with FALLOW takes the device fallow, or finds it so (R351, R360). -/
theorem react_fallow (s : State) (r : FaultRec) (w : Word) (hw : Bool) (h : w.getLsbD 5 = true) :
    fallow (react s r w hw) = true := by
  unfold react
  dsimp only
  have pin : FallowStays s (if w.getLsbD 4 = true then assertPin s else s) :=
    stays_ite (fun _ => assertPin_stays s s ⟨id⟩) (fun _ => ⟨id⟩)
  generalize hp : (if w.getLsbD 4 = true then assertPin s else s) = p at pin
  have lt : r.kind.toNat < 256 := r.kind.isLt
  by_cases was : fallow s = true
  · have hs := pin.get was
    simp only [was, h, Bool.not_true, Bool.and_false, Bool.false_and, Bool.and_true, if_false, Bool.false_eq_true]
    split
    · exact (raise_stays p p pFlt 8 (by simp only [pFlt]; omega) ⟨id⟩).get hs
    · exact hs
  · have wasF : fallow s = false := by simpa using was
    have hf := enterFallow_fallow p r.kind.toNat (faultBits r) hw lt
    generalize enterFallow p r.kind.toNat (faultBits r) hw = q at hf
    simp only [wasF, h, Bool.not_false, Bool.not_true, Bool.and_true, Bool.and_false, Bool.false_and, Bool.true_and, if_true,
      if_false, Bool.false_eq_true]
    have hr : fallow (if w.getLsbD 0 = true then raise q pFlt 8 else q) = true := by
      split
      · exact (raise_stays q q pFlt 8 (by simp only [pFlt]; omega) ⟨id⟩).get hf
      · exact hf
    split
    · exact hr
    · exact hr

/-- A fatal record that the collector serves takes the device fallow (R348, R351, R358). -/
theorem serve_fatal_fallow (s : State) (r : FaultRec) (hk : (kindOf r.kind.toNat).isSome = true) (hc : classOf r = 2)
    (h1 : r.kind.toNat ≠ 1) (h2 : r.kind.toNat ≠ 2) : fallow (serve s r) = true := by
  unfold serve
  obtain ⟨k, hk⟩ := Option.isSome_iff_exists.1 hk
  simp only [hk, hc]
  split
  · exact (raise_stays _ _ pFlt 8 (by simp only [pFlt]; omega) ⟨id⟩).get (enterFallow_fallow _ _ _ _ (by omega))
  · have n1 : (r.kind.toNat == 1) = false := by simpa using h1
    have n2 : (r.kind.toNat == 2) = false := by simpa using h2
    simp only [n1, n2, Bool.or_false, Bool.and_false, Bool.false_eq_true, if_false, (by decide : (2 == 0) = false),
      Bool.false_and]
    apply react_fallow
    simp [reactionsOf]

end Sys2Proof.Machine
end

