-- ==== Sys2Proof/Laws/Keeps.lean ====
section
/-! SUPPORT. `Keeps`: what an operation of the device leaves as it should be: the commands that wait, the canonical form of the
tables, the one-time fuses, which only ever grow, and every part of the state that it is not for. Its rules for the forms a
definition is built of, and for the basic updates. A mask of parts has bit `p.idx` for part `p`. -/
namespace Sys2Proof.Machine

open Sys2Proof

/-- The number of a part in a mask. -/
def Part.idx (p : Part) : Nat :=
  match p with
  | .registers => 0
  | .counters => 1
  | .eventCounters => 2
  | .memory => 3
  | .memoryState => 4
  | .clock => 5
  | .crossings => 6
  | .phase => 7
  | .power => 8
  | .ramps => 9
  | .ports => 10
  | .lanes => 11
  | .stitches => 12
  | .cells => 13
  | .queues => 14
  | .deliveries => 15
  | .origins => 16
  | .meters => 17
  | .gates => 18
  | .streams => 19
  | .messages => 20
  | .jobs => 21
  | .loads => 22
  | .slots => 23
  | .waiting => 24
  | .seals => 25
  | .batches => 26
  | .sessions => 27
  | .requests => 28
  | .transfers => 29
  | .flash => 30
  | .audit => 31
  | .fuses => 32
  | .alwaysOn => 33
  | .faults => 34
  | .swaths => 35
  | .timeSync => 36
  | .reach => 37
  | .host => 38
  | .firmware => 39
  | .output => 40
  | .freeValues => 41

theorem Part.same_refl (p : Part) (s : State) : p.same s s := by cases p <;> rfl

theorem Part.same_trans (p : Part) {s t u : State} (h1 : p.same s t) (h2 : p.same t u) : p.same s u := by
  cases p <;> exact Eq.trans h2 h1

/-- From `s` to `t` the queue is as it was, canonical tables stay canonical, no fuse counter falls, and the parts of `m` are as
they were; with bit 63 of `m`, what only grows has grown. -/
structure Keeps (m : BitVec 64) (s t : State) : Prop where
  pending : t.pending = s.pending
  canonical : Canonical s → Canonical t
  fuses : FusesGrow s t
  same : ∀ p : Part, m.getLsbD p.idx = true → p.same s t
  grows : m.getLsbD 63 = true → Grows s t

/-- A next state of `o`, if it is one, keeps what `Keeps` says. -/
def KeepsOut (m : BitVec 64) (s : State) (o : Out) : Prop := ∀ t, o = .next t → Keeps m s t

theorem Keeps.refl (m : BitVec 64) (s : State) : Keeps m s s :=
  ⟨rfl, id, ⟨Nat.le_refl _, Nat.le_refl _⟩, fun p _ => p.same_refl s,
    fun _ => ⟨List.prefix_rfl, Nat.le_refl _, fun _ _ k => k, List.prefix_rfl, id⟩⟩

/-- What avoids a mask avoids a smaller one. -/
theorem maskSub {m a b : BitVec 64} (h : m &&& b = 0#64) (hs : a &&& ~~~b = 0#64) : m &&& a = 0#64 := by
  ext i hi
  have h1 := congrArg (fun x => x.getLsbD i) h
  have h2 := congrArg (fun x => x.getLsbD i) hs
  simp only [BitVec.getLsbD_and, BitVec.getLsbD_not, BitVec.getLsbD_zero, hi, decide_true, Bool.true_and] at h1 h2
  show (m &&& a).getLsbD i = (0#64).getLsbD i
  rw [BitVec.getLsbD_and, BitVec.getLsbD_zero]
  cases hb : b.getLsbD i <;> simp_all

/-- A part of an avoided mask is not in `m`. -/
theorem maskOff {m a : BitVec 64} (h : m &&& a = 0#64) {i : Nat} (hi : a.getLsbD i = true) : ¬m.getLsbD i = true := by
  intro hm
  have := congrArg (fun x => x.getLsbD i) h
  simp [BitVec.getLsbD_and, hm, hi] at this

/-- A mask that avoids nothing but itself. -/
theorem avoid_zero (m : BitVec 64) : m &&& 0#64 = 0#64 := by simp

/-- An advance keeps the parts of the counters canonical. -/
theorem partsAdd_wf (s : State) (page a n : Nat) (h : Sparse.wf (fun _ => 0) s.parts = true) :
    Sparse.wf (fun _ => 0) (partsAdd s page a n) = true := by
  unfold partsAdd
  split
  · exact h
  · split
    · exact Sparse.wf_set _ _ _ _ h
    · exact h

/-- An update of other fields than the tables, the fuses and the queue. -/
theorem keeps_frame {m : BitVec 64} {s0 : State} (s : State) (hand₁ : Option (Nat × Nat)) (crossings₁ : Sparse CrossSt)
     (shadows₁ : Sparse Dword) (memSt₁ : MemSt) (time₁ : Nat) (uptime₁ : Nat) (align₁ : Option Nat) (phase₁ : Phase)
     (bistRunning₁ : Bool) (rails₁ : List Nat) (pace₁ : Sparse (Option Nat)) (ramps₁ : List (Nat × Bool))
     (ports₁ : Sparse PortSt) (lanes₁ : Sparse LaneTrain) (stitches₁ : Sparse StitchSt) (cells₁ : Sparse Cell)
     (queues₁ : Sparse (List QEntry)) (origWait₁ : List OrigWait) (meters₁ : Sparse MeterSt) (gates₁ : Sparse GateSt)
     (streams₁ : Sparse (Option Stream)) (msgs₁ : List MsgSt) (jobs₁ : Sparse (Option JobSt))
     (slots₁ : Sparse (Option SlotSt)) (heldPkts₁ : Sparse (List (Pkt × Option Nat × Option Nat)))
     (pendingPosts₁ : Sparse Nat) (unloadHeld₁ : List Nat) (loads₁ : List (Nat × Nat × Nat)) (seals₁ : List SealRec)
     (batch₁ : Option Batch) (lastBatch₁ : List Batch) (sessions₁ : Sparse (Option Session))
     (latches₁ : Sparse (Option Word)) (nextSession₁ : Nat) (evtSeq₁ : Nat) (transfers₁ : List Transfer)
     (heldReqs₁ : List Held) (attests₁ : List (Nat × Nat × List Byte)) (flash₁ : Flash) (audit₁ : Audit)
     (alwaysOn₁ : AlwaysOn) (faults₁ : FaultSt) (swath₁ : Option SwathSt) (swathWait₁ : Option Nat) (timeSt₁ : TimeSt)
     (reach₁ : ReachSt) (hostSt₁ : HostSt) (fw₁ : FwSt) (freeCtr₁ : Nat)
    (hs : ∀ p : Part, m.getLsbD p.idx = true → p.same s
      { regs := s.regs, ctrs := s.ctrs, parts := s.parts, hand := hand₁, crossings := crossings₁, shadows := shadows₁,
        evCtrs := s.evCtrs, mem := s.mem, memSt := memSt₁, time := time₁, uptime := uptime₁, align := align₁,
        phase := phase₁, bistRunning := bistRunning₁, rails := rails₁, pace := pace₁, ramps := ramps₁,
        ports := ports₁, lanes := lanes₁, stitches := stitches₁, cells := cells₁, queues := queues₁,
        deliv := s.deliv, nextHandle := s.nextHandle, origWait := origWait₁, meters := meters₁, gates := gates₁,
        streams := streams₁, msgs := msgs₁, jobs := jobs₁, slots := slots₁, heldPkts := heldPkts₁,
        pendingPosts := pendingPosts₁, unloadHeld := unloadHeld₁, loads := loads₁, seals := seals₁, batch := batch₁,
        lastBatch := lastBatch₁, sessions := sessions₁, latches := latches₁, nextSession := nextSession₁,
        evtSeq := evtSeq₁, transfers := transfers₁, heldReqs := heldReqs₁, attests := attests₁, flash := flash₁,
        audit := audit₁, fuses := s.fuses, alwaysOn := alwaysOn₁, faults := faults₁, swath := swath₁,
        swathWait := swathWait₁, timeSt := timeSt₁, reach := reach₁, hostSt := hostSt₁, fw := fw₁, out := s.out,
        freeCtr := freeCtr₁, pending := s.pending })
    (hg : m.getLsbD 63 = true → s.faults.reported <+: faults₁.reported ∧ (s.faults.mute = true → faults₁.mute = true))
    (h : Keeps m s0 s) :
    Keeps m s0
      { regs := s.regs, ctrs := s.ctrs, parts := s.parts, hand := hand₁, crossings := crossings₁, shadows := shadows₁,
        evCtrs := s.evCtrs, mem := s.mem, memSt := memSt₁, time := time₁, uptime := uptime₁, align := align₁,
        phase := phase₁, bistRunning := bistRunning₁, rails := rails₁, pace := pace₁, ramps := ramps₁,
        ports := ports₁, lanes := lanes₁, stitches := stitches₁, cells := cells₁, queues := queues₁,
        deliv := s.deliv, nextHandle := s.nextHandle, origWait := origWait₁, meters := meters₁, gates := gates₁,
        streams := streams₁, msgs := msgs₁, jobs := jobs₁, slots := slots₁, heldPkts := heldPkts₁,
        pendingPosts := pendingPosts₁, unloadHeld := unloadHeld₁, loads := loads₁, seals := seals₁, batch := batch₁,
        lastBatch := lastBatch₁, sessions := sessions₁, latches := latches₁, nextSession := nextSession₁,
        evtSeq := evtSeq₁, transfers := transfers₁, heldReqs := heldReqs₁, attests := attests₁, flash := flash₁,
        audit := audit₁, fuses := s.fuses, alwaysOn := alwaysOn₁, faults := faults₁, swath := swath₁,
        swathWait := swathWait₁, timeSt := timeSt₁, reach := reach₁, hostSt := hostSt₁, fw := fw₁, out := s.out,
        freeCtr := freeCtr₁, pending := s.pending } :=
  ⟨h.pending, fun k => h.canonical k, h.fuses, fun p hp => Part.same_trans p (h.same p hp) (hs p hp),
    fun g => ⟨(h.grows g).1, (h.grows g).2.1, (h.grows g).2.2.1, (h.grows g).2.2.2.1.trans (hg g).1, fun k => (hg g).2 ((h.grows g).2.2.2.2 k)⟩⟩

/-- An update that raises fuse counters. -/
theorem keeps_fuses {m : BitVec 64} {s0 : State} (s : State) (hand₁ : Option (Nat × Nat)) (crossings₁ : Sparse CrossSt)
     (shadows₁ : Sparse Dword) (memSt₁ : MemSt) (time₁ : Nat) (uptime₁ : Nat) (align₁ : Option Nat) (phase₁ : Phase)
     (bistRunning₁ : Bool) (rails₁ : List Nat) (pace₁ : Sparse (Option Nat)) (ramps₁ : List (Nat × Bool))
     (ports₁ : Sparse PortSt) (lanes₁ : Sparse LaneTrain) (stitches₁ : Sparse StitchSt) (cells₁ : Sparse Cell)
     (queues₁ : Sparse (List QEntry)) (origWait₁ : List OrigWait) (meters₁ : Sparse MeterSt) (gates₁ : Sparse GateSt)
     (streams₁ : Sparse (Option Stream)) (msgs₁ : List MsgSt) (jobs₁ : Sparse (Option JobSt))
     (slots₁ : Sparse (Option SlotSt)) (heldPkts₁ : Sparse (List (Pkt × Option Nat × Option Nat)))
     (pendingPosts₁ : Sparse Nat) (unloadHeld₁ : List Nat) (loads₁ : List (Nat × Nat × Nat)) (seals₁ : List SealRec)
     (batch₁ : Option Batch) (lastBatch₁ : List Batch) (sessions₁ : Sparse (Option Session))
     (latches₁ : Sparse (Option Word)) (nextSession₁ : Nat) (evtSeq₁ : Nat) (transfers₁ : List Transfer)
     (heldReqs₁ : List Held) (attests₁ : List (Nat × Nat × List Byte)) (flash₁ : Flash) (audit₁ : Audit)
     (alwaysOn₁ : AlwaysOn) (faults₁ : FaultSt) (swath₁ : Option SwathSt) (swathWait₁ : Option Nat) (timeSt₁ : TimeSt)
     (reach₁ : ReachSt) (hostSt₁ : HostSt) (fw₁ : FwSt) (freeCtr₁ : Nat) (fuses₁ : Fuses)
    (hs : ∀ p : Part, m.getLsbD p.idx = true → p.same s
      { regs := s.regs, ctrs := s.ctrs, parts := s.parts, hand := hand₁, crossings := crossings₁, shadows := shadows₁,
        evCtrs := s.evCtrs, mem := s.mem, memSt := memSt₁, time := time₁, uptime := uptime₁, align := align₁,
        phase := phase₁, bistRunning := bistRunning₁, rails := rails₁, pace := pace₁, ramps := ramps₁,
        ports := ports₁, lanes := lanes₁, stitches := stitches₁, cells := cells₁, queues := queues₁,
        deliv := s.deliv, nextHandle := s.nextHandle, origWait := origWait₁, meters := meters₁, gates := gates₁,
        streams := streams₁, msgs := msgs₁, jobs := jobs₁, slots := slots₁, heldPkts := heldPkts₁,
        pendingPosts := pendingPosts₁, unloadHeld := unloadHeld₁, loads := loads₁, seals := seals₁, batch := batch₁,
        lastBatch := lastBatch₁, sessions := sessions₁, latches := latches₁, nextSession := nextSession₁,
        evtSeq := evtSeq₁, transfers := transfers₁, heldReqs := heldReqs₁, attests := attests₁, flash := flash₁,
        audit := audit₁, fuses := fuses₁, alwaysOn := alwaysOn₁, faults := faults₁, swath := swath₁,
        swathWait := swathWait₁, timeSt := timeSt₁, reach := reach₁, hostSt := hostSt₁, fw := fw₁, out := s.out,
        freeCtr := freeCtr₁, pending := s.pending })
    (hg : m.getLsbD 63 = true → s.faults.reported <+: faults₁.reported ∧ (s.faults.mute = true → faults₁.mute = true))
    (hf : s.fuses.unlocks ≤ fuses₁.unlocks ∧ s.fuses.rollback ≤ fuses₁.rollback)
    (h : Keeps m s0 s) :
    Keeps m s0
      { regs := s.regs, ctrs := s.ctrs, parts := s.parts, hand := hand₁, crossings := crossings₁, shadows := shadows₁,
        evCtrs := s.evCtrs, mem := s.mem, memSt := memSt₁, time := time₁, uptime := uptime₁, align := align₁,
        phase := phase₁, bistRunning := bistRunning₁, rails := rails₁, pace := pace₁, ramps := ramps₁,
        ports := ports₁, lanes := lanes₁, stitches := stitches₁, cells := cells₁, queues := queues₁,
        deliv := s.deliv, nextHandle := s.nextHandle, origWait := origWait₁, meters := meters₁, gates := gates₁,
        streams := streams₁, msgs := msgs₁, jobs := jobs₁, slots := slots₁, heldPkts := heldPkts₁,
        pendingPosts := pendingPosts₁, unloadHeld := unloadHeld₁, loads := loads₁, seals := seals₁, batch := batch₁,
        lastBatch := lastBatch₁, sessions := sessions₁, latches := latches₁, nextSession := nextSession₁,
        evtSeq := evtSeq₁, transfers := transfers₁, heldReqs := heldReqs₁, attests := attests₁, flash := flash₁,
        audit := audit₁, fuses := fuses₁, alwaysOn := alwaysOn₁, faults := faults₁, swath := swath₁,
        swathWait := swathWait₁, timeSt := timeSt₁, reach := reach₁, hostSt := hostSt₁, fw := fw₁, out := s.out,
        freeCtr := freeCtr₁, pending := s.pending } :=
  ⟨h.pending, fun k => h.canonical k, ⟨Nat.le_trans h.fuses.1 hf.1, Nat.le_trans h.fuses.2 hf.2⟩, fun p hp => Part.same_trans p (h.same p hp) (hs p hp),
    fun g => ⟨(h.grows g).1, (h.grows g).2.1, (h.grows g).2.2.1, (h.grows g).2.2.2.1.trans (hg g).1, fun k => (hg g).2 ((h.grows g).2.2.2.2 k)⟩⟩

theorem keepsOut_next {s0 s : State} (h : Keeps m s0 s) : KeepsOut m s0 (.next s) := by
  intro t ht; cases ht; exact h

theorem keepsOut_fault {m : BitVec 64} {s0 : State} (f : Fault) : KeepsOut m s0 (.fault f) := by
  intro t ht; cases ht

theorem keeps_of_snd {α : Type} {m : BitVec 64} {s0 : State} {p : α × State} {a : α} {t : State} (e : p = (a, t)) (h : Keeps m s0 p.2) : Keeps m s0 t := by
  rw [e] at h; exact h

theorem keeps_of_fst {α : Type} {m : BitVec 64} {s0 : State} {p : State × α} {a : α} {t : State} (e : p = (t, a)) (h : Keeps m s0 p.1) : Keeps m s0 t := by
  rw [e] at h; exact h

theorem keepsOut_ite {m : BitVec 64} {s0 : State} {c : Prop} [Decidable c] {a b : Out} (h1 : c → KeepsOut m s0 a) (h2 : ¬c → KeepsOut m s0 b) :
    KeepsOut m s0 (if c then a else b) := by
  split
  · exact h1 ‹_›
  · exact h2 ‹_›

theorem keeps_ite {m : BitVec 64} {s0 : State} {c : Prop} [Decidable c] {a b : State} (h1 : c → Keeps m s0 a) (h2 : ¬c → Keeps m s0 b) :
    Keeps m s0 (if c then a else b) := by
  split
  · exact h1 ‹_›
  · exact h2 ‹_›

theorem keeps_foldl {α : Type} {m : BitVec 64} {s0 : State} (f : State → α → State) (l : List α) (s : State)
    (hf : ∀ s x, Keeps m s0 s → Keeps m s0 (f s x)) (h : Keeps m s0 s) : Keeps m s0 (l.foldl f s) := by
  induction l generalizing s with
  | nil => exact h
  | cons x l ih => exact ih (f s x) (hf s x h)

theorem keeps_foldl_fst {α β : Type} {m : BitVec 64} {s0 : State} (f : State × β → α → State × β) (l : List α) (p : State × β)
    (hf : ∀ p x, Keeps m s0 p.1 → Keeps m s0 (f p x).1) (h : Keeps m s0 p.1) : Keeps m s0 (l.foldl f p).1 := by
  induction l generalizing p with
  | nil => exact h
  | cons x l ih => exact ih (f p x) (hf p x h)

theorem keeps_foldl_snd {α β : Type} {m : BitVec 64} {s0 : State} (f : β × State → α → β × State) (l : List α) (p : β × State)
    (hf : ∀ p x, Keeps m s0 p.2 → Keeps m s0 (f p x).2) (h : Keeps m s0 p.2) : Keeps m s0 (l.foldl f p).2 := by
  induction l generalizing p with
  | nil => exact h
  | cons x l ih => exact ih (f p x) (hf p x h)

theorem keeps_ite_fst {β : Type} {m : BitVec 64} {s0 : State} {c : Prop} [Decidable c] {a b : State × β} (h1 : c → Keeps m s0 a.1) (h2 : ¬c → Keeps m s0 b.1) :
    Keeps m s0 (if c then a else b).1 := by
  split
  · exact h1 ‹_›
  · exact h2 ‹_›

theorem keeps_ite_snd {β : Type} {m : BitVec 64} {s0 : State} {c : Prop} [Decidable c] {a b : β × State} (h1 : c → Keeps m s0 a.2) (h2 : ¬c → Keeps m s0 b.2) :
    Keeps m s0 (if c then a else b).2 := by
  split
  · exact h1 ‹_›
  · exact h2 ‹_›

theorem keeps_forUp {m : BitVec 64} {s0 : State} (f : State → Nat → State) (n i : Nat) (s : State)
    (hf : ∀ s x, Keeps m s0 s → Keeps m s0 (f s x)) (h : Keeps m s0 s) : Keeps m s0 (forUp f n i s) := by
  induction n generalizing i s with
  | zero => exact h
  | succ n ih => exact ih (i + 1) (f s i) (hf s i h)

theorem keeps_reset (m : BitVec 64) (s0 s : State) (faults : FaultSt) (rails : List Nat) (hm : m &&& 0x800002FC3FFFFFFF#64 = 0#64)
    (h : Keeps m s0 s) :
    Keeps m s0 { State.reset with
      flash := s.flash, audit := s.audit, alwaysOn := s.alwaysOn, fuses := s.fuses, rails := rails, faults := faults,
      out := s.out, freeCtr := s.freeCtr, pending := s.pending } :=
  ⟨h.pending, fun _ => ⟨rfl, rfl, rfl, rfl, rfl⟩, h.fuses, fun q hq => by
    refine Part.same_trans q (h.same q hq) ?_
    cases q <;> first | exact absurd hq (maskOff hm (by decide)) | exact rfl,
    fun g => absurd g (maskOff hm (by decide))⟩

theorem emit_keeps (m : BitVec 64) (s0 s : State) (o : Output) (hm : m &&& 0x10000000000#64 = 0#64) (h : Keeps m s0 s) :
    Keeps m s0 (emit s o) :=
  ⟨h.pending, fun k => h.canonical k, h.fuses, fun q hq => by
    refine Part.same_trans q (h.same q hq) ?_
    cases q <;> first | exact absurd hq (maskOff hm (by decide)) | exact rfl,
    fun g => ⟨(h.grows g).1.trans (List.prefix_append _ _), (h.grows g).2⟩⟩

theorem queueReport_keeps (m : BitVec 64) (s0 s : State) (r : FaultRec) (hm : m &&& 0x400000000#64 = 0#64) (h : Keeps m s0 s) :
    Keeps m s0 (queueReport s r) :=
  ⟨h.pending, fun k => h.canonical k, h.fuses, fun q hq => by
    refine Part.same_trans q (h.same q hq) ?_
    cases q <;> first | exact absurd hq (maskOff hm (by decide)) | exact rfl,
    fun g => ⟨(h.grows g).1, (h.grows g).2.1, (h.grows g).2.2.1,
      (h.grows g).2.2.2.1.trans (List.prefix_append _ _), (h.grows g).2.2.2.2⟩⟩

theorem setDeliv_keeps (m : BitVec 64) (s0 s : State) (d : Nat) (hm : m &&& 0x8000#64 = 0#64) (h : Keeps m s0 s) :
    Keeps m s0 (setDeliv s d none) :=
  ⟨h.pending, fun k => h.canonical k, h.fuses, fun q hq => by
    refine Part.same_trans q (h.same q hq) ?_
    cases q <;> first | exact absurd hq (maskOff hm (by decide)) | exact rfl,
    fun g => ⟨(h.grows g).1, (h.grows g).2.1, fun i hi e => by
      have := (h.grows g).2.2.1 i hi e
      simp only [getDeliv, setDeliv, Sparse.get_set] at this ⊢
      split <;> simp_all, (h.grows g).2.2.2⟩⟩

theorem wr_keeps (m : BitVec 64) (s0 s : State) (a : Nat) (w : Word) (hm : m &&& 0x1#64 = 0#64) (h : Keeps m s0 s) :
    Keeps m s0 (wr s a w) :=
  ⟨h.pending, fun k => ⟨Sparse.wf_set _ _ _ _ (h.canonical k).1, (h.canonical k).2⟩, h.fuses, fun q hq => by
    refine Part.same_trans q (h.same q hq) ?_
    cases q <;> first | exact absurd hq (maskOff hm (by decide)) | exact rfl,
    fun g => h.grows g⟩

theorem regsReset_keeps (m : BitVec 64) (s0 s : State) (lo hi : Nat) (hm : m &&& 0x1#64 = 0#64) (h : Keeps m s0 s) :
    Keeps m s0 (regsReset s lo hi) :=
  ⟨h.pending, fun k => ⟨Sparse.wf_eraseRange _ _ _ _ (h.canonical k).1, (h.canonical k).2⟩, h.fuses, fun q hq => by
    refine Part.same_trans q (h.same q hq) ?_
    cases q <;> first | exact absurd hq (maskOff hm (by decide)) | exact rfl,
    fun g => h.grows g⟩

theorem ctrAdd_keeps (m : BitVec 64) (s0 s : State) (p i n : Nat) (hm : m &&& 0x2#64 = 0#64) (h : Keeps m s0 s) :
    Keeps m s0 (ctrAdd s p i n) :=
  ⟨h.pending, fun k => ⟨(h.canonical k).1, Sparse.wf_set _ _ _ _ (h.canonical k).2.1,
    partsAdd_wf s p _ n (h.canonical k).2.2.1, (h.canonical k).2.2.2⟩, h.fuses, fun q hq => by
    refine Part.same_trans q (h.same q hq) ?_
    cases q <;> first | exact absurd hq (maskOff hm (by decide)) | exact rfl,
    fun g => h.grows g⟩

theorem ctrsReset_keeps (m : BitVec 64) (s0 s : State) (p : Nat) (hm : m &&& 0x2#64 = 0#64) (h : Keeps m s0 s) :
    Keeps m s0 (ctrsReset s p) :=
  ⟨h.pending, fun k => ⟨(h.canonical k).1, Sparse.wf_eraseRange _ _ _ _ (h.canonical k).2.1,
    Sparse.wf_eraseRange _ _ _ _ (h.canonical k).2.2.1, (h.canonical k).2.2.2⟩, h.fuses, fun q hq => by
    refine Part.same_trans q (h.same q hq) ?_
    cases q <;> first | exact absurd hq (maskOff hm (by decide)) | exact rfl,
    fun g => h.grows g⟩

theorem setEvCtr_keeps (m : BitVec 64) (s0 s : State) (c : Nat) (v : Dword) (hm : m &&& 0x4#64 = 0#64) (h : Keeps m s0 s) :
    Keeps m s0 (setEvCtr s c v) :=
  ⟨h.pending, fun k => ⟨(h.canonical k).1, (h.canonical k).2.1, (h.canonical k).2.2.1,
    Sparse.wf_set _ _ _ _ (h.canonical k).2.2.2.1, (h.canonical k).2.2.2.2⟩, h.fuses, fun q hq => by
    refine Part.same_trans q (h.same q hq) ?_
    cases q <;> first | exact absurd hq (maskOff hm (by decide)) | exact rfl,
    fun g => h.grows g⟩

theorem memWrite_keeps (m : BitVec 64) (s0 s : State) (a : Nat) (w : Byte) (hm : m &&& 0x18#64 = 0#64) (h : Keeps m s0 s) :
    Keeps m s0 (memWrite s a w) :=
  ⟨h.pending, fun k => ⟨(h.canonical k).1, (h.canonical k).2.1, (h.canonical k).2.2.1,
    (h.canonical k).2.2.2.1, Sparse.wf_set _ _ _ _ (h.canonical k).2.2.2.2⟩, h.fuses, fun q hq => by
    refine Part.same_trans q (h.same q hq) ?_
    cases q <;> first | exact absurd hq (maskOff hm (by decide)) | exact rfl,
    fun g => h.grows g⟩

theorem memZero_keeps (m : BitVec 64) (s0 s : State) (lo n : Nat) (hm : m &&& 0x18#64 = 0#64) (h : Keeps m s0 s) :
    Keeps m s0 (memZero s lo n) :=
  ⟨h.pending, fun k => ⟨(h.canonical k).1, (h.canonical k).2.1, (h.canonical k).2.2.1,
    (h.canonical k).2.2.2.1, Sparse.wf_eraseRange _ _ _ _ (h.canonical k).2.2.2.2⟩, h.fuses, fun q hq => by
    refine Part.same_trans q (h.same q hq) ?_
    cases q <;> first | exact absurd hq (maskOff hm (by decide)) | exact rfl,
    fun g => h.grows g⟩

theorem memStore_keeps (m : BitVec 64) (s0 s : State) (a : Nat) (bs : List Byte) (hm : m &&& 0x18#64 = 0#64)
    (h : Keeps m s0 s) : Keeps m s0 (memStore s a bs) := by
  induction bs generalizing s a with
  | nil => exact h
  | cons b bs ih => exact ih _ _ (memWrite_keeps m s0 s a b hm h)

end Sys2Proof.Machine
end

