-- ==== Sys2Proof/Laws/KeepsOps.lean ====
section
/-! SUPPORT. One `Keeps` lemma for each operation of the shared operations, the switch, the links and time. -/
namespace Sys2Proof.Machine

open Sys2Proof

theorem fset_keeps (m : BitVec 64) (s0 x0 : State) (x1 hi lo v : Nat) (hm : m &&& 0x1#64 = 0#64) (h : Keeps m s0 x0) :
    Keeps m s0 (fset x0 x1 hi lo v) := by
  unfold fset
  repeat' first
    | (with_reducible first
        | assumption | apply wr_keeps)
    | exact maskSub hm (by decide) | split

theorem setBit_keeps (m : BitVec 64) (s0 x0 : State) (x1 b : Nat) (v : Bool) (hm : m &&& 0x1#64 = 0#64) (h : Keeps m s0 x0) :
    Keeps m s0 (setBit x0 x1 b v) := by
  unfold setBit
  repeat' first
    | (with_reducible first
        | assumption | apply fset_keeps)
    | exact maskSub hm (by decide) | split

theorem realign_keeps (m : BitVec 64) (s0 x0 : State) (hm : m &&& 0x20000000020#64 = 0#64) (h : Keeps m s0 x0) :
    Keeps m s0 (realign x0) := by
  unfold realign
  repeat' first
    | (with_reducible first
        | assumption)
    | exact maskSub hm (by decide) | split
    | (intro q hq; cases q <;> first | exact absurd hq (maskOff hm (by decide)) | with_reducible rfl)
    | exact fun _ => ⟨List.prefix_rfl, id⟩ | exact fun _ => ⟨List.prefix_rfl, fun _ => rfl⟩
    | exact fun g => absurd g (maskOff hm (by decide)) | (fail_if_no_progress with_reducible apply keeps_frame)

theorem fieldSat_keeps (m : BitVec 64) (s0 x0 : State) (x1 hi lo n : Nat) (hm : m &&& 0x1#64 = 0#64) (h : Keeps m s0 x0) :
    Keeps m s0 (fieldSat x0 x1 hi lo n) := by
  unfold fieldSat
  repeat' first
    | (with_reducible first
        | assumption | apply fset_keeps)
    | exact maskSub hm (by decide) | split

theorem setPort_keeps (m : BitVec 64) (s0 x0 : State) (x1 : Nat) (x : PortSt) (hm : m &&& 0x400#64 = 0#64)
     (h : Keeps m s0 x0) :
    Keeps m s0 (setPort x0 x1 x) := by
  unfold setPort
  repeat' first
    | (with_reducible first
        | assumption)
    | exact maskSub hm (by decide) | dsimp only | split
    | (intro q hq; cases q <;> first | exact absurd hq (maskOff hm (by decide)) | with_reducible rfl)
    | exact fun _ => ⟨List.prefix_rfl, id⟩ | exact fun _ => ⟨List.prefix_rfl, fun _ => rfl⟩
    | exact fun g => absurd g (maskOff hm (by decide)) | (fail_if_no_progress with_reducible apply keeps_frame) | intro _

theorem modPort_keeps (m : BitVec 64) (s0 x0 : State) (x1 : Nat) (f : PortSt → PortSt) (hm : m &&& 0x400#64 = 0#64)
     (h : Keeps m s0 x0) :
    Keeps m s0 (modPort x0 x1 f) := by
  unfold modPort
  repeat' first
    | (with_reducible first
        | assumption | apply setPort_keeps)
    | exact maskSub hm (by decide) | split

theorem setStitch_keeps (m : BitVec 64) (s0 x0 : State) (n : Nat) (x : StitchSt) (hm : m &&& 0x1000#64 = 0#64)
     (h : Keeps m s0 x0) :
    Keeps m s0 (setStitch x0 n x) := by
  unfold setStitch
  repeat' first
    | (with_reducible first
        | assumption)
    | exact maskSub hm (by decide) | dsimp only | split
    | (intro q hq; cases q <;> first | exact absurd hq (maskOff hm (by decide)) | with_reducible rfl)
    | exact fun _ => ⟨List.prefix_rfl, id⟩ | exact fun _ => ⟨List.prefix_rfl, fun _ => rfl⟩
    | exact fun g => absurd g (maskOff hm (by decide)) | (fail_if_no_progress with_reducible apply keeps_frame) | intro _

theorem setCell_keeps (m : BitVec 64) (s0 x0 : State) (c : Nat) (x : Cell) (hm : m &&& 0x2000#64 = 0#64) (h : Keeps m s0 x0) :
    Keeps m s0 (setCell x0 c x) := by
  unfold setCell
  repeat' first
    | (with_reducible first
        | assumption)
    | exact maskSub hm (by decide) | dsimp only | split
    | (intro q hq; cases q <;> first | exact absurd hq (maskOff hm (by decide)) | with_reducible rfl)
    | exact fun _ => ⟨List.prefix_rfl, id⟩ | exact fun _ => ⟨List.prefix_rfl, fun _ => rfl⟩
    | exact fun g => absurd g (maskOff hm (by decide)) | (fail_if_no_progress with_reducible apply keeps_frame) | intro _

theorem setQueue_keeps (m : BitVec 64) (s0 x0 : State) (q : Nat) (x : List QEntry) (hm : m &&& 0x4000#64 = 0#64)
     (h : Keeps m s0 x0) :
    Keeps m s0 (setQueue x0 q x) := by
  unfold setQueue
  repeat' first
    | (with_reducible first
        | assumption)
    | exact maskSub hm (by decide) | dsimp only | split
    | (intro q hq; cases q <;> first | exact absurd hq (maskOff hm (by decide)) | with_reducible rfl)
    | exact fun _ => ⟨List.prefix_rfl, id⟩ | exact fun _ => ⟨List.prefix_rfl, fun _ => rfl⟩
    | exact fun g => absurd g (maskOff hm (by decide)) | (fail_if_no_progress with_reducible apply keeps_frame) | intro _

theorem setStream_keeps (m : BitVec 64) (s0 x0 : State) (c : Nat) (x : Option Stream) (hm : m &&& 0x80000#64 = 0#64)
     (h : Keeps m s0 x0) :
    Keeps m s0 (setStream x0 c x) := by
  unfold setStream
  repeat' first
    | (with_reducible first
        | assumption)
    | exact maskSub hm (by decide) | dsimp only | split
    | (intro q hq; cases q <;> first | exact absurd hq (maskOff hm (by decide)) | with_reducible rfl)
    | exact fun _ => ⟨List.prefix_rfl, id⟩ | exact fun _ => ⟨List.prefix_rfl, fun _ => rfl⟩
    | exact fun g => absurd g (maskOff hm (by decide)) | (fail_if_no_progress with_reducible apply keeps_frame) | intro _

theorem setJob_keeps (m : BitVec 64) (s0 x0 : State) (n : Nat) (x : Option JobSt) (hm : m &&& 0x200000#64 = 0#64)
     (h : Keeps m s0 x0) :
    Keeps m s0 (setJob x0 n x) := by
  unfold setJob
  repeat' first
    | (with_reducible first
        | assumption)
    | exact maskSub hm (by decide) | dsimp only | split
    | (intro q hq; cases q <;> first | exact absurd hq (maskOff hm (by decide)) | with_reducible rfl)
    | exact fun _ => ⟨List.prefix_rfl, id⟩ | exact fun _ => ⟨List.prefix_rfl, fun _ => rfl⟩
    | exact fun g => absurd g (maskOff hm (by decide)) | (fail_if_no_progress with_reducible apply keeps_frame) | intro _

theorem setSlot_keeps (m : BitVec 64) (s0 x0 : State) (i : Nat) (x : Option SlotSt) (hm : m &&& 0x800000#64 = 0#64)
     (h : Keeps m s0 x0) :
    Keeps m s0 (setSlot x0 i x) := by
  unfold setSlot
  repeat' first
    | (with_reducible first
        | assumption)
    | exact maskSub hm (by decide) | dsimp only | split
    | (intro q hq; cases q <;> first | exact absurd hq (maskOff hm (by decide)) | with_reducible rfl)
    | exact fun _ => ⟨List.prefix_rfl, id⟩ | exact fun _ => ⟨List.prefix_rfl, fun _ => rfl⟩
    | exact fun g => absurd g (maskOff hm (by decide)) | (fail_if_no_progress with_reducible apply keeps_frame) | intro _

theorem setSession_keeps (m : BitVec 64) (s0 x0 : State) (i : Nat) (x : Option Session) (hm : m &&& 0x8000000#64 = 0#64)
     (h : Keeps m s0 x0) :
    Keeps m s0 (setSession x0 i x) := by
  unfold setSession
  repeat' first
    | (with_reducible first
        | assumption)
    | exact maskSub hm (by decide) | dsimp only | split
    | (intro q hq; cases q <;> first | exact absurd hq (maskOff hm (by decide)) | with_reducible rfl)
    | exact fun _ => ⟨List.prefix_rfl, id⟩ | exact fun _ => ⟨List.prefix_rfl, fun _ => rfl⟩
    | exact fun g => absurd g (maskOff hm (by decide)) | (fail_if_no_progress with_reducible apply keeps_frame) | intro _

theorem draw_keeps (m : BitVec 64) (s0 x0 : State) (hm : m &&& 0x20000000000#64 = 0#64) (h : Keeps m s0 x0) :
    Keeps m s0 (draw x0).2 := by
  unfold draw
  repeat' first
    | (with_reducible first
        | assumption | refine keeps_of_snd (by assumption) ?_
        | refine keeps_of_fst (by assumption) ?_)
    | exact maskSub hm (by decide) | dsimp only | split
    | (intro q hq; cases q <;> first | exact absurd hq (maskOff hm (by decide)) | with_reducible rfl)
    | exact fun _ => ⟨List.prefix_rfl, id⟩ | exact fun _ => ⟨List.prefix_rfl, fun _ => rfl⟩
    | exact fun g => absurd g (maskOff hm (by decide)) | (fail_if_no_progress with_reducible apply keeps_frame)

theorem hostLinkDown_keeps (m : BitVec 64) (s0 x0 : State) (hm : m &&& 0x4000000001#64 = 0#64) (h : Keeps m s0 x0) :
    Keeps m s0 (hostLinkDown x0) := by
  unfold hostLinkDown
  try dsimp only
  repeat' first
    | (with_reducible first
        | assumption | apply setBit_keeps)
    | exact maskSub hm (by decide) | dsimp only | split
    | (intro q hq; cases q <;> first | exact absurd hq (maskOff hm (by decide)) | with_reducible rfl)
    | exact fun _ => ⟨List.prefix_rfl, id⟩ | exact fun _ => ⟨List.prefix_rfl, fun _ => rfl⟩
    | exact fun g => absurd g (maskOff hm (by decide)) | (fail_if_no_progress with_reducible apply keeps_frame)

theorem sendMsg_keeps (m : BitVec 64) (s0 x0 : State) (sid ty msgNum flags status : Nat) (body : List Byte)
     (hm : m &&& 0x10008000002#64 = 0#64) (h : Keeps m s0 x0) :
    Keeps m s0 (sendMsg x0 sid ty msgNum flags status body) := by
  unfold sendMsg
  try dsimp only
  repeat' first
    | (with_reducible first
        | assumption | apply keeps_ite | apply setSession_keeps | apply emit_keeps
        | apply ctrAdd_keeps)
    | exact maskSub hm (by decide) | dsimp only | split | intro _

theorem sendError_keeps (m : BitVec 64) (s0 x0 : State) (sid msgNum status : Nat) (hm : m &&& 0x10008000002#64 = 0#64)
     (h : Keeps m s0 x0) :
    Keeps m s0 (sendError x0 sid msgNum status) := by
  unfold sendError
  repeat' first
    | (with_reducible first
        | assumption | apply sendMsg_keeps)
    | exact maskSub hm (by decide) | split

theorem sendPageEvent_keeps (m : BitVec 64) (s0 x0 : State) (sid : Nat) (x : Session) (page : Nat) (v : Word)
     (hm : m &&& 0x10008000002#64 = 0#64) (h : Keeps m s0 x0) :
    Keeps m s0 (sendPageEvent x0 sid x page v) := by
  unfold sendPageEvent
  try dsimp only
  repeat' first
    | (with_reducible first
        | assumption | apply setSession_keeps | apply sendMsg_keeps)
    | exact maskSub hm (by decide) | dsimp only | split
    | (intro q hq; cases q <;> first | exact absurd hq (maskOff hm (by decide)) | with_reducible rfl)
    | exact fun _ => ⟨List.prefix_rfl, id⟩ | exact fun _ => ⟨List.prefix_rfl, fun _ => rfl⟩
    | exact fun g => absurd g (maskOff hm (by decide)) | (fail_if_no_progress with_reducible apply keeps_frame) | intro _

theorem notifySession_keeps (m : BitVec 64) (s0 x0 : State) (page sid : Nat) (hm : m &&& 0x10008000002#64 = 0#64)
     (h : Keeps m s0 x0) :
    Keeps m s0 (notifySession x0 page sid) := by
  unfold notifySession
  try dsimp only
  repeat' first
    | (with_reducible first
        | assumption | apply keeps_ite | apply setSession_keeps | apply sendPageEvent_keeps)
    | exact maskSub hm (by decide) | dsimp only | split | intro _

theorem notify_keeps (m : BitVec 64) (s0 x0 : State) (page : Nat) (hm : m &&& 0x10008000002#64 = 0#64) (h : Keeps m s0 x0) :
    Keeps m s0 (notify x0 page) := by
  unfold notify
  repeat' first
    | (with_reducible first
        | assumption | apply keeps_foldl | apply notifySession_keeps
        | refine keeps_of_snd (by assumption) ?_ | refine keeps_of_fst (by assumption) ?_)
    | exact maskSub hm (by decide) | dsimp only | split | intro _

theorem raise_keeps (m : BitVec 64) (s0 x0 : State) (page b : Nat) (hm : m &&& 0x10008000003#64 = 0#64) (h : Keeps m s0 x0) :
    Keeps m s0 (raise x0 page b) := by
  unfold raise
  repeat' first
    | (with_reducible first
        | assumption | apply notify_keeps | apply setBit_keeps)
    | exact maskSub hm (by decide) | split

theorem cfgRefused_keeps (m : BitVec 64) (s0 x0 : State) (addr : Nat) (hm : m &&& 0x10008000003#64 = 0#64)
     (h : Keeps m s0 x0) :
    Keeps m s0 (cfgRefused x0 addr) := by
  unfold cfgRefused
  repeat' first
    | (with_reducible first
        | assumption | apply keeps_ite | apply raise_keeps)
    | exact maskSub hm (by decide) | split | intro _

theorem raiseJob_keeps (m : BitVec 64) (s0 x0 : State) (n : Nat) (hm : m &&& 0x10008000003#64 = 0#64) (h : Keeps m s0 x0) :
    Keeps m s0 (raiseJob x0 n) := by
  unfold raiseJob
  repeat' first
    | (with_reducible first
        | assumption | apply raise_keeps)
    | exact maskSub hm (by decide) | split

theorem auditOne_keeps (m : BitVec 64) (s0 x0 : State) (kind role result subject session : Nat) (detail : List Byte)
     (sets : List Setting) (hm : m &&& 0x80000000#64 = 0#64) (h : Keeps m s0 x0) :
    Keeps m s0 (auditOne x0 kind role result subject session detail sets) := by
  unfold auditOne
  try dsimp only
  repeat' first
    | (with_reducible first
        | assumption)
    | exact maskSub hm (by decide) | dsimp only | split
    | (intro q hq; cases q <;> first | exact absurd hq (maskOff hm (by decide)) | with_reducible rfl)
    | exact fun _ => ⟨List.prefix_rfl, id⟩ | exact fun _ => ⟨List.prefix_rfl, fun _ => rfl⟩
    | exact fun g => absurd g (maskOff hm (by decide)) | (fail_if_no_progress with_reducible apply keeps_frame)

theorem auditAdd_keeps (m : BitVec 64) (s0 x0 : State) (kind role result subject session : Nat) (detail : List Byte)
     (sets : List Setting) (hm : m &&& 0x80000000#64 = 0#64) (h : Keeps m s0 x0) :
    Keeps m s0 (auditAdd x0 kind role result subject session detail sets) := by
  unfold auditAdd
  try dsimp only
  repeat' first
    | (with_reducible first
        | assumption | apply keeps_ite | apply auditOne_keeps)
    | exact maskSub hm (by decide) | dsimp only | split | intro _

theorem auditDevice_keeps (m : BitVec 64) (s0 x0 : State) (kind result subject : Nat) (detail : List Byte)
     (hm : m &&& 0x80000000#64 = 0#64) (h : Keeps m s0 x0) :
    Keeps m s0 (auditDevice x0 kind result subject detail) := by
  unfold auditDevice
  repeat' first
    | (with_reducible first
        | assumption | apply auditAdd_keeps)
    | exact maskSub hm (by decide) | split

theorem refreshCert_keeps (m : BitVec 64) (s0 x0 : State) (hm : m &&& 0x80000001#64 = 0#64) (h : Keeps m s0 x0) :
    Keeps m s0 (refreshCert x0) := by
  unfold refreshCert
  try dsimp only
  repeat' first
    | (with_reducible first
        | assumption | apply keeps_ite | apply wr_keeps | apply auditDevice_keeps)
    | exact maskSub hm (by decide) | dsimp only | split | intro _

theorem serveCross_keeps (m : BitVec 64) (s0 x0 : State) (u v ch : Nat) (hm : m &&& 0x40#64 = 0#64) (h : Keeps m s0 x0) :
    Keeps m s0 (serveCross x0 u v ch) := by
  unfold serveCross
  try dsimp only
  repeat' first
    | (with_reducible first
        | assumption)
    | exact maskSub hm (by decide) | dsimp only | split
    | (intro q hq; cases q <;> first | exact absurd hq (maskOff hm (by decide)) | with_reducible rfl)
    | exact fun _ => ⟨List.prefix_rfl, id⟩ | exact fun _ => ⟨List.prefix_rfl, fun _ => rfl⟩
    | exact fun g => absurd g (maskOff hm (by decide)) | (fail_if_no_progress with_reducible apply keeps_frame) | intro _

theorem completeUnit_keeps (m : BitVec 64) (s0 x0 : State) (x : SwathSt) (u : Nat) (hm : m &&& 0x800000001#64 = 0#64)
     (h : Keeps m s0 x0) :
    Keeps m s0 (completeUnit x0 x u) := by
  unfold completeUnit
  try dsimp only
  repeat' first
    | (with_reducible first
        | assumption | apply keeps_foldl | apply wr_keeps
        | refine keeps_of_snd (by assumption) ?_ | refine keeps_of_fst (by assumption) ?_)
    | exact maskSub hm (by decide) | dsimp only | split
    | (intro q hq; cases q <;> first | exact absurd hq (maskOff hm (by decide)) | with_reducible rfl)
    | exact fun _ => ⟨List.prefix_rfl, id⟩ | exact fun _ => ⟨List.prefix_rfl, fun _ => rfl⟩
    | exact fun g => absurd g (maskOff hm (by decide)) | (fail_if_no_progress with_reducible apply keeps_frame) | intro _

theorem endSwath_keeps (m : BitVec 64) (s0 x0 : State) (st ev : Nat) (hm : m &&& 0x10808000003#64 = 0#64)
     (h : Keeps m s0 x0) :
    Keeps m s0 (endSwath x0 st ev) := by
  unfold endSwath
  try dsimp only
  repeat' first
    | (with_reducible first
        | assumption | apply fset_keeps | apply wr_keeps | apply raise_keeps)
    | exact maskSub hm (by decide) | dsimp only | split
    | (intro q hq; cases q <;> first | exact absurd hq (maskOff hm (by decide)) | with_reducible rfl)
    | exact fun _ => ⟨List.prefix_rfl, id⟩ | exact fun _ => ⟨List.prefix_rfl, fun _ => rfl⟩
    | exact fun g => absurd g (maskOff hm (by decide)) | (fail_if_no_progress with_reducible apply keeps_frame)

theorem takeMarker_keeps (m : BitVec 64) (s0 x0 : State) (x : SwathSt) (u c : Nat) (hm : m &&& 0x10808000003#64 = 0#64)
     (h : Keeps m s0 x0) :
    Keeps m s0 (takeMarker x0 x u c) := by
  unfold takeMarker
  try dsimp only
  repeat' first
    | (with_reducible first
        | assumption | apply keeps_ite | apply completeUnit_keeps | apply fset_keeps
        | apply endSwath_keeps | refine keeps_of_snd (by assumption) ?_ | refine keeps_of_fst (by assumption) ?_)
    | exact maskSub hm (by decide) | dsimp only | split
    | (intro q hq; cases q <;> first | exact absurd hq (maskOff hm (by decide)) | with_reducible rfl)
    | exact fun _ => ⟨List.prefix_rfl, id⟩ | exact fun _ => ⟨List.prefix_rfl, fun _ => rfl⟩
    | exact fun g => absurd g (maskOff hm (by decide)) | (fail_if_no_progress with_reducible apply keeps_frame) | intro _

theorem hop_keeps (m : BitVec 64) (s0 x0 : State) (u v ch : Nat) (hm : m &&& 0x10808000043#64 = 0#64) (h : Keeps m s0 x0) :
    Keeps m s0 (hop x0 u v ch) := by
  unfold hop
  try dsimp only
  repeat' first
    | (with_reducible first
        | assumption | apply keeps_ite | apply takeMarker_keeps | apply serveCross_keeps)
    | exact maskSub hm (by decide) | dsimp only | split
    | (intro q hq; cases q <;> first | exact absurd hq (maskOff hm (by decide)) | with_reducible rfl)
    | exact fun _ => ⟨List.prefix_rfl, id⟩ | exact fun _ => ⟨List.prefix_rfl, fun _ => rfl⟩
    | exact fun g => absurd g (maskOff hm (by decide)) | (fail_if_no_progress with_reducible apply keeps_frame) | intro _

theorem cross_keeps (m : BitVec 64) (s0 x0 : State) (x1 b ch : Nat) (hm : m &&& 0x10808000043#64 = 0#64) (h : Keeps m s0 x0) :
    Keeps m s0 (cross x0 x1 b ch) := by
  unfold cross
  repeat' first
    | (with_reducible first
        | assumption | apply keeps_foldl | apply hop_keeps
        | refine keeps_of_snd (by assumption) ?_ | refine keeps_of_fst (by assumption) ?_)
    | exact maskSub hm (by decide) | dsimp only | split
    | (intro q hq; cases q <;> first | exact absurd hq (maskOff hm (by decide)) | with_reducible rfl)
    | exact fun _ => ⟨List.prefix_rfl, id⟩ | exact fun _ => ⟨List.prefix_rfl, fun _ => rfl⟩
    | exact fun g => absurd g (maskOff hm (by decide)) | (fail_if_no_progress with_reducible apply keeps_frame) | intro _

theorem atRest_keeps (m : BitVec 64) (s0 x0 : State) (hm : m &&& 0x40#64 = 0#64) (h : Keeps m s0 x0) :
    Keeps m s0 (atRest x0) := by
  unfold atRest
  repeat' first
    | (with_reducible first
        | assumption)
    | exact maskSub hm (by decide) | split
    | (intro q hq; cases q <;> first | exact absurd hq (maskOff hm (by decide)) | with_reducible rfl)
    | exact fun _ => ⟨List.prefix_rfl, id⟩ | exact fun _ => ⟨List.prefix_rfl, fun _ => rfl⟩
    | exact fun g => absurd g (maskOff hm (by decide)) | (fail_if_no_progress with_reducible apply keeps_frame)

theorem report_keeps (m : BitVec 64) (s0 x0 : State) (r : FaultRec) (hm : m &&& 0x400000001#64 = 0#64) (h : Keeps m s0 x0) :
    Keeps m s0 (report x0 r) := by
  unfold report
  try dsimp only
  repeat' first
    | (with_reducible first
        | assumption | apply fset_keeps | apply queueReport_keeps)
    | exact maskSub hm (by decide) | dsimp only | split

theorem takeRecord_keeps (m : BitVec 64) (s0 x0 : State) (r : FaultRec) (hm : m &&& 0x10808000043#64 = 0#64)
     (h : Keeps m s0 x0) :
    Keeps m s0 (takeRecord x0 r) := by
  unfold takeRecord
  try dsimp only
  repeat' first
    | (with_reducible first
        | assumption | apply keeps_ite | apply atRest_keeps | apply hop_keeps)
    | exact maskSub hm (by decide) | dsimp only | split | intro _

theorem forgetHeld_keeps (m : BitVec 64) (s0 x0 : State) (x1 : Nat) (hm : m &&& 0x2400#64 = 0#64) (h : Keeps m s0 x0) :
    Keeps m s0 (forgetHeld x0 x1) := by
  unfold forgetHeld
  try dsimp only
  repeat' first
    | (with_reducible first
        | assumption | apply keeps_ite | apply keeps_foldl | apply setCell_keeps
        | apply modPort_keeps | refine keeps_of_snd (by assumption) ?_ | refine keeps_of_fst (by assumption) ?_)
    | exact maskSub hm (by decide) | dsimp only | split | intro _

theorem grantInitial_keeps (m : BitVec 64) (s0 x0 : State) (x1 : Nat) (hm : m &&& 0x10000000400#64 = 0#64)
     (h : Keeps m s0 x0) :
    Keeps m s0 (grantInitial x0 x1) := by
  unfold grantInitial
  try dsimp only
  repeat' first
    | (with_reducible first
        | assumption | apply keeps_ite | apply keeps_foldl | apply modPort_keeps
        | apply emit_keeps)
    | exact maskSub hm (by decide) | dsimp only | split | intro _

theorem initialCredits_keeps (m : BitVec 64) (s0 x0 : State) (x1 : Nat) (hm : m &&& 0x10000002400#64 = 0#64)
     (h : Keeps m s0 x0) :
    Keeps m s0 (initialCredits x0 x1) := by
  unfold initialCredits
  repeat' first
    | (with_reducible first
        | assumption | apply grantInitial_keeps | apply modPort_keeps | apply forgetHeld_keeps)
    | exact maskSub hm (by decide) | dsimp only | split | intro _

theorem restoreCredits_keeps (m : BitVec 64) (s0 x0 : State) (x1 : Nat) (hm : m &&& 0x400#64 = 0#64) (h : Keeps m s0 x0) :
    Keeps m s0 (restoreCredits x0 x1) := by
  unfold restoreCredits
  repeat' first
    | (with_reducible first
        | assumption | apply modPort_keeps)
    | exact maskSub hm (by decide) | dsimp only | split | intro _

theorem restoreGrants_keeps (m : BitVec 64) (s0 x0 : State) (x1 : Nat) (hm : m &&& 0x10000002400#64 = 0#64)
     (h : Keeps m s0 x0) :
    Keeps m s0 (restoreGrants x0 x1) := by
  unfold restoreGrants
  repeat' first
    | (with_reducible first
        | assumption | apply grantInitial_keeps | apply forgetHeld_keeps)
    | exact maskSub hm (by decide) | split

theorem unbank_keeps (m : BitVec 64) (s0 : State) (x0 : Nat) (x1 : State) (x2 : Nat) (hm : m &&& 0x10000000400#64 = 0#64)
     (h : Keeps m s0 x1) :
    Keeps m s0 (unbank x0 x1 x2) := by
  induction x0 generalizing x1 x2 with
  | zero =>
    unfold unbank
    try dsimp only
    repeat' first
      | (with_reducible first
          | assumption | apply keeps_ite | apply modPort_keeps | apply emit_keeps)
      | exact maskSub hm (by decide) | dsimp only | split | intro _
  | succ k ih =>
    unfold unbank
    try dsimp only
    repeat' first
      | (with_reducible first
          | assumption | apply ih | apply keeps_ite | apply modPort_keeps | apply emit_keeps)
      | exact maskSub hm (by decide) | dsimp only | split | intro _

theorem releaseBanked_keeps (m : BitVec 64) (s0 x0 : State) (x1 : Nat) (hm : m &&& 0x10000000400#64 = 0#64)
     (h : Keeps m s0 x0) :
    Keeps m s0 (releaseBanked x0 x1) := by
  unfold releaseBanked
  repeat' first
    | (with_reducible first
        | assumption | apply unbank_keeps)
    | exact maskSub hm (by decide) | split

theorem releaseDie_keeps (m : BitVec 64) (s0 x0 : State) (d : Nat) (hm : m &&& 0x10000000400#64 = 0#64) (h : Keeps m s0 x0) :
    Keeps m s0 (releaseDie x0 d) := by
  unfold releaseDie
  repeat' first
    | (with_reducible first
        | assumption | apply keeps_foldl | apply releaseBanked_keeps)
    | exact maskSub hm (by decide) | dsimp only | split | intro _

theorem returnCredits_keeps (m : BitVec 64) (s0 x0 : State) (x1 v k : Nat) (hm : m &&& 0x10000000402#64 = 0#64)
     (h : Keeps m s0 x0) :
    Keeps m s0 (returnCredits x0 x1 v k) := by
  unfold returnCredits
  try dsimp only
  repeat' first
    | (with_reducible first
        | assumption | apply keeps_ite | apply modPort_keeps | apply ctrAdd_keeps
        | apply emit_keeps)
    | exact maskSub hm (by decide) | dsimp only | split | intro _

theorem showPools_keeps (m : BitVec 64) (s0 x0 : State) (d : Nat) (hm : m &&& 0x1#64 = 0#64) (h : Keeps m s0 x0) :
    Keeps m s0 (showPools x0 d) := by
  unfold showPools
  try dsimp only
  repeat' first
    | (with_reducible first
        | assumption | apply keeps_forUp | apply fset_keeps
        | refine keeps_of_snd (by assumption) ?_ | refine keeps_of_fst (by assumption) ?_)
    | exact maskSub hm (by decide) | dsimp only | split | intro _

theorem takeCell_keeps (m : BitVec 64) (s0 x0 : State) (c refs : Nat) (ch : Charge) (acct : Option Nat)
     (ing : Option (Prod Nat Nat)) (credits : Nat) (hm : m &&& 0x2003#64 = 0#64) (h : Keeps m s0 x0) :
    Keeps m s0 (takeCell x0 c refs ch acct ing credits) := by
  unfold takeCell
  try dsimp only
  repeat' first
    | (with_reducible first
        | assumption | apply setCell_keeps | apply fset_keeps | apply ctrAdd_keeps
        | refine keeps_of_snd (by assumption) ?_ | refine keeps_of_fst (by assumption) ?_)
    | exact maskSub hm (by decide) | dsimp only | split

theorem releaseCell_keeps (m : BitVec 64) (s0 x0 : State) (c : Nat) (hm : m &&& 0x10000002403#64 = 0#64) (h : Keeps m s0 x0) :
    Keeps m s0 (releaseCell x0 c) := by
  unfold releaseCell
  try dsimp only
  repeat' first
    | (with_reducible first
        | assumption | apply keeps_ite | apply setCell_keeps | apply fset_keeps
        | apply releaseDie_keeps | apply returnCredits_keeps)
    | exact maskSub hm (by decide) | dsimp only | split | intro _

theorem decCell_keeps (m : BitVec 64) (s0 x0 : State) (c gen : Nat) (hm : m &&& 0x10400002403#64 = 0#64) (h : Keeps m s0 x0) :
    Keeps m s0 (decCell x0 c gen) := by
  unfold decCell
  try dsimp only
  repeat' first
    | (with_reducible first
        | assumption | apply keeps_ite | apply report_keeps | apply ctrAdd_keeps
        | apply releaseCell_keeps | apply setCell_keeps)
    | exact maskSub hm (by decide) | dsimp only | split | intro _

theorem holdCredits_keeps (m : BitVec 64) (s0 x0 : State) (x1 v k : Nat) (hm : m &&& 0x400#64 = 0#64) (h : Keeps m s0 x0) :
    Keeps m s0 (holdCredits x0 x1 v k) := by
  unfold holdCredits
  repeat' first
    | (with_reducible first
        | assumption | apply modPort_keeps)
    | exact maskSub hm (by decide) | dsimp only | split | intro _

theorem writeRoutes_keeps (m : BitVec 64) (s0 x0 : State) (hm : m &&& 0x1#64 = 0#64) (h : Keeps m s0 x0) :
    Keeps m s0 (writeRoutes x0) := by
  unfold writeRoutes
  repeat' first
    | (with_reducible first
        | assumption | apply keeps_foldl | apply wr_keeps | apply regsReset_keeps)
    | exact maskSub hm (by decide) | dsimp only | split | intro _

theorem storedAdd_keeps (m : BitVec 64) (s0 x0 : State) (q n : Nat) (hm : m &&& 0x1#64 = 0#64) (h : Keeps m s0 x0) :
    Keeps m s0 (storedAdd x0 q n) := by
  unfold storedAdd
  repeat' first
    | (with_reducible first
        | assumption | apply wr_keeps)
    | exact maskSub hm (by decide) | split

theorem storedSub_keeps (m : BitVec 64) (s0 x0 : State) (q n : Nat) (hm : m &&& 0x1#64 = 0#64) (h : Keeps m s0 x0) :
    Keeps m s0 (storedSub x0 q n) := by
  unfold storedSub
  repeat' first
    | (with_reducible first
        | assumption | apply wr_keeps)
    | exact maskSub hm (by decide) | split

theorem setGate_keeps (m : BitVec 64) (s0 x0 : State) (x1 : Nat) (g : GateSt) (hm : m &&& 0x40000#64 = 0#64)
     (h : Keeps m s0 x0) :
    Keeps m s0 (setGate x0 x1 g) := by
  unfold setGate
  repeat' first
    | (with_reducible first
        | assumption)
    | exact maskSub hm (by decide) | dsimp only | split
    | (intro q hq; cases q <;> first | exact absurd hq (maskOff hm (by decide)) | with_reducible rfl)
    | exact fun _ => ⟨List.prefix_rfl, id⟩ | exact fun _ => ⟨List.prefix_rfl, fun _ => rfl⟩
    | exact fun g => absurd g (maskOff hm (by decide)) | (fail_if_no_progress with_reducible apply keeps_frame) | intro _

theorem setBucket_keeps (m : BitVec 64) (s0 x0 : State) (x1 : Nat) (v : Int) (hm : m &&& 0x401#64 = 0#64)
     (h : Keeps m s0 x0) :
    Keeps m s0 (setBucket x0 x1 v) := by
  unfold setBucket
  repeat' first
    | (with_reducible first
        | assumption | apply modPort_keeps | apply wr_keeps)
    | exact maskSub hm (by decide) | dsimp only | split | intro _

theorem settleBucket_keeps (m : BitVec 64) (s0 x0 : State) (x1 : Nat) (hm : m &&& 0x401#64 = 0#64) (h : Keeps m s0 x0) :
    Keeps m s0 (settleBucket x0 x1) := by
  unfold settleBucket
  repeat' first
    | (with_reducible first
        | assumption | apply setBucket_keeps)
    | exact maskSub hm (by decide) | split

theorem wakeAll_keeps (m : BitVec 64) (s0 x0 : State) (x1 : Nat) (el : List (Prod Nat (Prod Nat Nat)))
     (hm : m &&& 0x400#64 = 0#64) (h : Keeps m s0 x0) :
    Keeps m s0 (wakeAll x0 x1 el) := by
  unfold wakeAll
  try dsimp only
  repeat' first
    | (with_reducible first
        | assumption | apply keeps_ite | apply keeps_foldl | apply keeps_foldl_fst
        | apply keeps_foldl_snd | apply keeps_ite_fst | apply keeps_ite_snd | apply modPort_keeps
        | refine keeps_of_snd (by assumption) ?_ | refine keeps_of_fst (by assumption) ?_)
    | exact maskSub hm (by decide) | dsimp only | split | intro _

theorem settleAwake_keeps (m : BitVec 64) (s0 x0 : State) (x1 : Nat) (hm : m &&& 0x400#64 = 0#64) (h : Keeps m s0 x0) :
    Keeps m s0 (settleAwake x0 x1) := by
  unfold settleAwake
  repeat' first
    | (with_reducible first
        | assumption | apply wakeAll_keeps)
    | exact maskSub hm (by decide) | split

theorem pickQueue_keeps (m : BitVec 64) (s0 x0 : State) (x1 : Nat) (hm : m &&& 0x400#64 = 0#64) (h : Keeps m s0 x0) :
    Keeps m s0 (pickQueue x0 x1).2 := by
  unfold pickQueue
  try dsimp only
  repeat' first
    | (with_reducible first
        | assumption | apply wakeAll_keeps | apply modPort_keeps
        | refine keeps_of_snd (by assumption) ?_ | refine keeps_of_fst (by assumption) ?_)
    | exact maskSub hm (by decide) | dsimp only | split | intro _

theorem keepFrame_keeps (m : BitVec 64) (s0 x0 : State) (x1 : Nat) (k : Pkt) (hm : m &&& 0x400#64 = 0#64)
     (h : Keeps m s0 x0) :
    Keeps m s0 (keepFrame x0 x1 k) := by
  unfold keepFrame
  repeat' first
    | (with_reducible first
        | assumption | apply modPort_keeps)
    | exact maskSub hm (by decide) | dsimp only | split | intro _

theorem sendSingle_keeps (m : BitVec 64) (s0 x0 : State) (x1 : Nat) (k : Pkt) (hm : m &&& 0x10000000402#64 = 0#64)
     (h : Keeps m s0 x0) :
    Keeps m s0 (sendSingle x0 x1 k) := by
  unfold sendSingle
  try dsimp only
  repeat' first
    | (with_reducible first
        | assumption | apply keeps_ite | apply modPort_keeps | apply emit_keeps
        | apply ctrAdd_keeps | apply keepFrame_keeps)
    | exact maskSub hm (by decide) | dsimp only | split | intro _

theorem takeSingle_keeps (m : BitVec 64) (s0 x0 : State) (x1 : Nat) (k : Pkt) (hm : m &&& 0x10000000002#64 = 0#64)
     (h : Keeps m s0 x0) :
    Keeps m s0 (takeSingle x0 x1 k) := by
  unfold takeSingle
  repeat' first
    | (with_reducible first
        | assumption | apply emit_keeps | apply ctrAdd_keeps)
    | exact maskSub hm (by decide) | split

theorem startSend_keeps (m : BitVec 64) (s0 x0 : State) (x1 q : Nat) (e : QEntry) (hm : m &&& 0x10808000443#64 = 0#64)
     (h : Keeps m s0 x0) :
    Keeps m s0 (startSend x0 x1 q e) := by
  unfold startSend
  try dsimp only
  repeat' first
    | (with_reducible first
        | assumption | apply keeps_ite | apply setBucket_keeps | apply keepFrame_keeps
        | apply cross_keeps | apply atRest_keeps | apply settleAwake_keeps | apply modPort_keeps)
    | exact maskSub hm (by decide) | dsimp only | split | intro _

theorem trailerFault_keeps (m : BitVec 64) (s0 x0 : State) (x1 : Nat) (hm : m &&& 0x400000003#64 = 0#64) (h : Keeps m s0 x0) :
    Keeps m s0 (trailerFault x0 x1) := by
  unfold trailerFault
  repeat' first
    | (with_reducible first
        | assumption | apply report_keeps | apply ctrAdd_keeps)
    | exact maskSub hm (by decide) | split

theorem pumpFuel_keeps (m : BitVec 64) (s0 : State) (x0 : Nat) (x1 : State) (x2 : Nat) (hm : m &&& 0x10C08006443#64 = 0#64)
     (h : Keeps m s0 x1) :
    Keeps m s0 (pumpFuel x0 x1 x2) := by
  induction x0 generalizing x1 x2 with
  | zero =>
    unfold pumpFuel
    try dsimp only
    repeat' first
      | (with_reducible first
          | assumption | apply keeps_ite | apply keeps_ite_fst | apply keeps_ite_snd
          | apply setQueue_keeps | apply decCell_keeps | apply storedSub_keeps | apply settleAwake_keeps
          | apply pickQueue_keeps | apply startSend_keeps | apply trailerFault_keeps | refine keeps_of_snd (by assumption) ?_
          | refine keeps_of_fst (by assumption) ?_)
      | exact maskSub hm (by decide) | dsimp only | split | intro _
  | succ k ih =>
    unfold pumpFuel
    try dsimp only
    repeat' first
      | (with_reducible first
          | assumption | apply ih | apply keeps_ite | apply keeps_ite_fst | apply keeps_ite_snd
          | apply setQueue_keeps | apply decCell_keeps | apply storedSub_keeps | apply settleAwake_keeps
          | apply pickQueue_keeps | apply startSend_keeps | apply trailerFault_keeps | refine keeps_of_snd (by assumption) ?_
          | refine keeps_of_fst (by assumption) ?_)
      | exact maskSub hm (by decide) | dsimp only | split | intro _

theorem pump_keeps (m : BitVec 64) (s0 x0 : State) (x1 : Nat) (hm : m &&& 0x10C08006443#64 = 0#64) (h : Keeps m s0 x0) :
    Keeps m s0 (pump x0 x1) := by
  unfold pump
  repeat' first
    | (with_reducible first
        | assumption | apply pumpFuel_keeps)
    | exact maskSub hm (by decide) | split

theorem markEcn_keeps (m : BitVec 64) (s0 x0 : State) (x1 : Nat) (k : Pkt) (hm : m &&& 0x2#64 = 0#64) (h : Keeps m s0 x0) :
    Keeps m s0 (markEcn x0 x1 k).2 := by
  unfold markEcn
  repeat' first
    | (with_reducible first
        | assumption | apply keeps_ite | apply keeps_ite_fst | apply keeps_ite_snd
        | apply ctrAdd_keeps | refine keeps_of_snd (by assumption) ?_ | refine keeps_of_fst (by assumption) ?_)
    | exact maskSub hm (by decide) | dsimp only | split | intro _

theorem enqueue_keeps (m : BitVec 64) (s0 x0 : State) (x1 c gen : Nat) (k : Pkt) (ing : Option Nat)
     (hm : m &&& 0x10C08006443#64 = 0#64) (h : Keeps m s0 x0) :
    Keeps m s0 (enqueue x0 x1 c gen k ing) := by
  unfold enqueue
  try dsimp only
  repeat' first
    | (with_reducible first
        | assumption | apply keeps_ite | apply keeps_ite_fst | apply keeps_ite_snd
        | apply cross_keeps | apply markEcn_keeps | apply atRest_keeps | apply ctrAdd_keeps | apply pump_keeps
        | apply storedAdd_keeps | apply setQueue_keeps | refine keeps_of_snd (by assumption) ?_
        | refine keeps_of_fst (by assumption) ?_)
    | exact maskSub hm (by decide) | dsimp only | split | intro _

theorem sendDone_keeps (m : BitVec 64) (s0 x0 : State) (x1 : Nat) (hm : m &&& 0x10C08006443#64 = 0#64) (h : Keeps m s0 x0) :
    Keeps m s0 (sendDone x0 x1) := by
  unfold sendDone
  try dsimp only
  repeat' first
    | (with_reducible first
        | assumption | apply keeps_ite | apply modPort_keeps | apply emit_keeps
        | apply trailerFault_keeps | apply ctrAdd_keeps | apply pump_keeps | apply decCell_keeps)
    | exact maskSub hm (by decide) | dsimp only | split | intro _

theorem setMeter_keeps (m : BitVec 64) (s0 x0 : State) (x1 c : Nat) (x3 : MeterSt) (hm : m &&& 0x20000#64 = 0#64)
     (h : Keeps m s0 x0) :
    Keeps m s0 (setMeter x0 x1 c x3) := by
  unfold setMeter
  repeat' first
    | (with_reducible first
        | assumption)
    | exact maskSub hm (by decide) | dsimp only | split
    | (intro q hq; cases q <;> first | exact absurd hq (maskOff hm (by decide)) | with_reducible rfl)
    | exact fun _ => ⟨List.prefix_rfl, id⟩ | exact fun _ => ⟨List.prefix_rfl, fun _ => rfl⟩
    | exact fun g => absurd g (maskOff hm (by decide)) | (fail_if_no_progress with_reducible apply keeps_frame) | intro _

theorem fillMeter_keeps (m : BitVec 64) (s0 x0 : State) (x1 c : Nat) (hm : m &&& 0x20000#64 = 0#64) (h : Keeps m s0 x0) :
    Keeps m s0 (fillMeter x0 x1 c) := by
  unfold fillMeter
  repeat' first
    | (with_reducible first
        | assumption | apply setMeter_keeps)
    | exact maskSub hm (by decide) | split

theorem measure_keeps (m : BitVec 64) (s0 x0 : State) (x1 c b : Nat) (hm : m &&& 0x20000#64 = 0#64) (h : Keeps m s0 x0) :
    Keeps m s0 (measure x0 x1 c b).2 := by
  unfold measure
  try dsimp only
  repeat' first
    | (with_reducible first
        | assumption | apply keeps_ite | apply keeps_ite_fst | apply keeps_ite_snd
        | apply setMeter_keeps | refine keeps_of_snd (by assumption) ?_ | refine keeps_of_fst (by assumption) ?_)
    | exact maskSub hm (by decide) | dsimp only | split | intro _

theorem deliver_keeps (m : BitVec 64) (s0 s : State) (d : Delivery) (hm : m &&& 0x8000#64 = 0#64) (h : Keeps m s0 s) :
    Keeps m s0 (deliver s d) :=
  ⟨h.pending, fun k => h.canonical k, h.fuses, fun q hq => by
    refine Part.same_trans q (h.same q hq) ?_
    cases q <;> first | exact absurd hq (maskOff hm (by decide)) | exact rfl,
    fun g => ⟨(h.grows g).1, Nat.le_succ_of_le (h.grows g).2.1, fun i hi e => by
      have h1 := (h.grows g).2.2.1 i hi e
      have h2 := (h.grows g).2.1
      show Sparse.get (fun _ => none) (deliver s d).deliv i = none
      rw [show (deliver s d).deliv = Sparse.set (fun _ => none) s.deliv s.nextHandle (some d) from rfl, Sparse.get_set]
      rw [if_neg (by omega)]
      exact h1, (h.grows g).2.2.2⟩⟩

theorem storePacket_keeps (m : BitVec 64) (s0 x0 : State) (x1 : Nat) (k : Pkt) (out : Egress)
     (hm : m &&& 0x10C0800E443#64 = 0#64) (h : Keeps m s0 x0) :
    Keeps m s0 (storePacket x0 x1 k out) := by
  unfold storePacket
  try dsimp only
  repeat' first
    | (with_reducible first
        | assumption | apply keeps_ite | apply keeps_ite_fst | apply keeps_ite_snd
        | apply holdCredits_keeps | apply takeCell_keeps | apply ctrAdd_keeps | apply deliver_keeps | apply decCell_keeps
        | apply trailerFault_keeps | apply markEcn_keeps | apply startSend_keeps | apply enqueue_keeps
        | refine keeps_of_snd (by assumption) ?_ | refine keeps_of_fst (by assumption) ?_)
    | exact maskSub hm (by decide) | dsimp only | split | intro _

theorem meterAndStore_keeps (m : BitVec 64) (s0 x0 : State) (x1 : Nat) (k : Pkt) (hm : m &&& 0x10C0802E443#64 = 0#64)
     (h : Keeps m s0 x0) :
    Keeps m s0 (meterAndStore x0 x1 k) := by
  unfold meterAndStore
  try dsimp only
  repeat' first
    | (with_reducible first
        | assumption | apply keeps_ite | apply keeps_ite_fst | apply keeps_ite_snd
        | apply measure_keeps | apply ctrAdd_keeps | apply markEcn_keeps | apply storePacket_keeps
        | refine keeps_of_snd (by assumption) ?_ | refine keeps_of_fst (by assumption) ?_)
    | exact maskSub hm (by decide) | dsimp only | split | intro _

theorem receivePacket_keeps (m : BitVec 64) (s0 x0 : State) (x1 : Nat) (bs : List Byte) (stomped : Bool)
     (hm : m &&& 0x10C0802E443#64 = 0#64) (h : Keeps m s0 x0) :
    Keeps m s0 (receivePacket x0 x1 bs stomped) := by
  unfold receivePacket
  repeat' first
    | (with_reducible first
        | assumption | apply keeps_ite | apply ctrAdd_keeps | apply takeSingle_keeps
        | apply trailerFault_keeps | apply meterAndStore_keeps)
    | exact maskSub hm (by decide) | split | intro _

theorem execPacketRx_keeps (m : BitVec 64) (s0 : State) (port : Nat) (bytes : List Byte) (stomped : Bool) (x3 : State)
     (hm : m &&& 0x10C0802E443#64 = 0#64) (h : Keeps m s0 x3) :
    KeepsOut m s0 (execPacketRx port bytes stomped x3) := by
  unfold execPacketRx
  repeat' first
    | (with_reducible first
        | assumption | apply keepsOut_next | apply receivePacket_keeps)
    | exact maskSub hm (by decide) | split

theorem origStore_keeps (m : BitVec 64) (s0 x0 : State) (w : OrigWait) (hm : m &&& 0x10C0800E443#64 = 0#64)
     (h : Keeps m s0 x0) :
    Keeps m s0 (origStore x0 w) := by
  unfold origStore
  try dsimp only
  repeat' first
    | (with_reducible first
        | assumption | apply keeps_ite | apply keeps_foldl | apply takeCell_keeps
        | apply deliver_keeps | apply enqueue_keeps | refine keeps_of_snd (by assumption) ?_
        | refine keeps_of_fst (by assumption) ?_)
    | exact maskSub hm (by decide) | dsimp only | split | intro _

theorem origSubmit_keeps (m : BitVec 64) (s0 x0 : State) (w : OrigWait) (hm : m &&& 0x10C0801E443#64 = 0#64)
     (h : Keeps m s0 x0) :
    Keeps m s0 (origSubmit x0 w) := by
  unfold origSubmit
  repeat' first
    | (with_reducible first
        | assumption | apply keeps_ite | apply origStore_keeps | apply ctrAdd_keeps)
    | exact maskSub hm (by decide) | split
    | (intro q hq; cases q <;> first | exact absurd hq (maskOff hm (by decide)) | with_reducible rfl)
    | exact fun _ => ⟨List.prefix_rfl, id⟩ | exact fun _ => ⟨List.prefix_rfl, fun _ => rfl⟩
    | exact fun g => absurd g (maskOff hm (by decide)) | (fail_if_no_progress with_reducible apply keeps_frame) | intro _

theorem serveOrig_keeps (m : BitVec 64) (s0 : State) (x0 : Nat) (x1 : State) (hm : m &&& 0x10C0801E443#64 = 0#64)
     (h : Keeps m s0 x1) :
    Keeps m s0 (serveOrig x0 x1) := by
  induction x0 generalizing x1 with
  | zero =>
    unfold serveOrig
    try dsimp only
    repeat' first
      | (with_reducible first
          | assumption | apply origStore_keeps)
      | exact maskSub hm (by decide) | dsimp only | split
      | (intro q hq; cases q <;> first | exact absurd hq (maskOff hm (by decide)) | with_reducible rfl)
      | exact fun _ => ⟨List.prefix_rfl, id⟩ | exact fun _ => ⟨List.prefix_rfl, fun _ => rfl⟩
      | exact fun g => absurd g (maskOff hm (by decide)) | (fail_if_no_progress with_reducible apply keeps_frame) | intro _
  | succ k ih =>
    unfold serveOrig
    try dsimp only
    repeat' first
      | (with_reducible first
          | assumption | apply ih | apply origStore_keeps)
      | exact maskSub hm (by decide) | dsimp only | split
      | (intro q hq; cases q <;> first | exact absurd hq (maskOff hm (by decide)) | with_reducible rfl)
      | exact fun _ => ⟨List.prefix_rfl, id⟩ | exact fun _ => ⟨List.prefix_rfl, fun _ => rfl⟩
      | exact fun g => absurd g (maskOff hm (by decide)) | (fail_if_no_progress with_reducible apply keeps_frame) | intro _

theorem serveWaiters_keeps (m : BitVec 64) (s0 x0 : State) (hm : m &&& 0x10C0801E443#64 = 0#64) (h : Keeps m s0 x0) :
    Keeps m s0 (serveWaiters x0) := by
  unfold serveWaiters
  repeat' first
    | (with_reducible first
        | assumption | apply serveOrig_keeps)
    | exact maskSub hm (by decide) | split

theorem execPacketTxDone_keeps (m : BitVec 64) (s0 : State) (port : Nat) (x1 : State) (hm : m &&& 0x10C0801E443#64 = 0#64)
     (h : Keeps m s0 x1) :
    KeepsOut m s0 (execPacketTxDone port x1) := by
  unfold execPacketTxDone
  repeat' first
    | (with_reducible first
        | assumption | apply keepsOut_next | apply serveWaiters_keeps | apply sendDone_keeps)
    | exact maskSub hm (by decide) | split

theorem originateAll_keeps (m : BitVec 64) (s0 x0 : State) (die : Nat) (ks : List Pkt) (control : Bool) (sub : Option Nat)
     (hm : m &&& 0x10C0801E443#64 = 0#64) (h : Keeps m s0 x0) :
    Keeps m s0 (originateAll x0 die ks control sub) := by
  unfold originateAll
  try dsimp only
  repeat' first
    | (with_reducible first
        | assumption | apply keeps_ite | apply keeps_foldl | apply keeps_foldl_fst
        | apply keeps_foldl_snd | apply keeps_ite_fst | apply keeps_ite_snd | apply ctrAdd_keeps | apply origSubmit_keeps
        | refine keeps_of_snd (by assumption) ?_ | refine keeps_of_fst (by assumption) ?_)
    | exact maskSub hm (by decide) | dsimp only | split | intro _

theorem originate_keeps (m : BitVec 64) (s0 x0 : State) (die : Nat) (k : Pkt) (control : Bool) (sub : Option Nat)
     (hm : m &&& 0x10C0801E443#64 = 0#64) (h : Keeps m s0 x0) :
    Keeps m s0 (originate x0 die k control sub) := by
  unfold originate
  repeat' first
    | (with_reducible first
        | assumption | apply originateAll_keeps)
    | exact maskSub hm (by decide) | split

theorem execOrigCellWaitEnd_keeps (m : BitVec 64) (s0 : State) (die pool : Nat) (x2 : State)
     (hm : m &&& 0x10C0801E443#64 = 0#64) (h : Keeps m s0 x2) :
    KeepsOut m s0 (execOrigCellWaitEnd die pool x2) := by
  unfold execOrigCellWaitEnd
  repeat' first
    | (with_reducible first
        | assumption | apply keepsOut_next | apply origStore_keeps)
    | exact maskSub hm (by decide) | dsimp only | split
    | (intro q hq; cases q <;> first | exact absurd hq (maskOff hm (by decide)) | with_reducible rfl)
    | exact fun _ => ⟨List.prefix_rfl, id⟩ | exact fun _ => ⟨List.prefix_rfl, fun _ => rfl⟩
    | exact fun g => absurd g (maskOff hm (by decide)) | (fail_if_no_progress with_reducible apply keeps_frame) | intro _

theorem takeDelivery_keeps (m : BitVec 64) (s0 x0 : State) (x1 : Nat) (d : Delivery) (hm : m &&& 0x10C0801E443#64 = 0#64)
     (h : Keeps m s0 x0) :
    Keeps m s0 (takeDelivery x0 x1 d) := by
  unfold takeDelivery
  repeat' first
    | (with_reducible first
        | assumption | apply serveWaiters_keeps | apply decCell_keeps | apply setDeliv_keeps)
    | exact maskSub hm (by decide) | split

theorem markCell_keeps (m : BitVec 64) (s0 x0 : State) (c : Nat) (hm : m &&& 0x2000#64 = 0#64) (h : Keeps m s0 x0) :
    Keeps m s0 (markCell x0 c) := by
  unfold markCell
  repeat' first
    | (with_reducible first
        | assumption | apply setCell_keeps)
    | exact maskSub hm (by decide) | split

theorem auditCell_keeps (m : BitVec 64) (s0 x0 : State) (c : Nat) (hm : m &&& 0x10400002403#64 = 0#64) (h : Keeps m s0 x0) :
    Keeps m s0 (auditCell x0 c) := by
  unfold auditCell
  try dsimp only
  repeat' first
    | (with_reducible first
        | assumption | apply keeps_ite | apply setCell_keeps | apply report_keeps
        | apply ctrAdd_keeps | apply releaseCell_keeps)
    | exact maskSub hm (by decide) | dsimp only | split | intro _

theorem execLeakAuditPass_keeps (m : BitVec 64) (s0 : State) (die : Nat) (x1 : State) (hm : m &&& 0x10C0801E443#64 = 0#64)
     (h : Keeps m s0 x1) :
    KeepsOut m s0 (execLeakAuditPass die x1) := by
  unfold execLeakAuditPass
  try dsimp only
  repeat' first
    | (with_reducible first
        | assumption | apply keepsOut_next | apply keeps_foldl | apply serveWaiters_keeps
        | apply auditCell_keeps | apply markCell_keeps | apply fset_keeps | refine keeps_of_snd (by assumption) ?_
        | refine keeps_of_fst (by assumption) ?_)
    | exact maskSub hm (by decide) | dsimp only | split | intro _

theorem execCreditReturnRx_keeps (m : BitVec 64) (s0 : State) (port vc count : Nat) (x3 : State)
     (hm : m &&& 0x10C08006443#64 = 0#64) (h : Keeps m s0 x3) :
    KeepsOut m s0 (execCreditReturnRx port vc count x3) := by
  unfold execCreditReturnRx
  repeat' first
    | (with_reducible first
        | assumption | apply keepsOut_next | apply keepsOut_ite | apply keeps_ite
        | apply pump_keeps | apply modPort_keeps)
    | exact maskSub hm (by decide) | dsimp only | split | intro _

theorem execGateEntryBoundary_keeps (m : BitVec 64) (s0 : State) (port : Nat) (x1 : State)
     (hm : m &&& 0x10C08046443#64 = 0#64) (h : Keeps m s0 x1) :
    KeepsOut m s0 (execGateEntryBoundary port x1) := by
  unfold execGateEntryBoundary
  try dsimp only
  repeat' first
    | (with_reducible first
        | assumption | apply keepsOut_next | apply keepsOut_ite | apply keeps_ite
        | apply settleAwake_keeps | apply pump_keeps | apply setGate_keeps)
    | exact maskSub hm (by decide) | dsimp only | split | intro _

theorem execGateListStart_keeps (m : BitVec 64) (s0 : State) (port : Nat) (x1 : State) (hm : m &&& 0x10C08046443#64 = 0#64)
     (h : Keeps m s0 x1) :
    KeepsOut m s0 (execGateListStart port x1) := by
  unfold execGateListStart
  try dsimp only
  repeat' first
    | (with_reducible first
        | assumption | apply keepsOut_next | apply keepsOut_ite | apply keeps_ite
        | apply settleAwake_keeps | apply fset_keeps | apply setBit_keeps | apply wr_keeps | apply pump_keeps
        | apply setGate_keeps)
    | exact maskSub hm (by decide) | dsimp only | split | intro _

theorem execTransitBucketRecover_keeps (m : BitVec 64) (s0 : State) (port : Nat) (x1 : State)
     (hm : m &&& 0x10C08006443#64 = 0#64) (h : Keeps m s0 x1) :
    KeepsOut m s0 (execTransitBucketRecover port x1) := by
  unfold execTransitBucketRecover
  repeat' first
    | (with_reducible first
        | assumption | apply keepsOut_next | apply pump_keeps | apply setBucket_keeps)
    | exact maskSub hm (by decide) | split

theorem slotOwes_keeps (m : BitVec 64) (s0 x0 : State) (c seq : Nat) (k : Pkt) (slot : Option (Prod Nat Nat))
     (chunk : Option Nat) (hm : m &&& 0x800000#64 = 0#64) (h : Keeps m s0 x0) :
    Keeps m s0 (slotOwes x0 c seq k slot chunk) := by
  unfold slotOwes
  repeat' first
    | (with_reducible first
        | assumption | apply keeps_ite | apply keeps_ite_fst | apply keeps_ite_snd
        | apply setSlot_keeps | refine keeps_of_snd (by assumption) ?_ | refine keeps_of_fst (by assumption) ?_)
    | exact maskSub hm (by decide) | dsimp only | split | intro _

theorem numberPacket_keeps (m : BitVec 64) (s0 x0 : State) (c : Nat) (x : Stream) (u : Sent) (hm : m &&& 0x880000#64 = 0#64)
     (h : Keeps m s0 x0) :
    Keeps m s0 (numberPacket x0 c x u).1 := by
  unfold numberPacket
  try dsimp only
  repeat' first
    | (with_reducible first
        | assumption | apply setStream_keeps | apply slotOwes_keeps
        | refine keeps_of_snd (by assumption) ?_ | refine keeps_of_fst (by assumption) ?_)
    | exact maskSub hm (by decide) | dsimp only | split

theorem formPacket_keeps (m : BitVec 64) (s0 x0 : State) (c : Nat) (k : Pkt) (control : Bool) (slot : Option (Prod Nat Nat))
     (chunk : Option Nat) (hm : m &&& 0x880000#64 = 0#64) (h : Keeps m s0 x0) :
    Keeps m s0 (formPacket x0 c k control slot chunk).1 := by
  unfold formPacket
  try dsimp only
  repeat' first
    | (with_reducible first
        | assumption | apply keeps_ite | apply keeps_ite_fst | apply keeps_ite_snd
        | apply numberPacket_keeps | apply setStream_keeps | refine keeps_of_snd (by assumption) ?_
        | refine keeps_of_fst (by assumption) ?_)
    | exact maskSub hm (by decide) | dsimp only | split | intro _

theorem sendAll_keeps (m : BitVec 64) (s0 x0 : State) (die : Nat) (items : List (Prod Nat Pkt)) (control : Bool) (sub : Nat)
     (slot : Option (Prod Nat Nat)) (chunk : Option Nat) (hm : m &&& 0x10C0889E443#64 = 0#64) (h : Keeps m s0 x0) :
    Keeps m s0 (sendAll x0 die items control sub slot chunk) := by
  unfold sendAll
  try dsimp only
  repeat' first
    | (with_reducible first
        | assumption | apply keeps_ite | apply keeps_foldl | apply keeps_foldl_fst
        | apply keeps_foldl_snd | apply keeps_ite_fst | apply keeps_ite_snd | apply formPacket_keeps
        | apply originateAll_keeps | refine keeps_of_snd (by assumption) ?_ | refine keeps_of_fst (by assumption) ?_)
    | exact maskSub hm (by decide) | dsimp only | split | intro _

theorem sendOne_keeps (m : BitVec 64) (s0 x0 : State) (die c : Nat) (k : Pkt) (control : Bool) (sub : Nat)
     (slot : Option (Prod Nat Nat)) (chunk : Option Nat) (hm : m &&& 0x10C0889E443#64 = 0#64) (h : Keeps m s0 x0) :
    Keeps m s0 (sendOne x0 die c k control sub slot chunk) := by
  unfold sendOne
  repeat' first
    | (with_reducible first
        | assumption | apply sendAll_keeps | refine keeps_of_snd (by assumption) ?_
        | refine keeps_of_fst (by assumption) ?_)
    | exact maskSub hm (by decide) | dsimp only | split

theorem drainWaiting_keeps (m : BitVec 64) (s0 : State) (x0 : Nat) (x1 : State) (x2 : Nat)
     (hm : m &&& 0x10C0889E443#64 = 0#64) (h : Keeps m s0 x1) :
    Keeps m s0 (drainWaiting x0 x1 x2) := by
  induction x0 generalizing x1 x2 with
  | zero =>
    unfold drainWaiting
    try dsimp only
    repeat' first
      | (with_reducible first
          | assumption | apply keeps_ite | apply keeps_ite_fst | apply keeps_ite_snd
          | apply originate_keeps | apply numberPacket_keeps | refine keeps_of_snd (by assumption) ?_
          | refine keeps_of_fst (by assumption) ?_)
      | exact maskSub hm (by decide) | dsimp only | split | intro _
  | succ k ih =>
    unfold drainWaiting
    try dsimp only
    repeat' first
      | (with_reducible first
          | assumption | apply ih | apply keeps_ite | apply keeps_ite_fst | apply keeps_ite_snd
          | apply originate_keeps | apply numberPacket_keeps | refine keeps_of_snd (by assumption) ?_
          | refine keeps_of_fst (by assumption) ?_)
      | exact maskSub hm (by decide) | dsimp only | split | intro _

theorem sendAck_keeps (m : BitVec 64) (s0 x0 : State) (c : Nat) (hm : m &&& 0x10C0809E443#64 = 0#64) (h : Keeps m s0 x0) :
    Keeps m s0 (sendAck x0 c) := by
  unfold sendAck
  repeat' first
    | (with_reducible first
        | assumption | apply originate_keeps | apply setStream_keeps)
    | exact maskSub hm (by decide) | split

theorem againOf_keeps (m : BitVec 64) (s0 s : State) (k : Pkt) (die : Nat) (t : State) (hm : m &&& 0x10C0809E443#64 = 0#64)
    (e : againOf s k die = some t) (h : Keeps m s0 s) : Keeps m s0 t := by
  unfold againOf at e
  repeat' split at e
  all_goals first
    | contradiction
    | (injection e with e; subst e
       exact sendAck_keeps _ _ _ _ (maskSub hm (by decide)) (setStream_keeps _ _ _ _ _ (maskSub hm (by decide)) h))

theorem againOf_getD_keeps (m : BitVec 64) (s0 s d : State) (k : Pkt) (die : Nat) (hm : m &&& 0x10C0809E443#64 = 0#64)
    (h : Keeps m s0 s) (hd : Keeps m s0 d) : Keeps m s0 ((againOf s k die).getD d) := by
  cases e : againOf s k die with
  | none => exact hd
  | some t => exact againOf_keeps m s0 s k die t hm e h

theorem streamAccept_keeps (m : BitVec 64) (s0 x0 : State) (c : Nat) (k : Pkt) (die : Nat)
     (hm : m &&& 0x10C0809E443#64 = 0#64) (h : Keeps m s0 x0) :
    Keeps m s0 (streamAccept x0 c k die).1 := by
  unfold streamAccept
  try dsimp only
  repeat' first
    | (with_reducible first
        | assumption | apply keeps_ite | apply keeps_ite_fst | apply keeps_ite_snd
        | apply setStream_keeps | apply sendAck_keeps | refine keeps_of_snd (by assumption) ?_
        | refine keeps_of_fst (by assumption) ?_)
    | exact maskSub hm (by decide) | dsimp only | split | intro _

theorem execAckDelayExpiry_keeps (m : BitVec 64) (s0 : State) (ctx : Nat) (x1 : State) (hm : m &&& 0x10C0809E443#64 = 0#64)
     (h : Keeps m s0 x1) :
    KeepsOut m s0 (execAckDelayExpiry ctx x1) := by
  unfold execAckDelayExpiry
  repeat' first
    | (with_reducible first
        | assumption | apply keepsOut_next | apply keepsOut_ite | apply keeps_ite
        | apply sendAck_keeps)
    | exact maskSub hm (by decide) | split | intro _

theorem retransmit_keeps (m : BitVec 64) (s0 x0 : State) (c seq : Nat) (shown : Bool) (hm : m &&& 0x10C0809E443#64 = 0#64)
     (h : Keeps m s0 x0) :
    Keeps m s0 (retransmit x0 c seq shown) := by
  unfold retransmit
  try dsimp only
  repeat' first
    | (with_reducible first
        | assumption | apply keeps_ite | apply originate_keeps | apply setStream_keeps)
    | exact maskSub hm (by decide) | dsimp only | split | intro _

theorem takeAck_keeps (m : BitVec 64) (s0 x0 : State) (c : Nat) (x : Stream) (k : Pkt) (hm : m &&& 0x10C0889E443#64 = 0#64)
     (h : Keeps m s0 x0) :
    Keeps m s0 (takeAck x0 c x k).1 := by
  unfold takeAck
  try dsimp only
  repeat' first
    | (with_reducible first
        | assumption | apply keeps_ite | apply keeps_foldl | apply keeps_foldl_fst
        | apply keeps_foldl_snd | apply keeps_ite_fst | apply keeps_ite_snd | apply setStream_keeps
        | apply retransmit_keeps | apply drainWaiting_keeps | refine keeps_of_snd (by assumption) ?_
        | refine keeps_of_fst (by assumption) ?_)
    | exact maskSub hm (by decide) | dsimp only | split | intro _

theorem execRtoExpiry_keeps (m : BitVec 64) (s0 : State) (ctx seq : Nat) (x2 : State) (hm : m &&& 0x10C0809E443#64 = 0#64)
     (h : Keeps m s0 x2) :
    KeepsOut m s0 (execRtoExpiry ctx seq x2) := by
  unfold execRtoExpiry
  repeat' first
    | (with_reducible first
        | assumption | apply keepsOut_next | apply retransmit_keeps)
    | exact maskSub hm (by decide) | split

theorem setNode_keeps (m : BitVec 64) (s0 x0 : State) (n : Nat) (v : Bool) (hm : m &&& 0x1#64 = 0#64) (h : Keeps m s0 x0) :
    Keeps m s0 (setNode x0 n v) := by
  unfold setNode
  repeat' first
    | (with_reducible first
        | assumption | apply setBit_keeps)
    | exact maskSub hm (by decide) | split

theorem showClock_keeps (m : BitVec 64) (s0 x0 : State) (n : Nat) (on : Bool) (hm : m &&& 0x1#64 = 0#64) (h : Keeps m s0 x0) :
    Keeps m s0 (showClock x0 n on) := by
  unfold showClock
  try dsimp only
  repeat' first
    | (with_reducible first
        | assumption | apply keeps_ite | apply keeps_foldl | apply fset_keeps)
    | exact maskSub hm (by decide) | dsimp only | split | intro _

theorem turnOn_keeps (m : BitVec 64) (s0 x0 : State) (n : Nat) (hm : m &&& 0x201#64 = 0#64) (h : Keeps m s0 x0) :
    Keeps m s0 (turnOn x0 n) := by
  unfold turnOn
  try dsimp only
  repeat' first
    | (with_reducible first
        | assumption | apply keeps_ite | apply showClock_keeps | apply setNode_keeps
        | refine keeps_of_snd (by assumption) ?_ | refine keeps_of_fst (by assumption) ?_)
    | exact maskSub hm (by decide) | dsimp only | split
    | (intro q hq; cases q <;> first | exact absurd hq (maskOff hm (by decide)) | with_reducible rfl)
    | exact fun _ => ⟨List.prefix_rfl, id⟩ | exact fun _ => ⟨List.prefix_rfl, fun _ => rfl⟩
    | exact fun g => absurd g (maskOff hm (by decide)) | (fail_if_no_progress with_reducible apply keeps_frame) | intro _

theorem turnOnChain_keeps (m : BitVec 64) (s0 x0 : State) (n : Nat) (hm : m &&& 0x201#64 = 0#64) (h : Keeps m s0 x0) :
    Keeps m s0 (turnOnChain x0 n) := by
  unfold turnOnChain
  repeat' first
    | (with_reducible first
        | assumption | apply turnOn_keeps)
    | exact maskSub hm (by decide) | split

theorem gateResult_keeps (m : BitVec 64) (s0 x0 : State) (result child node : Nat) (hm : m &&& 0x1#64 = 0#64)
     (h : Keeps m s0 x0) :
    Keeps m s0 (gateResult x0 result child node) := by
  unfold gateResult
  repeat' first
    | (with_reducible first
        | assumption | apply wr_keeps)
    | exact maskSub hm (by decide) | split

theorem clkOn_keeps (m : BitVec 64) (s0 x0 : State) (n : Nat) (hm : m &&& 0x201#64 = 0#64) (h : Keeps m s0 x0) :
    Keeps m s0 (clkOn x0 n) := by
  unfold clkOn
  try dsimp only
  repeat' first
    | (with_reducible first
        | assumption | apply keeps_ite | apply turnOnChain_keeps | apply gateResult_keeps
        | refine keeps_of_snd (by assumption) ?_ | refine keeps_of_fst (by assumption) ?_)
    | exact maskSub hm (by decide) | dsimp only | split | intro _

theorem clkOff_keeps (m : BitVec 64) (s0 x0 : State) (n : Nat) (hm : m &&& 0x10008000203#64 = 0#64) (h : Keeps m s0 x0) :
    Keeps m s0 (clkOff x0 n) := by
  unfold clkOff
  repeat' first
    | (with_reducible first
        | assumption | apply keeps_ite | apply raise_keeps | apply gateResult_keeps
        | apply ctrAdd_keeps | refine keeps_of_snd (by assumption) ?_ | refine keeps_of_fst (by assumption) ?_)
    | exact maskSub hm (by decide) | dsimp only | split
    | (intro q hq; cases q <;> first | exact absurd hq (maskOff hm (by decide)) | with_reducible rfl)
    | exact fun _ => ⟨List.prefix_rfl, id⟩ | exact fun _ => ⟨List.prefix_rfl, fun _ => rfl⟩
    | exact fun g => absurd g (maskOff hm (by decide)) | (fail_if_no_progress with_reducible apply keeps_frame) | intro _

theorem execDividerRampEnd_keeps (m : BitVec 64) (s0 : State) (node : Nat) (x1 : State) (hm : m &&& 0x201#64 = 0#64)
     (h : Keeps m s0 x1) :
    KeepsOut m s0 (execDividerRampEnd node x1) := by
  unfold execDividerRampEnd
  try dsimp only
  repeat' first
    | (with_reducible first
        | assumption | apply keepsOut_next | apply keepsOut_ite | apply keeps_ite
        | apply showClock_keeps | apply setNode_keeps | apply fset_keeps | refine keeps_of_snd (by assumption) ?_
        | refine keeps_of_fst (by assumption) ?_)
    | exact maskSub hm (by decide) | dsimp only | split
    | (intro q hq; cases q <;> first | exact absurd hq (maskOff hm (by decide)) | with_reducible rfl)
    | exact fun _ => ⟨List.prefix_rfl, id⟩ | exact fun _ => ⟨List.prefix_rfl, fun _ => rfl⟩
    | exact fun g => absurd g (maskOff hm (by decide)) | (fail_if_no_progress with_reducible apply keeps_frame) | intro _

theorem setPState_keeps (m : BitVec 64) (s0 x0 : State) (x1 v : Nat) (hm : m &&& 0x1#64 = 0#64) (h : Keeps m s0 x0) :
    Keeps m s0 (setPState x0 x1 v) := by
  unfold setPState
  repeat' first
    | (with_reducible first
        | assumption | apply setBit_keeps | apply fset_keeps)
    | exact maskSub hm (by decide) | split

theorem setStage_keeps (m : BitVec 64) (s0 x0 : State) (x1 v : Nat) (hm : m &&& 0x1#64 = 0#64) (h : Keeps m s0 x0) :
    Keeps m s0 (setStage x0 x1 v) := by
  unfold setStage
  repeat' first
    | (with_reducible first
        | assumption | apply fset_keeps)
    | exact maskSub hm (by decide) | split

theorem setBlk_keeps (m : BitVec 64) (s0 x0 : State) (page v : Nat) (hm : m &&& 0x1#64 = 0#64) (h : Keeps m s0 x0) :
    Keeps m s0 (setBlk x0 page v) := by
  unfold setBlk
  repeat' first
    | (with_reducible first
        | assumption | apply fset_keeps)
    | exact maskSub hm (by decide) | split

theorem setCause_keeps (m : BitVec 64) (s0 x0 : State) (page v : Nat) (hm : m &&& 0x1#64 = 0#64) (h : Keeps m s0 x0) :
    Keeps m s0 (setCause x0 page v) := by
  unfold setCause
  repeat' first
    | (with_reducible first
        | assumption | apply fset_keeps)
    | exact maskSub hm (by decide) | split

theorem setLaneBit_keeps (m : BitVec 64) (s0 x0 : State) (x1 lane base : Nat) (v : Bool) (hm : m &&& 0x1#64 = 0#64)
     (h : Keeps m s0 x0) :
    Keeps m s0 (setLaneBit x0 x1 lane base v) := by
  unfold setLaneBit
  repeat' first
    | (with_reducible first
        | assumption | apply setBit_keeps)
    | exact maskSub hm (by decide) | split

theorem setRxLane_keeps (m : BitVec 64) (s0 x0 : State) (x1 lane v : Nat) (hm : m &&& 0x1#64 = 0#64) (h : Keeps m s0 x0) :
    Keeps m s0 (setRxLane x0 x1 lane v) := by
  unfold setRxLane
  repeat' first
    | (with_reducible first
        | assumption | apply fset_keeps)
    | exact maskSub hm (by decide) | split

theorem setSt_keeps (m : BitVec 64) (s0 x0 : State) (n v : Nat) (hm : m &&& 0x1#64 = 0#64) (h : Keeps m s0 x0) :
    Keeps m s0 (setSt x0 n v) := by
  unfold setSt
  repeat' first
    | (with_reducible first
        | assumption | apply fset_keeps)
    | exact maskSub hm (by decide) | split

theorem closeStitch_keeps (m : BitVec 64) (s0 x0 : State) (n cause : Nat) (hm : m &&& 0x1003#64 = 0#64) (h : Keeps m s0 x0) :
    Keeps m s0 (closeStitch x0 n cause) := by
  unfold closeStitch
  try dsimp only
  repeat' first
    | (with_reducible first
        | assumption | apply keeps_ite | apply fset_keeps | apply setSt_keeps
        | apply ctrAdd_keeps | apply setStitch_keeps)
    | exact maskSub hm (by decide) | dsimp only | split | intro _

theorem closeAll_keeps (m : BitVec 64) (s0 x0 : State) (cause : Nat) (hm : m &&& 0x1003#64 = 0#64) (h : Keeps m s0 x0) :
    Keeps m s0 (closeAll x0 cause) := by
  unfold closeAll
  repeat' first
    | (with_reducible first
        | assumption | apply keeps_forUp | apply closeStitch_keeps)
    | exact maskSub hm (by decide) | dsimp only | split | intro _

theorem closeForPort_keeps (m : BitVec 64) (s0 x0 : State) (x1 cause : Nat) (preventable : Bool)
     (hm : m &&& 0x1003#64 = 0#64) (h : Keeps m s0 x0) :
    Keeps m s0 (closeForPort x0 x1 cause preventable) := by
  unfold closeForPort
  repeat' first
    | (with_reducible first
        | assumption | apply keeps_ite | apply closeStitch_keeps)
    | exact maskSub hm (by decide) | split | intro _

theorem dropQueues_keeps (m : BitVec 64) (s0 x0 : State) (x1 : Nat) (hm : m &&& 0x10400006403#64 = 0#64) (h : Keeps m s0 x0) :
    Keeps m s0 (dropQueues x0 x1) := by
  unfold dropQueues
  try dsimp only
  repeat' first
    | (with_reducible first
        | assumption | apply keeps_foldl | apply decCell_keeps | apply modPort_keeps
        | apply setQueue_keeps | apply storedSub_keeps | refine keeps_of_snd (by assumption) ?_
        | refine keeps_of_fst (by assumption) ?_)
    | exact maskSub hm (by decide) | dsimp only | split | intro _

theorem forgetTime_keeps (m : BitVec 64) (s0 x0 : State) (x1 : Nat) (hm : m &&& 0x1000000000#64 = 0#64) (h : Keeps m s0 x0) :
    Keeps m s0 (forgetTime x0 x1) := by
  unfold forgetTime
  repeat' first
    | (with_reducible first
        | assumption | refine keeps_of_snd (by assumption) ?_
        | refine keeps_of_fst (by assumption) ?_)
    | exact maskSub hm (by decide) | split
    | (intro q hq; cases q <;> first | exact absurd hq (maskOff hm (by decide)) | with_reducible rfl)
    | exact fun _ => ⟨List.prefix_rfl, id⟩ | exact fun _ => ⟨List.prefix_rfl, fun _ => rfl⟩
    | exact fun g => absurd g (maskOff hm (by decide)) | (fail_if_no_progress with_reducible apply keeps_frame)

theorem linkDown_keeps (m : BitVec 64) (s0 x0 : State) (x1 : Nat) (hm : m &&& 0x11C0801E443#64 = 0#64) (h : Keeps m s0 x0) :
    Keeps m s0 (linkDown x0 x1) := by
  unfold linkDown
  try dsimp only
  repeat' first
    | (with_reducible first
        | assumption | apply keeps_ite | apply settleBucket_keeps | apply dropQueues_keeps
        | apply ctrAdd_keeps | apply modPort_keeps | apply forgetHeld_keeps | apply serveWaiters_keeps | apply wr_keeps
        | apply forgetTime_keeps)
    | exact maskSub hm (by decide) | dsimp only | split | intro _

theorem bringUp_keeps (m : BitVec 64) (s0 x0 : State) (x1 : Nat) (hm : m &&& 0xE01#64 = 0#64) (h : Keeps m s0 x0) :
    Keeps m s0 (bringUp x0 x1) := by
  unfold bringUp
  try dsimp only
  repeat' first
    | (with_reducible first
        | assumption | apply keeps_ite | apply keeps_foldl | apply turnOnChain_keeps
        | apply modPort_keeps | apply setBit_keeps | apply setStage_keeps | apply setPState_keeps)
    | exact maskSub hm (by decide) | dsimp only | split
    | (intro q hq; cases q <;> first | exact absurd hq (maskOff hm (by decide)) | with_reducible rfl)
    | exact fun _ => ⟨List.prefix_rfl, id⟩ | exact fun _ => ⟨List.prefix_rfl, fun _ => rfl⟩
    | exact fun g => absurd g (maskOff hm (by decide)) | (fail_if_no_progress with_reducible apply keeps_frame) | intro _

theorem losePort_keeps (m : BitVec 64) (s0 x0 : State) (x1 : Nat) (hm : m &&& 0x11C0801FE43#64 = 0#64) (h : Keeps m s0 x0) :
    Keeps m s0 (losePort x0 x1) := by
  unfold losePort
  try dsimp only
  repeat' first
    | (with_reducible first
        | assumption | apply keeps_ite | apply linkDown_keeps | apply setBlk_keeps
        | apply closeForPort_keeps | apply bringUp_keeps)
    | exact maskSub hm (by decide) | dsimp only | split | intro _

theorem beginStripe_keeps (m : BitVec 64) (s0 x0 : State) (x1 : Nat) (d : Dir) (hm : m &&& 0x403#64 = 0#64)
     (h : Keeps m s0 x0) :
    Keeps m s0 (beginStripe x0 x1 d) := by
  unfold beginStripe
  try dsimp only
  repeat' first
    | (with_reducible first
        | assumption | apply ctrAdd_keeps | apply fieldSat_keeps | apply modPort_keeps)
    | exact maskSub hm (by decide) | dsimp only | split | intro _

theorem restripe_keeps (m : BitVec 64) (s0 x0 : State) (x1 : Nat) (d : Dir) (hm : m &&& 0x11C0801FE43#64 = 0#64)
     (h : Keeps m s0 x0) :
    Keeps m s0 (restripe x0 x1 d) := by
  unfold restripe
  try dsimp only
  repeat' first
    | (with_reducible first
        | assumption | apply keeps_ite | apply losePort_keeps | apply settleBucket_keeps
        | apply fset_keeps | apply beginStripe_keeps)
    | exact maskSub hm (by decide) | dsimp only | split | intro _

theorem execLaneUnhealthy_keeps (m : BitVec 64) (s0 : State) (port lane : Nat) (dir : Dir) (cause : LaneCause) (x4 : State)
     (hm : m &&& 0x11C0801FE43#64 = 0#64) (h : Keeps m s0 x4) :
    KeepsOut m s0 (execLaneUnhealthy port lane dir cause x4) := by
  unfold execLaneUnhealthy
  try dsimp only
  repeat' first
    | (with_reducible first
        | assumption | apply keepsOut_next | apply keepsOut_ite | apply keeps_ite
        | apply setBit_keeps | apply restripe_keeps | apply ctrAdd_keeps | apply setLaneBit_keeps | apply modPort_keeps)
    | exact maskSub hm (by decide) | dsimp only | split
    | (intro q hq; cases q <;> first | exact absurd hq (maskOff hm (by decide)) | with_reducible rfl)
    | exact fun _ => ⟨List.prefix_rfl, id⟩ | exact fun _ => ⟨List.prefix_rfl, fun _ => rfl⟩
    | exact fun g => absurd g (maskOff hm (by decide)) | (fail_if_no_progress with_reducible apply keeps_frame) | intro _

theorem execRestripeDone_keeps (m : BitVec 64) (s0 : State) (port : Nat) (dir : Dir) (x2 : State)
     (hm : m &&& 0x10C08006443#64 = 0#64) (h : Keeps m s0 x2) :
    KeepsOut m s0 (execRestripeDone port dir x2) := by
  unfold execRestripeDone
  try dsimp only
  repeat' first
    | (with_reducible first
        | assumption | apply keepsOut_next | apply keepsOut_ite | apply keeps_ite
        | apply modPort_keeps | apply pump_keeps | apply restoreGrants_keeps | apply restoreCredits_keeps)
    | exact maskSub hm (by decide) | dsimp only | split | intro _

theorem setLane_keeps (m : BitVec 64) (s0 x0 : State) (l : Nat) (x : LaneTrain) (hm : m &&& 0x800#64 = 0#64)
     (h : Keeps m s0 x0) :
    Keeps m s0 (setLane x0 l x) := by
  unfold setLane
  repeat' first
    | (with_reducible first
        | assumption)
    | exact maskSub hm (by decide) | dsimp only | split
    | (intro q hq; cases q <;> first | exact absurd hq (maskOff hm (by decide)) | with_reducible rfl)
    | exact fun _ => ⟨List.prefix_rfl, id⟩ | exact fun _ => ⟨List.prefix_rfl, fun _ => rfl⟩
    | exact fun g => absurd g (maskOff hm (by decide)) | (fail_if_no_progress with_reducible apply keeps_frame) | intro _

theorem widen_keeps (m : BitVec 64) (s0 x0 : State) (x1 : Nat) (d : Dir) (hm : m &&& 0x11C0801FE43#64 = 0#64)
     (h : Keeps m s0 x0) :
    Keeps m s0 (widen x0 x1 d) := by
  unfold widen
  repeat' first
    | (with_reducible first
        | assumption | apply keeps_ite | apply restripe_keeps | apply modPort_keeps)
    | exact maskSub hm (by decide) | dsimp only | split | intro _

theorem execLaneRejoin_keeps (m : BitVec 64) (s0 : State) (port lane : Nat) (dir : Dir) (x3 : State)
     (hm : m &&& 0x11C0801FE43#64 = 0#64) (h : Keeps m s0 x3) :
    KeepsOut m s0 (execLaneRejoin port lane dir x3) := by
  unfold execLaneRejoin
  try dsimp only
  repeat' first
    | (with_reducible first
        | assumption | apply keepsOut_next | apply keepsOut_ite | apply keeps_ite
        | apply setLaneBit_keeps | apply widen_keeps | apply setBit_keeps)
    | exact maskSub hm (by decide) | dsimp only | split | intro _

theorem execLinkFrameRx_keeps (m : BitVec 64) (s0 : State) (port : Nat) (frame : LinkFrame) (x2 : State)
     (hm : m &&& 0x10400000403#64 = 0#64) (h : Keeps m s0 x2) :
    KeepsOut m s0 (execLinkFrameRx port frame x2) := by
  unfold execLinkFrameRx
  try dsimp only
  repeat' first
    | (with_reducible first
        | assumption | apply keepsOut_next | apply keepsOut_ite | apply keeps_ite
        | apply report_keeps | apply ctrAdd_keeps | apply emit_keeps | apply modPort_keeps)
    | exact maskSub hm (by decide) | dsimp only | split | intro _

theorem execLlrRetryRx_keeps (m : BitVec 64) (s0 : State) (port : Nat) (lsn : BitVec 12) (x2 : State)
     (hm : m &&& 0x11C0801FE43#64 = 0#64) (h : Keeps m s0 x2) :
    KeepsOut m s0 (execLlrRetryRx port lsn x2) := by
  unfold execLlrRetryRx
  try dsimp only
  repeat' first
    | (with_reducible first
        | assumption | apply keepsOut_next | apply keepsOut_ite | apply keeps_ite
        | apply modPort_keeps | apply emit_keeps | apply ctrAdd_keeps | apply losePort_keeps | apply beginStripe_keeps)
    | exact maskSub hm (by decide) | dsimp only | split | intro _

theorem execLinkAckRx_keeps (m : BitVec 64) (s0 : State) (port : Nat) (lsn : BitVec 12) (x2 : State)
     (hm : m &&& 0x10C08006443#64 = 0#64) (h : Keeps m s0 x2) :
    KeepsOut m s0 (execLinkAckRx port lsn x2) := by
  unfold execLinkAckRx
  repeat' first
    | (with_reducible first
        | assumption | apply keepsOut_next | apply keepsOut_ite | apply keeps_ite
        | apply pump_keeps | apply modPort_keeps | refine keeps_of_snd (by assumption) ?_
        | refine keeps_of_fst (by assumption) ?_)
    | exact maskSub hm (by decide) | dsimp only | split | intro _

theorem execFenceRx_keeps (m : BitVec 64) (s0 : State) (port : Nat) (x1 : State) (hm : m &&& 0x11C0801FE43#64 = 0#64)
     (h : Keeps m s0 x1) :
    KeepsOut m s0 (execFenceRx port x1) := by
  unfold execFenceRx
  repeat' first
    | (with_reducible first
        | assumption | apply keepsOut_next | apply keepsOut_ite | apply keeps_ite
        | apply losePort_keeps)
    | exact maskSub hm (by decide) | split | intro _

theorem sendTrain_keeps (m : BitVec 64) (s0 x0 : State) (x1 lane : Nat) (halfAck : Bool)
     (hm : m &&& 0x10000000000#64 = 0#64) (h : Keeps m s0 x0) :
    Keeps m s0 (sendTrain x0 x1 lane halfAck) := by
  unfold sendTrain
  repeat' first
    | (with_reducible first
        | assumption | apply emit_keeps)
    | exact maskSub hm (by decide) | split

theorem execSignalDetect_keeps (m : BitVec 64) (s0 : State) (port lane : Nat) (x2 : State)
     (hm : m &&& 0x10000000C01#64 = 0#64) (h : Keeps m s0 x2) :
    KeepsOut m s0 (execSignalDetect port lane x2) := by
  unfold execSignalDetect
  try dsimp only
  repeat' first
    | (with_reducible first
        | assumption | apply keepsOut_next | apply keepsOut_ite | apply keeps_ite
        | apply setLaneBit_keeps | apply sendTrain_keeps | apply setLane_keeps | apply modPort_keeps
        | apply setPState_keeps | apply setStage_keeps)
    | exact maskSub hm (by decide) | dsimp only | split | intro _

theorem takeFrame_keeps (m : BitVec 64) (s0 x0 : State) (x1 lane : Nat) (f : TrainFrame)
     (hm : m &&& 0x10000000801#64 = 0#64) (h : Keeps m s0 x0) :
    Keeps m s0 (takeFrame x0 x1 lane f) := by
  unfold takeFrame
  try dsimp only
  repeat' first
    | (with_reducible first
        | assumption | apply keeps_ite | apply setLane_keeps | apply setLaneBit_keeps
        | apply fset_keeps | apply sendTrain_keeps)
    | exact maskSub hm (by decide) | dsimp only | split | intro _

theorem laneDone_keeps (m : BitVec 64) (s0 x0 : State) (x1 lane st : Nat) (hm : m &&& 0x800#64 = 0#64) (h : Keeps m s0 x0) :
    Keeps m s0 (laneDone x0 x1 lane st) := by
  unfold laneDone
  repeat' first
    | (with_reducible first
        | assumption | apply setLane_keeps)
    | exact maskSub hm (by decide) | split

theorem orderLanes_keeps (m : BitVec 64) (s0 x0 : State) (x1 : Nat) (hm : m &&& 0x1#64 = 0#64) (h : Keeps m s0 x0) :
    Keeps m s0 (orderLanes x0 x1) := by
  unfold orderLanes
  try dsimp only
  repeat' first
    | (with_reducible first
        | assumption | apply keeps_foldl | apply setLaneBit_keeps | apply setRxLane_keeps)
    | exact maskSub hm (by decide) | dsimp only | split | intro _

theorem toIdent_keeps (m : BitVec 64) (s0 x0 : State) (x1 : Nat) (hm : m &&& 0x1#64 = 0#64) (h : Keeps m s0 x0) :
    Keeps m s0 (toIdent x0 x1) := by
  unfold toIdent
  try dsimp only
  repeat' first
    | (with_reducible first
        | assumption | apply keeps_ite | apply wr_keeps | apply fset_keeps
        | apply setStage_keeps | apply setPState_keeps)
    | exact maskSub hm (by decide) | dsimp only | split | intro _

theorem stageEnds_keeps (m : BitVec 64) (s0 x0 : State) (x1 : Nat) (hm : m &&& 0x1#64 = 0#64) (h : Keeps m s0 x0) :
    Keeps m s0 (stageEnds x0 x1) := by
  unfold stageEnds
  try dsimp only
  repeat' first
    | (with_reducible first
        | assumption | apply keeps_ite | apply toIdent_keeps | apply setStage_keeps
        | apply orderLanes_keeps)
    | exact maskSub hm (by decide) | dsimp only | split | intro _

theorem portFrame_keeps (m : BitVec 64) (s0 x0 : State) (x1 lane : Nat) (f : TrainFrame)
     (hm : m &&& 0x10000000801#64 = 0#64) (h : Keeps m s0 x0) :
    Keeps m s0 (portFrame x0 x1 lane f) := by
  unfold portFrame
  try dsimp only
  repeat' first
    | (with_reducible first
        | assumption | apply keeps_ite | apply takeFrame_keeps | apply setStage_keeps
        | apply laneDone_keeps | apply stageEnds_keeps)
    | exact maskSub hm (by decide) | dsimp only | split | intro _

theorem loneFrame_keeps (m : BitVec 64) (s0 x0 : State) (x1 lane : Nat) (f : TrainFrame)
     (hm : m &&& 0x10000000801#64 = 0#64) (h : Keeps m s0 x0) :
    Keeps m s0 (loneFrame x0 x1 lane f) := by
  unfold loneFrame
  try dsimp only
  repeat' first
    | (with_reducible first
        | assumption | apply keeps_ite | apply takeFrame_keeps | apply laneDone_keeps
        | apply setRxLane_keeps)
    | exact maskSub hm (by decide) | dsimp only | split | intro _

theorem goHalf_keeps (m : BitVec 64) (s0 x0 : State) (x1 : Nat) (hm : m &&& 0x10000000C01#64 = 0#64) (h : Keeps m s0 x0) :
    Keeps m s0 (goHalf x0 x1) := by
  unfold goHalf
  try dsimp only
  repeat' first
    | (with_reducible first
        | assumption | apply keeps_foldl | apply modPort_keeps | apply setStage_keeps
        | apply setBit_keeps | apply sendTrain_keeps)
    | exact maskSub hm (by decide) | dsimp only | split
    | (intro q hq; cases q <;> first | exact absurd hq (maskOff hm (by decide)) | with_reducible rfl)
    | exact fun _ => ⟨List.prefix_rfl, id⟩ | exact fun _ => ⟨List.prefix_rfl, fun _ => rfl⟩
    | exact fun g => absurd g (maskOff hm (by decide)) | (fail_if_no_progress with_reducible apply keeps_frame) | intro _

theorem execTrainingFrameRx_keeps (m : BitVec 64) (s0 : State) (port lane : Nat) (frame : TrainFrame) (x3 : State)
     (hm : m &&& 0x10000000C01#64 = 0#64) (h : Keeps m s0 x3) :
    KeepsOut m s0 (execTrainingFrameRx port lane frame x3) := by
  unfold execTrainingFrameRx
  try dsimp only
  repeat' first
    | (with_reducible first
        | assumption | apply keepsOut_next | apply keepsOut_ite | apply keeps_ite
        | apply loneFrame_keeps | apply goHalf_keeps | apply sendTrain_keeps | apply portFrame_keeps)
    | exact maskSub hm (by decide) | dsimp only | split | intro _

theorem stageFails_keeps (m : BitVec 64) (s0 x0 : State) (x1 : Nat) (hm : m &&& 0x11C0801E443#64 = 0#64) (h : Keeps m s0 x0) :
    Keeps m s0 (stageFails x0 x1) := by
  unfold stageFails
  try dsimp only
  repeat' first
    | (with_reducible first
        | assumption | apply keeps_ite | apply fieldSat_keeps | apply modPort_keeps
        | apply linkDown_keeps | apply setPState_keeps)
    | exact maskSub hm (by decide) | dsimp only | split | intro _

theorem innerFails_keeps (m : BitVec 64) (s0 x0 : State) (n : Nat) (hm : m &&& 0x11C0801F443#64 = 0#64) (h : Keeps m s0 x0) :
    Keeps m s0 (innerFails x0 n) := by
  unfold innerFails
  try dsimp only
  repeat' first
    | (with_reducible first
        | assumption | apply keeps_foldl | apply closeStitch_keeps | apply fset_keeps
        | apply setStitch_keeps | apply setStage_keeps | apply setPState_keeps | apply modPort_keeps | apply linkDown_keeps
        | refine keeps_of_snd (by assumption) ?_ | refine keeps_of_fst (by assumption) ?_)
    | exact maskSub hm (by decide) | dsimp only | split | intro _

theorem execBringupStageTimeout_keeps (m : BitVec 64) (s0 : State) (port : Nat) (x1 : State)
     (hm : m &&& 0x11C0801F443#64 = 0#64) (h : Keeps m s0 x1) :
    KeepsOut m s0 (execBringupStageTimeout port x1) := by
  unfold execBringupStageTimeout
  try dsimp only
  repeat' first
    | (with_reducible first
        | assumption | apply keepsOut_next | apply keepsOut_ite | apply keeps_ite
        | apply keeps_foldl | apply fieldSat_keeps | apply modPort_keeps | apply sendTrain_keeps | apply innerFails_keeps
        | apply stageFails_keeps)
    | exact maskSub hm (by decide) | dsimp only | split | intro _

theorem execBringupRestart_keeps (m : BitVec 64) (s0 : State) (port : Nat) (x1 : State) (hm : m &&& 0xE01#64 = 0#64)
     (h : Keeps m s0 x1) :
    KeepsOut m s0 (execBringupRestart port x1) := by
  unfold execBringupRestart
  repeat' first
    | (with_reducible first
        | assumption | apply keepsOut_next | apply keepsOut_ite | apply keeps_ite
        | apply bringUp_keeps)
    | exact maskSub hm (by decide) | split | intro _

theorem sendIdent_keeps (m : BitVec 64) (s0 x0 : State) (x1 : Nat) (k : Pkt) (hm : m &&& 0x10000000402#64 = 0#64)
     (h : Keeps m s0 x0) :
    Keeps m s0 (sendIdent x0 x1 k) := by
  unfold sendIdent
  repeat' first
    | (with_reducible first
        | assumption | apply emit_keeps | apply ctrAdd_keeps | apply keepFrame_keeps)
    | exact maskSub hm (by decide) | split

theorem execIdentTimer_keeps (m : BitVec 64) (s0 : State) (port : Nat) (x1 : State) (hm : m &&& 0x10000000402#64 = 0#64)
     (h : Keeps m s0 x1) :
    KeepsOut m s0 (execIdentTimer port x1) := by
  unfold execIdentTimer
  try dsimp only
  repeat' first
    | (with_reducible first
        | assumption | apply keepsOut_next | apply keepsOut_ite | apply keeps_ite
        | apply sendIdent_keeps)
    | exact maskSub hm (by decide) | dsimp only | split | intro _

theorem recordIdent_keeps (m : BitVec 64) (s0 x0 : State) (x1 : Nat) (b : List Byte) (hm : m &&& 0x401#64 = 0#64)
     (h : Keeps m s0 x0) :
    Keeps m s0 (recordIdent x0 x1 b) := by
  unfold recordIdent
  try dsimp only
  repeat' first
    | (with_reducible first
        | assumption | apply keeps_foldl | apply wr_keeps | apply modPort_keeps)
    | exact maskSub hm (by decide) | dsimp only | split | intro _

theorem stitchAdmitted_keeps (m : BitVec 64) (s0 x0 : State) (x1 : Nat) (hm : m &&& 0x1#64 = 0#64) (h : Keeps m s0 x0) :
    Keeps m s0 (stitchAdmitted x0 x1) := by
  unfold stitchAdmitted
  try dsimp only
  repeat' first
    | (with_reducible first
        | assumption | apply keeps_ite | apply fset_keeps
        | refine keeps_of_snd (by assumption) ?_ | refine keeps_of_fst (by assumption) ?_)
    | exact maskSub hm (by decide) | dsimp only | split | intro _

theorem stage9_keeps (m : BitVec 64) (s0 x0 : State) (x1 : Nat) (hm : m &&& 0x11C0801F443#64 = 0#64) (h : Keeps m s0 x0) :
    Keeps m s0 (stage9 x0 x1) := by
  unfold stage9
  try dsimp only
  repeat' first
    | (with_reducible first
        | assumption | apply keeps_ite | apply setStage_keeps | apply setPState_keeps
        | apply wr_keeps | apply fset_keeps | apply setBit_keeps | apply setBlk_keeps | apply initialCredits_keeps
        | apply raise_keeps | apply stitchAdmitted_keeps | apply closeForPort_keeps | apply linkDown_keeps)
    | exact maskSub hm (by decide) | dsimp only | split | intro _

theorem innerDone_keeps (m : BitVec 64) (s0 x0 : State) (n : Nat) (hm : m &&& 0x11C0801F443#64 = 0#64) (h : Keeps m s0 x0) :
    Keeps m s0 (innerDone x0 n) := by
  unfold innerDone
  try dsimp only
  repeat' first
    | (with_reducible first
        | assumption | apply keeps_ite | apply setStitch_keeps | apply setSt_keeps
        | apply innerFails_keeps | refine keeps_of_snd (by assumption) ?_ | refine keeps_of_fst (by assumption) ?_)
    | exact maskSub hm (by decide) | dsimp only | split | intro _

theorem identDone_keeps (m : BitVec 64) (s0 x0 : State) (x1 : Nat) (hm : m &&& 0x11C0801F443#64 = 0#64) (h : Keeps m s0 x0) :
    Keeps m s0 (identDone x0 x1) := by
  unfold identDone
  try dsimp only
  repeat' first
    | (with_reducible first
        | assumption | apply keeps_ite | apply innerDone_keeps | apply stage9_keeps)
    | exact maskSub hm (by decide) | dsimp only | split | intro _

theorem execIdentRx_keeps (m : BitVec 64) (s0 : State) (port : Nat) (payload : List Byte) (x2 : State)
     (hm : m &&& 0x11C0801F443#64 = 0#64) (h : Keeps m s0 x2) :
    KeepsOut m s0 (execIdentRx port payload x2) := by
  unfold execIdentRx
  try dsimp only
  repeat' first
    | (with_reducible first
        | assumption | apply keepsOut_next | apply keepsOut_ite | apply keeps_ite
        | apply recordIdent_keeps | apply ctrAdd_keeps | apply sendIdent_keeps | apply identDone_keeps
        | apply modPort_keeps)
    | exact maskSub hm (by decide) | dsimp only | split | intro _

theorem execIdentAckRx_keeps (m : BitVec 64) (s0 : State) (port : Nat) (x1 : State) (hm : m &&& 0x11C0801F443#64 = 0#64)
     (h : Keeps m s0 x1) :
    KeepsOut m s0 (execIdentAckRx port x1) := by
  unfold execIdentAckRx
  repeat' first
    | (with_reducible first
        | assumption | apply keepsOut_next | apply keepsOut_ite | apply keeps_ite
        | apply identDone_keeps | apply modPort_keeps | apply ctrAdd_keeps)
    | exact maskSub hm (by decide) | dsimp only | split | intro _

theorem execHeldDownRetry_keeps (m : BitVec 64) (s0 : State) (port : Nat) (x1 : State) (hm : m &&& 0x11C0801EE43#64 = 0#64)
     (h : Keeps m s0 x1) :
    KeepsOut m s0 (execHeldDownRetry port x1) := by
  unfold execHeldDownRetry
  repeat' first
    | (with_reducible first
        | assumption | apply keepsOut_next | apply keepsOut_ite | apply keeps_ite
        | apply bringUp_keeps | apply linkDown_keeps)
    | exact maskSub hm (by decide) | split | intro _

theorem retrainPort_keeps (m : BitVec 64) (s0 x0 : State) (x1 : Nat) (hm : m &&& 0x11C0801FE43#64 = 0#64)
     (h : Keeps m s0 x0) :
    Keeps m s0 (retrainPort x0 x1) := by
  unfold retrainPort
  repeat' first
    | (with_reducible first
        | assumption | apply keeps_ite | apply losePort_keeps)
    | exact maskSub hm (by decide) | split | intro _

theorem openStart_keeps (m : BitVec 64) (s0 x0 : State) (n : Nat) (hm : m &&& 0x11C0801FE43#64 = 0#64) (h : Keeps m s0 x0) :
    Keeps m s0 (openStart x0 n) := by
  unfold openStart
  try dsimp only
  repeat' first
    | (with_reducible first
        | assumption | apply keeps_ite | apply keeps_foldl | apply setSt_keeps
        | apply setStitch_keeps | apply bringUp_keeps | apply modPort_keeps | apply linkDown_keeps
        | refine keeps_of_snd (by assumption) ?_ | refine keeps_of_fst (by assumption) ?_)
    | exact maskSub hm (by decide) | dsimp only | split | intro _

theorem execStitchOpenStart_keeps (m : BitVec 64) (s0 : State) (stitch : Nat) (x1 : State)
     (hm : m &&& 0x11C0801FE43#64 = 0#64) (h : Keeps m s0 x1) :
    KeepsOut m s0 (execStitchOpenStart stitch x1) := by
  unfold execStitchOpenStart
  repeat' first
    | (with_reducible first
        | assumption | apply keepsOut_next | apply keepsOut_ite | apply keeps_ite
        | apply openStart_keeps)
    | exact maskSub hm (by decide) | split | intro _

theorem execStitchRetryTimer_keeps (m : BitVec 64) (s0 : State) (stitch : Nat) (x1 : State)
     (hm : m &&& 0x11C0801FE43#64 = 0#64) (h : Keeps m s0 x1) :
    KeepsOut m s0 (execStitchRetryTimer stitch x1) := by
  unfold execStitchRetryTimer
  repeat' first
    | (with_reducible first
        | assumption | apply keepsOut_next | apply keepsOut_ite | apply keeps_ite
        | apply openStart_keeps | apply setStitch_keeps)
    | exact maskSub hm (by decide) | split | intro _

theorem portStops_keeps (m : BitVec 64) (s0 x0 : State) (x1 : Nat) (hm : m &&& 0x11C0801E443#64 = 0#64) (h : Keeps m s0 x0) :
    Keeps m s0 (portStops x0 x1) := by
  unfold portStops
  repeat' first
    | (with_reducible first
        | assumption | apply setStage_keeps | apply setPState_keeps | apply linkDown_keeps)
    | exact maskSub hm (by decide) | split

theorem stitchFault_keeps (m : BitVec 64) (s0 x0 : State) (n : Nat) (hm : m &&& 0x11C0801F443#64 = 0#64) (h : Keeps m s0 x0) :
    Keeps m s0 (stitchFault x0 n) := by
  unfold stitchFault
  try dsimp only
  repeat' first
    | (with_reducible first
        | assumption | apply keeps_foldl | apply setStitch_keeps | apply setSt_keeps
        | apply report_keeps | apply ctrAdd_keeps | apply setCause_keeps | apply setBlk_keeps | apply portStops_keeps
        | refine keeps_of_snd (by assumption) ?_ | refine keeps_of_fst (by assumption) ?_)
    | exact maskSub hm (by decide) | dsimp only | split | intro _

theorem execStitchSenseSample_keeps (m : BitVec 64) (s0 : State) (stitch : Nat) (openMade closedMade : Bool) (x3 : State)
     (hm : m &&& 0x11C0801FE43#64 = 0#64) (h : Keeps m s0 x3) :
    KeepsOut m s0 (execStitchSenseSample stitch openMade closedMade x3) := by
  unfold execStitchSenseSample
  try dsimp only
  repeat' first
    | (with_reducible first
        | assumption | apply keepsOut_next | apply keepsOut_ite | apply keeps_ite
        | apply keeps_foldl | apply fset_keeps | apply stitchFault_keeps | apply ctrAdd_keeps | apply setSt_keeps
        | apply bringUp_keeps | apply modPort_keeps | apply linkDown_keeps | apply setStage_keeps | apply setPState_keeps
        | apply setBlk_keeps | refine keeps_of_snd (by assumption) ?_ | refine keeps_of_fst (by assumption) ?_)
    | exact maskSub hm (by decide) | dsimp only | split | intro _

theorem execStitchAdmitTimeout_keeps (m : BitVec 64) (s0 : State) (stitch : Nat) (x1 : State) (hm : m &&& 0x1003#64 = 0#64)
     (h : Keeps m s0 x1) :
    KeepsOut m s0 (execStitchAdmitTimeout stitch x1) := by
  unfold execStitchAdmitTimeout
  try dsimp only
  repeat' first
    | (with_reducible first
        | assumption | apply keepsOut_next | apply keepsOut_ite | apply keeps_ite
        | apply fset_keeps | apply setStitch_keeps | apply closeStitch_keeps | refine keeps_of_snd (by assumption) ?_
        | refine keeps_of_fst (by assumption) ?_)
    | exact maskSub hm (by decide) | dsimp only | split | intro _

theorem setLocked_keeps (m : BitVec 64) (s0 x0 : State) (dist port : Nat) (hm : m &&& 0x1#64 = 0#64) (h : Keeps m s0 x0) :
    Keeps m s0 (setLocked x0 dist port) := by
  unfold setLocked
  repeat' first
    | (with_reducible first
        | assumption | apply keeps_ite | apply wr_keeps)
    | exact maskSub hm (by decide) | split | intro _

theorem unlockTime_keeps (m : BitVec 64) (s0 x0 : State) (hm : m &&& 0x10008000003#64 = 0#64) (h : Keeps m s0 x0) :
    Keeps m s0 (unlockTime x0) := by
  unfold unlockTime
  repeat' first
    | (with_reducible first
        | assumption | apply raise_keeps | apply wr_keeps)
    | exact maskSub hm (by decide) | split

theorem stepTime_keeps (m : BitVec 64) (s0 x0 : State) (t : Nat) (hm : m &&& 0x11C08046463#64 = 0#64) (h : Keeps m s0 x0) :
    Keeps m s0 (stepTime x0 t) := by
  unfold stepTime
  try dsimp only
  repeat' first
    | (with_reducible first
        | assumption | apply keeps_ite | apply keeps_forUp | apply pump_keeps
        | apply setGate_keeps)
    | exact maskSub hm (by decide) | dsimp only | split
    | (intro q hq; cases q <;> first | exact absurd hq (maskOff hm (by decide)) | with_reducible rfl)
    | exact fun _ => ⟨List.prefix_rfl, id⟩ | exact fun _ => ⟨List.prefix_rfl, fun _ => rfl⟩
    | exact fun g => absurd g (maskOff hm (by decide)) | (fail_if_no_progress with_reducible apply keeps_frame) | intro _

theorem servo_keeps (m : BitVec 64) (s0 x0 : State) (off : Int) (hm : m &&& 0x11C08046463#64 = 0#64) (h : Keeps m s0 x0) :
    Keeps m s0 (servo x0 off) := by
  unfold servo
  try dsimp only
  repeat' first
    | (with_reducible first
        | assumption | apply keeps_ite | apply wr_keeps | apply stepTime_keeps)
    | exact maskSub hm (by decide) | dsimp only | split
    | (intro q hq; cases q <;> first | exact absurd hq (maskOff hm (by decide)) | with_reducible rfl)
    | exact fun _ => ⟨List.prefix_rfl, id⟩ | exact fun _ => ⟨List.prefix_rfl, fun _ => rfl⟩
    | exact fun g => absurd g (maskOff hm (by decide)) | (fail_if_no_progress with_reducible apply keeps_frame) | intro _

theorem ptpExpire_keeps (m : BitVec 64) (s0 x0 : State) (hm : m &&& 0x11008000003#64 = 0#64) (h : Keeps m s0 x0) :
    Keeps m s0 (ptpExpire x0) := by
  unfold ptpExpire
  try dsimp only
  repeat' first
    | (with_reducible first
        | assumption | apply keeps_ite | apply unlockTime_keeps)
    | exact maskSub hm (by decide) | dsimp only | split
    | (intro q hq; cases q <;> first | exact absurd hq (maskOff hm (by decide)) | with_reducible rfl)
    | exact fun _ => ⟨List.prefix_rfl, id⟩ | exact fun _ => ⟨List.prefix_rfl, fun _ => rfl⟩
    | exact fun g => absurd g (maskOff hm (by decide)) | (fail_if_no_progress with_reducible apply keeps_frame) | intro _

theorem ptpAnnounce_keeps (m : BitVec 64) (s0 x0 : State) (d : PtpData) (hm : m &&& 0x1000000000#64 = 0#64)
     (h : Keeps m s0 x0) :
    Keeps m s0 (ptpAnnounce x0 d) := by
  unfold ptpAnnounce
  try dsimp only
  repeat' first
    | (with_reducible first
        | assumption | apply keeps_ite)
    | exact maskSub hm (by decide) | dsimp only | split
    | (intro q hq; cases q <;> first | exact absurd hq (maskOff hm (by decide)) | with_reducible rfl)
    | exact fun _ => ⟨List.prefix_rfl, id⟩ | exact fun _ => ⟨List.prefix_rfl, fun _ => rfl⟩
    | exact fun g => absurd g (maskOff hm (by decide)) | (fail_if_no_progress with_reducible apply keeps_frame) | intro _

theorem sendTimes_keeps (m : BitVec 64) (s0 x0 : State) (x1 n : Nat) (hm : m &&& 0x11000000402#64 = 0#64)
     (h : Keeps m s0 x0) :
    Keeps m s0 (sendTimes x0 x1 n) := by
  unfold sendTimes
  try dsimp only
  repeat' first
    | (with_reducible first
        | assumption | apply sendSingle_keeps | refine keeps_of_snd (by assumption) ?_
        | refine keeps_of_fst (by assumption) ?_)
    | exact maskSub hm (by decide) | dsimp only | split
    | (intro q hq; cases q <;> first | exact absurd hq (maskOff hm (by decide)) | with_reducible rfl)
    | exact fun _ => ⟨List.prefix_rfl, id⟩ | exact fun _ => ⟨List.prefix_rfl, fun _ => rfl⟩
    | exact fun g => absurd g (maskOff hm (by decide)) | (fail_if_no_progress with_reducible apply keeps_frame) | intro _

theorem execTimeSyncTimer_keeps (m : BitVec 64) (s0 x0 : State) (hm : m &&& 0x11008000403#64 = 0#64) (h : Keeps m s0 x0) :
    KeepsOut m s0 (execTimeSyncTimer x0) := by
  unfold execTimeSyncTimer
  try dsimp only
  repeat' first
    | (with_reducible first
        | assumption | apply keepsOut_next | apply keepsOut_ite | apply keeps_ite
        | apply keeps_foldl | apply ptpExpire_keeps | apply sendTimes_keeps)
    | exact maskSub hm (by decide) | dsimp only | split
    | (intro q hq; cases q <;> first | exact absurd hq (maskOff hm (by decide)) | with_reducible rfl)
    | exact fun _ => ⟨List.prefix_rfl, id⟩ | exact fun _ => ⟨List.prefix_rfl, fun _ => rfl⟩
    | exact fun g => absurd g (maskOff hm (by decide)) | (fail_if_no_progress with_reducible apply keeps_frame) | intro _

theorem followBest_keeps (m : BitVec 64) (s0 x0 : State) (x1 : Nat) (hm : m &&& 0x11C08046463#64 = 0#64) (h : Keeps m s0 x0) :
    Keeps m s0 (followBest x0 x1) := by
  unfold followBest
  try dsimp only
  repeat' first
    | (with_reducible first
        | assumption | apply keeps_ite | apply setLocked_keeps | apply servo_keeps
        | refine keeps_of_snd (by assumption) ?_ | refine keeps_of_fst (by assumption) ?_)
    | exact maskSub hm (by decide) | dsimp only | split | intro _

theorem takeTime_keeps (m : BitVec 64) (s0 x0 : State) (x1 : Nat) (k : Pkt) (ingress : Nat)
     (hm : m &&& 0x11C08046463#64 = 0#64) (h : Keeps m s0 x0) :
    Keeps m s0 (takeTime x0 x1 k ingress) := by
  unfold takeTime
  try dsimp only
  repeat' first
    | (with_reducible first
        | assumption | apply keeps_ite | apply followBest_keeps | apply sendSingle_keeps
        | refine keeps_of_snd (by assumption) ?_ | refine keeps_of_fst (by assumption) ?_)
    | exact maskSub hm (by decide) | dsimp only | split
    | (intro q hq; cases q <;> first | exact absurd hq (maskOff hm (by decide)) | with_reducible rfl)
    | exact fun _ => ⟨List.prefix_rfl, id⟩ | exact fun _ => ⟨List.prefix_rfl, fun _ => rfl⟩
    | exact fun g => absurd g (maskOff hm (by decide)) | (fail_if_no_progress with_reducible apply keeps_frame) | intro _

theorem singleHop_keeps (m : BitVec 64) (s0 s : State) (p : Nat) (y : BitVec 6) (bs : List Byte) (t : State)
    (hm : m &&& 0x11C08046463#64 = 0#64) (e : singleHop s p y bs = .error t) (h : Keeps m s0 s) : Keeps m s0 t := by
  unfold singleHop at e
  repeat' split at e
  all_goals first
    | (injection e with e; subst e
       first | exact h | exact ctrAdd_keeps _ _ _ _ _ _ (maskSub hm (by decide)) h | exact trailerFault_keeps _ _ _ _ (maskSub hm (by decide)) h)
    | contradiction

theorem execTimePacketRx_keeps (m : BitVec 64) (s0 : State) (port : Nat) (bytes : List Byte) (ingress : BitVec 64)
     (x3 : State) (hm : m &&& 0x11C08046463#64 = 0#64) (h : Keeps m s0 x3) :
    KeepsOut m s0 (execTimePacketRx port bytes ingress x3) := by
  unfold execTimePacketRx
  repeat' first
    | (with_reducible first
        | assumption | apply keepsOut_next | apply keepsOut_ite | apply keeps_ite
        | apply takeTime_keeps | apply takeSingle_keeps | refine singleHop_keeps _ _ _ _ _ _ _ hm (by assumption) ?_)
    | exact maskSub hm (by decide) | split | intro _

theorem execTimeRootTimeout_keeps (m : BitVec 64) (s0 x0 : State) (hm : m &&& 0x11008000003#64 = 0#64) (h : Keeps m s0 x0) :
    KeepsOut m s0 (execTimeRootTimeout x0) := by
  unfold execTimeRootTimeout
  repeat' first
    | (with_reducible first
        | assumption | apply keepsOut_next | apply keepsOut_ite | apply keeps_ite
        | apply unlockTime_keeps)
    | exact maskSub hm (by decide) | split
    | (intro q hq; cases q <;> first | exact absurd hq (maskOff hm (by decide)) | with_reducible rfl)
    | exact fun _ => ⟨List.prefix_rfl, id⟩ | exact fun _ => ⟨List.prefix_rfl, fun _ => rfl⟩
    | exact fun g => absurd g (maskOff hm (by decide)) | (fail_if_no_progress with_reducible apply keeps_frame) | intro _

theorem ptpSyncDone_keeps (m : BitVec 64) (s0 x0 : State) (origin ingress : Nat) (hm : m &&& 0x11C08046463#64 = 0#64)
     (h : Keeps m s0 x0) :
    Keeps m s0 (ptpSyncDone x0 origin ingress) := by
  unfold ptpSyncDone
  try dsimp only
  repeat' first
    | (with_reducible first
        | assumption | apply keeps_ite | apply emit_keeps | apply servo_keeps
        | apply setLocked_keeps)
    | exact maskSub hm (by decide) | dsimp only | split
    | (intro q hq; cases q <;> first | exact absurd hq (maskOff hm (by decide)) | with_reducible rfl)
    | exact fun _ => ⟨List.prefix_rfl, id⟩ | exact fun _ => ⟨List.prefix_rfl, fun _ => rfl⟩
    | exact fun g => absurd g (maskOff hm (by decide)) | (fail_if_no_progress with_reducible apply keeps_frame) | intro _

theorem ptpDelayed_keeps (m : BitVec 64) (s0 x0 : State) (seq received : Nat) (hm : m &&& 0x1000000000#64 = 0#64)
     (h : Keeps m s0 x0) :
    Keeps m s0 (ptpDelayed x0 seq received) := by
  unfold ptpDelayed
  repeat' first
    | (with_reducible first
        | assumption | apply keeps_ite)
    | exact maskSub hm (by decide) | split
    | (intro q hq; cases q <;> first | exact absurd hq (maskOff hm (by decide)) | with_reducible rfl)
    | exact fun _ => ⟨List.prefix_rfl, id⟩ | exact fun _ => ⟨List.prefix_rfl, fun _ => rfl⟩
    | exact fun g => absurd g (maskOff hm (by decide)) | (fail_if_no_progress with_reducible apply keeps_frame) | intro _

theorem execPtpMessageRx_keeps (m : BitVec 64) (s0 : State) (msg : PtpMsg) (x1 : State) (hm : m &&& 0x11C08046463#64 = 0#64)
     (h : Keeps m s0 x1) :
    KeepsOut m s0 (execPtpMessageRx msg x1) := by
  unfold execPtpMessageRx
  try dsimp only
  repeat' first
    | (with_reducible first
        | assumption | apply keepsOut_next | apply keepsOut_ite | apply keeps_ite
        | apply ptpExpire_keeps | apply ptpAnnounce_keeps | apply ptpSyncDone_keeps | apply ptpDelayed_keeps)
    | exact maskSub hm (by decide) | dsimp only | split
    | (intro q hq; cases q <;> first | exact absurd hq (maskOff hm (by decide)) | with_reducible rfl)
    | exact fun _ => ⟨List.prefix_rfl, id⟩ | exact fun _ => ⟨List.prefix_rfl, fun _ => rfl⟩
    | exact fun g => absurd g (maskOff hm (by decide)) | (fail_if_no_progress with_reducible apply keeps_frame) | intro _

theorem disciplineActs_keeps (m : BitVec 64) (s0 x0 : State) (old : Word) (hm : m &&& 0x11008000003#64 = 0#64)
     (h : Keeps m s0 x0) :
    Keeps m s0 (disciplineActs x0 old) := by
  unfold disciplineActs
  try dsimp only
  repeat' first
    | (with_reducible first
        | assumption | apply keeps_ite | apply unlockTime_keeps)
    | exact maskSub hm (by decide) | dsimp only | split
    | (intro q hq; cases q <;> first | exact absurd hq (maskOff hm (by decide)) | with_reducible rfl)
    | exact fun _ => ⟨List.prefix_rfl, id⟩ | exact fun _ => ⟨List.prefix_rfl, fun _ => rfl⟩
    | exact fun g => absurd g (maskOff hm (by decide)) | (fail_if_no_progress with_reducible apply keeps_frame) | intro _

theorem execPpsInEdge_keeps (m : BitVec 64) (s0 x0 : State) (hm : m &&& 0x11C08046463#64 = 0#64) (h : Keeps m s0 x0) :
    KeepsOut m s0 (execPpsInEdge x0) := by
  unfold execPpsInEdge
  try dsimp only
  repeat' first
    | (with_reducible first
        | assumption | apply keepsOut_next | apply keepsOut_ite | apply keeps_ite
        | apply ptpExpire_keeps | apply stepTime_keeps | apply wr_keeps | apply setLocked_keeps)
    | exact maskSub hm (by decide) | dsimp only | split | intro _

theorem execPpsOutPulse_keeps (m : BitVec 64) (s0 x0 : State) (hm : m &&& 0x10000000000#64 = 0#64) (h : Keeps m s0 x0) :
    KeepsOut m s0 (execPpsOutPulse x0) := by
  unfold execPpsOutPulse
  repeat' first
    | (with_reducible first
        | assumption | apply keepsOut_next | apply keepsOut_ite | apply keeps_ite
        | apply emit_keeps)
    | exact maskSub hm (by decide) | split | intro _

theorem sendViews_keeps (m : BitVec 64) (s0 x0 : State) (x1 : Nat) (views : List (Prod Nat (BitVec 24)))
     (hm : m &&& 0x10000000402#64 = 0#64) (h : Keeps m s0 x0) :
    Keeps m s0 (sendViews x0 x1 views) := by
  unfold sendViews
  repeat' first
    | (with_reducible first
        | assumption | apply keeps_foldl | apply keeps_foldl_fst | apply keeps_foldl_snd
        | apply sendSingle_keeps | refine keeps_of_snd (by assumption) ?_ | refine keeps_of_fst (by assumption) ?_)
    | exact maskSub hm (by decide) | dsimp only | split | intro _

theorem execLinkStateCtrlTimer_keeps (m : BitVec 64) (s0 x0 : State) (hm : m &&& 0x10000000402#64 = 0#64)
     (h : Keeps m s0 x0) :
    KeepsOut m s0 (execLinkStateCtrlTimer x0) := by
  unfold execLinkStateCtrlTimer
  try dsimp only
  repeat' first
    | (with_reducible first
        | assumption | apply keepsOut_next | apply keepsOut_ite | apply keeps_ite
        | apply keeps_foldl | apply sendViews_keeps | refine keeps_of_snd (by assumption) ?_
        | refine keeps_of_fst (by assumption) ?_)
    | exact maskSub hm (by decide) | dsimp only | split | intro _

theorem keepViews_keeps (m : BitVec 64) (s0 x0 : State) (view : List (Prod Nat (BitVec 24)))
     (hm : m &&& 0x2000000000#64 = 0#64) (h : Keeps m s0 x0) :
    Keeps m s0 (keepViews x0 view) := by
  unfold keepViews
  repeat' first
    | (with_reducible first
        | assumption | apply keeps_ite | apply keeps_foldl | apply keeps_foldl_fst
        | apply keeps_foldl_snd | apply keeps_ite_fst | apply keeps_ite_snd | refine keeps_of_snd (by assumption) ?_
        | refine keeps_of_fst (by assumption) ?_)
    | exact maskSub hm (by decide) | dsimp only | split
    | (intro q hq; cases q <;> first | exact absurd hq (maskOff hm (by decide)) | with_reducible rfl)
    | exact fun _ => ⟨List.prefix_rfl, id⟩ | exact fun _ => ⟨List.prefix_rfl, fun _ => rfl⟩
    | exact fun g => absurd g (maskOff hm (by decide)) | (fail_if_no_progress with_reducible apply keeps_frame) | intro _

theorem execLinkStateCtrlRx_keeps (m : BitVec 64) (s0 : State) (port : Nat) (view : List (Prod Nat (BitVec 24)))
     (x2 : State) (hm : m &&& 0x12000000002#64 = 0#64) (h : Keeps m s0 x2) :
    KeepsOut m s0 (execLinkStateCtrlRx port view x2) := by
  unfold execLinkStateCtrlRx
  repeat' first
    | (with_reducible first
        | assumption | apply keepsOut_next | apply keepsOut_ite | apply keeps_ite
        | apply keeps_ite_fst | apply keeps_ite_snd | apply keepViews_keeps | apply takeSingle_keeps | apply ctrAdd_keeps
        | refine singleHop_keeps _ _ _ _ _ _ _ hm (by assumption) ?_ | refine keeps_of_snd (by assumption) ?_
        | refine keeps_of_fst (by assumption) ?_)
    | exact maskSub hm (by decide) | dsimp only | split | intro _

theorem noteAbsent_keeps (m : BitVec 64) (s0 x0 : State) (hm : m &&& 0x800000#64 = 0#64) (h : Keeps m s0 x0) :
    Keeps m s0 (noteAbsent x0) := by
  unfold noteAbsent
  repeat' first
    | (with_reducible first
        | assumption | apply keeps_ite | apply keeps_foldl | apply setSlot_keeps
        | refine keeps_of_snd (by assumption) ?_ | refine keeps_of_fst (by assumption) ?_)
    | exact maskSub hm (by decide) | dsimp only | split | intro _

theorem setReach_keeps (m : BitVec 64) (s0 x0 : State) (set : List Nat) (hm : m &&& 0x10008800003#64 = 0#64)
     (h : Keeps m s0 x0) :
    Keeps m s0 (setReach x0 set) := by
  unfold setReach
  try dsimp only
  repeat' first
    | (with_reducible first
        | assumption | apply keeps_ite | apply keeps_foldl | apply wr_keeps | apply raise_keeps
        | apply noteAbsent_keeps | refine keeps_of_snd (by assumption) ?_ | refine keeps_of_fst (by assumption) ?_)
    | exact maskSub hm (by decide) | dsimp only | split | intro _

theorem moveOwnReach_keeps (m : BitVec 64) (s0 x0 : State) (i : Nat) (hm : m &&& 0x10008800003#64 = 0#64)
     (h : Keeps m s0 x0) :
    Keeps m s0 (moveOwnReach x0 i) := by
  unfold moveOwnReach
  repeat' first
    | (with_reducible first
        | assumption | apply setReach_keeps)
    | exact maskSub hm (by decide) | dsimp only | split | intro _

theorem execReachMapUpdate_keeps (m : BitVec 64) (s0 x0 : State) (hm : m &&& 0x10008800003#64 = 0#64) (h : Keeps m s0 x0) :
    KeepsOut m s0 (execReachMapUpdate x0) := by
  unfold execReachMapUpdate
  repeat' first
    | (with_reducible first
        | assumption | apply keepsOut_next | apply setReach_keeps)
    | exact maskSub hm (by decide) | split

theorem execRouteTableRecompute_keeps (m : BitVec 64) (s0 x0 : State) (hm : m &&& 0x1#64 = 0#64) (h : Keeps m s0 x0) :
    KeepsOut m s0 (execRouteTableRecompute x0) := by
  unfold execRouteTableRecompute
  try dsimp only
  repeat' first
    | (with_reducible first
        | assumption | apply keepsOut_next | apply writeRoutes_keeps | apply fset_keeps)
    | exact maskSub hm (by decide) | dsimp only | split

end Sys2Proof.Machine
end

