-- ==== Sys2Proof/Laws/KeepsWork.lean ====
section
/-! SUPPORT. One `Keeps` lemma for each operation of slots, reductions, collectives, steps and jobs. -/
namespace Sys2Proof.Machine

open Sys2Proof

theorem postK_keeps (m : BitVec 64) (s0 x0 : State) (n k : Nat) (hm : m &&& 0x200002#64 = 0#64) (h : Keeps m s0 x0) :
    Keeps m s0 (postK x0 n k) := by
  unfold postK
  try dsimp only
  repeat' first
    | (with_reducible first
        | assumption | apply keeps_ite | apply ctrAdd_keeps | apply setJob_keeps)
    | exact maskSub hm (by decide) | dsimp only | split | intro _

theorem autoPost_keeps (m : BitVec 64) (s0 x0 : State) (n k : Nat) (hm : m &&& 0x200002#64 = 0#64) (h : Keeps m s0 x0) :
    Keeps m s0 (autoPost x0 n k) := by
  unfold autoPost
  repeat' first
    | (with_reducible first
        | assumption | apply keeps_ite | apply postK_keeps)
    | exact maskSub hm (by decide) | split | intro _

theorem postSome_keeps (m : BitVec 64) (s0 : State) (x0 : Nat) (x1 : State) (x2 : Nat) (hm : m &&& 0x200002#64 = 0#64)
     (h : Keeps m s0 x1) :
    Keeps m s0 (postSome x0 x1 x2).2 := by
  induction x0 generalizing x1 x2 with
  | zero =>
    unfold postSome
    try dsimp only
    repeat' first
      | (with_reducible first
          | assumption | apply keeps_ite | apply keeps_ite_fst | apply keeps_ite_snd
          | apply postK_keeps | refine keeps_of_snd (by assumption) ?_ | refine keeps_of_fst (by assumption) ?_)
      | exact maskSub hm (by decide) | dsimp only | split | intro _
  | succ k ih =>
    unfold postSome
    try dsimp only
    repeat' first
      | (with_reducible first
          | assumption | apply ih | apply keeps_ite | apply keeps_ite_fst | apply keeps_ite_snd
          | apply postK_keeps | refine keeps_of_snd (by assumption) ?_ | refine keeps_of_fst (by assumption) ?_)
      | exact maskSub hm (by decide) | dsimp only | split | intro _

theorem queueTrigEvent_keeps (m : BitVec 64) (s0 x0 : State) (sid t tag value : Nat) (x : Session)
     (hm : m &&& 0x10008000002#64 = 0#64) (h : Keeps m s0 x0) :
    Keeps m s0 (queueTrigEvent x0 sid t tag value x) := by
  unfold queueTrigEvent
  try dsimp only
  repeat' first
    | (with_reducible first
        | assumption | apply keeps_ite | apply setSession_keeps | apply sendMsg_keeps)
    | exact maskSub hm (by decide) | dsimp only | split
    | (intro q hq; cases q <;> first | exact absurd hq (maskOff hm (by decide)) | with_reducible rfl)
    | exact fun _ => ⟨List.prefix_rfl, id⟩ | exact fun _ => ⟨List.prefix_rfl, fun _ => rfl⟩
    | exact fun g => absurd g (maskOff hm (by decide)) | (fail_if_no_progress with_reducible apply keeps_frame) | intro _

theorem sendTrigEvent_keeps (m : BitVec 64) (s0 x0 : State) (t : Nat) (hm : m &&& 0x10008000002#64 = 0#64)
     (h : Keeps m s0 x0) :
    Keeps m s0 (sendTrigEvent x0 t) := by
  unfold sendTrigEvent
  repeat' first
    | (with_reducible first
        | assumption | apply keeps_ite | apply keeps_foldl | apply queueTrigEvent_keeps
        | refine keeps_of_snd (by assumption) ?_ | refine keeps_of_fst (by assumption) ?_)
    | exact maskSub hm (by decide) | dsimp only | split | intro _

theorem trigAfter_keeps (m : BitVec 64) (s0 x0 : State) (t : Nat) (hm : m &&& 0x1#64 = 0#64) (h : Keeps m s0 x0) :
    Keeps m s0 (trigAfter x0 t) := by
  unfold trigAfter
  try dsimp only
  repeat' first
    | (with_reducible first
        | assumption | apply keeps_ite | apply fset_keeps | apply wr_keeps)
    | exact maskSub hm (by decide) | dsimp only | split | intro _

theorem trigPost_keeps (m : BitVec 64) (s0 x0 : State) (t count : Nat) (hm : m &&& 0x1200003#64 = 0#64) (h : Keeps m s0 x0) :
    Keeps m s0 (trigPost x0 t count) := by
  unfold trigPost
  try dsimp only
  repeat' first
    | (with_reducible first
        | assumption | apply keeps_ite | apply keeps_ite_fst | apply keeps_ite_snd
        | apply postSome_keeps | apply trigAfter_keeps | apply fset_keeps | refine keeps_of_snd (by assumption) ?_
        | refine keeps_of_fst (by assumption) ?_)
    | exact maskSub hm (by decide) | dsimp only | split
    | (intro q hq; cases q <;> first | exact absurd hq (maskOff hm (by decide)) | with_reducible rfl)
    | exact fun _ => ⟨List.prefix_rfl, id⟩ | exact fun _ => ⟨List.prefix_rfl, fun _ => rfl⟩
    | exact fun g => absurd g (maskOff hm (by decide)) | (fail_if_no_progress with_reducible apply keeps_frame) | intro _

theorem fireOnce_keeps (m : BitVec 64) (s0 : State) (adv : State → Nat → Nat → State) (x1 : State) (t : Nat)
     (hm : m &&& 0x10009200003#64 = 0#64) (hadv : ∀ y0 y1 y2, Keeps m s0 y0 → Keeps m s0 (adv y0 y1 y2)) (h : Keeps m s0 x1) :
    Keeps m s0 (fireOnce adv x1 t) := by
  unfold fireOnce
  try dsimp only
  repeat' first
    | (with_reducible first
        | assumption | apply keeps_ite | apply ctrAdd_keeps | apply fieldSat_keeps
        | apply trigPost_keeps | apply trigAfter_keeps | apply sendTrigEvent_keeps | apply hadv)
    | exact maskSub hm (by decide) | dsimp only | split | intro _

theorem fireLoop_keeps (m : BitVec 64) (s0 : State) (adv : State → Nat → Nat → State) (x1 : Nat) (x2 : State) (x3 : Nat)
     (hm : m &&& 0x10009200003#64 = 0#64) (hadv : ∀ y0 y1 y2, Keeps m s0 y0 → Keeps m s0 (adv y0 y1 y2)) (h : Keeps m s0 x2) :
    Keeps m s0 (fireLoop adv x1 x2 x3) := by
  induction x1 generalizing x2 x3 with
  | zero =>
    unfold fireLoop
    try dsimp only
    repeat' first
      | (with_reducible first
          | assumption | apply keeps_ite | apply fireOnce_keeps | apply hadv)
      | exact maskSub hm (by decide) | split | intro _
  | succ k ih =>
    unfold fireLoop
    try dsimp only
    repeat' first
      | (with_reducible first
          | assumption | apply ih | apply keeps_ite | apply fireOnce_keeps | apply hadv)
      | exact maskSub hm (by decide) | split | intro _

theorem advance_keeps (m : BitVec 64) (s0 : State) (x0 : Nat) (x1 : State) (x2 x3 : Nat)
     (hm : m &&& 0x10009200007#64 = 0#64) (h : Keeps m s0 x1) :
    Keeps m s0 (advance x0 x1 x2 x3) := by
  induction x0 generalizing x1 x2 x3 with
  | zero =>
    unfold advance
    try dsimp only
    repeat' first
      | (with_reducible first
          | assumption | apply keeps_foldl | apply setEvCtr_keeps
          | apply fireLoop_keeps)
      | exact maskSub hm (by decide) | dsimp only | split | intro _
  | succ k ih =>
    unfold advance
    try dsimp only
    repeat' first
      | (with_reducible first
          | assumption | apply ih | apply keeps_foldl | apply setEvCtr_keeps
          | apply fireLoop_keeps)
      | exact maskSub hm (by decide) | dsimp only | split | intro _

theorem advanceCounter_keeps (m : BitVec 64) (s0 x0 : State) (c amt : Nat) (hm : m &&& 0x10009200007#64 = 0#64)
     (h : Keeps m s0 x0) :
    Keeps m s0 (advanceCounter x0 c amt) := by
  unfold advanceCounter
  repeat' first
    | (with_reducible first
        | assumption | apply advance_keeps)
    | exact maskSub hm (by decide) | split

theorem testTrigger_keeps (m : BitVec 64) (s0 x0 : State) (t : Nat) (hm : m &&& 0x10009200007#64 = 0#64) (h : Keeps m s0 x0) :
    Keeps m s0 (testTrigger x0 t) := by
  unfold testTrigger
  repeat' first
    | (with_reducible first
        | assumption | apply fireLoop_keeps | apply advance_keeps)
    | exact maskSub hm (by decide) | split | intro _

theorem resumePost_keeps (m : BitVec 64) (s0 x0 : State) (t : Nat) (hm : m &&& 0x10009200007#64 = 0#64) (h : Keeps m s0 x0) :
    Keeps m s0 (resumePost x0 t) := by
  unfold resumePost
  try dsimp only
  repeat' first
    | (with_reducible first
        | assumption | apply keeps_ite | apply trigPost_keeps | apply testTrigger_keeps)
    | exact maskSub hm (by decide) | dsimp only | split | intro _

theorem execPostPendingResume_keeps (m : BitVec 64) (s0 : State) (trigger : Nat) (x1 : State)
     (hm : m &&& 0x10009200007#64 = 0#64) (h : Keeps m s0 x1) :
    KeepsOut m s0 (execPostPendingResume trigger x1) := by
  unfold execPostPendingResume
  repeat' first
    | (with_reducible first
        | assumption | apply keepsOut_next | apply resumePost_keeps)
    | exact maskSub hm (by decide) | split

theorem trigOne_keeps (m : BitVec 64) (s0 x0 : State) (n t k : Nat) (hm : m &&& 0x10009200007#64 = 0#64) (h : Keeps m s0 x0) :
    Keeps m s0 (trigOne x0 n t k) := by
  unfold trigOne
  try dsimp only
  repeat' first
    | (with_reducible first
        | assumption | apply keeps_ite | apply postK_keeps | apply trigAfter_keeps
        | apply testTrigger_keeps)
    | exact maskSub hm (by decide) | dsimp only | split
    | (intro q hq; cases q <;> first | exact absurd hq (maskOff hm (by decide)) | with_reducible rfl)
    | exact fun _ => ⟨List.prefix_rfl, id⟩ | exact fun _ => ⟨List.prefix_rfl, fun _ => rfl⟩
    | exact fun g => absurd g (maskOff hm (by decide)) | (fail_if_no_progress with_reducible apply keeps_frame) | intro _

theorem enterOne_keeps (m : BitVec 64) (s0 s : State) (n : Nat) (j : JobSt) (t : State) (hm : m &&& 0x10009200007#64 = 0#64)
    (e : enterOne s n j = some t) (h : Keeps m s0 s) : Keeps m s0 t := by
  unfold enterOne at e
  dsimp only at e
  repeat' split at e
  all_goals first
    | contradiction
    | (injection e with e; subst e
       repeat' first
         | (with_reducible first | assumption | apply keeps_ite | apply setJob_keeps | apply trigOne_keeps)
         | exact maskSub hm (by decide) | intro _)

theorem enterWaiting_keeps (m : BitVec 64) (s0 : State) (x0 : Nat) (x1 : State) (x2 : Nat)
     (hm : m &&& 0x10009200007#64 = 0#64) (h : Keeps m s0 x1) :
    Keeps m s0 (enterWaiting x0 x1 x2) := by
  induction x0 generalizing x1 x2 with
  | zero =>
    unfold enterWaiting
    try dsimp only
    repeat' first
      | (with_reducible first
          | assumption | apply keeps_ite
          | refine enterOne_keeps _ _ _ _ _ _ (maskSub hm (by decide)) (by assumption) ?_)
      | exact maskSub hm (by decide) | split | intro _
  | succ k ih =>
    unfold enterWaiting
    try dsimp only
    repeat' first
      | (with_reducible first
          | assumption | apply ih | apply keeps_ite
          | refine enterOne_keeps _ _ _ _ _ _ (maskSub hm (by decide)) (by assumption) ?_)
      | exact maskSub hm (by decide) | split | intro _

theorem execHoldQueueFree_keeps (m : BitVec 64) (s0 : State) (sub : Nat) (x1 : State) (hm : m &&& 0x10009200007#64 = 0#64)
     (h : Keeps m s0 x1) :
    KeepsOut m s0 (execHoldQueueFree sub x1) := by
  unfold execHoldQueueFree
  repeat' first
    | (with_reducible first
        | assumption | apply keepsOut_next | apply enterWaiting_keeps)
    | exact maskSub hm (by decide) | split

theorem completeAt_keeps (m : BitVec 64) (s0 x0 : State) (x : SlotSt) (code flags escapes : Nat)
     (hm : m &&& 0x10009200007#64 = 0#64) (h : Keeps m s0 x0) :
    Keeps m s0 (completeAt x0 x code flags escapes) := by
  unfold completeAt
  try dsimp only
  repeat' first
    | (with_reducible first
        | assumption | apply keeps_ite | apply wr_keeps | apply ctrAdd_keeps
        | apply setJob_keeps | apply advanceCounter_keeps | apply raise_keeps)
    | exact maskSub hm (by decide) | dsimp only | split | intro _

theorem sendNotice_keeps (m : BitVec 64) (s0 x0 : State) (i : Nat) (x : SlotSt) (code flags escapes : Nat)
     (hm : m &&& 0x10C0889E443#64 = 0#64) (h : Keeps m s0 x0) :
    Keeps m s0 (sendNotice x0 i x code flags escapes) := by
  unfold sendNotice
  try dsimp only
  repeat' first
    | (with_reducible first
        | assumption | apply sendAll_keeps | refine keeps_of_snd (by assumption) ?_
        | refine keeps_of_fst (by assumption) ?_)
    | exact maskSub hm (by decide) | dsimp only | split | intro _

theorem sendAbort_keeps (m : BitVec 64) (s0 x0 : State) (i : Nat) (x : SlotSt) (code : Nat)
     (hm : m &&& 0x10C0889E443#64 = 0#64) (h : Keeps m s0 x0) :
    Keeps m s0 (sendAbort x0 i x code) := by
  unfold sendAbort
  try dsimp only
  repeat' first
    | (with_reducible first
        | assumption | apply sendOne_keeps | apply ctrAdd_keeps)
    | exact maskSub hm (by decide) | dsimp only | split

theorem releaseSlot_keeps (m : BitVec 64) (s0 x0 : State) (i : Nat) (x : SlotSt) (hm : m &&& 0xB00001#64 = 0#64)
     (h : Keeps m s0 x0) :
    Keeps m s0 (releaseSlot x0 i x) := by
  unfold releaseSlot
  try dsimp only
  repeat' first
    | (with_reducible first
        | assumption | apply setSlot_keeps | apply fset_keeps | apply wr_keeps
        | apply setJob_keeps)
    | exact maskSub hm (by decide) | dsimp only | split
    | (intro q hq; cases q <;> first | exact absurd hq (maskOff hm (by decide)) | with_reducible rfl)
    | exact fun _ => ⟨List.prefix_rfl, id⟩ | exact fun _ => ⟨List.prefix_rfl, fun _ => rfl⟩
    | exact fun g => absurd g (maskOff hm (by decide)) | (fail_if_no_progress with_reducible apply keeps_frame) | intro _

theorem tryRelease_keeps (m : BitVec 64) (s0 x0 : State) (i : Nat) (hm : m &&& 0xB00001#64 = 0#64) (h : Keeps m s0 x0) :
    Keeps m s0 (tryRelease x0 i) := by
  unfold tryRelease
  repeat' first
    | (with_reducible first
        | assumption | apply keeps_ite | apply releaseSlot_keeps)
    | exact maskSub hm (by decide) | dsimp only | split | intro _

theorem forgetWaiting_keeps (m : BitVec 64) (s0 x0 : State) (i k : Nat) (hm : m &&& 0x80000#64 = 0#64) (h : Keeps m s0 x0) :
    Keeps m s0 (forgetWaiting x0 i k) := by
  unfold forgetWaiting
  repeat' first
    | (with_reducible first
        | assumption | apply keeps_ite | apply keeps_foldl | apply setStream_keeps
        | refine keeps_of_snd (by assumption) ?_ | refine keeps_of_fst (by assumption) ?_)
    | exact maskSub hm (by decide) | dsimp only | split | intro _

theorem forgetRetained_keeps (m : BitVec 64) (s0 x0 : State) (i k : Nat) (hm : m &&& 0x80000#64 = 0#64) (h : Keeps m s0 x0) :
    Keeps m s0 (forgetRetained x0 i k) := by
  unfold forgetRetained
  repeat' first
    | (with_reducible first
        | assumption | apply keeps_ite | apply keeps_foldl | apply setStream_keeps
        | refine keeps_of_snd (by assumption) ?_ | refine keeps_of_fst (by assumption) ?_)
    | exact maskSub hm (by decide) | dsimp only | split | intro _

theorem failEscapes_keeps (m : BitVec 64) (s0 x0 : State) (x : SlotSt) (up : Bool) (hm : m &&& 0x20000000000#64 = 0#64)
     (h : Keeps m s0 x0) :
    Keeps m s0 (failEscapes x0 x up).2 := by
  unfold failEscapes
  repeat' first
    | (with_reducible first
        | assumption | apply keeps_ite | apply keeps_ite_fst | apply keeps_ite_snd
        | apply draw_keeps | refine keeps_of_snd (by assumption) ?_ | refine keeps_of_fst (by assumption) ?_)
    | exact maskSub hm (by decide) | dsimp only | split | intro _

theorem abortSlot_keeps (m : BitVec 64) (s0 x0 : State) (i code : Nat) (up : Bool) (hm : m &&& 0x30C09B9E447#64 = 0#64)
     (h : Keeps m s0 x0) :
    Keeps m s0 (abortSlot x0 i code up) := by
  unfold abortSlot
  try dsimp only
  repeat' first
    | (with_reducible first
        | assumption | apply keeps_ite | apply keeps_ite_fst | apply keeps_ite_snd
        | apply ctrAdd_keeps | apply fset_keeps | apply setSlot_keeps | apply forgetWaiting_keeps | apply sendAbort_keeps
        | apply failEscapes_keeps | apply sendNotice_keeps | apply tryRelease_keeps | apply completeAt_keeps
        | refine keeps_of_snd (by assumption) ?_ | refine keeps_of_fst (by assumption) ?_)
    | exact maskSub hm (by decide) | dsimp only | split | intro _

theorem rankLost_keeps (m : BitVec 64) (s0 x0 : State) (i : Nat) (hm : m &&& 0x30C09B9E447#64 = 0#64) (h : Keeps m s0 x0) :
    Keeps m s0 (rankLost x0 i) := by
  unfold rankLost
  repeat' first
    | (with_reducible first
        | assumption | apply abortSlot_keeps | apply ctrAdd_keeps)
    | exact maskSub hm (by decide) | split

theorem restartLiveness_keeps (m : BitVec 64) (s0 x0 : State) (i : Nat) (hm : m &&& 0x800000#64 = 0#64) (h : Keeps m s0 x0) :
    Keeps m s0 (restartLiveness x0 i) := by
  unfold restartLiveness
  repeat' first
    | (with_reducible first
        | assumption | apply keeps_ite | apply setSlot_keeps)
    | exact maskSub hm (by decide) | split | intro _

theorem execLivenessExpiry_keeps (m : BitVec 64) (s0 : State) (slot : Nat) (x1 : State) (hm : m &&& 0x880000#64 = 0#64)
     (h : Keeps m s0 x1) :
    KeepsOut m s0 (execLivenessExpiry slot x1) := by
  unfold execLivenessExpiry
  try dsimp only
  repeat' first
    | (with_reducible first
        | assumption | apply keepsOut_next | apply keepsOut_ite | apply keeps_ite
        | apply forgetWaiting_keeps | apply setSlot_keeps)
    | exact maskSub hm (by decide) | dsimp only | split | intro _

theorem openChunk_keeps (m : BitVec 64) (s0 x0 : State) (i : Nat) (x : SlotSt) (cs : List Nat) (c : Nat)
     (hm : m &&& 0x2#64 = 0#64) (h : Keeps m s0 x0) :
    Keeps m s0 (openChunk x0 i x cs c).1 := by
  unfold openChunk
  try dsimp only
  repeat' first
    | (with_reducible first
        | assumption | apply keeps_ite | apply keeps_ite_fst | apply keeps_ite_snd
        | apply ctrAdd_keeps | refine keeps_of_snd (by assumption) ?_ | refine keeps_of_fst (by assumption) ?_)
    | exact maskSub hm (by decide) | dsimp only | split | intro _

theorem sendUp_keeps (m : BitVec 64) (s0 x0 : State) (i : Nat) (x : SlotSt) (c : Nat) (hm : m &&& 0x10C0889E443#64 = 0#64)
     (h : Keeps m s0 x0) :
    Keeps m s0 (sendUp x0 i x c) := by
  unfold sendUp
  try dsimp only
  repeat' first
    | (with_reducible first
        | assumption | apply keeps_foldl | apply setSlot_keeps | apply ctrAdd_keeps
        | apply sendOne_keeps | refine keeps_of_snd (by assumption) ?_ | refine keeps_of_fst (by assumption) ?_)
    | exact maskSub hm (by decide) | dsimp only | split | intro _

theorem sendGroups_keeps (m : BitVec 64) (s0 : State) (x0 : Nat) (x1 : State) (x2 : Nat) (x3 : List (Prod Nat Pkt))
     (x4 : Nat) (x5 : Option (Prod Nat Nat)) (x6 : Option Nat) (hm : m &&& 0x10C0889E443#64 = 0#64) (h : Keeps m s0 x1) :
    Keeps m s0 (sendGroups x0 x1 x2 x3 x4 x5 x6) := by
  induction x0 generalizing x1 x2 x3 x4 x5 x6 with
  | zero =>
    unfold sendGroups
    try dsimp only
    repeat' first
      | (with_reducible first
          | assumption | apply sendAll_keeps | refine keeps_of_snd (by assumption) ?_
          | refine keeps_of_fst (by assumption) ?_)
      | (obtain rfl := Nat.succ.inj (by assumption); with_reducible apply ih) | exact maskSub hm (by decide) | dsimp only
      | split | intro _
  | succ k ih =>
    unfold sendGroups
    try dsimp only
    repeat' first
      | (with_reducible first
          | assumption | apply ih | apply sendAll_keeps | refine keeps_of_snd (by assumption) ?_
          | refine keeps_of_fst (by assumption) ?_)
      | (obtain rfl := Nat.succ.inj (by assumption); with_reducible apply ih) | exact maskSub hm (by decide) | dsimp only
      | split | intro _

theorem sendDown_keeps (m : BitVec 64) (s0 x0 : State) (i : Nat) (x : SlotSt) (cs : List Nat) (c : Nat)
     (hm : m &&& 0x30C09B9E447#64 = 0#64) (h : Keeps m s0 x0) :
    Keeps m s0 (sendDown x0 i x cs c) := by
  unfold sendDown
  try dsimp only
  repeat' first
    | (with_reducible first
        | assumption | apply keeps_ite | apply keeps_foldl | apply rankLost_keeps
        | apply ctrAdd_keeps | apply setSlot_keeps | apply sendGroups_keeps | refine keeps_of_snd (by assumption) ?_
        | refine keeps_of_fst (by assumption) ?_)
    | exact maskSub hm (by decide) | dsimp only | split | intro _

theorem sealWait_keeps (m : BitVec 64) (s0 x0 : State) (n : Nat) (hm : m &&& 0x10008200003#64 = 0#64) (h : Keeps m s0 x0) :
    Keeps m s0 (sealWait x0 n) := by
  unfold sealWait
  try dsimp only
  repeat' first
    | (with_reducible first
        | assumption | apply keeps_ite | apply setJob_keeps | apply raise_keeps
        | refine keeps_of_snd (by assumption) ?_ | refine keeps_of_fst (by assumption) ?_)
    | exact maskSub hm (by decide) | dsimp only | split | intro _

theorem stageSeal_keeps (m : BitVec 64) (s0 x0 : State) (x : SlotSt) (cs : List Nat) (lo : Nat) (bs : List Byte)
     (hm : m &&& 0x200000#64 = 0#64) (h : Keeps m s0 x0) :
    Keeps m s0 (stageSeal x0 x cs lo bs) := by
  unfold stageSeal
  try dsimp only
  repeat' first
    | (with_reducible first
        | assumption | apply keeps_ite | apply setJob_keeps
        | refine keeps_of_snd (by assumption) ?_ | refine keeps_of_fst (by assumption) ?_)
    | exact maskSub hm (by decide) | dsimp only | split | intro _

theorem drain_keeps (m : BitVec 64) (s0 x0 : State) (i : Nat) (hm : m &&& 0x1#64 = 0#64) (h : Keeps m s0 x0) :
    Keeps m s0 (drain x0 i) := by
  unfold drain
  repeat' first
    | (with_reducible first
        | assumption | apply keeps_ite | apply fset_keeps)
    | exact maskSub hm (by decide) | dsimp only | split | intro _

theorem sealNothing_keeps (m : BitVec 64) (s0 x0 : State) (x : SlotSt) (hm : m &&& 0x200000#64 = 0#64) (h : Keeps m s0 x0) :
    Keeps m s0 (sealNothing x0 x) := by
  unfold sealNothing
  repeat' first
    | (with_reducible first
        | assumption | apply keeps_ite | apply setJob_keeps)
    | exact maskSub hm (by decide) | split | intro _

theorem rootOk_keeps (m : BitVec 64) (s0 x0 : State) (i : Nat) (hm : m &&& 0x30C09B9E447#64 = 0#64) (h : Keeps m s0 x0) :
    Keeps m s0 (rootOk x0 i) := by
  unfold rootOk
  try dsimp only
  repeat' first
    | (with_reducible first
        | assumption | apply keeps_ite | apply rankLost_keeps | apply fset_keeps
        | apply setSlot_keeps | apply sendNotice_keeps | apply sealNothing_keeps | apply tryRelease_keeps
        | apply completeAt_keeps)
    | exact maskSub hm (by decide) | dsimp only | split | intro _

theorem rootChunk_keeps (m : BitVec 64) (s0 x0 : State) (i : Nat) (x : SlotSt) (c : Nat)
     (hm : m &&& 0x30C09B9E447#64 = 0#64) (h : Keeps m s0 x0) :
    Keeps m s0 (rootChunk x0 i x c) := by
  unfold rootChunk
  try dsimp only
  repeat' first
    | (with_reducible first
        | assumption | apply stageSeal_keeps | apply setSlot_keeps | apply sendDown_keeps
        | refine keeps_of_snd (by assumption) ?_ | refine keeps_of_fst (by assumption) ?_)
    | exact maskSub hm (by decide) | dsimp only | split

theorem moveChunk_keeps (m : BitVec 64) (s0 x0 : State) (i : Nat) (x : SlotSt) (c : Nat)
     (hm : m &&& 0x30C09B9E447#64 = 0#64) (h : Keeps m s0 x0) :
    Keeps m s0 (moveChunk x0 i x c) := by
  unfold moveChunk
  try dsimp only
  repeat' first
    | (with_reducible first
        | assumption | apply keeps_ite | apply sealWait_keeps | apply drain_keeps
        | apply sendUp_keeps | apply rootChunk_keeps)
    | exact maskSub hm (by decide) | dsimp only | split | intro _

theorem moveWaiting_keeps (m : BitVec 64) (s0 x0 : State) (i : Nat) (hm : m &&& 0x30C09B9E447#64 = 0#64) (h : Keeps m s0 x0) :
    Keeps m s0 (moveWaiting x0 i) := by
  unfold moveWaiting
  repeat' first
    | (with_reducible first
        | assumption | apply keeps_foldl | apply moveChunk_keeps
        | refine keeps_of_snd (by assumption) ?_ | refine keeps_of_fst (by assumption) ?_)
    | exact maskSub hm (by decide) | dsimp only | split | intro _

theorem afterAdd_keeps (m : BitVec 64) (s0 x0 : State) (i : Nat) (x : SlotSt) (c : Nat) (k : Chunk)
     (hm : m &&& 0x30C09B9E447#64 = 0#64) (h : Keeps m s0 x0) :
    Keeps m s0 (afterAdd x0 i x c k) := by
  unfold afterAdd
  try dsimp only
  repeat' first
    | (with_reducible first
        | assumption | apply keeps_ite | apply rootOk_keeps | apply moveWaiting_keeps
        | apply setSlot_keeps)
    | exact maskSub hm (by decide) | dsimp only | split | intro _

theorem retentionFreed_keeps (m : BitVec 64) (s0 x0 : State) (i c : Nat) (hm : m &&& 0x30C09B9E447#64 = 0#64)
     (h : Keeps m s0 x0) :
    Keeps m s0 (retentionFreed x0 i c) := by
  unfold retentionFreed
  repeat' first
    | (with_reducible first
        | assumption | apply keeps_ite | apply rootOk_keeps | apply moveChunk_keeps)
    | exact maskSub hm (by decide) | split | intro _

theorem failSlot_keeps (m : BitVec 64) (s0 x0 : State) (i code : Nat) (late : Bool) (hm : m &&& 0x30C09B9E447#64 = 0#64)
     (h : Keeps m s0 x0) :
    Keeps m s0 (failSlot x0 i code late) := by
  unfold failSlot
  repeat' first
    | (with_reducible first
        | assumption | apply keeps_ite | apply ctrAdd_keeps | apply abortSlot_keeps)
    | exact maskSub hm (by decide) | split | intro _

theorem countSpill_keeps (m : BitVec 64) (s0 x0 : State) (die : Nat) (k : Chunk) (st n : Nat) (hm : m &&& 0x2#64 = 0#64)
     (h : Keeps m s0 x0) :
    Keeps m s0 (countSpill x0 die k st n) := by
  unfold countSpill
  try dsimp only
  repeat' first
    | (with_reducible first
        | assumption | apply keeps_ite | apply ctrAdd_keeps)
    | exact maskSub hm (by decide) | dsimp only | split | intro _

theorem absorbContrib_keeps (m : BitVec 64) (s0 x0 : State) (i : Nat) (x : SlotSt) (k : Pkt)
     (hm : m &&& 0x30C09B9E447#64 = 0#64) (h : Keeps m s0 x0) :
    Keeps m s0 (absorbContrib x0 i x k) := by
  unfold absorbContrib
  try dsimp only
  repeat' first
    | (with_reducible first
        | assumption | apply keeps_ite | apply keeps_ite_fst | apply keeps_ite_snd
        | apply failSlot_keeps | apply ctrAdd_keeps | apply openChunk_keeps | apply afterAdd_keeps | apply countSpill_keeps
        | refine keeps_of_snd (by assumption) ?_ | refine keeps_of_fst (by assumption) ?_)
    | exact maskSub hm (by decide) | dsimp only | split | intro _

theorem absorbPartial_keeps (m : BitVec 64) (s0 x0 : State) (i : Nat) (x : SlotSt) (k : Pkt)
     (hm : m &&& 0x30C09B9E447#64 = 0#64) (h : Keeps m s0 x0) :
    Keeps m s0 (absorbPartial x0 i x k) := by
  unfold absorbPartial
  try dsimp only
  repeat' first
    | (with_reducible first
        | assumption | apply keeps_ite | apply keeps_ite_fst | apply keeps_ite_snd
        | apply failSlot_keeps | apply ctrAdd_keeps | apply abortSlot_keeps | apply openChunk_keeps | apply afterAdd_keeps
        | apply countSpill_keeps | refine keeps_of_snd (by assumption) ?_ | refine keeps_of_fst (by assumption) ?_)
    | exact maskSub hm (by decide) | dsimp only | split | intro _

theorem passDown_keeps (m : BitVec 64) (s0 x0 : State) (i : Nat) (hm : m &&& 0x30C09B9E447#64 = 0#64) (h : Keeps m s0 x0) :
    Keeps m s0 (passDown x0 i) := by
  unfold passDown
  try dsimp only
  repeat' first
    | (with_reducible first
        | assumption | apply keeps_ite | apply keeps_foldl | apply sendDown_keeps
        | refine keeps_of_snd (by assumption) ?_ | refine keeps_of_fst (by assumption) ?_)
    | exact maskSub hm (by decide) | dsimp only | split | intro _

theorem absorbResult_keeps (m : BitVec 64) (s0 x0 : State) (i : Nat) (x : SlotSt) (k : Pkt)
     (hm : m &&& 0x30C09B9E447#64 = 0#64) (h : Keeps m s0 x0) :
    Keeps m s0 (absorbResult x0 i x k) := by
  unfold absorbResult
  try dsimp only
  repeat' first
    | (with_reducible first
        | assumption | apply keeps_ite | apply failSlot_keeps | apply ctrAdd_keeps
        | apply rootOk_keeps | apply passDown_keeps | apply sendDown_keeps | apply setSlot_keeps
        | refine keeps_of_snd (by assumption) ?_ | refine keeps_of_fst (by assumption) ?_)
    | exact maskSub hm (by decide) | dsimp only | split | intro _

theorem releaseChunk_keeps (m : BitVec 64) (s0 x0 : State) (i c : Nat) (hm : m &&& 0x800002#64 = 0#64) (h : Keeps m s0 x0) :
    Keeps m s0 (releaseChunk x0 i c) := by
  unfold releaseChunk
  repeat' first
    | (with_reducible first
        | assumption | apply keeps_ite | apply ctrAdd_keeps | apply setSlot_keeps
        | refine keeps_of_snd (by assumption) ?_ | refine keeps_of_fst (by assumption) ?_)
    | exact maskSub hm (by decide) | dsimp only | split | intro _

theorem slotAcked_keeps (m : BitVec 64) (s0 x0 : State) (c : Nat) (u : Sent) (hm : m &&& 0xB00003#64 = 0#64)
     (h : Keeps m s0 x0) :
    Keeps m s0 (slotAcked x0 c u) := by
  unfold slotAcked
  try dsimp only
  repeat' first
    | (with_reducible first
        | assumption | apply keeps_ite | apply setSlot_keeps | apply releaseChunk_keeps
        | apply tryRelease_keeps | refine keeps_of_snd (by assumption) ?_ | refine keeps_of_fst (by assumption) ?_)
    | exact maskSub hm (by decide) | dsimp only | split | intro _

theorem sendMessage_keeps (m : BitVec 64) (s0 x0 : State) (i v : Nat) (hm : m &&& 0x10C0889E443#64 = 0#64)
     (h : Keeps m s0 x0) :
    Keeps m s0 (sendMessage x0 i v) := by
  unfold sendMessage
  try dsimp only
  repeat' first
    | (with_reducible first
        | assumption | apply keeps_ite | apply keeps_foldl | apply setSlot_keeps
        | apply sendOne_keeps)
    | exact maskSub hm (by decide) | dsimp only | split | intro _

theorem deliverMember_keeps (m : BitVec 64) (s0 x0 : State) (i x2 : Nat) (hm : m &&& 0x10C0889E443#64 = 0#64)
     (h : Keeps m s0 x0) :
    Keeps m s0 (deliverMember x0 i x2) := by
  unfold deliverMember
  try dsimp only
  repeat' first
    | (with_reducible first
        | assumption | apply keeps_ite | apply keeps_foldl | apply setSlot_keeps
        | apply sendOne_keeps)
    | exact maskSub hm (by decide) | dsimp only | split | intro _

theorem moveProgress_keeps (m : BitVec 64) (s0 x0 : State) (i : Nat) (hm : m &&& 0x30C09B9E447#64 = 0#64)
     (h : Keeps m s0 x0) :
    Keeps m s0 (moveProgress x0 i) := by
  unfold moveProgress
  try dsimp only
  repeat' first
    | (with_reducible first
        | assumption | apply keeps_ite | apply keeps_foldl | apply rankLost_keeps
        | apply sendMessage_keeps | apply deliverMember_keeps | apply fset_keeps | apply setSlot_keeps
        | apply sendNotice_keeps | apply tryRelease_keeps | apply completeAt_keeps)
    | exact maskSub hm (by decide) | dsimp only | split | intro _

theorem absorbMove_keeps (m : BitVec 64) (s0 x0 : State) (i : Nat) (x : SlotSt) (x3 : Nat) (k : Pkt)
     (hm : m &&& 0x30C09B9E447#64 = 0#64) (h : Keeps m s0 x0) :
    Keeps m s0 (absorbMove x0 i x x3 k) := by
  unfold absorbMove
  try dsimp only
  repeat' first
    | (with_reducible first
        | assumption | apply keeps_ite | apply failSlot_keeps | apply moveProgress_keeps
        | apply setSlot_keeps)
    | exact maskSub hm (by decide) | dsimp only | split | intro _

theorem absorbData_keeps (m : BitVec 64) (s0 x0 : State) (i : Nat) (x : SlotSt) (k : Pkt)
     (hm : m &&& 0x30C09B9E447#64 = 0#64) (h : Keeps m s0 x0) :
    Keeps m s0 (absorbData x0 i x k) := by
  unfold absorbData
  try dsimp only
  repeat' first
    | (with_reducible first
        | assumption | apply moveProgress_keeps | apply setSlot_keeps)
    | exact maskSub hm (by decide) | dsimp only | split | intro _

theorem sendCounts_keeps (m : BitVec 64) (s0 x0 : State) (i : Nat) (x : SlotSt) (v first : Nat) (cs : List Nat)
     (hm : m &&& 0x10C0889E443#64 = 0#64) (h : Keeps m s0 x0) :
    Keeps m s0 (sendCounts x0 i x v first cs) := by
  unfold sendCounts
  repeat' first
    | (with_reducible first
        | assumption | apply keeps_foldl | apply sendOne_keeps)
    | exact maskSub hm (by decide) | dsimp only | split | intro _

theorem countsStand_keeps (m : BitVec 64) (s0 x0 : State) (i : Nat) (x : SlotSt) (hm : m &&& 0x30C09B9E447#64 = 0#64)
     (h : Keeps m s0 x0) :
    Keeps m s0 (countsStand x0 i x) := by
  unfold countsStand
  try dsimp only
  repeat' first
    | (with_reducible first
        | assumption | apply keeps_ite | apply keeps_foldl | apply rankLost_keeps
        | apply setSlot_keeps | apply sendCounts_keeps | apply sendOne_keeps | refine keeps_of_snd (by assumption) ?_
        | refine keeps_of_fst (by assumption) ?_)
    | exact maskSub hm (by decide) | dsimp only | split | intro _

theorem passOk_keeps (m : BitVec 64) (s0 x0 : State) (i flags escapes : Nat) (hm : m &&& 0x30C09B9E447#64 = 0#64)
     (h : Keeps m s0 x0) :
    Keeps m s0 (passOk x0 i flags escapes) := by
  unfold passOk
  try dsimp only
  repeat' first
    | (with_reducible first
        | assumption | apply keeps_ite | apply rankLost_keeps | apply fset_keeps
        | apply setSlot_keeps | apply sendNotice_keeps | apply tryRelease_keeps | apply completeAt_keeps)
    | exact maskSub hm (by decide) | dsimp only | split | intro _

theorem afterCounts_keeps (m : BitVec 64) (s0 x0 : State) (i : Nat) (hm : m &&& 0x30C09B9E447#64 = 0#64) (h : Keeps m s0 x0) :
    Keeps m s0 (afterCounts x0 i) := by
  unfold afterCounts
  repeat' first
    | (with_reducible first
        | assumption | apply keeps_ite | apply passOk_keeps | apply rootOk_keeps
        | apply moveProgress_keeps)
    | exact maskSub hm (by decide) | split | intro _

theorem rootCounts_keeps (m : BitVec 64) (s0 x0 : State) (i : Nat) (x : SlotSt) (hm : m &&& 0x30C09B9E447#64 = 0#64)
     (h : Keeps m s0 x0) :
    Keeps m s0 (rootCounts x0 i x) := by
  unfold rootCounts
  repeat' first
    | (with_reducible first
        | assumption | apply keeps_ite | apply abortSlot_keeps | apply afterCounts_keeps
        | apply countsStand_keeps)
    | exact maskSub hm (by decide) | split | intro _

theorem absorbCount_keeps (m : BitVec 64) (s0 x0 : State) (i : Nat) (x : SlotSt) (k : Pkt) (member : Option Nat)
     (hm : m &&& 0x30C09B9E447#64 = 0#64) (h : Keeps m s0 x0) :
    Keeps m s0 (absorbCount x0 i x k member) := by
  unfold absorbCount
  try dsimp only
  repeat' first
    | (with_reducible first
        | assumption | apply keeps_ite | apply keeps_foldl | apply failSlot_keeps
        | apply setSlot_keeps | apply afterCounts_keeps | apply countsStand_keeps | apply sendCounts_keeps
        | apply rootCounts_keeps | refine keeps_of_snd (by assumption) ?_ | refine keeps_of_fst (by assumption) ?_)
    | exact maskSub hm (by decide) | dsimp only | split | intro _

theorem absorbNotice_keeps (m : BitVec 64) (s0 x0 : State) (i : Nat) (x : SlotSt) (k : Pkt) (commitFault : Bool)
     (hm : m &&& 0x30C09B9E447#64 = 0#64) (h : Keeps m s0 x0) :
    Keeps m s0 (absorbNotice x0 i x k commitFault) := by
  unfold absorbNotice
  try dsimp only
  repeat' first
    | (with_reducible first
        | assumption | apply keeps_ite | apply failSlot_keeps | apply abortSlot_keeps
        | apply setSlot_keeps | apply passOk_keeps)
    | exact maskSub hm (by decide) | dsimp only | split | intro _

theorem regionWrite_keeps (m : BitVec 64) (s0 x0 : State) (j : JobSt) (r : Region) (x3 : Nat) (x4 : List Byte)
     (hm : m &&& 0x18#64 = 0#64) (h : Keeps m s0 x0) :
    Keeps m s0 (regionWrite x0 j r x3 x4) := by
  unfold regionWrite
  repeat' first
    | (with_reducible first
        | assumption | apply keeps_foldl | apply memWrite_keeps
        | refine keeps_of_snd (by assumption) ?_ | refine keeps_of_fst (by assumption) ?_)
    | exact maskSub hm (by decide) | dsimp only | split | intro _

theorem showStage_keeps (m : BitVec 64) (s0 x0 : State) (n g : Nat) (r : StageRes) (hm : m &&& 0x1#64 = 0#64)
     (h : Keeps m s0 x0) :
    Keeps m s0 (showStage x0 n g r) := by
  unfold showStage
  try dsimp only
  repeat' first
    | (with_reducible first
        | assumption | apply wr_keeps | apply fieldSat_keeps)
    | exact maskSub hm (by decide) | dsimp only | split

theorem showSeals_keeps (m : BitVec 64) (s0 x0 : State) (n : Nat) (hm : m &&& 0x1#64 = 0#64) (h : Keeps m s0 x0) :
    Keeps m s0 (showSeals x0 n) := by
  unfold showSeals
  try dsimp only
  repeat' first
    | (with_reducible first
        | assumption | apply keeps_foldl | apply wr_keeps)
    | exact maskSub hm (by decide) | dsimp only | split | intro _

theorem trySeal_keeps (m : BitVec 64) (s0 x0 : State) (n st : Nat) (hm : m &&& 0x1000A200003#64 = 0#64) (h : Keeps m s0 x0) :
    Keeps m s0 (trySeal x0 n st) := by
  unfold trySeal
  try dsimp only
  repeat' first
    | (with_reducible first
        | assumption | apply keeps_ite | apply sealWait_keeps | apply showSeals_keeps
        | apply ctrAdd_keeps | apply setJob_keeps | refine keeps_of_snd (by assumption) ?_
        | refine keeps_of_fst (by assumption) ?_)
    | exact maskSub hm (by decide) | dsimp only | split
    | (intro q hq; cases q <;> first | exact absurd hq (maskOff hm (by decide)) | with_reducible rfl)
    | exact fun _ => ⟨List.prefix_rfl, id⟩ | exact fun _ => ⟨List.prefix_rfl, fun _ => rfl⟩
    | exact fun g => absurd g (maskOff hm (by decide)) | (fail_if_no_progress with_reducible apply keeps_frame) | intro _

theorem completeStep_keeps (m : BitVec 64) (s0 x0 : State) (n : Nat) (x : StepSt) (hm : m &&& 0x1000A200003#64 = 0#64)
     (h : Keeps m s0 x0) :
    Keeps m s0 (completeStep x0 n x) := by
  unfold completeStep
  try dsimp only
  repeat' first
    | (with_reducible first
        | assumption | apply keeps_ite | apply keeps_foldl | apply setJob_keeps
        | apply wr_keeps | apply trySeal_keeps | apply raiseJob_keeps | refine keeps_of_snd (by assumption) ?_
        | refine keeps_of_fst (by assumption) ?_)
    | exact maskSub hm (by decide) | dsimp only | split | intro _

theorem failStep_keeps (m : BitVec 64) (s0 x0 : State) (n st code : Nat) (hm : m &&& 0x30C0BB9E447#64 = 0#64)
     (h : Keeps m s0 x0) :
    Keeps m s0 (failStep x0 n st code) := by
  unfold failStep
  try dsimp only
  repeat' first
    | (with_reducible first
        | assumption | apply keeps_foldl | apply showStage_keeps | apply setJob_keeps
        | apply completeStep_keeps | apply abortSlot_keeps | refine keeps_of_snd (by assumption) ?_
        | refine keeps_of_fst (by assumption) ?_)
    | exact maskSub hm (by decide) | dsimp only | split | intro _

theorem finishStage_keeps (m : BitVec 64) (s0 x0 : State) (n st g : Nat) (r : StageRes) (out : List Byte)
     (hm : m &&& 0x30C0BB9E447#64 = 0#64) (h : Keeps m s0 x0) :
    Keeps m s0 (finishStage x0 n st g r out) := by
  unfold finishStage
  try dsimp only
  repeat' first
    | (with_reducible first
        | assumption | apply keeps_ite | apply keeps_foldl | apply showStage_keeps
        | apply setJob_keeps | apply failStep_keeps | apply completeStep_keeps | refine keeps_of_snd (by assumption) ?_
        | refine keeps_of_fst (by assumption) ?_)
    | exact maskSub hm (by decide) | dsimp only | split | intro _

theorem pumpMember_keeps (m : BitVec 64) (s0 x0 : State) (n k : Nat) (hm : m &&& 0x10C08A9E443#64 = 0#64)
     (h : Keeps m s0 x0) :
    Keeps m s0 (pumpMember x0 n k) := by
  unfold pumpMember
  try dsimp only
  repeat' first
    | (with_reducible first
        | assumption | apply keeps_ite | apply keeps_foldl | apply sendOne_keeps
        | apply setJob_keeps)
    | exact maskSub hm (by decide) | dsimp only | split | intro _

theorem pumpMembers_keeps (m : BitVec 64) (s0 x0 : State) (n : Nat) (hm : m &&& 0x10C08A9E443#64 = 0#64) (h : Keeps m s0 x0) :
    Keeps m s0 (pumpMembers x0 n) := by
  unfold pumpMembers
  repeat' first
    | (with_reducible first
        | assumption | apply keeps_foldl | apply pumpMember_keeps)
    | exact maskSub hm (by decide) | dsimp only | split | intro _

theorem enterMember_keeps (m : BitVec 64) (s0 x0 : State) (n k g : Nat) (input : List Byte)
     (hm : m &&& 0x10C08A9E443#64 = 0#64) (h : Keeps m s0 x0) :
    Keeps m s0 (enterMember x0 n k g input) := by
  unfold enterMember
  try dsimp only
  repeat' first
    | (with_reducible first
        | assumption | apply keeps_ite | apply pumpMember_keeps | apply setJob_keeps)
    | exact maskSub hm (by decide) | dsimp only | split | intro _

theorem putMember_keeps (m : BitVec 64) (s0 x0 : State) (n : Nat) (x2 : MemberSt) (hm : m &&& 0x10C08A9E443#64 = 0#64)
     (h : Keeps m s0 x0) :
    Keeps m s0 (putMember x0 n x2) := by
  unfold putMember
  repeat' first
    | (with_reducible first
        | assumption | apply pumpMember_keeps | apply setJob_keeps)
    | exact maskSub hm (by decide) | dsimp only | split | intro _

theorem memberRx_keeps (m : BitVec 64) (s0 x0 : State) (n : Nat) (x2 : Pkt) (err : Option Nat)
     (hm : m &&& 0x10C09A9E447#64 = 0#64) (h : Keeps m s0 x0) :
    Keeps m s0 (memberRx x0 n x2 err) := by
  unfold memberRx
  try dsimp only
  repeat' first
    | (with_reducible first
        | assumption | apply keeps_ite | apply putMember_keeps | apply advanceCounter_keeps
        | apply ctrAdd_keeps | refine keeps_of_snd (by assumption) ?_ | refine keeps_of_fst (by assumption) ?_)
    | exact maskSub hm (by decide) | dsimp only | split | intro _

theorem startStep_keeps (m : BitVec 64) (s0 x0 : State) (n st g : Nat) (res : StageRes) (cs : List Nat)
     (hm : m &&& 0x30C0BB9E447#64 = 0#64) (h : Keeps m s0 x0) :
    Keeps m s0 (startStep x0 n st g res cs) := by
  unfold startStep
  try dsimp only
  repeat' first
    | (with_reducible first
        | assumption | apply keeps_ite | apply setJob_keeps | apply wr_keeps
        | apply finishStage_keeps)
    | exact maskSub hm (by decide) | dsimp only | split | intro _

theorem commitWrites_keeps (m : BitVec 64) (s0 x0 : State) (j : JobSt) (x : StepSt) (fault : Bool)
     (hm : m &&& 0x20000000018#64 = 0#64) (h : Keeps m s0 x0) :
    Keeps m s0 (commitWrites x0 j x fault) := by
  unfold commitWrites
  try dsimp only
  repeat' first
    | (with_reducible first
        | assumption | apply keeps_ite | apply keeps_foldl | apply keeps_foldl_fst
        | apply keeps_foldl_snd | apply keeps_ite_fst | apply keeps_ite_snd | apply draw_keeps | apply regionWrite_keeps
        | refine keeps_of_snd (by assumption) ?_ | refine keeps_of_fst (by assumption) ?_)
    | exact maskSub hm (by decide) | dsimp only | split | intro _

theorem failLater_keeps (m : BitVec 64) (s0 x0 : State) (n st : Nat) (hm : m &&& 0x30C0BB9E447#64 = 0#64)
     (h : Keeps m s0 x0) :
    Keeps m s0 (failLater x0 n st) := by
  unfold failLater
  repeat' first
    | (with_reducible first
        | assumption | apply keeps_foldl | apply finishStage_keeps
        | refine keeps_of_snd (by assumption) ?_ | refine keeps_of_fst (by assumption) ?_)
    | exact maskSub hm (by decide) | dsimp only | split | intro _

theorem endBarrier_keeps (m : BitVec 64) (s0 x0 : State) (n st g : Nat) (t : Stage) (res : StageRes) (fault : Bool)
     (hm : m &&& 0x30C0BB9E45F#64 = 0#64) (h : Keeps m s0 x0) :
    Keeps m s0 (endBarrier x0 n st g t res fault) := by
  unfold endBarrier
  try dsimp only
  repeat' first
    | (with_reducible first
        | assumption | apply keeps_ite | apply commitWrites_keeps | apply setJob_keeps
        | apply failLater_keeps | apply finishStage_keeps)
    | exact maskSub hm (by decide) | dsimp only | split | intro _

theorem takeUnstaged_keeps (m : BitVec 64) (s0 x0 : State) (n : Nat) (j : JobSt) (k code : Nat)
     (hm : m &&& 0x1000A200003#64 = 0#64) (h : Keeps m s0 x0) :
    Keeps m s0 (takeUnstaged x0 n j k code) := by
  unfold takeUnstaged
  try dsimp only
  repeat' first
    | (with_reducible first
        | assumption | apply keeps_ite | apply setJob_keeps | apply trySeal_keeps)
    | exact maskSub hm (by decide) | dsimp only | split | intro _

theorem takeEnded_keeps (m : BitVec 64) (s0 x0 : State) (n : Nat) (e : Prod Nat (Prod StageRes (List Nat)))
     (commitFault : Bool) (hm : m &&& 0x30C0BB9E45F#64 = 0#64) (h : Keeps m s0 x0) :
    Keeps m s0 (takeEnded x0 n e commitFault) := by
  unfold takeEnded
  try dsimp only
  repeat' first
    | (with_reducible first
        | assumption | apply keeps_ite | apply keeps_ite_fst | apply keeps_ite_snd
        | apply takeUnstaged_keeps | apply startStep_keeps | apply finishStage_keeps | apply endBarrier_keeps
        | refine keeps_of_snd (by assumption) ?_ | refine keeps_of_fst (by assumption) ?_)
    | exact maskSub hm (by decide) | dsimp only | split | intro _

theorem takeMembers_keeps (m : BitVec 64) (s0 x0 : State) (n : Nat) (commitFault : Bool)
     (hm : m &&& 0x30C0BB9E45F#64 = 0#64) (h : Keeps m s0 x0) :
    Keeps m s0 (takeMembers x0 n commitFault) := by
  unfold takeMembers
  try dsimp only
  repeat' first
    | (with_reducible first
        | assumption | apply keeps_ite | apply keeps_foldl | apply endBarrier_keeps
        | apply finishStage_keeps | refine keeps_of_snd (by assumption) ?_ | refine keeps_of_fst (by assumption) ?_)
    | exact maskSub hm (by decide) | dsimp only | split | intro _

theorem settleFuel_keeps (m : BitVec 64) (s0 : State) (x0 : Nat) (x1 : State) (x2 : Nat) (x3 : Bool)
     (hm : m &&& 0x30C0BB9E45F#64 = 0#64) (h : Keeps m s0 x1) :
    Keeps m s0 (settleFuel x0 x1 x2 x3) := by
  induction x0 generalizing x1 x2 x3 with
  | zero =>
    unfold settleFuel
    try dsimp only
    repeat' first
      | (with_reducible first
          | assumption | apply setJob_keeps | apply pumpMembers_keeps
          | apply takeEnded_keeps | apply takeMembers_keeps)
      | exact maskSub hm (by decide) | split
  | succ k ih =>
    unfold settleFuel
    try dsimp only
    repeat' first
      | (with_reducible first
          | assumption | apply ih | apply setJob_keeps | apply pumpMembers_keeps
          | apply takeEnded_keeps | apply takeMembers_keeps)
      | exact maskSub hm (by decide) | split

theorem settleCommit_keeps (m : BitVec 64) (s0 x0 : State) (n : Nat) (fault : Bool) (hm : m &&& 0x30C0BB9E45F#64 = 0#64)
     (h : Keeps m s0 x0) :
    Keeps m s0 (settleCommit x0 n fault) := by
  unfold settleCommit
  repeat' first
    | (with_reducible first
        | assumption | apply settleFuel_keeps)
    | exact maskSub hm (by decide) | split

theorem settle_keeps (m : BitVec 64) (s0 x0 : State) (n : Nat) (hm : m &&& 0x30C0BB9E45F#64 = 0#64) (h : Keeps m s0 x0) :
    Keeps m s0 (settle x0 n) := by
  unfold settle
  repeat' first
    | (with_reducible first
        | assumption | apply settleCommit_keeps)
    | exact maskSub hm (by decide) | split

theorem unplanned_keeps (m : BitVec 64) (s0 x0 : State) (n : Nat) (k : Pkt) (hm : m &&& 0x280000#64 = 0#64)
     (h : Keeps m s0 x0) :
    Keeps m s0 (unplanned x0 n k).1 := by
  unfold unplanned
  repeat' first
    | (with_reducible first
        | assumption | apply setStream_keeps | apply setJob_keeps
        | refine keeps_of_snd (by assumption) ?_ | refine keeps_of_fst (by assumption) ?_)
    | exact maskSub hm (by decide) | dsimp only | split | intro _

theorem setMsg_keeps (m : BitVec 64) (s0 x0 : State) (e : MsgSt) (hm : m &&& 0x100000#64 = 0#64) (h : Keeps m s0 x0) :
    Keeps m s0 (setMsg x0 e) := by
  unfold setMsg
  repeat' first
    | (with_reducible first
        | assumption)
    | exact maskSub hm (by decide) | dsimp only | split
    | (intro q hq; cases q <;> first | exact absurd hq (maskOff hm (by decide)) | with_reducible rfl)
    | exact fun _ => ⟨List.prefix_rfl, id⟩ | exact fun _ => ⟨List.prefix_rfl, fun _ => rfl⟩
    | exact fun g => absurd g (maskOff hm (by decide)) | (fail_if_no_progress with_reducible apply keeps_frame) | intro _

theorem dropMsg_keeps (m : BitVec 64) (s0 x0 : State) (c x2 : Nat) (hm : m &&& 0x100000#64 = 0#64) (h : Keeps m s0 x0) :
    Keeps m s0 (dropMsg x0 c x2) := by
  unfold dropMsg
  repeat' first
    | (with_reducible first
        | assumption)
    | exact maskSub hm (by decide) | dsimp only | split
    | (intro q hq; cases q <;> first | exact absurd hq (maskOff hm (by decide)) | with_reducible rfl)
    | exact fun _ => ⟨List.prefix_rfl, id⟩ | exact fun _ => ⟨List.prefix_rfl, fun _ => rfl⟩
    | exact fun g => absurd g (maskOff hm (by decide)) | (fail_if_no_progress with_reducible apply keeps_frame) | intro _

theorem countAt'_keeps (m : BitVec 64) (s0 x0 : State) (c : Nat) (k : Pkt) (off : Nat) (hm : m &&& 0x10009300007#64 = 0#64)
     (h : Keeps m s0 x0) :
    Keeps m s0 (countAt' x0 c k off).1 := by
  unfold countAt'
  repeat' first
    | (with_reducible first
        | assumption | apply advanceCounter_keeps | apply dropMsg_keeps | apply setMsg_keeps
        | refine keeps_of_snd (by assumption) ?_ | refine keeps_of_fst (by assumption) ?_)
    | exact maskSub hm (by decide) | dsimp only | split

theorem countMsg_keeps (m : BitVec 64) (s0 x0 : State) (c : Nat) (k : Pkt) (hm : m &&& 0x10009300007#64 = 0#64)
     (h : Keeps m s0 x0) :
    Keeps m s0 (countMsg x0 c k).1 := by
  unfold countMsg
  repeat' first
    | (with_reducible first
        | assumption | apply countAt'_keeps | refine keeps_of_snd (by assumption) ?_
        | refine keeps_of_fst (by assumption) ?_)
    | exact maskSub hm (by decide) | dsimp only | split

theorem takeResult_keeps (m : BitVec 64) (s0 x0 : State) (i : Nat) (x : SlotSt) (k : Pkt)
     (hm : m &&& 0x30C09B9E447#64 = 0#64) (h : Keeps m s0 x0) :
    Keeps m s0 (takeResult x0 i x k) := by
  unfold takeResult
  try dsimp only
  repeat' first
    | (with_reducible first
        | assumption | apply keeps_ite | apply keeps_ite_fst | apply keeps_ite_snd
        | apply failSlot_keeps | apply ctrAdd_keeps | apply absorbResult_keeps | apply countAt'_keeps
        | refine keeps_of_snd (by assumption) ?_ | refine keeps_of_fst (by assumption) ?_)
    | exact maskSub hm (by decide) | dsimp only | split | intro _

theorem absorbPkt_keeps (m : BitVec 64) (s0 x0 : State) (i die : Nat) (k : Pkt) (err : Option Nat)
     (hm : m &&& 0x30C09B9E447#64 = 0#64) (h : Keeps m s0 x0) :
    Keeps m s0 (absorbPkt x0 i die k err) := by
  unfold absorbPkt
  try dsimp only
  repeat' first
    | (with_reducible first
        | assumption | apply keeps_ite | apply ctrAdd_keeps | apply failSlot_keeps
        | apply restartLiveness_keeps | apply absorbContrib_keeps | apply absorbMove_keeps | apply absorbPartial_keeps
        | apply absorbCount_keeps | apply absorbData_keeps | apply absorbNotice_keeps | apply takeResult_keeps)
    | exact maskSub hm (by decide) | dsimp only | split | intro _

theorem holdPacket_keeps (m : BitVec 64) (s0 x0 : State) (n i : Nat) (j : JobSt) (port : Option Nat) (k : Pkt)
     (err : Option Nat) (hm : m &&& 0x1200002#64 = 0#64) (h : Keeps m s0 x0) :
    Keeps m s0 (holdPacket x0 n i j port k err) := by
  unfold holdPacket
  try dsimp only
  repeat' first
    | (with_reducible first
        | assumption | apply ctrAdd_keeps | apply autoPost_keeps)
    | exact maskSub hm (by decide) | dsimp only | split
    | (intro q hq; cases q <;> first | exact absurd hq (maskOff hm (by decide)) | with_reducible rfl)
    | exact fun _ => ⟨List.prefix_rfl, id⟩ | exact fun _ => ⟨List.prefix_rfl, fun _ => rfl⟩
    | exact fun g => absurd g (maskOff hm (by decide)) | (fail_if_no_progress with_reducible apply keeps_frame) | intro _

theorem byGeneration_keeps (m : BitVec 64) (s0 x0 : State) (n i arrival : Nat) (j : JobSt) (port : Option Nat) (k : Pkt)
     (err : Option Nat) (hm : m &&& 0x30C09B9E447#64 = 0#64) (h : Keeps m s0 x0) :
    Keeps m s0 (byGeneration x0 n i arrival j port k err) := by
  unfold byGeneration
  try dsimp only
  repeat' first
    | (with_reducible first
        | assumption | apply keeps_ite | apply ctrAdd_keeps | apply cross_keeps
        | apply atRest_keeps | apply holdPacket_keeps | apply abortSlot_keeps | apply absorbPkt_keeps
        | apply restartLiveness_keeps)
    | exact maskSub hm (by decide) | dsimp only | split | intro _

theorem ownResult_keeps (m : BitVec 64) (s0 x0 : State) (n c i : Nat) (k : Pkt) (hm : m &&& 0x30C09B9E447#64 = 0#64)
     (h : Keeps m s0 x0) :
    Keeps m s0 (ownResult x0 n c i k) := by
  unfold ownResult
  try dsimp only
  repeat' first
    | (with_reducible first
        | assumption | apply keeps_ite | apply keeps_ite_fst | apply keeps_ite_snd
        | apply memberRx_keeps | apply countMsg_keeps | apply abortSlot_keeps | refine keeps_of_snd (by assumption) ?_
        | refine keeps_of_fst (by assumption) ?_)
    | exact maskSub hm (by decide) | dsimp only | split | intro _

theorem collectiveRx_keeps (m : BitVec 64) (s0 x0 : State) (x1 : Nat) (ty : BitVec 6) (fault : Bool)
     (hm : m &&& 0x30C0BB9E45F#64 = 0#64) (h : Keeps m s0 x0) :
    Keeps m s0 (collectiveRx x0 x1 ty fault) := by
  unfold collectiveRx
  try dsimp only
  repeat' first
    | (with_reducible first
        | assumption | apply keeps_ite | apply keeps_ite_fst | apply keeps_ite_snd
        | apply takeDelivery_keeps | apply ctrAdd_keeps | apply unplanned_keeps | apply streamAccept_keeps
        | apply settleCommit_keeps | apply ownResult_keeps | apply byGeneration_keeps | apply againOf_getD_keeps
        | refine againOf_keeps _ _ _ _ _ _ (maskSub hm (by decide)) (by assumption) ?_
        | refine keeps_of_snd (by assumption) ?_ | refine keeps_of_fst (by assumption) ?_)
    | exact maskSub hm (by decide) | dsimp only | split | intro _

theorem execContribRx_keeps (m : BitVec 64) (s0 : State) (handle : Nat) (x1 : State) (hm : m &&& 0x30C0BB9E45F#64 = 0#64)
     (h : Keeps m s0 x1) :
    KeepsOut m s0 (execContribRx handle x1) := by
  unfold execContribRx
  repeat' first
    | (with_reducible first
        | assumption | apply keepsOut_next | apply collectiveRx_keeps)
    | exact maskSub hm (by decide) | split

theorem execPartialRx_keeps (m : BitVec 64) (s0 : State) (handle : Nat) (x1 : State) (hm : m &&& 0x30C0BB9E45F#64 = 0#64)
     (h : Keeps m s0 x1) :
    KeepsOut m s0 (execPartialRx handle x1) := by
  unfold execPartialRx
  repeat' first
    | (with_reducible first
        | assumption | apply keepsOut_next | apply collectiveRx_keeps)
    | exact maskSub hm (by decide) | split

theorem execCountRx_keeps (m : BitVec 64) (s0 : State) (handle : Nat) (x1 : State) (hm : m &&& 0x30C0BB9E45F#64 = 0#64)
     (h : Keeps m s0 x1) :
    KeepsOut m s0 (execCountRx handle x1) := by
  unfold execCountRx
  repeat' first
    | (with_reducible first
        | assumption | apply keepsOut_next | apply collectiveRx_keeps)
    | exact maskSub hm (by decide) | split

theorem execResultRx_keeps (m : BitVec 64) (s0 : State) (handle : Nat) (x1 : State) (hm : m &&& 0x30C0BB9E45F#64 = 0#64)
     (h : Keeps m s0 x1) :
    KeepsOut m s0 (execResultRx handle x1) := by
  unfold execResultRx
  repeat' first
    | (with_reducible first
        | assumption | apply keepsOut_next | apply keepsOut_ite | apply keeps_ite
        | apply collectiveRx_keeps)
    | exact maskSub hm (by decide) | split | intro _

theorem execStatusNoticeRx_keeps (m : BitVec 64) (s0 : State) (handle : Nat) (commitFault : Bool) (x2 : State)
     (hm : m &&& 0x30C0BB9E45F#64 = 0#64) (h : Keeps m s0 x2) :
    KeepsOut m s0 (execStatusNoticeRx handle commitFault x2) := by
  unfold execStatusNoticeRx
  repeat' first
    | (with_reducible first
        | assumption | apply keepsOut_next | apply keepsOut_ite | apply keeps_ite
        | apply collectiveRx_keeps)
    | exact maskSub hm (by decide) | split | intro _

theorem endAtOnce_keeps (m : BitVec 64) (s0 x0 : State) (i : Nat) (x : SlotSt) (code : Nat)
     (hm : m &&& 0x10009B00007#64 = 0#64) (h : Keeps m s0 x0) :
    Keeps m s0 (endAtOnce x0 i x code) := by
  unfold endAtOnce
  try dsimp only
  repeat' first
    | (with_reducible first
        | assumption | apply keeps_ite | apply ctrAdd_keeps | apply releaseSlot_keeps
        | apply completeAt_keeps | apply setSlot_keeps)
    | exact maskSub hm (by decide) | dsimp only | split | intro _

theorem unhold_keeps (m : BitVec 64) (s0 x0 : State) (i : Nat) (hm : m &&& 0x1000000#64 = 0#64) (h : Keeps m s0 x0) :
    Keeps m s0 (unhold x0 i).2 := by
  unfold unhold
  try dsimp only
  repeat' first
    | (with_reducible first
        | assumption | refine keeps_of_snd (by assumption) ?_
        | refine keeps_of_fst (by assumption) ?_)
    | exact maskSub hm (by decide) | dsimp only | split
    | (intro q hq; cases q <;> first | exact absurd hq (maskOff hm (by decide)) | with_reducible rfl)
    | exact fun _ => ⟨List.prefix_rfl, id⟩ | exact fun _ => ⟨List.prefix_rfl, fun _ => rfl⟩
    | exact fun g => absurd g (maskOff hm (by decide)) | (fail_if_no_progress with_reducible apply keeps_frame) | intro _

theorem takeHeld_keeps (m : BitVec 64) (s0 x0 : State) (i : Nat) (hm : m &&& 0x30C09B9E447#64 = 0#64) (h : Keeps m s0 x0) :
    Keeps m s0 (takeHeld x0 i) := by
  unfold takeHeld
  try dsimp only
  repeat' first
    | (with_reducible first
        | assumption | apply keeps_foldl | apply keeps_foldl_fst | apply keeps_foldl_snd
        | apply unhold_keeps | apply absorbPkt_keeps | refine keeps_of_snd (by assumption) ?_
        | refine keeps_of_fst (by assumption) ?_)
    | exact maskSub hm (by decide) | dsimp only | split | intro _

theorem discardHeld_keeps (m : BitVec 64) (s0 x0 : State) (i : Nat) (x : SlotSt) (hm : m &&& 0x1000002#64 = 0#64)
     (h : Keeps m s0 x0) :
    Keeps m s0 (discardHeld x0 i x) := by
  unfold discardHeld
  try dsimp only
  repeat' first
    | (with_reducible first
        | assumption | apply keeps_ite | apply keeps_foldl | apply keeps_foldl_fst
        | apply keeps_foldl_snd | apply keeps_ite_fst | apply keeps_ite_snd | apply unhold_keeps | apply ctrAdd_keeps
        | refine keeps_of_snd (by assumption) ?_ | refine keeps_of_fst (by assumption) ?_)
    | exact maskSub hm (by decide) | dsimp only | split | intro _

theorem takeSlot_keeps (m : BitVec 64) (s0 x0 : State) (i n k : Nat) (j : JobSt) (hm : m &&& 0x30C09B9E447#64 = 0#64)
     (h : Keeps m s0 x0) :
    Keeps m s0 (takeSlot x0 i n k j) := by
  unfold takeSlot
  try dsimp only
  repeat' first
    | (with_reducible first
        | assumption | apply keeps_ite | apply keeps_ite_fst | apply keeps_ite_snd
        | apply setJob_keeps | apply draw_keeps | apply ctrAdd_keeps | apply wr_keeps | apply fset_keeps
        | apply setSlot_keeps | apply report_keeps | apply endAtOnce_keeps | apply discardHeld_keeps
        | apply abortSlot_keeps | apply takeHeld_keeps | apply enterMember_keeps | apply rootOk_keeps
        | apply moveProgress_keeps | refine keeps_of_snd (by assumption) ?_ | refine keeps_of_fst (by assumption) ?_)
    | exact maskSub hm (by decide) | dsimp only | split | intro _

theorem execSlotTake_keeps (m : BitVec 64) (s0 : State) (slot : Nat) (x1 : State) (hm : m &&& 0x30C0BB9E45F#64 = 0#64)
     (h : Keeps m s0 x1) :
    KeepsOut m s0 (execSlotTake slot x1) := by
  unfold execSlotTake
  try dsimp only
  repeat' first
    | (with_reducible first
        | assumption | apply keepsOut_next | apply keepsOut_ite | apply keeps_ite
        | apply settle_keeps | apply takeSlot_keeps)
    | exact maskSub hm (by decide) | dsimp only | split | intro _

theorem execRetentionFreed_keeps (m : BitVec 64) (s0 : State) (slot chunk : Nat) (x2 : State)
     (hm : m &&& 0x30C0BB9E45F#64 = 0#64) (h : Keeps m s0 x2) :
    KeepsOut m s0 (execRetentionFreed slot chunk x2) := by
  unfold execRetentionFreed
  repeat' first
    | (with_reducible first
        | assumption | apply keepsOut_next | apply settle_keeps | apply retentionFreed_keeps)
    | exact maskSub hm (by decide) | split

theorem execSettlingEnd_keeps (m : BitVec 64) (s0 : State) (slot : Nat) (x1 : State) (hm : m &&& 0x30C0BB9E45F#64 = 0#64)
     (h : Keeps m s0 x1) :
    KeepsOut m s0 (execSettlingEnd slot x1) := by
  unfold execSettlingEnd
  try dsimp only
  repeat' first
    | (with_reducible first
        | assumption | apply keepsOut_next | apply keepsOut_ite | apply keeps_ite
        | apply settle_keeps | apply releaseSlot_keeps | apply forgetRetained_keeps | apply forgetWaiting_keeps
        | apply abortSlot_keeps)
    | exact maskSub hm (by decide) | dsimp only | split | intro _

theorem execAckRx_keeps (m : BitVec 64) (s0 : State) (handle : Nat) (x1 : State) (hm : m &&& 0x30C0BB9E45F#64 = 0#64)
     (h : Keeps m s0 x1) :
    KeepsOut m s0 (execAckRx handle x1) := by
  unfold execAckRx
  try dsimp only
  repeat' first
    | (with_reducible first
        | assumption | apply keepsOut_next | apply keepsOut_ite | apply keeps_ite
        | apply keeps_foldl | apply keeps_foldl_fst | apply keeps_foldl_snd | apply keeps_ite_fst | apply keeps_ite_snd
        | apply takeDelivery_keeps | apply takeAck_keeps | apply settle_keeps | apply slotAcked_keeps
        | refine keeps_of_snd (by assumption) ?_ | refine keeps_of_fst (by assumption) ?_)
    | exact maskSub hm (by decide) | dsimp only | split | intro _

theorem recvDone_keeps (m : BitVec 64) (s0 x0 : State) (n g : Nat) (j : JobSt) (t : Stage) (k : Pkt) (bs : List Byte)
     (hm : m &&& 0x200001#64 = 0#64) (h : Keeps m s0 x0) :
    Keeps m s0 (recvDone x0 n g j t k bs) := by
  unfold recvDone
  try dsimp only
  repeat' first
    | (with_reducible first
        | assumption | apply keeps_ite | apply setJob_keeps | apply fieldSat_keeps)
    | exact maskSub hm (by decide) | dsimp only | split | intro _

theorem recvRx_keeps (m : BitVec 64) (s0 x0 : State) (n c : Nat) (k : Pkt) (g : Nat) (t : Stage)
     (hm : m &&& 0x30C0BB9E447#64 = 0#64) (h : Keeps m s0 x0) :
    Keeps m s0 (recvRx x0 n c k g t) := by
  unfold recvRx
  try dsimp only
  repeat' first
    | (with_reducible first
        | assumption | apply countMsg_keeps | apply finishStage_keeps | apply recvDone_keeps
        | refine keeps_of_snd (by assumption) ?_ | refine keeps_of_fst (by assumption) ?_)
    | exact maskSub hm (by decide) | dsimp only | split | intro _

theorem moveRx_keeps (m : BitVec 64) (s0 x0 : State) (n c i arrival : Nat) (j : JobSt) (port : Option Nat) (k : Pkt)
     (hm : m &&& 0x30C09B9E447#64 = 0#64) (h : Keeps m s0 x0) :
    Keeps m s0 (moveRx x0 n c i arrival j port k) := by
  unfold moveRx
  try dsimp only
  repeat' first
    | (with_reducible first
        | assumption | apply keeps_ite | apply keeps_ite_fst | apply keeps_ite_snd
        | apply byGeneration_keeps | apply countMsg_keeps | refine keeps_of_snd (by assumption) ?_
        | refine keeps_of_fst (by assumption) ?_)
    | exact maskSub hm (by decide) | dsimp only | split | intro _

theorem execDataRx_keeps (m : BitVec 64) (s0 : State) (handle : Nat) (x1 : State) (hm : m &&& 0x30C0BB9E45F#64 = 0#64)
     (h : Keeps m s0 x1) :
    KeepsOut m s0 (execDataRx handle x1) := by
  unfold execDataRx
  try dsimp only
  repeat' first
    | (with_reducible first
        | assumption | apply keepsOut_next | apply keepsOut_ite | apply keeps_ite
        | apply keeps_ite_fst | apply keeps_ite_snd | apply takeDelivery_keeps | apply ctrAdd_keeps
        | apply streamAccept_keeps | apply settle_keeps | apply recvRx_keeps | apply moveRx_keeps
        | apply againOf_getD_keeps | refine againOf_keeps _ _ _ _ _ _ (maskSub hm (by decide)) (by assumption) ?_
        | refine keeps_of_snd (by assumption) ?_ | refine keeps_of_fst (by assumption) ?_)
    | exact maskSub hm (by decide) | dsimp only | split | intro _

theorem execChunkDigest_keeps (m : BitVec 64) (s0 : State) (sub point chunk : Nat) (x3 : State)
     (hm : m &&& 0x1000A200003#64 = 0#64) (h : Keeps m s0 x3) :
    KeepsOut m s0 (execChunkDigest sub point chunk x3) := by
  unfold execChunkDigest
  try dsimp only
  repeat' first
    | (with_reducible first
        | assumption | apply keepsOut_next | apply keepsOut_ite | apply keeps_ite
        | apply keeps_ite_fst | apply keeps_ite_snd | apply trySeal_keeps | apply setJob_keeps
        | refine keeps_of_snd (by assumption) ?_ | refine keeps_of_fst (by assumption) ?_)
    | exact maskSub hm (by decide) | dsimp only | split | intro _

theorem holdRicks_keeps (m : BitVec 64) (s0 x0 : State) (j : JobSt) (t : Stage) (rs : List (Prod Rick Nat))
     (hm : m &&& 0x18#64 = 0#64) (h : Keeps m s0 x0) :
    Keeps m s0 (holdRicks x0 j t rs) := by
  unfold holdRicks
  repeat' first
    | (with_reducible first
        | assumption | apply regionWrite_keeps | refine keeps_of_snd (by assumption) ?_
        | refine keeps_of_fst (by assumption) ?_)
    | exact maskSub hm (by decide) | dsimp only | split | intro _

theorem countPress_keeps (m : BitVec 64) (s0 x0 : State) (j : JobSt) (on t : Stage) (in0 : List Byte)
     (hm : m &&& 0x2#64 = 0#64) (h : Keeps m s0 x0) :
    Keeps m s0 (countPress x0 j on t in0) := by
  unfold countPress
  try dsimp only
  repeat' first
    | (with_reducible first
        | assumption | apply keeps_ite | apply keeps_foldl | apply ctrAdd_keeps
        | refine keeps_of_snd (by assumption) ?_ | refine keeps_of_fst (by assumption) ?_)
    | exact maskSub hm (by decide) | dsimp only | split | intro _

theorem runSend_keeps (m : BitVec 64) (s0 x0 : State) (n : Nat) (j : JobSt) (x : StepSt) (g : Nat) (t : Stage)
     (bs : List Byte) (hm : m &&& 0x10C08A9E443#64 = 0#64) (h : Keeps m s0 x0) :
    Keeps m s0 (runSend x0 n j x g t bs) := by
  unfold runSend
  try dsimp only
  repeat' first
    | (with_reducible first
        | assumption | apply keeps_ite | apply keeps_foldl | apply sendOne_keeps
        | apply setJob_keeps)
    | exact maskSub hm (by decide) | dsimp only | split | intro _

theorem writeOut_keeps (m : BitVec 64) (s0 x0 : State) (n st : Nat) (t : Stage) (out : List Byte)
     (hm : m &&& 0x200018#64 = 0#64) (h : Keeps m s0 x0) :
    Keeps m s0 (writeOut x0 n st t out) := by
  unfold writeOut
  try dsimp only
  repeat' first
    | (with_reducible first
        | assumption | apply keeps_ite | apply keeps_foldl | apply setJob_keeps
        | apply regionWrite_keeps | refine keeps_of_snd (by assumption) ?_ | refine keeps_of_fst (by assumption) ?_)
    | exact maskSub hm (by decide) | dsimp only | split | intro _

theorem endPlain_keeps (m : BitVec 64) (s0 x0 : State) (n st g : Nat) (t : Stage) (r : StageOut)
     (hm : m &&& 0x30C0BB9E45F#64 = 0#64) (h : Keeps m s0 x0) :
    Keeps m s0 (endPlain x0 n st g t r) := by
  unfold endPlain
  repeat' first
    | (with_reducible first
        | assumption | apply keeps_ite | apply finishStage_keeps | apply writeOut_keeps)
    | exact maskSub hm (by decide) | split | intro _

theorem runSeal_keeps (m : BitVec 64) (s0 x0 : State) (n g : Nat) (j : JobSt) (x : StepSt) (t : Stage) (bs : List Byte)
     (hm : m &&& 0x30C0BB9E447#64 = 0#64) (h : Keeps m s0 x0) :
    Keeps m s0 (runSeal x0 n g j x t bs) := by
  unfold runSeal
  try dsimp only
  repeat' first
    | (with_reducible first
        | assumption | apply finishStage_keeps | apply setJob_keeps)
    | exact maskSub hm (by decide) | dsimp only | split

theorem runStash_keeps (m : BitVec 64) (s0 x0 : State) (n g : Nat) (j : JobSt) (x : StepSt) (t : Stage) (bs : List Byte)
     (hm : m &&& 0x30C0BB9E45F#64 = 0#64) (h : Keeps m s0 x0) :
    Keeps m s0 (runStash x0 n g j x t bs) := by
  unfold runStash
  try dsimp only
  repeat' first
    | (with_reducible first
        | assumption | apply keeps_ite | apply finishStage_keeps | apply regionWrite_keeps
        | apply setJob_keeps)
    | exact maskSub hm (by decide) | dsimp only | split | intro _

theorem refuseInput_keeps (m : BitVec 64) (s0 x0 : State) (n st g : Nat) (t : Stage) (hm : m &&& 0x30C0BB9E447#64 = 0#64)
     (h : Keeps m s0 x0) :
    Keeps m s0 (refuseInput x0 n st g t) := by
  unfold refuseInput
  repeat' first
    | (with_reducible first
        | assumption | apply finishStage_keeps | apply ctrAdd_keeps)
    | exact maskSub hm (by decide) | split

theorem runRecompute_keeps (m : BitVec 64) (s0 x0 : State) (n g : Nat) (j : JobSt) (x : StepSt) (t : Stage)
     (own : List Byte) (hm : m &&& 0x30C0BB9E447#64 = 0#64) (h : Keeps m s0 x0) :
    Keeps m s0 (runRecompute x0 n g j x t own) := by
  unfold runRecompute
  try dsimp only
  repeat' first
    | (with_reducible first
        | assumption | apply keeps_ite | apply finishStage_keeps | apply refuseInput_keeps
        | apply countPress_keeps)
    | exact maskSub hm (by decide) | dsimp only | split | intro _

theorem endScatter_keeps (m : BitVec 64) (s0 x0 : State) (n g : Nat) (j : JobSt) (x : StepSt) (t : Stage)
     (r : Except Nat   (Prod (Prod (List Byte) (Prod Nat Nat))     (Prod (List (Prod Nat (Prod Nat (List Byte)))) (List (Prod Rick Nat)))))
     (hm : m &&& 0x30C0BB9E45F#64 = 0#64) (h : Keeps m s0 x0) :
    Keeps m s0 (endScatter x0 n g j x t r) := by
  unfold endScatter
  try dsimp only
  repeat' first
    | (with_reducible first
        | assumption | apply finishStage_keeps | apply holdRicks_keeps | apply setJob_keeps
        | refine keeps_of_snd (by assumption) ?_ | refine keeps_of_fst (by assumption) ?_)
    | exact maskSub hm (by decide) | dsimp only | split

theorem residueFound_keeps (m : BitVec 64) (s0 x0 : State) (n g tile element : Nat) (press : Bool)
     (hm : m &&& 0x400000003#64 = 0#64) (h : Keeps m s0 x0) :
    Keeps m s0 (residueFound x0 n g tile element press) := by
  unfold residueFound
  try dsimp only
  repeat' first
    | (with_reducible first
        | assumption | apply keeps_ite | apply ctrAdd_keeps | apply report_keeps)
    | exact maskSub hm (by decide) | dsimp only | split | intro _

theorem runStage_keeps (m : BitVec 64) (s0 x0 : State) (n g : Nat) (j : JobSt) (x : StepSt) (t : Stage) (check : StageCheck)
     (hm : m &&& 0x30C0BB9E45F#64 = 0#64) (h : Keeps m s0 x0) :
    Keeps m s0 (runStage x0 n g j x t check) := by
  unfold runStage
  try dsimp only
  repeat' first
    | (with_reducible first
        | assumption | apply keeps_ite | apply setJob_keeps | apply finishStage_keeps
        | apply refuseInput_keeps | apply residueFound_keeps | apply runSend_keeps | apply endPlain_keeps
        | apply countPress_keeps | apply endScatter_keeps | apply runStash_keeps | apply runRecompute_keeps
        | apply runSeal_keeps | apply enterMember_keeps)
    | exact maskSub hm (by decide) | dsimp only | split | intro _

theorem execStageExecute_keeps (m : BitVec 64) (s0 : State) (sub stage : Nat) (check : StageCheck) (x3 : State)
     (hm : m &&& 0x30C0BB9E45F#64 = 0#64) (h : Keeps m s0 x3) :
    KeepsOut m s0 (execStageExecute sub stage check x3) := by
  unfold execStageExecute
  repeat' first
    | (with_reducible first
        | assumption | apply keepsOut_fault | apply keepsOut_next | apply keepsOut_ite
        | apply keeps_ite | apply sealWait_keeps | apply settle_keeps | apply runStage_keeps)
    | exact maskSub hm (by decide) | dsimp only | split | intro _

theorem execStepForwardResume_keeps (m : BitVec 64) (s0 : State) (sub : Nat) (x1 : State) (hm : m &&& 0x200000#64 = 0#64)
     (h : Keeps m s0 x1) :
    KeepsOut m s0 (execStepForwardResume sub x1) := by
  unfold execStepForwardResume
  repeat' first
    | (with_reducible first
        | assumption | apply keepsOut_next | apply setJob_keeps)
    | exact maskSub hm (by decide) | dsimp only | split | intro _

theorem execSealSpaceFreed_keeps (m : BitVec 64) (s0 : State) (sub : Nat) (x1 : State) (hm : m &&& 0x30C0BB9E45F#64 = 0#64)
     (h : Keeps m s0 x1) :
    KeepsOut m s0 (execSealSpaceFreed sub x1) := by
  unfold execSealSpaceFreed
  try dsimp only
  repeat' first
    | (with_reducible first
        | assumption | apply keepsOut_next | apply keepsOut_ite | apply keeps_ite
        | apply keeps_foldl | apply ctrAdd_keeps | apply setJob_keeps | apply trySeal_keeps | apply settle_keeps
        | apply rootOk_keeps | apply moveWaiting_keeps | refine keeps_of_snd (by assumption) ?_
        | refine keeps_of_fst (by assumption) ?_)
    | exact maskSub hm (by decide) | dsimp only | split | intro _

theorem setJobState_keeps (m : BitVec 64) (s0 x0 : State) (n st : Nat) (hm : m &&& 0x10008000003#64 = 0#64)
     (h : Keeps m s0 x0) :
    Keeps m s0 (setJobState x0 n st) := by
  unfold setJobState
  repeat' first
    | (with_reducible first
        | assumption | apply keeps_ite | apply raiseJob_keeps | apply fset_keeps)
    | exact maskSub hm (by decide) | split | intro _

theorem setReason_keeps (m : BitVec 64) (s0 x0 : State) (n : Nat) (d : Deny) (hm : m &&& 0x1#64 = 0#64) (h : Keeps m s0 x0) :
    Keeps m s0 (setReason x0 n d) := by
  unfold setReason
  try dsimp only
  repeat' first
    | (with_reducible first
        | assumption | apply fset_keeps | apply wr_keeps
        | refine keeps_of_snd (by assumption) ?_ | refine keeps_of_fst (by assumption) ?_)
    | exact maskSub hm (by decide) | dsimp only | split

theorem refuseLoad_keeps (m : BitVec 64) (s0 x0 : State) (n role session : Nat) (hm : m &&& 0x10088000003#64 = 0#64)
     (h : Keeps m s0 x0) :
    Keeps m s0 (refuseLoad x0 n role session) := by
  unfold refuseLoad
  try dsimp only
  repeat' first
    | (with_reducible first
        | assumption | apply setReason_keeps | apply raiseJob_keeps | apply auditAdd_keeps
        | refine keeps_of_snd (by assumption) ?_ | refine keeps_of_fst (by assumption) ?_)
    | exact maskSub hm (by decide) | dsimp only | split

theorem serveLoad_keeps (m : BitVec 64) (s0 x0 : State) (n role session : Nat) (hm : m &&& 0x10088400003#64 = 0#64)
     (h : Keeps m s0 x0) :
    Keeps m s0 (serveLoad x0 n role session) := by
  unfold serveLoad
  try dsimp only
  repeat' first
    | (with_reducible first
        | assumption | apply keeps_ite | apply refuseLoad_keeps | apply setJobState_keeps)
    | exact maskSub hm (by decide) | dsimp only | split
    | (intro q hq; cases q <;> first | exact absurd hq (maskOff hm (by decide)) | with_reducible rfl)
    | exact fun _ => ⟨List.prefix_rfl, id⟩ | exact fun _ => ⟨List.prefix_rfl, fun _ => rfl⟩
    | exact fun g => absurd g (maskOff hm (by decide)) | (fail_if_no_progress with_reducible apply keeps_frame) | intro _

theorem jobLoadCmd_keeps (m : BitVec 64) (s0 x0 : State) (n role session : Nat) (hm : m &&& 0x10098400003#64 = 0#64)
     (h : Keeps m s0 x0) :
    Keeps m s0 (jobLoadCmd x0 n role session) := by
  unfold jobLoadCmd
  repeat' first
    | (with_reducible first
        | assumption | apply keeps_ite | apply serveLoad_keeps)
    | exact maskSub hm (by decide) | split
    | (intro q hq; cases q <;> first | exact absurd hq (maskOff hm (by decide)) | with_reducible rfl)
    | exact fun _ => ⟨List.prefix_rfl, id⟩ | exact fun _ => ⟨List.prefix_rfl, fun _ => rfl⟩
    | exact fun g => absurd g (maskOff hm (by decide)) | (fail_if_no_progress with_reducible apply keeps_frame) | intro _

theorem wrWords_keeps (m : BitVec 64) (s0 x0 : State) (x1 : Nat) (ws : List Word) (hm : m &&& 0x1#64 = 0#64)
     (h : Keeps m s0 x0) :
    Keeps m s0 (wrWords x0 x1 ws) := by
  unfold wrWords
  repeat' first
    | (with_reducible first
        | assumption | apply keeps_foldl | apply wr_keeps
        | refine keeps_of_snd (by assumption) ?_ | refine keeps_of_fst (by assumption) ?_)
    | exact maskSub hm (by decide) | dsimp only | split | intro _

theorem zeroRegion_keeps (m : BitVec 64) (s0 x0 : State) (j : JobSt) (r : Region) (hm : m &&& 0x18#64 = 0#64)
     (h : Keeps m s0 x0) :
    Keeps m s0 (zeroRegion x0 j r) := by
  unfold zeroRegion
  try dsimp only
  repeat' first
    | (with_reducible first
        | assumption | apply keeps_ite | apply keeps_foldl | apply memZero_keeps)
    | exact maskSub hm (by decide) | dsimp only | split | intro _

theorem setUpRegions_keeps (m : BitVec 64) (s0 x0 : State) (j : JobSt) (i : Image) (hm : m &&& 0x18#64 = 0#64)
     (h : Keeps m s0 x0) :
    Keeps m s0 (setUpRegions x0 j i) := by
  unfold setUpRegions
  try dsimp only
  repeat' first
    | (with_reducible first
        | assumption | apply keeps_foldl | apply zeroRegion_keeps | apply regionWrite_keeps
        | refine keeps_of_snd (by assumption) ?_ | refine keeps_of_fst (by assumption) ?_)
    | exact maskSub hm (by decide) | dsimp only | split | intro _

theorem bindTables_keeps (m : BitVec 64) (s0 x0 : State) (n : Nat) (i : Image) (g : Grant) (hm : m &&& 0x80005#64 = 0#64)
     (h : Keeps m s0 x0) :
    Keeps m s0 (bindTables x0 n i g) := by
  unfold bindTables
  try dsimp only
  repeat' first
    | (with_reducible first
        | assumption | apply keeps_ite | apply keeps_foldl | apply keeps_forUp
        | apply wrWords_keeps | apply wr_keeps | apply setEvCtr_keeps | apply setStream_keeps | apply regsReset_keeps
        | refine keeps_of_snd (by assumption) ?_ | refine keeps_of_fst (by assumption) ?_)
    | exact maskSub hm (by decide) | dsimp only | split | intro _

theorem showReserved_keeps (m : BitVec 64) (s0 x0 : State) (hm : m &&& 0x1#64 = 0#64) (h : Keeps m s0 x0) :
    Keeps m s0 (showReserved x0) := by
  unfold showReserved
  try dsimp only
  repeat' first
    | (with_reducible first
        | assumption | apply keeps_forUp | apply fset_keeps
        | refine keeps_of_snd (by assumption) ?_ | refine keeps_of_fst (by assumption) ?_)
    | exact maskSub hm (by decide) | dsimp only | split | intro _

theorem admitJob_keeps (m : BitVec 64) (s0 x0 : State) (n role session : Nat) (i : Image) (g : Grant)
     (hm : m &&& 0x1008928001F#64 = 0#64) (h : Keeps m s0 x0) :
    Keeps m s0 (admitJob x0 n role session i g) := by
  unfold admitJob
  try dsimp only
  repeat' first
    | (with_reducible first
        | assumption | apply keeps_ite | apply keeps_foldl | apply setJob_keeps
        | apply bindTables_keeps | apply showReserved_keeps | apply setUpRegions_keeps | apply setReason_keeps
        | apply fset_keeps | apply auditAdd_keeps | apply testTrigger_keeps | apply setJobState_keeps)
    | exact maskSub hm (by decide) | dsimp only | split | intro _

theorem unloadStep_keeps (m : BitVec 64) (s0 x0 : State) (n st : Nat) (hm : m &&& 0x30C0BB9E447#64 = 0#64)
     (h : Keeps m s0 x0) :
    Keeps m s0 (unloadStep x0 n st) := by
  unfold unloadStep
  repeat' first
    | (with_reducible first
        | assumption | apply finishStage_keeps | refine keeps_of_snd (by assumption) ?_
        | refine keeps_of_fst (by assumption) ?_)
    | exact maskSub hm (by decide) | dsimp only | split | intro _

theorem unloadJob_keeps (m : BitVec 64) (s0 x0 : State) (n : Nat) (hm : m &&& 0x30C0BB9E447#64 = 0#64) (h : Keeps m s0 x0) :
    Keeps m s0 (unloadJob x0 n) := by
  unfold unloadJob
  try dsimp only
  repeat' first
    | (with_reducible first
        | assumption | apply keeps_foldl | apply setJobState_keeps | apply setJob_keeps
        | apply unloadStep_keeps | apply abortSlot_keeps | refine keeps_of_snd (by assumption) ?_
        | refine keeps_of_fst (by assumption) ?_)
    | exact maskSub hm (by decide) | dsimp only | split
    | (intro q hq; cases q <;> first | exact absurd hq (maskOff hm (by decide)) | with_reducible rfl)
    | exact fun _ => ⟨List.prefix_rfl, id⟩ | exact fun _ => ⟨List.prefix_rfl, fun _ => rfl⟩
    | exact fun g => absurd g (maskOff hm (by decide)) | (fail_if_no_progress with_reducible apply keeps_frame) | intro _

theorem jobUnloadCmd_keeps (m : BitVec 64) (s0 x0 : State) (n role session : Nat) (hm : m &&& 0x30C8BF9E447#64 = 0#64)
     (h : Keeps m s0 x0) :
    Keeps m s0 (jobUnloadCmd x0 n role session) := by
  unfold jobUnloadCmd
  try dsimp only
  repeat' first
    | (with_reducible first
        | assumption | apply keeps_ite | apply auditAdd_keeps | apply unloadJob_keeps
        | apply setJobState_keeps | apply setReason_keeps)
    | exact maskSub hm (by decide) | dsimp only | split
    | (intro q hq; cases q <;> first | exact absurd hq (maskOff hm (by decide)) | with_reducible rfl)
    | exact fun _ => ⟨List.prefix_rfl, id⟩ | exact fun _ => ⟨List.prefix_rfl, fun _ => rfl⟩
    | exact fun g => absurd g (maskOff hm (by decide)) | (fail_if_no_progress with_reducible apply keeps_frame) | intro _

theorem writePerms_keeps (m : BitVec 64) (s0 x0 : State) (ps : List (Prod Nat Nat)) (hm : m &&& 0x1#64 = 0#64)
     (h : Keeps m s0 x0) :
    Keeps m s0 (writePerms x0 ps) := by
  unfold writePerms
  repeat' first
    | (with_reducible first
        | assumption | apply keeps_ite | apply keeps_foldl | apply keeps_foldl_fst
        | apply keeps_foldl_snd | apply keeps_ite_fst | apply keeps_ite_snd | apply wr_keeps
        | refine keeps_of_snd (by assumption) ?_ | refine keeps_of_fst (by assumption) ?_)
    | exact maskSub hm (by decide) | dsimp only | split | intro _

theorem execJobLoadDecided_keeps (m : BitVec 64) (s0 : State) (sub : Nat) (perms : List (Prod Nat Nat)) (x2 : State)
     (hm : m &&& 0x30C8BF9E45F#64 = 0#64) (h : Keeps m s0 x2) :
    KeepsOut m s0 (execJobLoadDecided sub perms x2) := by
  unfold execJobLoadDecided
  try dsimp only
  repeat' first
    | (with_reducible first
        | assumption | apply keepsOut_next | apply keepsOut_ite | apply keeps_ite
        | apply keeps_ite_fst | apply keeps_ite_snd | apply writePerms_keeps | apply admitJob_keeps
        | apply setJobState_keeps | apply setReason_keeps | apply auditAdd_keeps | apply unloadJob_keeps
        | refine keeps_of_snd (by assumption) ?_ | refine keeps_of_fst (by assumption) ?_)
    | exact maskSub hm (by decide) | dsimp only | split
    | (intro q hq; cases q <;> first | exact absurd hq (maskOff hm (by decide)) | with_reducible rfl)
    | exact fun _ => ⟨List.prefix_rfl, id⟩ | exact fun _ => ⟨List.prefix_rfl, fun _ => rfl⟩
    | exact fun g => absurd g (maskOff hm (by decide)) | (fail_if_no_progress with_reducible apply keeps_frame) | intro _

theorem releaseHeld_keeps (m : BitVec 64) (s0 x0 : State) (frames : List (Prod Nat Nat)) (hm : m &&& 0x1#64 = 0#64)
     (h : Keeps m s0 x0) :
    Keeps m s0 (releaseHeld x0 frames) := by
  unfold releaseHeld
  try dsimp only
  repeat' first
    | (with_reducible first
        | assumption | apply keeps_ite | apply keeps_foldl | apply keeps_foldl_fst
        | apply keeps_foldl_snd | apply keeps_ite_fst | apply keeps_ite_snd | apply setBit_keeps
        | refine keeps_of_snd (by assumption) ?_ | refine keeps_of_fst (by assumption) ?_)
    | exact maskSub hm (by decide) | dsimp only | split | intro _

theorem dropJobMsgs_keeps (m : BitVec 64) (s0 x0 : State) (streams : List Nat) (hm : m &&& 0x100000#64 = 0#64)
     (h : Keeps m s0 x0) :
    Keeps m s0 (dropJobMsgs x0 streams) := by
  unfold dropJobMsgs
  repeat' first
    | (with_reducible first
        | assumption)
    | exact maskSub hm (by decide) | dsimp only | split
    | (intro q hq; cases q <;> first | exact absurd hq (maskOff hm (by decide)) | with_reducible rfl)
    | exact fun _ => ⟨List.prefix_rfl, id⟩ | exact fun _ => ⟨List.prefix_rfl, fun _ => rfl⟩
    | exact fun g => absurd g (maskOff hm (by decide)) | (fail_if_no_progress with_reducible apply keeps_frame) | intro _

theorem dropHeld_keeps (m : BitVec 64) (s0 x0 : State) (i : Nat) (hm : m &&& 0x1000000#64 = 0#64) (h : Keeps m s0 x0) :
    Keeps m s0 (dropHeld x0 i) := by
  unfold dropHeld
  repeat' first
    | (with_reducible first
        | assumption)
    | exact maskSub hm (by decide) | split
    | (intro q hq; cases q <;> first | exact absurd hq (maskOff hm (by decide)) | with_reducible rfl)
    | exact fun _ => ⟨List.prefix_rfl, id⟩ | exact fun _ => ⟨List.prefix_rfl, fun _ => rfl⟩
    | exact fun g => absurd g (maskOff hm (by decide)) | (fail_if_no_progress with_reducible apply keeps_frame)

theorem execJobUnloadDone_keeps (m : BitVec 64) (s0 : State) (sub : Nat) (x1 : State) (hm : m &&& 0x10009380003#64 = 0#64)
     (h : Keeps m s0 x1) :
    KeepsOut m s0 (execJobUnloadDone sub x1) := by
  unfold execJobUnloadDone
  try dsimp only
  repeat' first
    | (with_reducible first
        | assumption | apply keepsOut_next | apply keepsOut_ite | apply keeps_ite
        | apply keeps_foldl | apply keeps_forUp | apply setJob_keeps | apply releaseHeld_keeps | apply wr_keeps
        | apply wrWords_keeps | apply setStream_keeps | apply dropJobMsgs_keeps | apply dropHeld_keeps
        | apply showReserved_keeps | apply setJobState_keeps | apply fset_keeps)
    | exact maskSub hm (by decide) | dsimp only | split | intro _

theorem setBatch_keeps (m : BitVec 64) (s0 x0 : State) (n st reason : Nat) (hm : m &&& 0x10008000003#64 = 0#64)
     (h : Keeps m s0 x0) :
    Keeps m s0 (setBatch x0 n st reason) := by
  unfold setBatch
  try dsimp only
  repeat' first
    | (with_reducible first
        | assumption | apply keeps_ite | apply fset_keeps | apply raise_keeps)
    | exact maskSub hm (by decide) | dsimp only | split | intro _

theorem signBatchCmd_keeps (m : BitVec 64) (s0 x0 : State) (n : Nat) (hm : m &&& 0x1010E000003#64 = 0#64)
     (h : Keeps m s0 x0) :
    Keeps m s0 (signBatchCmd x0 n) := by
  unfold signBatchCmd
  try dsimp only
  repeat' first
    | (with_reducible first
        | assumption | apply keeps_ite | apply setBatch_keeps)
    | exact maskSub hm (by decide) | dsimp only | split | omega
    | (intro q hq; cases q <;> first | exact absurd hq (maskOff hm (by decide)) | with_reducible rfl)
    | exact fun _ => ⟨List.prefix_rfl, id⟩ | exact fun _ => ⟨List.prefix_rfl, fun _ => rfl⟩
    | exact fun g => absurd g (maskOff hm (by decide)) | (fail_if_no_progress with_reducible apply keeps_frame)
    | (fail_if_no_progress with_reducible apply keeps_fuses) | intro _

theorem execBatchSigned_keeps (m : BitVec 64) (s0 x0 : State) (hm : m &&& 0x3000C000003#64 = 0#64) (h : Keeps m s0 x0) :
    KeepsOut m s0 (execBatchSigned x0) := by
  unfold execBatchSigned
  try dsimp only
  repeat' first
    | (with_reducible first
        | assumption | apply keepsOut_next | apply draw_keeps | apply setBatch_keeps
        | apply wr_keeps | apply ctrAdd_keeps | refine keeps_of_snd (by assumption) ?_
        | refine keeps_of_fst (by assumption) ?_)
    | exact maskSub hm (by decide) | dsimp only | split
    | (intro q hq; cases q <;> first | exact absurd hq (maskOff hm (by decide)) | with_reducible rfl)
    | exact fun _ => ⟨List.prefix_rfl, id⟩ | exact fun _ => ⟨List.prefix_rfl, fun _ => rfl⟩
    | exact fun g => absurd g (maskOff hm (by decide)) | (fail_if_no_progress with_reducible apply keeps_frame) | intro _

theorem releaseBatchCmd_keeps (m : BitVec 64) (s0 x0 : State) (n : Nat) (hm : m &&& 0x6000001#64 = 0#64) (h : Keeps m s0 x0) :
    Keeps m s0 (releaseBatchCmd x0 n) := by
  unfold releaseBatchCmd
  try dsimp only
  repeat' first
    | (with_reducible first
        | assumption | apply showSeals_keeps)
    | exact maskSub hm (by decide) | dsimp only | split
    | (intro q hq; cases q <;> first | exact absurd hq (maskOff hm (by decide)) | with_reducible rfl)
    | exact fun _ => ⟨List.prefix_rfl, id⟩ | exact fun _ => ⟨List.prefix_rfl, fun _ => rfl⟩
    | exact fun g => absurd g (maskOff hm (by decide)) | (fail_if_no_progress with_reducible apply keeps_frame) | intro _

end Sys2Proof.Machine
end

