-- ==== Sys2Proof/Laws/KeepsChip.lean ====
section
/-! SUPPORT. One `Keeps` lemma for each operation of the chip blocks, sessions, register writes and the commands. -/
namespace Sys2Proof.Machine

open Sys2Proof

theorem commitTxn_keeps (m : BitVec 64) (s0 x0 : State) (es : List Setting) (hm : m &&& 0x40000000#64 = 0#64)
     (h : Keeps m s0 x0) :
    Keeps m s0 (commitTxn x0 es) := by
  unfold commitTxn
  try dsimp only
  repeat' first
    | (with_reducible first
        | assumption | apply keeps_ite | apply keeps_foldl)
    | exact maskSub hm (by decide) | dsimp only | split
    | (intro q hq; cases q <;> first | exact absurd hq (maskOff hm (by decide)) | with_reducible rfl)
    | exact fun _ => ⟨List.prefix_rfl, id⟩ | exact fun _ => ⟨List.prefix_rfl, fun _ => rfl⟩
    | exact fun g => absurd g (maskOff hm (by decide)) | (fail_if_no_progress with_reducible apply keeps_frame) | intro _

theorem applySetting_keeps (m : BitVec 64) (s0 x0 : State) (e : Setting) (hm : m &&& 0x1#64 = 0#64) (h : Keeps m s0 x0) :
    Keeps m s0 (applySetting x0 e) := by
  unfold applySetting
  repeat' first
    | (with_reducible first
        | assumption | apply wr_keeps)
    | exact maskSub hm (by decide) | split

theorem loadSettings_keeps (m : BitVec 64) (s0 x0 : State) (hm : m &&& 0x8440000001#64 = 0#64) (h : Keeps m s0 x0) :
    Keeps m s0 (loadSettings x0) := by
  unfold loadSettings
  try dsimp only
  repeat' first
    | (with_reducible first
        | assumption | apply keeps_ite | apply keeps_foldl | apply applySetting_keeps
        | apply report_keeps)
    | exact maskSub hm (by decide) | dsimp only | split
    | (intro q hq; cases q <;> first | exact absurd hq (maskOff hm (by decide)) | with_reducible rfl)
    | exact fun _ => ⟨List.prefix_rfl, id⟩ | exact fun _ => ⟨List.prefix_rfl, fun _ => rfl⟩
    | exact fun g => absurd g (maskOff hm (by decide)) | (fail_if_no_progress with_reducible apply keeps_frame) | intro _

theorem showRetired_keeps (m : BitVec 64) (s0 x0 : State) (unit : Nat) (hm : m &&& 0x1#64 = 0#64) (h : Keeps m s0 x0) :
    Keeps m s0 (showRetired x0 unit) := by
  unfold showRetired
  try dsimp only
  repeat' first
    | (with_reducible first
        | assumption | apply keeps_ite | apply keeps_forUp | apply fset_keeps)
    | exact maskSub hm (by decide) | dsimp only | split | intro _

theorem retireFrame_keeps (m : BitVec 64) (s0 x0 : State) (unit f cause : Nat) (hm : m &&& 0x440000011#64 = 0#64)
     (h : Keeps m s0 x0) :
    Keeps m s0 (retireFrame x0 unit f cause) := by
  unfold retireFrame
  try dsimp only
  repeat' first
    | (with_reducible first
        | assumption | apply keeps_ite | apply commitTxn_keeps | apply wr_keeps
        | apply showRetired_keeps | apply report_keeps)
    | exact maskSub hm (by decide) | dsimp only | split
    | (intro q hq; cases q <;> first | exact absurd hq (maskOff hm (by decide)) | with_reducible rfl)
    | exact fun _ => ⟨List.prefix_rfl, id⟩ | exact fun _ => ⟨List.prefix_rfl, fun _ => rfl⟩
    | exact fun g => absurd g (maskOff hm (by decide)) | (fail_if_no_progress with_reducible apply keeps_frame) | intro _

theorem clearRetired_keeps (m : BitVec 64) (s0 x0 : State) (unit : Nat) (hm : m &&& 0x40000001#64 = 0#64)
     (h : Keeps m s0 x0) :
    Keeps m s0 (clearRetired x0 unit) := by
  unfold clearRetired
  try dsimp only
  repeat' first
    | (with_reducible first
        | assumption | apply keeps_foldl | apply wr_keeps | apply showRetired_keeps
        | apply commitTxn_keeps)
    | exact maskSub hm (by decide) | dsimp only | split | intro _

theorem discardCell_keeps (m : BitVec 64) (s0 x0 : State) (c : Nat) (hm : m &&& 0x10C0801E443#64 = 0#64) (h : Keeps m s0 x0) :
    Keeps m s0 (discardCell x0 c) := by
  unfold discardCell
  try dsimp only
  repeat' first
    | (with_reducible first
        | assumption | apply keeps_ite | apply keeps_foldl | apply storedSub_keeps
        | apply setQueue_keeps | apply decCell_keeps | apply takeDelivery_keeps | apply serveWaiters_keeps
        | apply pump_keeps | apply emit_keeps | apply modPort_keeps | refine keeps_of_snd (by assumption) ?_
        | refine keeps_of_fst (by assumption) ?_)
    | exact maskSub hm (by decide) | dsimp only | split | intro _

theorem withdrawCell_keeps (m : BitVec 64) (s0 x0 : State) (c : Nat) (hm : m &&& 0x10C0801E443#64 = 0#64)
     (h : Keeps m s0 x0) :
    Keeps m s0 (withdrawCell x0 c) := by
  unfold withdrawCell
  try dsimp only
  repeat' first
    | (with_reducible first
        | assumption | apply keeps_ite | apply fset_keeps | apply discardCell_keeps
        | apply setCell_keeps)
    | exact maskSub hm (by decide) | dsimp only | split | intro _

theorem loseChunk_keeps (m : BitVec 64) (s0 x0 : State) (slot chunk : Nat) (hm : m &&& 0x30C0BB9E45F#64 = 0#64)
     (h : Keeps m s0 x0) :
    Keeps m s0 (loseChunk x0 slot chunk) := by
  unfold loseChunk
  repeat' first
    | (with_reducible first
        | assumption | apply keeps_ite | apply settle_keeps | apply abortSlot_keeps
        | refine keeps_of_snd (by assumption) ?_ | refine keeps_of_fst (by assumption) ?_)
    | exact maskSub hm (by decide) | dsimp only | split | intro _

theorem loseHeld_keeps (m : BitVec 64) (s0 x0 : State) (x1 : WordHeld) (hm : m &&& 0x30C2BB9E45F#64 = 0#64)
     (h : Keeps m s0 x0) :
    Keeps m s0 (loseHeld x0 x1) := by
  unfold loseHeld
  try dsimp only
  repeat' first
    | (with_reducible first
        | assumption | apply keeps_ite | apply discardCell_keeps | apply loseChunk_keeps
        | apply report_keeps)
    | exact maskSub hm (by decide) | dsimp only | split
    | (intro q hq; cases q <;> first | exact absurd hq (maskOff hm (by decide)) | with_reducible rfl)
    | exact fun _ => ⟨List.prefix_rfl, id⟩ | exact fun _ => ⟨List.prefix_rfl, fun _ => rfl⟩
    | exact fun g => absurd g (maskOff hm (by decide)) | (fail_if_no_progress with_reducible apply keeps_frame) | intro _

theorem loseStash_keeps (m : BitVec 64) (s0 x0 : State) (w : Nat) (hm : m &&& 0x30C0BB9E45F#64 = 0#64) (h : Keeps m s0 x0) :
    Keeps m s0 (loseStash x0 w) := by
  unfold loseStash
  try dsimp only
  repeat' first
    | (with_reducible first
        | assumption | apply keeps_ite | apply keeps_foldl | apply setJob_keeps
        | apply settle_keeps | apply failStep_keeps | refine keeps_of_snd (by assumption) ?_
        | refine keeps_of_fst (by assumption) ?_)
    | exact maskSub hm (by decide) | dsimp only | split | intro _

theorem writeBack_keeps (m : BitVec 64) (s0 x0 : State) (page made dropped : Nat) (newer : Bool) (hm : m &&& 0x2#64 = 0#64)
     (h : Keeps m s0 x0) :
    Keeps m s0 (writeBack x0 page made dropped newer) := by
  unfold writeBack
  repeat' first
    | (with_reducible first
        | assumption | apply keeps_ite | apply ctrAdd_keeps)
    | exact maskSub hm (by decide) | split | intro _

theorem scrubFrame_keeps (m : BitVec 64) (s0 x0 : State) (unit frame word : Nat) (found : ScrubFound) (last : Bool)
     (hm : m &&& 0x30C6BB9E45F#64 = 0#64) (h : Keeps m s0 x0) :
    Keeps m s0 (scrubFrame x0 unit frame word found last) := by
  unfold scrubFrame
  try dsimp only
  repeat' first
    | (with_reducible first
        | assumption | apply keeps_ite | apply retireFrame_keeps | apply loseHeld_keeps
        | apply loseStash_keeps | refine keeps_of_snd (by assumption) ?_ | refine keeps_of_fst (by assumption) ?_)
    | exact maskSub hm (by decide) | dsimp only | split
    | (intro q hq; cases q <;> first | exact absurd hq (maskOff hm (by decide)) | with_reducible rfl)
    | exact fun _ => ⟨List.prefix_rfl, id⟩ | exact fun _ => ⟨List.prefix_rfl, fun _ => rfl⟩
    | exact fun g => absurd g (maskOff hm (by decide)) | (fail_if_no_progress with_reducible apply keeps_frame) | intro _

theorem scrubSram_keeps (m : BitVec 64) (s0 x0 : State) (die part addr : Nat) (found : ScrubFound) (newer last : Bool)
     (hm : m &&& 0x30C2BB9E45F#64 = 0#64) (h : Keeps m s0 x0) :
    Keeps m s0 (scrubSram x0 die part addr found newer last) := by
  unfold scrubSram
  try dsimp only
  repeat' first
    | (with_reducible first
        | assumption | apply keeps_ite | apply report_keeps | apply writeBack_keeps
        | apply ctrAdd_keeps | apply loseHeld_keeps | apply fset_keeps)
    | exact maskSub hm (by decide) | dsimp only | split
    | (intro q hq; cases q <;> first | exact absurd hq (maskOff hm (by decide)) | with_reducible rfl)
    | exact fun _ => ⟨List.prefix_rfl, id⟩ | exact fun _ => ⟨List.prefix_rfl, fun _ => rfl⟩
    | exact fun g => absurd g (maskOff hm (by decide)) | (fail_if_no_progress with_reducible apply keeps_frame) | intro _

theorem execScrubStep_keeps (m : BitVec 64) (s0 : State) (mem : ScrubMem) (address : Nat) (found : ScrubFound)
     (newerWrite : Bool) (x4 : State) (hm : m &&& 0x30C6BB9E45F#64 = 0#64) (h : Keeps m s0 x4) :
    KeepsOut m s0 (execScrubStep mem address found newerWrite x4) := by
  unfold execScrubStep
  try dsimp only
  repeat' first
    | (with_reducible first
        | assumption | apply keepsOut_fault | apply keepsOut_next | apply keepsOut_ite
        | apply keeps_ite | apply scrubSram_keeps | apply report_keeps | apply writeBack_keeps | apply ctrAdd_keeps
        | apply scrubFrame_keeps | apply fset_keeps)
    | exact maskSub hm (by decide) | dsimp only | split | intro _

theorem execDramRefresh_keeps (m : BitVec 64) (s0 : State) (stack vault : Nat) (hot : Bool) (x3 : State)
     (hm : m &&& 0x1#64 = 0#64) (h : Keeps m s0 x3) :
    KeepsOut m s0 (execDramRefresh stack vault hot x3) := by
  unfold execDramRefresh
  repeat' first
    | (with_reducible first
        | assumption | apply keepsOut_fault | apply keepsOut_next | apply keepsOut_ite
        | apply keeps_ite | apply setBit_keeps)
    | exact maskSub hm (by decide) | split | intro _

theorem execLpddrRetrain_keeps (m : BitVec 64) (s0 : State) (channel temp : Nat) (x2 : State) (hm : m &&& 0x3#64 = 0#64)
     (h : Keeps m s0 x2) :
    KeepsOut m s0 (execLpddrRetrain channel temp x2) := by
  unfold execLpddrRetrain
  repeat' first
    | (with_reducible first
        | assumption | apply keepsOut_fault | apply keepsOut_next | apply keepsOut_ite
        | apply keeps_ite | apply fset_keeps | apply ctrAdd_keeps)
    | exact maskSub hm (by decide) | split | intro _

theorem execLpddrRefresh_keeps (m : BitVec 64) (s0 : State) (channel temp : Nat) (x2 : State) (hm : m &&& 0x1#64 = 0#64)
     (h : Keeps m s0 x2) :
    KeepsOut m s0 (execLpddrRefresh channel temp x2) := by
  unfold execLpddrRefresh
  repeat' first
    | (with_reducible first
        | assumption | apply keepsOut_fault | apply keepsOut_next | apply keepsOut_ite
        | apply keeps_ite | apply fset_keeps)
    | exact maskSub hm (by decide) | split | intro _

theorem markBroken_keeps (m : BitVec 64) (s0 x0 : State) (page : Nat) (hm : m &&& 0x800000000#64 = 0#64) (h : Keeps m s0 x0) :
    Keeps m s0 (markBroken x0 page) := by
  unfold markBroken
  repeat' first
    | (with_reducible first
        | assumption | apply keeps_ite)
    | exact maskSub hm (by decide) | split
    | (intro q hq; cases q <;> first | exact absurd hq (maskOff hm (by decide)) | with_reducible rfl)
    | exact fun _ => ⟨List.prefix_rfl, id⟩ | exact fun _ => ⟨List.prefix_rfl, fun _ => rfl⟩
    | exact fun g => absurd g (maskOff hm (by decide)) | (fail_if_no_progress with_reducible apply keeps_frame) | intro _

theorem runSwath_keeps (m : BitVec 64) (s0 x0 : State) (seq : Nat) (hm : m &&& 0x10808000003#64 = 0#64) (h : Keeps m s0 x0) :
    Keeps m s0 (runSwath x0 seq) := by
  unfold runSwath
  try dsimp only
  repeat' first
    | (with_reducible first
        | assumption | apply keeps_ite | apply keeps_foldl | apply ctrAdd_keeps
        | apply wr_keeps | apply endSwath_keeps | apply completeUnit_keeps)
    | exact maskSub hm (by decide) | dsimp only | split
    | (intro q hq; cases q <;> first | exact absurd hq (maskOff hm (by decide)) | with_reducible rfl)
    | exact fun _ => ⟨List.prefix_rfl, id⟩ | exact fun _ => ⟨List.prefix_rfl, fun _ => rfl⟩
    | exact fun g => absurd g (maskOff hm (by decide)) | (fail_if_no_progress with_reducible apply keeps_frame) | intro _

theorem launchSwath_keeps (m : BitVec 64) (s0 x0 : State) (seq : Nat) (hm : m &&& 0x10808000003#64 = 0#64)
     (h : Keeps m s0 x0) :
    Keeps m s0 (launchSwath x0 seq) := by
  unfold launchSwath
  repeat' first
    | (with_reducible first
        | assumption | apply keeps_ite | apply runSwath_keeps)
    | exact maskSub hm (by decide) | split
    | (intro q hq; cases q <;> first | exact absurd hq (maskOff hm (by decide)) | with_reducible rfl)
    | exact fun _ => ⟨List.prefix_rfl, id⟩ | exact fun _ => ⟨List.prefix_rfl, fun _ => rfl⟩
    | exact fun g => absurd g (maskOff hm (by decide)) | (fail_if_no_progress with_reducible apply keeps_frame) | intro _

theorem abandonSwath_keeps (m : BitVec 64) (s0 x0 : State) (hm : m &&& 0x10808000003#64 = 0#64) (h : Keeps m s0 x0) :
    Keeps m s0 (abandonSwath x0) := by
  unfold abandonSwath
  try dsimp only
  repeat' first
    | (with_reducible first
        | assumption | apply keeps_foldl | apply wr_keeps | apply endSwath_keeps
        | apply ctrAdd_keeps | refine keeps_of_snd (by assumption) ?_ | refine keeps_of_fst (by assumption) ?_)
    | exact maskSub hm (by decide) | dsimp only | split | intro _

theorem execSwathMarkerRx_keeps (m : BitVec 64) (s0 : State) (unit channel : Nat) (x2 : State)
     (hm : m &&& 0x10808000003#64 = 0#64) (h : Keeps m s0 x2) :
    KeepsOut m s0 (execSwathMarkerRx unit channel x2) := by
  unfold execSwathMarkerRx
  repeat' first
    | (with_reducible first
        | assumption | apply keepsOut_next | apply keepsOut_ite | apply keeps_ite
        | apply takeMarker_keeps)
    | exact maskSub hm (by decide) | split | intro _

theorem resetPageRegs_keeps (m : BitVec 64) (s0 x0 : State) (page : Nat) (hm : m &&& 0x1#64 = 0#64) (h : Keeps m s0 x0) :
    Keeps m s0 (resetPageRegs x0 page) := by
  unfold resetPageRegs
  repeat' first
    | (with_reducible first
        | assumption | apply keeps_foldl | apply wr_keeps
        | refine keeps_of_snd (by assumption) ?_ | refine keeps_of_fst (by assumption) ?_)
    | exact maskSub hm (by decide) | dsimp only | split | intro _

theorem setPend_keeps (m : BitVec 64) (s0 x0 : State) (page : Nat) (v : Bool) (hm : m &&& 0x1#64 = 0#64) (h : Keeps m s0 x0) :
    Keeps m s0 (setPend x0 page v) := by
  unfold setPend
  repeat' first
    | (with_reducible first
        | assumption | apply setBit_keeps)
    | exact maskSub hm (by decide) | split

theorem endStep_keeps (m : BitVec 64) (s0 x0 : State) (n st code : Nat) (hm : m &&& 0x30C0BB9E447#64 = 0#64)
     (h : Keeps m s0 x0) :
    Keeps m s0 (endStep x0 n st code) := by
  unfold endStep
  repeat' first
    | (with_reducible first
        | assumption | apply finishStage_keeps | refine keeps_of_snd (by assumption) ?_
        | refine keeps_of_fst (by assumption) ?_)
    | exact maskSub hm (by decide) | dsimp only | split | intro _

theorem failJob_keeps (m : BitVec 64) (s0 x0 : State) (n : Nat) (hm : m &&& 0x30C0BB9E45F#64 = 0#64) (h : Keeps m s0 x0) :
    Keeps m s0 (failJob x0 n) := by
  unfold failJob
  try dsimp only
  repeat' first
    | (with_reducible first
        | assumption | apply keeps_foldl | apply setJob_keeps | apply settle_keeps
        | apply endStep_keeps)
    | exact maskSub hm (by decide) | dsimp only | split | intro _

theorem failCluster_keeps (m : BitVec 64) (s0 x0 : State) (c : Nat) (hm : m &&& 0x30C0BB9E45F#64 = 0#64) (h : Keeps m s0 x0) :
    Keeps m s0 (failCluster x0 c) := by
  unfold failCluster
  repeat' first
    | (with_reducible first
        | assumption | apply keeps_foldl | apply failJob_keeps
        | refine keeps_of_snd (by assumption) ?_ | refine keeps_of_fst (by assumption) ?_)
    | exact maskSub hm (by decide) | dsimp only | split | intro _

theorem loseDie_keeps (m : BitVec 64) (s0 x0 : State) (d : Nat) (hm : m &&& 0x30C0BB9E45F#64 = 0#64) (h : Keeps m s0 x0) :
    Keeps m s0 (loseDie x0 d) := by
  unfold loseDie
  repeat' first
    | (with_reducible first
        | assumption | apply keeps_ite | apply keeps_foldl | apply settle_keeps
        | apply abortSlot_keeps | refine keeps_of_snd (by assumption) ?_ | refine keeps_of_fst (by assumption) ?_)
    | exact maskSub hm (by decide) | dsimp only | split | intro _

theorem engineFault_keeps (m : BitVec 64) (s0 x0 : State) (e : Nat) (hm : m &&& 0x30C0BB9E45F#64 = 0#64) (h : Keeps m s0 x0) :
    Keeps m s0 (engineFault x0 e) := by
  unfold engineFault
  repeat' first
    | (with_reducible first
        | assumption | apply keeps_ite | apply keeps_foldl | apply settle_keeps
        | apply abortSlot_keeps | refine keeps_of_snd (by assumption) ?_ | refine keeps_of_fst (by assumption) ?_)
    | exact maskSub hm (by decide) | dsimp only | split | intro _

theorem startPort_keeps (m : BitVec 64) (s0 x0 : State) (x1 : Nat) (hm : m &&& 0xE01#64 = 0#64) (h : Keeps m s0 x0) :
    Keeps m s0 (startPort x0 x1) := by
  unfold startPort
  try dsimp only
  repeat' first
    | (with_reducible first
        | assumption | apply keeps_ite | apply setBlk_keeps | apply turnOnChain_keeps
        | apply setStage_keeps | apply setPState_keeps | apply bringUp_keeps)
    | exact maskSub hm (by decide) | dsimp only | split | intro _

theorem closeNow_keeps (m : BitVec 64) (s0 x0 : State) (n cause : Nat) (hm : m &&& 0x11C0801F443#64 = 0#64)
     (h : Keeps m s0 x0) :
    Keeps m s0 (closeNow x0 n cause) := by
  unfold closeNow
  try dsimp only
  repeat' first
    | (with_reducible first
        | assumption | apply keeps_ite | apply keeps_foldl | apply setStage_keeps
        | apply setPState_keeps | apply modPort_keeps | apply linkDown_keeps | apply closeStitch_keeps
        | refine keeps_of_snd (by assumption) ?_ | refine keeps_of_fst (by assumption) ?_)
    | exact maskSub hm (by decide) | dsimp only | split | intro _

theorem closeBehind_keeps (m : BitVec 64) (s0 x0 : State) (x1 cause : Nat) (preventable : Bool)
     (hm : m &&& 0x11C0801F443#64 = 0#64) (h : Keeps m s0 x0) :
    Keeps m s0 (closeBehind x0 x1 cause preventable) := by
  unfold closeBehind
  repeat' first
    | (with_reducible first
        | assumption | apply keeps_ite | apply closeNow_keeps)
    | exact maskSub hm (by decide) | split | intro _

theorem disablePort_keeps (m : BitVec 64) (s0 x0 : State) (x1 : Nat) (hm : m &&& 0x11C0801F443#64 = 0#64)
     (h : Keeps m s0 x0) :
    Keeps m s0 (disablePort x0 x1) := by
  unfold disablePort
  try dsimp only
  repeat' first
    | (with_reducible first
        | assumption | apply keeps_ite | apply setPend_keeps | apply setCause_keeps
        | apply setBlk_keeps | apply closeBehind_keeps)
    | exact maskSub hm (by decide) | dsimp only | split | intro _

theorem enablePort_keeps (m : BitVec 64) (s0 x0 : State) (x1 : Nat) (hm : m &&& 0xE01#64 = 0#64) (h : Keeps m s0 x0) :
    Keeps m s0 (enablePort x0 x1) := by
  unfold enablePort
  try dsimp only
  repeat' first
    | (with_reducible first
        | assumption | apply keeps_ite | apply setPend_keeps | apply turnOnChain_keeps
        | apply startPort_keeps)
    | exact maskSub hm (by decide) | dsimp only | split | intro _

theorem enterTest_keeps (m : BitVec 64) (s0 x0 : State) (x1 : Nat) (hm : m &&& 0x11C0801F443#64 = 0#64) (h : Keeps m s0 x0) :
    Keeps m s0 (enterTest x0 x1) := by
  unfold enterTest
  try dsimp only
  repeat' first
    | (with_reducible first
        | assumption | apply keeps_ite | apply modPort_keeps | apply linkDown_keeps
        | apply closeBehind_keeps | apply setBlk_keeps | apply setStage_keeps | apply setPState_keeps)
    | exact maskSub hm (by decide) | dsimp only | split | intro _

theorem leaveTest_keeps (m : BitVec 64) (s0 x0 : State) (x1 : Nat) (hm : m &&& 0xE01#64 = 0#64) (h : Keeps m s0 x0) :
    Keeps m s0 (leaveTest x0 x1) := by
  unfold leaveTest
  repeat' first
    | (with_reducible first
        | assumption | apply keeps_ite | apply startPort_keeps | apply setPState_keeps)
    | exact maskSub hm (by decide) | split | intro _

theorem stopPort_keeps (m : BitVec 64) (s0 x0 : State) (x1 : Nat) (hm : m &&& 0x11C0801E443#64 = 0#64) (h : Keeps m s0 x0) :
    Keeps m s0 (stopPort x0 x1) := by
  unfold stopPort
  try dsimp only
  repeat' first
    | (with_reducible first
        | assumption | apply keeps_ite | apply portStops_keeps | apply setPState_keeps)
    | exact maskSub hm (by decide) | dsimp only | split | intro _

theorem startBlock_keeps (m : BitVec 64) (s0 x0 : State) (page : Nat) (hm : m &&& 0x1#64 = 0#64) (h : Keeps m s0 x0) :
    Keeps m s0 (startBlock x0 page) := by
  unfold startBlock
  repeat' first
    | (with_reducible first
        | assumption | apply setBlk_keeps)
    | exact maskSub hm (by decide) | split

theorem enableBlock_keeps (m : BitVec 64) (s0 x0 : State) (page : Nat) (on : Bool) (hm : m &&& 0x1#64 = 0#64)
     (h : Keeps m s0 x0) :
    Keeps m s0 (enableBlock x0 page on) := by
  unfold enableBlock
  repeat' first
    | (with_reducible first
        | assumption | apply keeps_ite | apply setPend_keeps | apply startBlock_keeps
        | apply setCause_keeps | apply setBlk_keeps)
    | exact maskSub hm (by decide) | split | intro _

theorem execBlockStopDone_keeps (m : BitVec 64) (s0 : State) (page : Nat) (x1 : State) (hm : m &&& 0x11C0801EE43#64 = 0#64)
     (h : Keeps m s0 x1) :
    KeepsOut m s0 (execBlockStopDone page x1) := by
  unfold execBlockStopDone
  try dsimp only
  repeat' first
    | (with_reducible first
        | assumption | apply keepsOut_next | apply keepsOut_ite | apply keeps_ite
        | apply setPend_keeps | apply setBlk_keeps | apply stopPort_keeps | apply startPort_keeps | apply startBlock_keeps)
    | exact maskSub hm (by decide) | dsimp only | split | intro _

theorem resetEffects_keeps (m : BitVec 64) (s0 x0 : State) (ty inst : Nat) (hm : m &&& 0x30C0BB9E45F#64 = 0#64)
     (h : Keeps m s0 x0) :
    Keeps m s0 (resetEffects x0 ty inst) := by
  unfold resetEffects
  repeat' first
    | (with_reducible first
        | assumption | apply loseDie_keeps | apply engineFault_keeps | apply failCluster_keeps)
    | exact maskSub hm (by decide) | split

theorem resetBlock_keeps (m : BitVec 64) (s0 x0 : State) (page cause : Nat) (hm : m &&& 0x31C0BB9F45F#64 = 0#64)
     (h : Keeps m s0 x0) :
    Keeps m s0 (resetBlock x0 page cause) := by
  unfold resetBlock
  try dsimp only
  repeat' first
    | (with_reducible first
        | assumption | apply keeps_ite | apply resetEffects_keeps | apply setCause_keeps
        | apply markBroken_keeps | apply portStops_keeps | apply closeBehind_keeps | apply setBlk_keeps)
    | exact maskSub hm (by decide) | dsimp only | split | intro _

theorem resetPortPart_keeps (m : BitVec 64) (s0 x0 : State) (ty x2 : Nat) (hm : m &&& 0x10C08066443#64 = 0#64)
     (h : Keeps m s0 x0) :
    Keeps m s0 (resetPortPart x0 ty x2) := by
  unfold resetPortPart
  try dsimp only
  repeat' first
    | (with_reducible first
        | assumption | apply keeps_ite | apply keeps_forUp | apply modPort_keeps
        | apply setGate_keeps | apply fset_keeps | apply pump_keeps | apply wr_keeps | apply fillMeter_keeps
        | refine keeps_of_snd (by assumption) ?_ | refine keeps_of_fst (by assumption) ?_)
    | exact maskSub hm (by decide) | dsimp only | split | intro _

theorem resetBlockRegs_keeps (m : BitVec 64) (s0 x0 : State) (k : PageKind) (x2 : Nat) (hm : m &&& 0x3#64 = 0#64)
     (h : Keeps m s0 x0) :
    Keeps m s0 (resetBlockRegs x0 k x2) := by
  unfold resetBlockRegs
  try dsimp only
  repeat' first
    | (with_reducible first
        | assumption | apply keeps_ite | apply keeps_foldl | apply ctrsReset_keeps
        | apply resetPageRegs_keeps | apply showReserved_keeps | apply wr_keeps)
    | exact maskSub hm (by decide) | dsimp only | split | intro _

theorem execBlockResetDone_keeps (m : BitVec 64) (s0 : State) (page : Nat) (x1 : State) (hm : m &&& 0x11C0807EE43#64 = 0#64)
     (h : Keeps m s0 x1) :
    KeepsOut m s0 (execBlockResetDone page x1) := by
  unfold execBlockResetDone
  try dsimp only
  repeat' first
    | (with_reducible first
        | assumption | apply keepsOut_next | apply keepsOut_ite | apply keeps_ite
        | apply setPend_keeps | apply setBlk_keeps | apply resetBlockRegs_keeps | apply stopPort_keeps
        | apply startPort_keeps | apply setPState_keeps | apply resetPortPart_keeps | apply startBlock_keeps)
    | exact maskSub hm (by decide) | dsimp only | split | intro _

theorem showPin_keeps (m : BitVec 64) (s0 x0 : State) (hm : m &&& 0x10000000001#64 = 0#64) (h : Keeps m s0 x0) :
    Keeps m s0 (showPin x0) := by
  unfold showPin
  try dsimp only
  repeat' first
    | (with_reducible first
        | assumption | apply keeps_ite | apply emit_keeps | apply setBit_keeps)
    | exact maskSub hm (by decide) | dsimp only | split | intro _

theorem assertPin_keeps (m : BitVec 64) (s0 x0 : State) (hm : m &&& 0x10400000001#64 = 0#64) (h : Keeps m s0 x0) :
    Keeps m s0 (assertPin x0) := by
  unfold assertPin
  repeat' first
    | (with_reducible first
        | assumption | apply keeps_ite | apply showPin_keeps)
    | exact maskSub hm (by decide) | split
    | (intro q hq; cases q <;> first | exact absurd hq (maskOff hm (by decide)) | with_reducible rfl)
    | exact fun _ => ⟨List.prefix_rfl, id⟩ | exact fun _ => ⟨List.prefix_rfl, fun _ => rfl⟩
    | exact fun g => absurd g (maskOff hm (by decide)) | (fail_if_no_progress with_reducible apply keeps_frame) | intro _

theorem withdrawTile_keeps (m : BitVec 64) (s0 x0 : State) (t : Nat) (hm : m &&& 0x30C0BB9E45F#64 = 0#64)
     (h : Keeps m s0 x0) :
    Keeps m s0 (withdrawTile x0 t) := by
  unfold withdrawTile
  try dsimp only
  repeat' first
    | (with_reducible first
        | assumption | apply failJob_keeps)
    | exact maskSub hm (by decide) | dsimp only | split
    | (intro q hq; cases q <;> first | exact absurd hq (maskOff hm (by decide)) | with_reducible rfl)
    | exact fun _ => ⟨List.prefix_rfl, id⟩ | exact fun _ => ⟨List.prefix_rfl, fun _ => rfl⟩
    | exact fun g => absurd g (maskOff hm (by decide)) | (fail_if_no_progress with_reducible apply keeps_frame)

theorem noteResidue_keeps (m : BitVec 64) (s0 x0 : State) (t : Nat) (hm : m &&& 0x30C0BB9E45F#64 = 0#64) (h : Keeps m s0 x0) :
    Keeps m s0 (noteResidue x0 t) := by
  unfold noteResidue
  try dsimp only
  repeat' first
    | (with_reducible first
        | assumption | apply keeps_ite | apply withdrawTile_keeps
        | refine keeps_of_snd (by assumption) ?_ | refine keeps_of_fst (by assumption) ?_)
    | exact maskSub hm (by decide) | dsimp only | split
    | (intro q hq; cases q <;> first | exact absurd hq (maskOff hm (by decide)) | with_reducible rfl)
    | exact fun _ => ⟨List.prefix_rfl, id⟩ | exact fun _ => ⟨List.prefix_rfl, fun _ => rfl⟩
    | exact fun g => absurd g (maskOff hm (by decide)) | (fail_if_no_progress with_reducible apply keeps_frame) | intro _

theorem showCapacity_keeps (m : BitVec 64) (s0 x0 : State) (hm : m &&& 0x1#64 = 0#64) (h : Keeps m s0 x0) :
    Keeps m s0 (showCapacity x0) := by
  unfold showCapacity
  try dsimp only
  repeat' first
    | (with_reducible first
        | assumption | apply keeps_ite | apply fset_keeps)
    | exact maskSub hm (by decide) | dsimp only | split | intro _

theorem groupDown_keeps (m : BitVec 64) (s0 x0 : State) (j : Nat) (hm : m &&& 0x1#64 = 0#64) (h : Keeps m s0 x0) :
    Keeps m s0 (groupDown x0 j) := by
  unfold groupDown
  repeat' first
    | (with_reducible first
        | assumption | apply showCapacity_keeps | apply setBit_keeps)
    | exact maskSub hm (by decide) | split

theorem portFault_keeps (m : BitVec 64) (s0 x0 : State) (x1 : Nat) (hm : m &&& 0x11C0801E443#64 = 0#64) (h : Keeps m s0 x0) :
    Keeps m s0 (portFault x0 x1) := by
  unfold portFault
  repeat' first
    | (with_reducible first
        | assumption | apply setCause_keeps | apply setBlk_keeps | apply portStops_keeps)
    | exact maskSub hm (by decide) | split

theorem stageResidue_keeps (m : BitVec 64) (s0 x0 : State) (n g : Nat) (hm : m &&& 0x30C0BB9E45F#64 = 0#64)
     (h : Keeps m s0 x0) :
    Keeps m s0 (stageResidue x0 n g) := by
  unfold stageResidue
  repeat' first
    | (with_reducible first
        | assumption | apply keeps_foldl | apply settle_keeps | apply finishStage_keeps)
    | exact maskSub hm (by decide) | dsimp only | split | intro _

theorem slotLost_keeps (m : BitVec 64) (s0 x0 : State) (i : Nat) (hm : m &&& 0x30C0BB9E45F#64 = 0#64) (h : Keeps m s0 x0) :
    Keeps m s0 (slotLost x0 i) := by
  unfold slotLost
  repeat' first
    | (with_reducible first
        | assumption | apply settle_keeps | apply abortSlot_keeps)
    | exact maskSub hm (by decide) | split

theorem loopUnlocked_keeps (m : BitVec 64) (s0 x0 : State) (n : Nat) (hm : m &&& 0x11C0801FE43#64 = 0#64)
     (h : Keeps m s0 x0) :
    Keeps m s0 (loopUnlocked x0 n) := by
  unfold loopUnlocked
  repeat' first
    | (with_reducible first
        | assumption | apply keeps_ite | apply keeps_foldl | apply keeps_forUp
        | apply losePort_keeps | apply ctrAdd_keeps)
    | exact maskSub hm (by decide) | dsimp only | split | intro _

theorem foundOutcome_keeps (m : BitVec 64) (s0 x0 : State) (r : FaultRec) (hm : m &&& 0x31C0BB9FE5F#64 = 0#64)
     (h : Keeps m s0 x0) :
    Keeps m s0 (foundOutcome x0 r) := by
  unfold foundOutcome
  try dsimp only
  repeat' first
    | (with_reducible first
        | assumption | apply keeps_ite | apply slotLost_keeps | apply ctrAdd_keeps
        | apply stageResidue_keeps | apply discardCell_keeps | apply withdrawCell_keeps | apply engineFault_keeps
        | apply groupDown_keeps | apply loopUnlocked_keeps | apply portFault_keeps | apply withdrawTile_keeps)
    | exact maskSub hm (by decide) | dsimp only | split | intro _

theorem fencePorts_keeps (m : BitVec 64) (s0 x0 : State) (hm : m &&& 0x10400002403#64 = 0#64) (h : Keeps m s0 x0) :
    Keeps m s0 (fencePorts x0) := by
  unfold fencePorts
  try dsimp only
  repeat' first
    | (with_reducible first
        | assumption | apply keeps_ite | apply keeps_forUp | apply emit_keeps
        | apply decCell_keeps | apply modPort_keeps)
    | exact maskSub hm (by decide) | dsimp only | split | intro _

theorem enterFallow_keeps (m : BitVec 64) (s0 x0 : State) (kind : Nat) (record : BitVec 128) (hw : Bool)
     (hm : m &&& 0x11E8801F443#64 = 0#64) (h : Keeps m s0 x0) :
    Keeps m s0 (enterFallow x0 kind record hw) := by
  unfold enterFallow
  try dsimp only
  repeat' first
    | (with_reducible first
        | assumption | apply keeps_ite | apply keeps_forUp | apply wr_keeps
        | apply showPin_keeps | apply raise_keeps | apply closeNow_keeps | apply fencePorts_keeps
        | apply abandonSwath_keeps | apply auditDevice_keeps)
    | exact maskSub hm (by decide) | dsimp only | split
    | (intro q hq; cases q <;> first | exact absurd hq (maskOff hm (by decide)) | with_reducible rfl)
    | exact fun _ => ⟨List.prefix_rfl, id⟩ | exact fun _ => ⟨List.prefix_rfl, fun _ => rfl⟩
    | exact fun g => absurd g (maskOff hm (by decide)) | (fail_if_no_progress with_reducible apply keeps_frame) | intro _

theorem logRecord_keeps (m : BitVec 64) (s0 x0 : State) (r : FaultRec) (hm : m &&& 0x3#64 = 0#64) (h : Keeps m s0 x0) :
    Keeps m s0 (logRecord x0 r) := by
  unfold logRecord
  try dsimp only
  repeat' first
    | (with_reducible first
        | assumption | apply keeps_ite | apply keeps_forUp | apply ctrAdd_keeps
        | apply wr_keeps)
    | exact maskSub hm (by decide) | dsimp only | split | intro _

theorem trap_keeps (m : BitVec 64) (s0 x0 : State) (seq : Nat) (hm : m &&& 0x400000002#64 = 0#64) (h : Keeps m s0 x0) :
    Keeps m s0 (trap x0 seq) := by
  unfold trap
  try dsimp only
  repeat' first
    | (with_reducible first
        | assumption | apply keeps_ite | apply ctrAdd_keeps)
    | exact maskSub hm (by decide) | dsimp only | split
    | (intro q hq; cases q <;> first | exact absurd hq (maskOff hm (by decide)) | with_reducible rfl)
    | exact fun _ => ⟨List.prefix_rfl, id⟩ | exact fun _ => ⟨List.prefix_rfl, fun _ => rfl⟩
    | exact fun g => absurd g (maskOff hm (by decide)) | (fail_if_no_progress with_reducible apply keeps_frame) | intro _

theorem react_keeps (m : BitVec 64) (s0 x0 : State) (r : FaultRec) (w : Word) (hw : Bool)
     (hm : m &&& 0x31E8BB9F45F#64 = 0#64) (h : Keeps m s0 x0) :
    Keeps m s0 (react x0 r w hw) := by
  unfold react
  try dsimp only
  repeat' first
    | (with_reducible first
        | assumption | apply keeps_ite | apply assertPin_keeps | apply enterFallow_keeps
        | apply resetBlock_keeps | apply trap_keeps | apply raise_keeps)
    | exact maskSub hm (by decide) | dsimp only | split
    | (intro q hq; cases q <;> first | exact absurd hq (maskOff hm (by decide)) | with_reducible rfl)
    | exact fun _ => ⟨List.prefix_rfl, id⟩ | exact fun _ => ⟨List.prefix_rfl, fun _ => rfl⟩
    | exact fun g => absurd g (maskOff hm (by decide)) | (fail_if_no_progress with_reducible apply keeps_frame) | intro _

theorem serve_keeps (m : BitVec 64) (s0 x0 : State) (r : FaultRec) (hm : m &&& 0x31E8BB9F45F#64 = 0#64) (h : Keeps m s0 x0) :
    Keeps m s0 (serve x0 r) := by
  unfold serve
  try dsimp only
  repeat' first
    | (with_reducible first
        | assumption | apply keeps_ite | apply raise_keeps | apply enterFallow_keeps
        | apply assertPin_keeps | apply ctrAdd_keeps | apply logRecord_keeps | apply react_keeps | apply noteResidue_keeps
        | refine keeps_of_snd (by assumption) ?_ | refine keeps_of_fst (by assumption) ?_)
    | exact maskSub hm (by decide) | dsimp only | split
    | (intro q hq; cases q <;> first | exact absurd hq (maskOff hm (by decide)) | with_reducible rfl)
    | exact fun _ => ⟨List.prefix_rfl, id⟩ | exact fun _ => ⟨List.prefix_rfl, fun _ => rfl⟩
    | exact fun g => absurd g (maskOff hm (by decide)) | (fail_if_no_progress with_reducible apply keeps_frame) | intro _

theorem execFaultRecord_keeps (m : BitVec 64) (s0 : State) (src : FaultSrc) (x1 : State)
     (hm : m &&& 0x8000031E8BB9FE5F#64 = 0#64) (h : Keeps m s0 x1) :
    KeepsOut m s0 (execFaultRecord src x1) := by
  unfold execFaultRecord
  try dsimp only
  repeat' first
    | (with_reducible first
        | assumption | apply keepsOut_fault | apply keepsOut_next | apply keepsOut_ite
        | apply keeps_ite | apply atRest_keeps | apply serve_keeps | apply takeRecord_keeps | apply fset_keeps
        | apply foundOutcome_keeps)
    | exact maskSub hm (by decide) | dsimp only | split
    | (intro q hq; cases q <;> first | exact absurd hq (maskOff hm (by decide)) | with_reducible rfl)
    | exact fun _ => ⟨List.prefix_rfl, id⟩ | exact fun _ => ⟨List.prefix_rfl, fun _ => rfl⟩
    | exact fun g => absurd g (maskOff hm (by decide)) | (fail_if_no_progress with_reducible apply keeps_frame) | intro _

theorem execExtFallowReq_keeps (m : BitVec 64) (s0 x0 : State) (hm : m &&& 0x31E8BB9F45F#64 = 0#64) (h : Keeps m s0 x0) :
    KeepsOut m s0 (execExtFallowReq x0) := by
  unfold execExtFallowReq
  try dsimp only
  repeat' first
    | (with_reducible first
        | assumption | apply keepsOut_fault | apply keepsOut_next | apply keepsOut_ite
        | apply keeps_ite | apply setBit_keeps | apply serve_keeps)
    | exact maskSub hm (by decide) | dsimp only | split
    | (intro q hq; cases q <;> first | exact absurd hq (maskOff hm (by decide)) | with_reducible rfl)
    | exact fun _ => ⟨List.prefix_rfl, id⟩ | exact fun _ => ⟨List.prefix_rfl, fun _ => rfl⟩
    | exact fun g => absurd g (maskOff hm (by decide)) | (fail_if_no_progress with_reducible apply keeps_frame) | intro _

theorem execFallowReqNHigh_keeps (m : BitVec 64) (s0 x0 : State) (hm : m &&& 0x400000001#64 = 0#64) (h : Keeps m s0 x0) :
    KeepsOut m s0 (execFallowReqNHigh x0) := by
  unfold execFallowReqNHigh
  repeat' first
    | (with_reducible first
        | assumption | apply keepsOut_fault | apply keepsOut_next | apply setBit_keeps)
    | exact maskSub hm (by decide) | split
    | (intro q hq; cases q <;> first | exact absurd hq (maskOff hm (by decide)) | with_reducible rfl)
    | exact fun _ => ⟨List.prefix_rfl, id⟩ | exact fun _ => ⟨List.prefix_rfl, fun _ => rfl⟩
    | exact fun g => absurd g (maskOff hm (by decide)) | (fail_if_no_progress with_reducible apply keeps_frame)

theorem execFaultNPulseEnd_keeps (m : BitVec 64) (s0 x0 : State) (hm : m &&& 0x10400000001#64 = 0#64) (h : Keeps m s0 x0) :
    KeepsOut m s0 (execFaultNPulseEnd x0) := by
  unfold execFaultNPulseEnd
  repeat' first
    | (with_reducible first
        | assumption | apply keepsOut_fault | apply keepsOut_next | apply showPin_keeps)
    | exact maskSub hm (by decide) | split
    | (intro q hq; cases q <;> first | exact absurd hq (maskOff hm (by decide)) | with_reducible rfl)
    | exact fun _ => ⟨List.prefix_rfl, id⟩ | exact fun _ => ⟨List.prefix_rfl, fun _ => rfl⟩
    | exact fun g => absurd g (maskOff hm (by decide)) | (fail_if_no_progress with_reducible apply keeps_frame)

theorem execMgmtLockstep_keeps (m : BitVec 64) (s0 x0 : State) (hm : m &&& 0x31E8BB9F45F#64 = 0#64) (h : Keeps m s0 x0) :
    KeepsOut m s0 (execMgmtLockstep x0) := by
  unfold execMgmtLockstep
  try dsimp only
  repeat' first
    | (with_reducible first
        | assumption | apply keepsOut_fault | apply keepsOut_next | apply keepsOut_ite
        | apply keeps_ite | apply setBit_keeps | apply serve_keeps)
    | exact maskSub hm (by decide) | dsimp only | split
    | (intro q hq; cases q <;> first | exact absurd hq (maskOff hm (by decide)) | with_reducible rfl)
    | exact fun _ => ⟨List.prefix_rfl, id⟩ | exact fun _ => ⟨List.prefix_rfl, fun _ => rfl⟩
    | exact fun g => absurd g (maskOff hm (by decide)) | (fail_if_no_progress with_reducible apply keeps_frame) | intro _

theorem execMgmtWatchdog_keeps (m : BitVec 64) (s0 x0 : State) (hm : m &&& 0x31E8BB9F45F#64 = 0#64) (h : Keeps m s0 x0) :
    KeepsOut m s0 (execMgmtWatchdog x0) := by
  unfold execMgmtWatchdog
  repeat' first
    | (with_reducible first
        | assumption | apply keepsOut_fault | apply keepsOut_next | apply keepsOut_ite
        | apply keeps_ite | apply serve_keeps)
    | exact maskSub hm (by decide) | split
    | (intro q hq; cases q <;> first | exact absurd hq (maskOff hm (by decide)) | with_reducible rfl)
    | exact fun _ => ⟨List.prefix_rfl, id⟩ | exact fun _ => ⟨List.prefix_rfl, fun _ => rfl⟩
    | exact fun g => absurd g (maskOff hm (by decide)) | (fail_if_no_progress with_reducible apply keeps_frame) | intro _

theorem execWatchdogService_keeps (m : BitVec 64) (s0 x0 : State) (hm : m &&& 0x400000002#64 = 0#64) (h : Keeps m s0 x0) :
    KeepsOut m s0 (execWatchdogService x0) := by
  unfold execWatchdogService
  repeat' first
    | (with_reducible first
        | assumption | apply keepsOut_fault | apply keepsOut_next | apply keepsOut_ite
        | apply keeps_ite | apply ctrAdd_keeps)
    | exact maskSub hm (by decide) | split
    | (intro q hq; cases q <;> first | exact absurd hq (maskOff hm (by decide)) | with_reducible rfl)
    | exact fun _ => ⟨List.prefix_rfl, id⟩ | exact fun _ => ⟨List.prefix_rfl, fun _ => rfl⟩
    | exact fun g => absurd g (maskOff hm (by decide)) | (fail_if_no_progress with_reducible apply keeps_frame) | intro _

theorem execTrapReturn_keeps (m : BitVec 64) (s0 x0 : State) (hm : m &&& 0x400000002#64 = 0#64) (h : Keeps m s0 x0) :
    KeepsOut m s0 (execTrapReturn x0) := by
  unfold execTrapReturn
  repeat' first
    | (with_reducible first
        | assumption | apply keepsOut_fault | apply keepsOut_next | apply keepsOut_ite
        | apply keeps_ite | apply ctrAdd_keeps)
    | exact maskSub hm (by decide) | split
    | (intro q hq; cases q <;> first | exact absurd hq (maskOff hm (by decide)) | with_reducible rfl)
    | exact fun _ => ⟨List.prefix_rfl, id⟩ | exact fun _ => ⟨List.prefix_rfl, fun _ => rfl⟩
    | exact fun g => absurd g (maskOff hm (by decide)) | (fail_if_no_progress with_reducible apply keeps_frame) | intro _

theorem execHandshakeStall_keeps (m : BitVec 64) (s0 : State) (sourceType : BitVec 8) (inst : Nat)
     (slotsInFlight : List Nat) (x3 : State) (hm : m &&& 0x30C0BB9E45F#64 = 0#64) (h : Keeps m s0 x3) :
    KeepsOut m s0 (execHandshakeStall sourceType inst slotsInFlight x3) := by
  unfold execHandshakeStall
  try dsimp only
  repeat' first
    | (with_reducible first
        | assumption | apply keepsOut_next | apply keepsOut_ite | apply keeps_ite
        | apply keeps_foldl | apply slotLost_keeps | apply failCluster_keeps | apply report_keeps)
    | exact maskSub hm (by decide) | dsimp only | split | intro _

theorem execRegisterSweep_keeps (m : BitVec 64) (s0 : State) (bad : List (Prod Nat Bool)) (x1 : State)
     (hm : m &&& 0x400000001#64 = 0#64) (h : Keeps m s0 x1) :
    KeepsOut m s0 (execRegisterSweep bad x1) := by
  unfold execRegisterSweep
  try dsimp only
  repeat' first
    | (with_reducible first
        | assumption | apply keepsOut_next | apply keepsOut_ite | apply keeps_ite
        | apply keeps_foldl | apply keeps_foldl_fst | apply keeps_foldl_snd | apply keeps_ite_fst | apply keeps_ite_snd
        | apply report_keeps | refine keeps_of_snd (by assumption) ?_ | refine keeps_of_fst (by assumption) ?_)
    | exact maskSub hm (by decide) | dsimp only | split | intro _

theorem execTileSelfTest_keeps (m : BitVec 64) (s0 : State) (tile : Nat) (x1 : State) (hm : m &&& 0x400000000#64 = 0#64)
     (h : Keeps m s0 x1) :
    KeepsOut m s0 (execTileSelfTest tile x1) := by
  unfold execTileSelfTest
  repeat' first
    | (with_reducible first
        | assumption | apply keepsOut_fault | apply keepsOut_next | apply keepsOut_ite
        | apply keeps_ite)
    | exact maskSub hm (by decide) | split
    | (intro q hq; cases q <;> first | exact absurd hq (maskOff hm (by decide)) | with_reducible rfl)
    | exact fun _ => ⟨List.prefix_rfl, id⟩ | exact fun _ => ⟨List.prefix_rfl, fun _ => rfl⟩
    | exact fun g => absurd g (maskOff hm (by decide)) | (fail_if_no_progress with_reducible apply keeps_frame) | intro _

theorem execTileSelfTestDone_keeps (m : BitVec 64) (s0 : State) (tile : Nat) (pass : Bool) (x2 : State)
     (hm : m &&& 0x30C0BB9E45F#64 = 0#64) (h : Keeps m s0 x2) :
    KeepsOut m s0 (execTileSelfTestDone tile pass x2) := by
  unfold execTileSelfTestDone
  try dsimp only
  repeat' first
    | (with_reducible first
        | assumption | apply keepsOut_fault | apply keepsOut_next | apply keepsOut_ite
        | apply keeps_ite | apply report_keeps | apply withdrawTile_keeps)
    | exact maskSub hm (by decide) | dsimp only | split
    | (intro q hq; cases q <;> first | exact absurd hq (maskOff hm (by decide)) | with_reducible rfl)
    | exact fun _ => ⟨List.prefix_rfl, id⟩ | exact fun _ => ⟨List.prefix_rfl, fun _ => rfl⟩
    | exact fun g => absurd g (maskOff hm (by decide)) | (fail_if_no_progress with_reducible apply keeps_frame) | intro _

theorem execCrossingWordRx_keeps (m : BitVec 64) (s0 : State) (crossing channel : Nat) (codes : List (BitVec 4))
     (victim : Nat) (x4 : State) (hm : m &&& 0x30C0BB9E45F#64 = 0#64) (h : Keeps m s0 x4) :
    KeepsOut m s0 (execCrossingWordRx crossing channel codes victim x4) := by
  unfold execCrossingWordRx
  try dsimp only
  repeat' first
    | (with_reducible first
        | assumption | apply keepsOut_next | apply keepsOut_ite | apply keeps_ite
        | apply discardCell_keeps | apply slotLost_keeps | apply stageResidue_keeps | apply engineFault_keeps
        | apply report_keeps)
    | exact maskSub hm (by decide) | dsimp only | split | intro _

theorem loseWork_keeps (m : BitVec 64) (s0 s : State) (hm : m &&& 0x3B9E001#64 = 0#64) (h : Keeps m s0 s) :
    Keeps m s0 (loseWork s) := by
  unfold loseWork
  refine keeps_forUp _ _ _ _ (fun _ _ hx => showPools_keeps _ _ _ _ (maskSub hm (by decide)) hx) ?_
  exact ⟨h.pending, fun k => h.canonical k, h.fuses, fun q hq => by
    refine Part.same_trans q (h.same q hq) ?_
    cases q <;> first | exact absurd hq (maskOff hm (by decide)) | exact rfl,
    fun g => ⟨(h.grows g).1, (h.grows g).2.1, fun _ _ _ => rfl, (h.grows g).2.2.2⟩⟩

theorem railsOff_keeps (m : BitVec 64) (s0 x0 : State) (hm : m &&& 0x10400000181#64 = 0#64) (h : Keeps m s0 x0) :
    Keeps m s0 (railsOff x0) := by
  unfold railsOff
  try dsimp only
  repeat' first
    | (with_reducible first
        | assumption | apply keeps_foldl | apply setBit_keeps | apply emit_keeps)
    | exact maskSub hm (by decide) | dsimp only | split
    | (intro q hq; cases q <;> first | exact absurd hq (maskOff hm (by decide)) | with_reducible rfl)
    | exact fun _ => ⟨List.prefix_rfl, id⟩ | exact fun _ => ⟨List.prefix_rfl, fun _ => rfl⟩
    | exact fun g => absurd g (maskOff hm (by decide)) | (fail_if_no_progress with_reducible apply keeps_frame) | intro _

theorem execFallowBlocksHeld_keeps (m : BitVec 64) (s0 x0 : State) (hm : m &&& 0x10C0BB9E183#64 = 0#64) (h : Keeps m s0 x0) :
    KeepsOut m s0 (execFallowBlocksHeld x0) := by
  unfold execFallowBlocksHeld
  try dsimp only
  repeat' first
    | (with_reducible first
        | assumption | apply keepsOut_fault | apply keepsOut_next | apply keepsOut_ite
        | apply keeps_ite | apply loseWork_keeps | apply runSwath_keeps | apply railsOff_keeps)
    | exact maskSub hm (by decide) | dsimp only | split
    | (intro q hq; cases q <;> first | exact absurd hq (maskOff hm (by decide)) | with_reducible rfl)
    | exact fun _ => ⟨List.prefix_rfl, id⟩ | exact fun _ => ⟨List.prefix_rfl, fun _ => rfl⟩
    | exact fun g => absurd g (maskOff hm (by decide)) | (fail_if_no_progress with_reducible apply keeps_frame) | intro _

theorem execHostLinkUp_keeps (m : BitVec 64) (s0 : State) (mode : Nat) (trained : Bool) (x2 : State)
     (hm : m &&& 0x4000000001#64 = 0#64) (h : Keeps m s0 x2) :
    KeepsOut m s0 (execHostLinkUp mode trained x2) := by
  unfold execHostLinkUp
  try dsimp only
  repeat' first
    | (with_reducible first
        | assumption | apply keepsOut_next | apply keepsOut_ite | apply keeps_ite
        | apply fset_keeps | apply setBit_keeps)
    | exact maskSub hm (by decide) | dsimp only | split
    | (intro q hq; cases q <;> first | exact absurd hq (maskOff hm (by decide)) | with_reducible rfl)
    | exact fun _ => ⟨List.prefix_rfl, id⟩ | exact fun _ => ⟨List.prefix_rfl, fun _ => rfl⟩
    | exact fun g => absurd g (maskOff hm (by decide)) | (fail_if_no_progress with_reducible apply keeps_frame) | intro _

theorem execHostLinkLoss_keeps (m : BitVec 64) (s0 x0 : State) (hm : m &&& 0x4000000001#64 = 0#64) (h : Keeps m s0 x0) :
    KeepsOut m s0 (execHostLinkLoss x0) := by
  unfold execHostLinkLoss
  repeat' first
    | (with_reducible first
        | assumption | apply keepsOut_next | apply keepsOut_ite | apply keeps_ite
        | apply hostLinkDown_keeps)
    | exact maskSub hm (by decide) | split | intro _

theorem execHostFrameRx_keeps (m : BitVec 64) (s0 : State) (frame : HostFrame) (x1 : State)
     (hm : m &&& 0x10000000002#64 = 0#64) (h : Keeps m s0 x1) :
    KeepsOut m s0 (execHostFrameRx frame x1) := by
  unfold execHostFrameRx
  try dsimp only
  repeat' first
    | (with_reducible first
        | assumption | apply keepsOut_next | apply keepsOut_ite | apply keeps_ite
        | apply ctrAdd_keeps | apply emit_keeps)
    | exact maskSub hm (by decide) | dsimp only | split | intro _

theorem execShafortSegmentRx_keeps (m : BitVec 64) (s0 : State) (d : Dgram) (x1 : State) (hm : m &&& 0x8000002#64 = 0#64)
     (h : Keeps m s0 x1) :
    KeepsOut m s0 (execShafortSegmentRx d x1) := by
  unfold execShafortSegmentRx
  repeat' first
    | (with_reducible first
        | assumption | apply keepsOut_next | apply keepsOut_ite | apply keeps_ite
        | apply ctrAdd_keeps | apply setSession_keeps)
    | exact maskSub hm (by decide) | split | intro _

theorem execSegmentTimeout_keeps (m : BitVec 64) (s0 : State) (session : Nat) (msgNum : Word) (x2 : State)
     (hm : m &&& 0x8000000#64 = 0#64) (h : Keeps m s0 x2) :
    KeepsOut m s0 (execSegmentTimeout session msgNum x2) := by
  unfold execSegmentTimeout
  repeat' first
    | (with_reducible first
        | assumption | apply keepsOut_next | apply setSession_keeps)
    | exact maskSub hm (by decide) | dsimp only | split | intro _

theorem execHello_keeps (m : BitVec 64) (s0 : State) (ver : Byte) (role : Nat) (nonce : List Byte) (linkLocal : Bool)
     (x4 : State) (hm : m &&& 0x30008000002#64 = 0#64) (h : Keeps m s0 x4) :
    KeepsOut m s0 (execHello ver role nonce linkLocal x4) := by
  unfold execHello
  try dsimp only
  repeat' first
    | (with_reducible first
        | assumption | apply keepsOut_next | apply keepsOut_ite | apply keeps_ite
        | apply keeps_ite_fst | apply keeps_ite_snd | apply sendError_keeps | apply draw_keeps | apply setSession_keeps
        | apply sendMsg_keeps | refine keeps_of_snd (by assumption) ?_ | refine keeps_of_fst (by assumption) ?_)
    | exact maskSub hm (by decide) | dsimp only | split
    | (intro q hq; cases q <;> first | exact absurd hq (maskOff hm (by decide)) | with_reducible rfl)
    | exact fun _ => ⟨List.prefix_rfl, id⟩ | exact fun _ => ⟨List.prefix_rfl, fun _ => rfl⟩
    | exact fun g => absurd g (maskOff hm (by decide)) | (fail_if_no_progress with_reducible apply keeps_frame) | intro _

theorem openEffects_keeps (m : BitVec 64) (s0 x0 : State) (x : Session) (sid : Nat) (x3 : Proven)
     (hm : m &&& 0x180000001#64 = 0#64) (h : Keeps m s0 x0) :
    Keeps m s0 (openEffects x0 x sid x3) := by
  unfold openEffects
  try dsimp only
  repeat' first
    | (with_reducible first
        | assumption | apply keeps_ite | apply auditAdd_keeps | apply refreshCert_keeps)
    | exact maskSub hm (by decide) | dsimp only | split | omega
    | (intro q hq; cases q <;> first | exact absurd hq (maskOff hm (by decide)) | with_reducible rfl)
    | exact fun _ => ⟨List.prefix_rfl, id⟩ | exact fun _ => ⟨List.prefix_rfl, fun _ => rfl⟩
    | exact fun g => absurd g (maskOff hm (by decide)) | (fail_if_no_progress with_reducible apply keeps_frame)
    | (fail_if_no_progress with_reducible apply keeps_fuses) | intro _

theorem execProof_keeps (m : BitVec 64) (s0 : State) (session : Nat) (body : ProofBody) (x2 : State)
     (hm : m &&& 0x10188000003#64 = 0#64) (h : Keeps m s0 x2) :
    KeepsOut m s0 (execProof session body x2) := by
  unfold execProof
  try dsimp only
  repeat' first
    | (with_reducible first
        | assumption | apply keepsOut_next | apply keepsOut_ite | apply keeps_ite
        | apply setSession_keeps | apply sendError_keeps | apply openEffects_keeps | apply auditAdd_keeps
        | apply sendMsg_keeps)
    | exact maskSub hm (by decide) | dsimp only | split | intro _

theorem execProofTimeout_keeps (m : BitVec 64) (s0 : State) (session : Nat) (x1 : State) (hm : m &&& 0x8000000#64 = 0#64)
     (h : Keeps m s0 x1) :
    KeepsOut m s0 (execProofTimeout session x1) := by
  unfold execProofTimeout
  repeat' first
    | (with_reducible first
        | assumption | apply keepsOut_next | apply keepsOut_ite | apply keeps_ite
        | apply setSession_keeps)
    | exact maskSub hm (by decide) | split | intro _

theorem unsettle_keeps (m : BitVec 64) (s0 x0 : State) (t : Transfer) (hm : m &&& 0x200000#64 = 0#64) (h : Keeps m s0 x0) :
    Keeps m s0 (unsettle x0 t) := by
  unfold unsettle
  repeat' first
    | (with_reducible first
        | assumption | apply keeps_ite | apply setJob_keeps)
    | exact maskSub hm (by decide) | split | intro _

theorem abortTransfer_keeps (m : BitVec 64) (s0 x0 : State) (sid tr : Nat) (hm : m &&& 0x20200000#64 = 0#64)
     (h : Keeps m s0 x0) :
    Keeps m s0 (abortTransfer x0 sid tr) := by
  unfold abortTransfer
  try dsimp only
  repeat' first
    | (with_reducible first
        | assumption | apply keeps_foldl | apply unsettle_keeps)
    | exact maskSub hm (by decide) | dsimp only | split
    | (intro q hq; cases q <;> first | exact absurd hq (maskOff hm (by decide)) | with_reducible rfl)
    | exact fun _ => ⟨List.prefix_rfl, id⟩ | exact fun _ => ⟨List.prefix_rfl, fun _ => rfl⟩
    | exact fun g => absurd g (maskOff hm (by decide)) | (fail_if_no_progress with_reducible apply keeps_frame) | intro _

theorem closeSession_keeps (m : BitVec 64) (s0 x0 : State) (sid cause : Nat) (hm : m &&& 0x100B8200002#64 = 0#64)
     (h : Keeps m s0 x0) :
    Keeps m s0 (closeSession x0 sid cause) := by
  unfold closeSession
  try dsimp only
  repeat' first
    | (with_reducible first
        | assumption | apply keeps_ite | apply keeps_foldl | apply auditAdd_keeps
        | apply sendMsg_keeps | apply abortTransfer_keeps | apply setSession_keeps | refine keeps_of_snd (by assumption) ?_
        | refine keeps_of_fst (by assumption) ?_)
    | exact maskSub hm (by decide) | dsimp only | split
    | (intro q hq; cases q <;> first | exact absurd hq (maskOff hm (by decide)) | with_reducible rfl)
    | exact fun _ => ⟨List.prefix_rfl, id⟩ | exact fun _ => ⟨List.prefix_rfl, fun _ => rfl⟩
    | exact fun g => absurd g (maskOff hm (by decide)) | (fail_if_no_progress with_reducible apply keeps_frame) | intro _

theorem execClose_keeps (m : BitVec 64) (s0 : State) (session : Nat) (x1 : State) (hm : m &&& 0x100B8200002#64 = 0#64)
     (h : Keeps m s0 x1) :
    KeepsOut m s0 (execClose session x1) := by
  unfold execClose
  repeat' first
    | (with_reducible first
        | assumption | apply keepsOut_next | apply keepsOut_ite | apply keeps_ite
        | apply closeSession_keeps)
    | exact maskSub hm (by decide) | split | intro _

theorem execKeepalive_keeps (m : BitVec 64) (s0 : State) (_session : Nat) (x1 : State) (hm : m &&& 0x0#64 = 0#64)
     (h : Keeps m s0 x1) :
    KeepsOut m s0 (execKeepalive _session x1) := by
  unfold execKeepalive
  repeat' first
    | (with_reducible first
        | assumption | apply keepsOut_next)
    | exact maskSub hm (by decide) | split

theorem execSessionIdleTimeout_keeps (m : BitVec 64) (s0 : State) (session : Nat) (x1 : State)
     (hm : m &&& 0x100B8200002#64 = 0#64) (h : Keeps m s0 x1) :
    KeepsOut m s0 (execSessionIdleTimeout session x1) := by
  unfold execSessionIdleTimeout
  repeat' first
    | (with_reducible first
        | assumption | apply keepsOut_next | apply closeSession_keeps)
    | exact maskSub hm (by decide) | split

theorem begin'_keeps (m : BitVec 64) (s0 x0 : State) (sid x2 : Nat) (hm : m &&& 0x8000000#64 = 0#64) (h : Keeps m s0 x0) :
    Keeps m s0 (begin' x0 sid x2) := by
  unfold begin'
  repeat' first
    | (with_reducible first
        | assumption | apply setSession_keeps)
    | exact maskSub hm (by decide) | split

theorem respond_keeps (m : BitVec 64) (s0 x0 : State) (sid x2 ty status : Nat) (body : List Byte)
     (hm : m &&& 0x10008000002#64 = 0#64) (h : Keeps m s0 x0) :
    Keeps m s0 (respond x0 sid x2 ty status body) := by
  unfold respond
  try dsimp only
  repeat' first
    | (with_reducible first
        | assumption | apply sendMsg_keeps | apply setSession_keeps)
    | exact maskSub hm (by decide) | dsimp only | split

theorem request_keeps (m : BitVec 64) (s0 x0 : State) (sid x2 : Nat) (allowed : Bool) (f : State → Session → State)
     (hm : m &&& 0x10008000002#64 = 0#64) (hf : ∀ y0 y1, Keeps m s0 y0 → Keeps m s0 (f y0 y1)) (h : Keeps m s0 x0) :
    Keeps m s0 (request x0 sid x2 allowed f) := by
  unfold request
  repeat' first
    | (with_reducible first
        | assumption | apply keeps_ite | apply sendMsg_keeps | apply sendError_keeps
        | apply begin'_keeps | apply hf)
    | exact maskSub hm (by decide) | split | intro _

theorem execSubscribe_keeps (m : BitVec 64) (s0 : State) (session : Nat) (msgNum : Word) (ranges : List (Prod Nat Nat))
     (x3 : State) (hm : m &&& 0x10008000002#64 = 0#64) (h : Keeps m s0 x3) :
    KeepsOut m s0 (execSubscribe session msgNum ranges x3) := by
  unfold execSubscribe
  try dsimp only
  repeat' first
    | (with_reducible first
        | assumption | apply keepsOut_next | apply keepsOut_ite | apply keeps_ite
        | apply keeps_foldl | apply keeps_foldl_fst | apply keeps_foldl_snd | apply keeps_ite_fst | apply keeps_ite_snd
        | apply request_keeps | apply respond_keeps | apply setSession_keeps | refine keeps_of_snd (by assumption) ?_
        | refine keeps_of_fst (by assumption) ?_)
    | exact maskSub hm (by decide) | dsimp only | split | intro _

theorem nextPageEvent_keeps (m : BitVec 64) (s0 x0 : State) (sid page : Nat) (hm : m &&& 0x10008000002#64 = 0#64)
     (h : Keeps m s0 x0) :
    Keeps m s0 (nextPageEvent x0 sid page) := by
  unfold nextPageEvent
  try dsimp only
  repeat' first
    | (with_reducible first
        | assumption | apply keeps_ite | apply sendPageEvent_keeps | apply setSession_keeps)
    | exact maskSub hm (by decide) | dsimp only | split | intro _

theorem lostEvent_keeps (m : BitVec 64) (s0 x0 : State) (sid : Nat) (hm : m &&& 0x10008000002#64 = 0#64) (h : Keeps m s0 x0) :
    Keeps m s0 (lostEvent x0 sid) := by
  unfold lostEvent
  try dsimp only
  repeat' first
    | (with_reducible first
        | assumption | apply keeps_ite | apply sendMsg_keeps | apply setSession_keeps)
    | exact maskSub hm (by decide) | dsimp only | split
    | (intro q hq; cases q <;> first | exact absurd hq (maskOff hm (by decide)) | with_reducible rfl)
    | exact fun _ => ⟨List.prefix_rfl, id⟩ | exact fun _ => ⟨List.prefix_rfl, fun _ => rfl⟩
    | exact fun g => absurd g (maskOff hm (by decide)) | (fail_if_no_progress with_reducible apply keeps_frame) | intro _

theorem execEventAck_keeps (m : BitVec 64) (s0 : State) (session evtSeq : Nat) (x2 : State)
     (hm : m &&& 0x10008000002#64 = 0#64) (h : Keeps m s0 x2) :
    KeepsOut m s0 (execEventAck session evtSeq x2) := by
  unfold execEventAck
  try dsimp only
  repeat' first
    | (with_reducible first
        | assumption | apply keepsOut_next | apply keepsOut_ite | apply keeps_ite
        | apply nextPageEvent_keeps | apply setSession_keeps | apply lostEvent_keeps)
    | exact maskSub hm (by decide) | dsimp only | split | intro _

theorem execEventResendTimer_keeps (m : BitVec 64) (s0 : State) (session evtSeq : Nat) (x2 : State)
     (hm : m &&& 0x10008000002#64 = 0#64) (h : Keeps m s0 x2) :
    KeepsOut m s0 (execEventResendTimer session evtSeq x2) := by
  unfold execEventResendTimer
  repeat' first
    | (with_reducible first
        | assumption | apply keepsOut_next | apply sendMsg_keeps)
    | exact maskSub hm (by decide) | split

theorem execEventAckTimeout_keeps (m : BitVec 64) (s0 : State) (session evtSeq : Nat) (x2 : State)
     (hm : m &&& 0x100B8200002#64 = 0#64) (h : Keeps m s0 x2) :
    KeepsOut m s0 (execEventAckTimeout session evtSeq x2) := by
  unfold execEventAckTimeout
  repeat' first
    | (with_reducible first
        | assumption | apply keepsOut_next | apply keepsOut_ite | apply keeps_ite
        | apply closeSession_keeps)
    | exact maskSub hm (by decide) | split | intro _

theorem setTransfer_keeps (m : BitVec 64) (s0 x0 : State) (x : Transfer) (hm : m &&& 0x20000000#64 = 0#64)
     (h : Keeps m s0 x0) :
    Keeps m s0 (setTransfer x0 x) := by
  unfold setTransfer
  repeat' first
    | (with_reducible first
        | assumption | apply keeps_ite)
    | exact maskSub hm (by decide) | dsimp only | split
    | (intro q hq; cases q <;> first | exact absurd hq (maskOff hm (by decide)) | with_reducible rfl)
    | exact fun _ => ⟨List.prefix_rfl, id⟩ | exact fun _ => ⟨List.prefix_rfl, fun _ => rfl⟩
    | exact fun g => absurd g (maskOff hm (by decide)) | (fail_if_no_progress with_reducible apply keeps_frame) | intro _

theorem dropTransfer_keeps (m : BitVec 64) (s0 x0 : State) (sid tr : Nat) (hm : m &&& 0x20000000#64 = 0#64)
     (h : Keeps m s0 x0) :
    Keeps m s0 (dropTransfer x0 sid tr) := by
  unfold dropTransfer
  repeat' first
    | (with_reducible first
        | assumption)
    | exact maskSub hm (by decide) | dsimp only | split
    | (intro q hq; cases q <;> first | exact absurd hq (maskOff hm (by decide)) | with_reducible rfl)
    | exact fun _ => ⟨List.prefix_rfl, id⟩ | exact fun _ => ⟨List.prefix_rfl, fun _ => rfl⟩
    | exact fun g => absurd g (maskOff hm (by decide)) | (fail_if_no_progress with_reducible apply keeps_frame) | intro _

theorem regionForHost_keeps (m : BitVec 64) (s0 x0 : State) (j : JobSt) (e : Region) (o n : Nat)
     (hm : m &&& 0x20000000000#64 = 0#64) (h : Keeps m s0 x0) :
    Keeps m s0 (regionForHost x0 j e o n).2 := by
  unfold regionForHost
  try dsimp only
  repeat' first
    | (with_reducible first
        | assumption | apply keeps_ite | apply keeps_ite_fst | apply keeps_ite_snd
        | apply draw_keeps | refine keeps_of_snd (by assumption) ?_ | refine keeps_of_fst (by assumption) ?_)
    | exact maskSub hm (by decide) | dsimp only | split | intro _

theorem bulkData_keeps (m : BitVec 64) (s0 x0 : State) (r : BulkReq) (hm : m &&& 0x20000000000#64 = 0#64)
     (h : Keeps m s0 x0) :
    Keeps m s0 (bulkData x0 r).2 := by
  unfold bulkData
  repeat' first
    | (with_reducible first
        | assumption | apply regionForHost_keeps | refine keeps_of_snd (by assumption) ?_
        | refine keeps_of_fst (by assumption) ?_)
    | exact maskSub hm (by decide) | dsimp only | split | intro _

theorem sendSegment_keeps (m : BitVec 64) (s0 x0 : State) (t : Transfer) (g : Nat) (hm : m &&& 0x10008000002#64 = 0#64)
     (h : Keeps m s0 x0) :
    Keeps m s0 (sendSegment x0 t g) := by
  unfold sendSegment
  try dsimp only
  repeat' first
    | (with_reducible first
        | assumption | apply sendMsg_keeps | apply ctrAdd_keeps)
    | exact maskSub hm (by decide) | dsimp only | split

theorem pumpTransfer_keeps (m : BitVec 64) (s0 : State) (x0 : Nat) (x1 : State) (x2 : Transfer)
     (hm : m &&& 0x10028000002#64 = 0#64) (h : Keeps m s0 x1) :
    Keeps m s0 (pumpTransfer x0 x1 x2) := by
  induction x0 generalizing x1 x2 with
  | zero =>
    unfold pumpTransfer
    try dsimp only
    repeat' first
      | (with_reducible first
          | assumption | apply keeps_ite | apply setTransfer_keeps
          | apply sendSegment_keeps)
      | exact maskSub hm (by decide) | split | intro _
  | succ k ih =>
    unfold pumpTransfer
    try dsimp only
    repeat' first
      | (with_reducible first
          | assumption | apply ih | apply keeps_ite | apply setTransfer_keeps
          | apply sendSegment_keeps)
      | exact maskSub hm (by decide) | split | intro _

theorem serveOpen_keeps (m : BitVec 64) (s0 x0 : State) (t : Transfer) (hm : m &&& 0x30028000002#64 = 0#64)
     (h : Keeps m s0 x0) :
    Keeps m s0 (serveOpen x0 t) := by
  unfold serveOpen
  try dsimp only
  repeat' first
    | (with_reducible first
        | assumption | apply keeps_ite | apply keeps_ite_fst | apply keeps_ite_snd
        | apply bulkData_keeps | apply respond_keeps | apply setTransfer_keeps | apply pumpTransfer_keeps
        | refine keeps_of_snd (by assumption) ?_ | refine keeps_of_fst (by assumption) ?_)
    | exact maskSub hm (by decide) | dsimp only | split | intro _

theorem bulkOpenNow_keeps (m : BitVec 64) (s0 x0 : State) (sid x2 : Nat) (x : Session) (r : BulkReq)
     (hm : m &&& 0x30038000002#64 = 0#64) (h : Keeps m s0 x0) :
    Keeps m s0 (bulkOpenNow x0 sid x2 x r) := by
  unfold bulkOpenNow
  try dsimp only
  repeat' first
    | (with_reducible first
        | assumption | apply keeps_ite | apply respond_keeps | apply serveOpen_keeps)
    | exact maskSub hm (by decide) | dsimp only | split
    | (intro q hq; cases q <;> first | exact absurd hq (maskOff hm (by decide)) | with_reducible rfl)
    | exact fun _ => ⟨List.prefix_rfl, id⟩ | exact fun _ => ⟨List.prefix_rfl, fun _ => rfl⟩
    | exact fun g => absurd g (maskOff hm (by decide)) | (fail_if_no_progress with_reducible apply keeps_frame) | intro _

theorem execBulkOpen_keeps (m : BitVec 64) (s0 : State) (session : Nat) (msgNum : Word) (req : BulkReq) (x3 : State)
     (hm : m &&& 0x30038000002#64 = 0#64) (h : Keeps m s0 x3) :
    KeepsOut m s0 (execBulkOpen session msgNum req x3) := by
  unfold execBulkOpen
  repeat' first
    | (with_reducible first
        | assumption | apply keepsOut_next | apply request_keeps | apply bulkOpenNow_keeps)
    | exact maskSub hm (by decide) | dsimp only | split | intro _

theorem execBulkOpenResume_keeps (m : BitVec 64) (s0 : State) (session transfer : Nat) (x2 : State)
     (hm : m &&& 0x30028000002#64 = 0#64) (h : Keeps m s0 x2) :
    KeepsOut m s0 (execBulkOpenResume session transfer x2) := by
  unfold execBulkOpenResume
  repeat' first
    | (with_reducible first
        | assumption | apply keepsOut_next | apply keepsOut_ite | apply keeps_ite
        | apply serveOpen_keeps | apply respond_keeps | apply dropTransfer_keeps)
    | exact maskSub hm (by decide) | split | intro _

theorem bulkMsg_keeps (m : BitVec 64) (s0 x0 : State) (sid tr : Nat) (f : Transfer → State)
     (hm : m &&& 0x10008000002#64 = 0#64) (hf : ∀ y0, Keeps m s0 (f y0)) (h : Keeps m s0 x0) :
    Keeps m s0 (bulkMsg x0 sid tr f) := by
  unfold bulkMsg
  repeat' first
    | (with_reducible first
        | assumption | apply keeps_ite | apply sendError_keeps | apply hf)
    | exact maskSub hm (by decide) | split | intro _

theorem sendBulkAck_keeps (m : BitVec 64) (s0 x0 : State) (t : Transfer) (hm : m &&& 0x10028000002#64 = 0#64)
     (h : Keeps m s0 x0) :
    Keeps m s0 (sendBulkAck x0 t) := by
  unfold sendBulkAck
  repeat' first
    | (with_reducible first
        | assumption | apply sendMsg_keeps | apply setTransfer_keeps)
    | exact maskSub hm (by decide) | split

theorem writeSegment_keeps (m : BitVec 64) (s0 x0 : State) (t : Transfer) (g : Nat) (bs : List Byte)
     (hm : m &&& 0x18#64 = 0#64) (h : Keeps m s0 x0) :
    Keeps m s0 (writeSegment x0 t g bs).1 := by
  unfold writeSegment
  try dsimp only
  repeat' first
    | (with_reducible first
        | assumption | apply memStore_keeps | apply regionWrite_keeps
        | refine keeps_of_snd (by assumption) ?_ | refine keeps_of_fst (by assumption) ?_)
    | exact maskSub hm (by decide) | dsimp only | split

theorem execBulkData_keeps (m : BitVec 64) (s0 : State) (session transfer seg : Nat) (data : List Byte) (x4 : State)
     (hm : m &&& 0x1002820001A#64 = 0#64) (h : Keeps m s0 x4) :
    KeepsOut m s0 (execBulkData session transfer seg data x4) := by
  unfold execBulkData
  try dsimp only
  repeat' first
    | (with_reducible first
        | assumption | apply keepsOut_next | apply keepsOut_ite | apply keeps_ite
        | apply keeps_ite_fst | apply keeps_ite_snd | apply bulkMsg_keeps | apply sendError_keeps
        | apply abortTransfer_keeps | apply writeSegment_keeps | apply ctrAdd_keeps | apply setTransfer_keeps
        | apply sendBulkAck_keeps | refine keeps_of_snd (by assumption) ?_ | refine keeps_of_fst (by assumption) ?_)
    | exact maskSub hm (by decide) | dsimp only | split | intro _

theorem execBulkAckTimer_keeps (m : BitVec 64) (s0 : State) (session transfer : Nat) (x2 : State)
     (hm : m &&& 0x10028000002#64 = 0#64) (h : Keeps m s0 x2) :
    KeepsOut m s0 (execBulkAckTimer session transfer x2) := by
  unfold execBulkAckTimer
  repeat' first
    | (with_reducible first
        | assumption | apply keepsOut_next | apply keepsOut_ite | apply keeps_ite
        | apply sendBulkAck_keeps)
    | exact maskSub hm (by decide) | split | intro _

theorem execBulkAck_keeps (m : BitVec 64) (s0 : State) (session transfer cum : Nat) (sack : List Nat) (x4 : State)
     (hm : m &&& 0x10028000002#64 = 0#64) (h : Keeps m s0 x4) :
    KeepsOut m s0 (execBulkAck session transfer cum sack x4) := by
  unfold execBulkAck
  try dsimp only
  repeat' first
    | (with_reducible first
        | assumption | apply keepsOut_next | apply keepsOut_ite | apply keeps_ite
        | apply keeps_foldl | apply bulkMsg_keeps | apply sendSegment_keeps | apply setTransfer_keeps
        | apply pumpTransfer_keeps)
    | exact maskSub hm (by decide) | dsimp only | split | intro _

theorem execBulkResendTimer_keeps (m : BitVec 64) (s0 : State) (session transfer seg : Nat) (x3 : State)
     (hm : m &&& 0x10008000002#64 = 0#64) (h : Keeps m s0 x3) :
    KeepsOut m s0 (execBulkResendTimer session transfer seg x3) := by
  unfold execBulkResendTimer
  repeat' first
    | (with_reducible first
        | assumption | apply keepsOut_next | apply keepsOut_ite | apply keeps_ite
        | apply sendSegment_keeps)
    | exact maskSub hm (by decide) | split | intro _

theorem commitTransfer_keeps (m : BitVec 64) (s0 x0 : State) (t : Transfer) (hm : m &&& 0x8020200001#64 = 0#64)
     (h : Keeps m s0 x0) :
    Keeps m s0 (commitTransfer x0 t) := by
  unfold commitTransfer
  try dsimp only
  repeat' first
    | (with_reducible first
        | assumption | apply keeps_ite | apply dropTransfer_keeps | apply setJob_keeps
        | apply fset_keeps)
    | exact maskSub hm (by decide) | dsimp only | split
    | (intro q hq; cases q <;> first | exact absurd hq (maskOff hm (by decide)) | with_reducible rfl)
    | exact fun _ => ⟨List.prefix_rfl, id⟩ | exact fun _ => ⟨List.prefix_rfl, fun _ => rfl⟩
    | exact fun g => absurd g (maskOff hm (by decide)) | (fail_if_no_progress with_reducible apply keeps_frame) | intro _

theorem execBulkCommit_keeps (m : BitVec 64) (s0 : State) (session : Nat) (msgNum : Word) (transfer : Nat) (x3 : State)
     (hm : m &&& 0x18028200003#64 = 0#64) (h : Keeps m s0 x3) :
    KeepsOut m s0 (execBulkCommit session msgNum transfer x3) := by
  unfold execBulkCommit
  try dsimp only
  repeat' first
    | (with_reducible first
        | assumption | apply keepsOut_next | apply keepsOut_ite | apply keeps_ite
        | apply request_keeps | apply respond_keeps | apply commitTransfer_keeps)
    | exact maskSub hm (by decide) | dsimp only | split | intro _

theorem execBulkIdleTimeout_keeps (m : BitVec 64) (s0 : State) (session transfer : Nat) (x2 : State)
     (hm : m &&& 0x20200000#64 = 0#64) (h : Keeps m s0 x2) :
    KeepsOut m s0 (execBulkIdleTimeout session transfer x2) := by
  unfold execBulkIdleTimeout
  repeat' first
    | (with_reducible first
        | assumption | apply keepsOut_next | apply keepsOut_ite | apply keeps_ite
        | apply abortTransfer_keeps)
    | exact maskSub hm (by decide) | split | intro _

theorem setFwState_keeps (m : BitVec 64) (s0 x0 : State) (v : Nat) (hm : m &&& 0x1#64 = 0#64) (h : Keeps m s0 x0) :
    Keeps m s0 (setFwState x0 v) := by
  unfold setFwState
  repeat' first
    | (with_reducible first
        | assumption | apply fset_keeps)
    | exact maskSub hm (by decide) | split

theorem fwRecord_keeps (m : BitVec 64) (s0 x0 : State) (img : List Byte) (code : Nat) (hm : m &&& 0x80000000#64 = 0#64)
     (h : Keeps m s0 x0) :
    Keeps m s0 (fwRecord x0 img code) := by
  unfold fwRecord
  repeat' first
    | (with_reducible first
        | assumption | apply keeps_ite | apply auditDevice_keeps)
    | exact maskSub hm (by decide) | split | intro _

theorem execFwCheckDone_keeps (m : BitVec 64) (s0 x0 : State) (hm : m &&& 0x80C0000001#64 = 0#64) (h : Keeps m s0 x0) :
    KeepsOut m s0 (execFwCheckDone x0) := by
  unfold execFwCheckDone
  try dsimp only
  repeat' first
    | (with_reducible first
        | assumption | apply keepsOut_next | apply keepsOut_ite | apply keeps_ite
        | apply setFwState_keeps | apply fset_keeps | apply fwRecord_keeps)
    | exact maskSub hm (by decide) | dsimp only | split
    | (intro q hq; cases q <;> first | exact absurd hq (maskOff hm (by decide)) | with_reducible rfl)
    | exact fun _ => ⟨List.prefix_rfl, id⟩ | exact fun _ => ⟨List.prefix_rfl, fun _ => rfl⟩
    | exact fun g => absurd g (maskOff hm (by decide)) | (fail_if_no_progress with_reducible apply keeps_frame) | intro _

theorem execFwProgramDone_keeps (m : BitVec 64) (s0 : State) (readBackOk : Bool) (x1 : State)
     (hm : m &&& 0x80C0000001#64 = 0#64) (h : Keeps m s0 x1) :
    KeepsOut m s0 (execFwProgramDone readBackOk x1) := by
  unfold execFwProgramDone
  try dsimp only
  repeat' first
    | (with_reducible first
        | assumption | apply keepsOut_next | apply keepsOut_ite | apply keeps_ite
        | apply setFwState_keeps | apply fwRecord_keeps | apply auditDevice_keeps)
    | exact maskSub hm (by decide) | dsimp only | split
    | (intro q hq; cases q <;> first | exact absurd hq (maskOff hm (by decide)) | with_reducible rfl)
    | exact fun _ => ⟨List.prefix_rfl, id⟩ | exact fun _ => ⟨List.prefix_rfl, fun _ => rfl⟩
    | exact fun g => absurd g (maskOff hm (by decide)) | (fail_if_no_progress with_reducible apply keeps_frame) | intro _

theorem pumpAudit_keeps (m : BitVec 64) (s0 : State) (x0 : Nat) (x1 : Bool) (x2 : State) (x3 : Nat)
     (hm : m &&& 0x10008000002#64 = 0#64) (h : Keeps m s0 x2) :
    Keeps m s0 (pumpAudit x0 x1 x2 x3) := by
  induction x0 generalizing x1 x2 x3 with
  | zero =>
    unfold pumpAudit
    try dsimp only
    repeat' first
      | (with_reducible first
          | assumption | apply keeps_ite | apply setSession_keeps
          | apply sendMsg_keeps)
      | exact maskSub hm (by decide) | dsimp only | split | intro _
  | succ k ih =>
    unfold pumpAudit
    try dsimp only
    repeat' first
      | (with_reducible first
          | assumption | apply ih | apply keeps_ite | apply setSession_keeps
          | apply sendMsg_keeps)
      | exact maskSub hm (by decide) | dsimp only | split | intro _

theorem pumpStreams_keeps (m : BitVec 64) (s0 x0 : State) (hm : m &&& 0x10008000002#64 = 0#64) (h : Keeps m s0 x0) :
    Keeps m s0 (pumpStreams x0) := by
  unfold pumpStreams
  repeat' first
    | (with_reducible first
        | assumption | apply keeps_foldl | apply pumpAudit_keeps
        | refine keeps_of_snd (by assumption) ?_ | refine keeps_of_fst (by assumption) ?_)
    | exact maskSub hm (by decide) | dsimp only | split | intro _

theorem execAuditStart_keeps (m : BitVec 64) (s0 : State) (session fromSeq : Nat) (x2 : State)
     (hm : m &&& 0x10008000002#64 = 0#64) (h : Keeps m s0 x2) :
    KeepsOut m s0 (execAuditStart session fromSeq x2) := by
  unfold execAuditStart
  try dsimp only
  repeat' first
    | (with_reducible first
        | assumption | apply keepsOut_next | apply keepsOut_ite | apply keeps_ite
        | apply setSession_keeps | apply pumpAudit_keeps)
    | exact maskSub hm (by decide) | dsimp only | split | intro _

theorem execAuditAck_keeps (m : BitVec 64) (s0 : State) (session next : Nat) (x2 : State)
     (hm : m &&& 0x10088000002#64 = 0#64) (h : Keeps m s0 x2) :
    KeepsOut m s0 (execAuditAck session next x2) := by
  unfold execAuditAck
  try dsimp only
  repeat' first
    | (with_reducible first
        | assumption | apply keepsOut_next | apply keepsOut_ite | apply keeps_ite
        | apply setSession_keeps | apply pumpAudit_keeps)
    | exact maskSub hm (by decide) | dsimp only | split
    | (intro q hq; cases q <;> first | exact absurd hq (maskOff hm (by decide)) | with_reducible rfl)
    | exact fun _ => ⟨List.prefix_rfl, id⟩ | exact fun _ => ⟨List.prefix_rfl, fun _ => rfl⟩
    | exact fun g => absurd g (maskOff hm (by decide)) | (fail_if_no_progress with_reducible apply keeps_frame) | intro _

theorem execAuditResendTimer_keeps (m : BitVec 64) (s0 : State) (session : Nat) (x1 : State)
     (hm : m &&& 0x10008000002#64 = 0#64) (h : Keeps m s0 x1) :
    KeepsOut m s0 (execAuditResendTimer session x1) := by
  unfold execAuditResendTimer
  repeat' first
    | (with_reducible first
        | assumption | apply keepsOut_next | apply keepsOut_ite | apply keeps_ite
        | apply pumpAudit_keeps | apply setSession_keeps)
    | exact maskSub hm (by decide) | split | intro _

theorem ringTake_keeps (m : BitVec 64) (s0 x0 : State) (r : AuditRec) (hm : m &&& 0x100C8000003#64 = 0#64)
     (h : Keeps m s0 x0) :
    Keeps m s0 (ringTake x0 r) := by
  unfold ringTake
  try dsimp only
  repeat' first
    | (with_reducible first
        | assumption | apply keeps_ite | apply raise_keeps | apply refreshCert_keeps)
    | exact maskSub hm (by decide) | dsimp only | split
    | (intro q hq; cases q <;> first | exact absurd hq (maskOff hm (by decide)) | with_reducible rfl)
    | exact fun _ => ⟨List.prefix_rfl, id⟩ | exact fun _ => ⟨List.prefix_rfl, fun _ => rfl⟩
    | exact fun g => absurd g (maskOff hm (by decide)) | (fail_if_no_progress with_reducible apply keeps_frame) | intro _

theorem execAuditRecordProgram_keeps (m : BitVec 64) (s0 x0 : State) (hm : m &&& 0x100C8000003#64 = 0#64)
     (h : Keeps m s0 x0) :
    KeepsOut m s0 (execAuditRecordProgram x0) := by
  unfold execAuditRecordProgram
  repeat' first
    | (with_reducible first
        | assumption | apply keepsOut_next | apply keepsOut_ite | apply keeps_ite
        | apply pumpStreams_keeps | apply commitTxn_keeps | apply ringTake_keeps)
    | exact maskSub hm (by decide) | split
    | (intro q hq; cases q <;> first | exact absurd hq (maskOff hm (by decide)) | with_reducible rfl)
    | exact fun _ => ⟨List.prefix_rfl, id⟩ | exact fun _ => ⟨List.prefix_rfl, fun _ => rfl⟩
    | exact fun g => absurd g (maskOff hm (by decide)) | (fail_if_no_progress with_reducible apply keeps_frame) | intro _

theorem formReport_keeps (m : BitVec 64) (s0 x0 : State) (hm : m &&& 0x10000000#64 = 0#64) (h : Keeps m s0 x0) :
    Keeps m s0 (formReport x0) := by
  unfold formReport
  repeat' first
    | (with_reducible first
        | assumption | apply keeps_ite)
    | exact maskSub hm (by decide) | split
    | (intro q hq; cases q <;> first | exact absurd hq (maskOff hm (by decide)) | with_reducible rfl)
    | exact fun _ => ⟨List.prefix_rfl, id⟩ | exact fun _ => ⟨List.prefix_rfl, fun _ => rfl⟩
    | exact fun g => absurd g (maskOff hm (by decide)) | (fail_if_no_progress with_reducible apply keeps_frame) | intro _

theorem execAttestReq_keeps (m : BitVec 64) (s0 : State) (session : Nat) (msgNum : Word) (nonce : List Byte) (x3 : State)
     (hm : m &&& 0x10018000002#64 = 0#64) (h : Keeps m s0 x3) :
    KeepsOut m s0 (execAttestReq session msgNum nonce x3) := by
  unfold execAttestReq
  repeat' first
    | (with_reducible first
        | assumption | apply keepsOut_next | apply keepsOut_ite | apply keeps_ite
        | apply request_keeps | apply respond_keeps | apply formReport_keeps)
    | exact maskSub hm (by decide) | dsimp only | split
    | (intro q hq; cases q <;> first | exact absurd hq (maskOff hm (by decide)) | with_reducible rfl)
    | exact fun _ => ⟨List.prefix_rfl, id⟩ | exact fun _ => ⟨List.prefix_rfl, fun _ => rfl⟩
    | exact fun g => absurd g (maskOff hm (by decide)) | (fail_if_no_progress with_reducible apply keeps_frame) | intro _

theorem execAttestSigned_keeps (m : BitVec 64) (s0 x0 : State) (hm : m &&& 0x30018000002#64 = 0#64) (h : Keeps m s0 x0) :
    KeepsOut m s0 (execAttestSigned x0) := by
  unfold execAttestSigned
  try dsimp only
  repeat' first
    | (with_reducible first
        | assumption | apply keepsOut_next | apply formReport_keeps | apply draw_keeps
        | apply respond_keeps | refine keeps_of_snd (by assumption) ?_ | refine keeps_of_fst (by assumption) ?_)
    | exact maskSub hm (by decide) | dsimp only | split
    | (intro q hq; cases q <;> first | exact absurd hq (maskOff hm (by decide)) | with_reducible rfl)
    | exact fun _ => ⟨List.prefix_rfl, id⟩ | exact fun _ => ⟨List.prefix_rfl, fun _ => rfl⟩
    | exact fun g => absurd g (maskOff hm (by decide)) | (fail_if_no_progress with_reducible apply keeps_frame)

theorem recommission_keeps (m : BitVec 64) (s0 x0 : State) (who : Requester) (katPass : Bool)
     (hm : m &&& 0x39F8BB9F45F#64 = 0#64) (h : Keeps m s0 x0) :
    Keeps m s0 (recommission x0 who katPass) := by
  unfold recommission
  try dsimp only
  repeat' first
    | (with_reducible first
        | assumption | apply keeps_ite | apply keeps_ite_fst | apply keeps_ite_snd
        | apply draw_keeps | apply serve_keeps | apply auditAdd_keeps | apply refreshCert_keeps
        | refine keeps_of_snd (by assumption) ?_ | refine keeps_of_fst (by assumption) ?_)
    | exact maskSub hm (by decide) | dsimp only | split | omega
    | (intro q hq; cases q <;> first | exact absurd hq (maskOff hm (by decide)) | with_reducible rfl)
    | exact fun _ => ⟨List.prefix_rfl, id⟩ | exact fun _ => ⟨List.prefix_rfl, fun _ => rfl⟩
    | exact fun g => absurd g (maskOff hm (by decide)) | (fail_if_no_progress with_reducible apply keeps_frame)
    | (fail_if_no_progress with_reducible apply keeps_fuses) | intro _

theorem decommission_keeps (m : BitVec 64) (s0 x0 : State) (who : Requester) (hm : m &&& 0x101B8200003#64 = 0#64)
     (h : Keeps m s0 x0) :
    Keeps m s0 (decommission x0 who) := by
  unfold decommission
  try dsimp only
  repeat' first
    | (with_reducible first
        | assumption | apply keeps_foldl | apply auditAdd_keeps | apply regsReset_keeps
        | apply setSession_keeps | apply closeSession_keeps | apply refreshCert_keeps
        | refine keeps_of_snd (by assumption) ?_ | refine keeps_of_fst (by assumption) ?_)
    | exact maskSub hm (by decide) | dsimp only | split | omega
    | (intro q hq; cases q <;> first | exact absurd hq (maskOff hm (by decide)) | with_reducible rfl)
    | exact fun _ => ⟨List.prefix_rfl, id⟩ | exact fun _ => ⟨List.prefix_rfl, fun _ => rfl⟩
    | exact fun g => absurd g (maskOff hm (by decide)) | (fail_if_no_progress with_reducible apply keeps_frame)
    | (fail_if_no_progress with_reducible apply keeps_fuses) | intro _

theorem execJtagExtest_keeps (m : BitVec 64) (s0 : State) (instruction : Nat) (x1 : State)
     (hm : m &&& 0x19E8801F443#64 = 0#64) (h : Keeps m s0 x1) :
    KeepsOut m s0 (execJtagExtest instruction x1) := by
  unfold execJtagExtest
  repeat' first
    | (with_reducible first
        | assumption | apply keepsOut_next | apply keepsOut_ite | apply keeps_ite
        | apply enterFallow_keeps | apply auditDevice_keeps)
    | exact maskSub hm (by decide) | split
    | (intro q hq; cases q <;> first | exact absurd hq (maskOff hm (by decide)) | with_reducible rfl)
    | exact fun _ => ⟨List.prefix_rfl, id⟩ | exact fun _ => ⟨List.prefix_rfl, fun _ => rfl⟩
    | exact fun g => absurd g (maskOff hm (by decide)) | (fail_if_no_progress with_reducible apply keeps_frame) | intro _

theorem setRefOk_keeps (m : BitVec 64) (s0 x0 : State) (r v : Bool) (hm : m &&& 0x1#64 = 0#64) (h : Keeps m s0 x0) :
    Keeps m s0 (setRefOk x0 r v) := by
  unfold setRefOk
  repeat' first
    | (with_reducible first
        | assumption | apply keeps_ite | apply setBit_keeps)
    | exact maskSub hm (by decide) | split | intro _

theorem setCoast_keeps (m : BitVec 64) (s0 x0 : State) (n : Nat) (v : Bool) (hm : m &&& 0x1#64 = 0#64) (h : Keeps m s0 x0) :
    Keeps m s0 (setCoast x0 n v) := by
  unfold setCoast
  try dsimp only
  repeat' first
    | (with_reducible first
        | assumption | apply keeps_ite | apply setBit_keeps | apply showClock_keeps)
    | exact maskSub hm (by decide) | dsimp only | split | intro _

theorem coastAll_keeps (m : BitVec 64) (s0 x0 : State) (hm : m &&& 0x1#64 = 0#64) (h : Keeps m s0 x0) :
    Keeps m s0 (coastAll x0) := by
  unfold coastAll
  repeat' first
    | (with_reducible first
        | assumption | apply keeps_foldl | apply setCoast_keeps)
    | exact maskSub hm (by decide) | dsimp only | split | intro _

theorem linksLost_keeps (m : BitVec 64) (s0 x0 : State) (hm : m &&& 0x15C0801FE43#64 = 0#64) (h : Keeps m s0 x0) :
    Keeps m s0 (linksLost x0) := by
  unfold linksLost
  repeat' first
    | (with_reducible first
        | assumption | apply keeps_ite | apply keeps_forUp | apply hostLinkDown_keeps
        | apply losePort_keeps)
    | exact maskSub hm (by decide) | dsimp only | split | intro _

theorem moveLoops_keeps (m : BitVec 64) (s0 x0 : State) (ref : Bool) (hm : m &&& 0x203#64 = 0#64) (h : Keeps m s0 x0) :
    Keeps m s0 (moveLoops x0 ref) := by
  unfold moveLoops
  try dsimp only
  repeat' first
    | (with_reducible first
        | assumption | apply keeps_ite | apply keeps_foldl | apply keeps_forUp
        | apply setBit_keeps | apply setCoast_keeps | apply ctrAdd_keeps | refine keeps_of_snd (by assumption) ?_
        | refine keeps_of_fst (by assumption) ?_)
    | exact maskSub hm (by decide) | dsimp only | split
    | (intro q hq; cases q <;> first | exact absurd hq (maskOff hm (by decide)) | with_reducible rfl)
    | exact fun _ => ⟨List.prefix_rfl, id⟩ | exact fun _ => ⟨List.prefix_rfl, fun _ => rfl⟩
    | exact fun g => absurd g (maskOff hm (by decide)) | (fail_if_no_progress with_reducible apply keeps_frame) | intro _

theorem execRefClockLoss_keeps (m : BitVec 64) (s0 : State) (ref : Bool) (x1 : State) (hm : m &&& 0x15C0801FE43#64 = 0#64)
     (h : Keeps m s0 x1) :
    KeepsOut m s0 (execRefClockLoss ref x1) := by
  unfold execRefClockLoss
  try dsimp only
  repeat' first
    | (with_reducible first
        | assumption | apply keepsOut_next | apply keepsOut_ite | apply keeps_ite
        | apply ctrAdd_keeps | apply setRefOk_keeps | apply report_keeps | apply linksLost_keeps | apply coastAll_keeps
        | apply moveLoops_keeps)
    | exact maskSub hm (by decide) | dsimp only | split | intro _

theorem execRefClockReturn_keeps (m : BitVec 64) (s0 : State) (ref : Bool) (x1 : State) (hm : m &&& 0x1#64 = 0#64)
     (h : Keeps m s0 x1) :
    KeepsOut m s0 (execRefClockReturn ref x1) := by
  unfold execRefClockReturn
  repeat' first
    | (with_reducible first
        | assumption | apply keepsOut_next | apply keepsOut_ite | apply keeps_ite
        | apply setRefOk_keeps)
    | exact maskSub hm (by decide) | split | intro _

theorem refSelect_keeps (m : BitVec 64) (s0 x0 : State) (sel : Bool) (hm : m &&& 0x15C0801FE43#64 = 0#64)
     (h : Keeps m s0 x0) :
    Keeps m s0 (refSelect x0 sel) := by
  unfold refSelect
  try dsimp only
  repeat' first
    | (with_reducible first
        | assumption | apply keeps_ite | apply moveLoops_keeps | apply linksLost_keeps
        | apply coastAll_keeps | apply setBit_keeps)
    | exact maskSub hm (by decide) | dsimp only | split | intro _

theorem execClockFallback_keeps (m : BitVec 64) (s0 : State) (reserveGood : Bool) (x1 : State)
     (hm : m &&& 0x31E8BB9F45F#64 = 0#64) (h : Keeps m s0 x1) :
    KeepsOut m s0 (execClockFallback reserveGood x1) := by
  unfold execClockFallback
  repeat' first
    | (with_reducible first
        | assumption | apply keepsOut_fault | apply keepsOut_next | apply keepsOut_ite
        | apply keeps_ite | apply serve_keeps | apply report_keeps | apply unlockTime_keeps | apply setBit_keeps)
    | exact maskSub hm (by decide) | split
    | (intro q hq; cases q <;> first | exact absurd hq (maskOff hm (by decide)) | with_reducible rfl)
    | exact fun _ => ⟨List.prefix_rfl, id⟩ | exact fun _ => ⟨List.prefix_rfl, fun _ => rfl⟩
    | exact fun g => absurd g (maskOff hm (by decide)) | (fail_if_no_progress with_reducible apply keeps_frame) | intro _

theorem execPaceSample_keeps (m : BitVec 64) (s0 : State) (monitor rate : Nat) (x2 : State) (hm : m &&& 0x101#64 = 0#64)
     (h : Keeps m s0 x2) :
    KeepsOut m s0 (execPaceSample monitor rate x2) := by
  unfold execPaceSample
  try dsimp only
  repeat' first
    | (with_reducible first
        | assumption | apply keepsOut_next | apply keepsOut_ite | apply keeps_ite
        | apply fset_keeps | apply wr_keeps | refine keeps_of_snd (by assumption) ?_
        | refine keeps_of_fst (by assumption) ?_)
    | exact maskSub hm (by decide) | dsimp only | split
    | (intro q hq; cases q <;> first | exact absurd hq (maskOff hm (by decide)) | with_reducible rfl)
    | exact fun _ => ⟨List.prefix_rfl, id⟩ | exact fun _ => ⟨List.prefix_rfl, fun _ => rfl⟩
    | exact fun g => absurd g (maskOff hm (by decide)) | (fail_if_no_progress with_reducible apply keeps_frame) | intro _

theorem setVcore_keeps (m : BitVec 64) (s0 x0 : State) (v : Nat) (hm : m &&& 0x10000000001#64 = 0#64) (h : Keeps m s0 x0) :
    Keeps m s0 (setVcore x0 v) := by
  unfold setVcore
  repeat' first
    | (with_reducible first
        | assumption | apply keeps_ite | apply emit_keeps | apply fset_keeps)
    | exact maskSub hm (by decide) | split | intro _

theorem execPowerControlTick_keeps (m : BitVec 64) (s0 : State) (railDw railMv tj : List Nat) (x3 : State)
     (hm : m &&& 0x10008000003#64 = 0#64) (h : Keeps m s0 x3) :
    KeepsOut m s0 (execPowerControlTick railDw railMv tj x3) := by
  unfold execPowerControlTick
  try dsimp only
  repeat' first
    | (with_reducible first
        | assumption | apply keepsOut_next | apply keepsOut_ite | apply keeps_ite
        | apply keeps_foldl | apply keeps_forUp | apply fset_keeps | apply setBit_keeps | apply raise_keeps
        | apply ctrAdd_keeps | apply setVcore_keeps)
    | exact maskSub hm (by decide) | dsimp only | split | intro _

theorem execPmbusAlert_keeps (m : BitVec 64) (s0 x0 : State) (hm : m &&& 0x10000000000#64 = 0#64) (h : Keeps m s0 x0) :
    KeepsOut m s0 (execPmbusAlert x0) := by
  unfold execPmbusAlert
  repeat' first
    | (with_reducible first
        | assumption | apply keepsOut_next | apply keepsOut_ite | apply keeps_ite
        | apply keeps_forUp | apply emit_keeps)
    | exact maskSub hm (by decide) | dsimp only | split | intro _

theorem execThermalTrip_keeps (m : BitVec 64) (s0 : State) (sensor : Nat) (x1 : State) (hm : m &&& 0x31E8BB9F45F#64 = 0#64)
     (h : Keeps m s0 x1) :
    KeepsOut m s0 (execThermalTrip sensor x1) := by
  unfold execThermalTrip
  repeat' first
    | (with_reducible first
        | assumption | apply keepsOut_next | apply keepsOut_ite | apply keeps_ite
        | apply serve_keeps)
    | exact maskSub hm (by decide) | split | intro _

theorem closeBySupply_keeps (m : BitVec 64) (s0 x0 : State) (hm : m &&& 0x11C0801F443#64 = 0#64) (h : Keeps m s0 x0) :
    Keeps m s0 (closeBySupply x0) := by
  unfold closeBySupply
  repeat' first
    | (with_reducible first
        | assumption | apply keeps_forUp | apply closeNow_keeps)
    | exact maskSub hm (by decide) | dsimp only | split | intro _

theorem supplyFault_keeps (m : BitVec 64) (s0 x0 : State) (rail : Nat) (hm : m &&& 0x31E8BB9F5DF#64 = 0#64)
     (h : Keeps m s0 x0) :
    Keeps m s0 (supplyFault x0 rail) := by
  unfold supplyFault
  try dsimp only
  repeat' first
    | (with_reducible first
        | assumption | apply keeps_ite | apply setBit_keeps | apply serve_keeps
        | apply closeBySupply_keeps | apply railsOff_keeps)
    | exact maskSub hm (by decide) | dsimp only | split
    | (intro q hq; cases q <;> first | exact absurd hq (maskOff hm (by decide)) | with_reducible rfl)
    | exact fun _ => ⟨List.prefix_rfl, id⟩ | exact fun _ => ⟨List.prefix_rfl, fun _ => rfl⟩
    | exact fun g => absurd g (maskOff hm (by decide)) | (fail_if_no_progress with_reducible apply keeps_frame) | intro _

theorem execSupplyOutOfRange_keeps (m : BitVec 64) (s0 : State) (rail : Nat) (x1 : State)
     (hm : m &&& 0x31E8BB9F5DF#64 = 0#64) (h : Keeps m s0 x1) :
    KeepsOut m s0 (execSupplyOutOfRange rail x1) := by
  unfold execSupplyOutOfRange
  repeat' first
    | (with_reducible first
        | assumption | apply keepsOut_next | apply keepsOut_ite | apply keeps_ite
        | apply supplyFault_keeps)
    | exact maskSub hm (by decide) | split | intro _

theorem commandRails_keeps (m : BitVec 64) (s0 x0 : State) (rs : List Nat) (hm : m &&& 0x10000000100#64 = 0#64)
     (h : Keeps m s0 x0) :
    Keeps m s0 (commandRails x0 rs) := by
  unfold commandRails
  try dsimp only
  repeat' first
    | (with_reducible first
        | assumption | apply keeps_ite | apply keeps_foldl | apply emit_keeps)
    | exact maskSub hm (by decide) | dsimp only | split
    | (intro q hq; cases q <;> first | exact absurd hq (maskOff hm (by decide)) | with_reducible rfl)
    | exact fun _ => ⟨List.prefix_rfl, id⟩ | exact fun _ => ⟨List.prefix_rfl, fun _ => rfl⟩
    | exact fun g => absurd g (maskOff hm (by decide)) | (fail_if_no_progress with_reducible apply keeps_frame) | intro _

theorem execRailPowerGoodTimeout_keeps (m : BitVec 64) (s0 : State) (rail : Nat) (x1 : State)
     (hm : m &&& 0x31E8BB9F5DF#64 = 0#64) (h : Keeps m s0 x1) :
    KeepsOut m s0 (execRailPowerGoodTimeout rail x1) := by
  unfold execRailPowerGoodTimeout
  try dsimp only
  repeat' first
    | (with_reducible first
        | assumption | apply keepsOut_next | apply keepsOut_ite | apply keeps_ite
        | apply keeps_foldl | apply setBit_keeps | apply commandRails_keeps | apply supplyFault_keeps)
    | exact maskSub hm (by decide) | dsimp only | split | intro _

theorem execVioLoss_keeps (m : BitVec 64) (s0 x0 : State) (hm : m &&& 0x11C0801F4C3#64 = 0#64) (h : Keeps m s0 x0) :
    KeepsOut m s0 (execVioLoss x0) := by
  unfold execVioLoss
  repeat' first
    | (with_reducible first
        | assumption | apply keepsOut_next | apply closeBySupply_keeps)
    | exact maskSub hm (by decide) | split
    | (intro q hq; cases q <;> first | exact absurd hq (maskOff hm (by decide)) | with_reducible rfl)
    | exact fun _ => ⟨List.prefix_rfl, id⟩ | exact fun _ => ⟨List.prefix_rfl, fun _ => rfl⟩
    | exact fun g => absurd g (maskOff hm (by decide)) | (fail_if_no_progress with_reducible apply keeps_frame)

theorem resetSessions_keeps (m : BitVec 64) (s0 x0 : State) (hm : m &&& 0x80000000#64 = 0#64) (h : Keeps m s0 x0) :
    Keeps m s0 (resetSessions x0) := by
  unfold resetSessions
  repeat' first
    | (with_reducible first
        | assumption | apply keeps_foldl | apply auditAdd_keeps
        | refine keeps_of_snd (by assumption) ?_ | refine keeps_of_fst (by assumption) ?_)
    | exact maskSub hm (by decide) | dsimp only | split | intro _

theorem afterReset_keeps (m : BitVec 64) (s0 x0 : State) (kind : Nat) (straps : Word)
     (hm : m &&& 0x800002FC3FFFFFFF#64 = 0#64) (h : Keeps m s0 x0) :
    Keeps m s0 (afterReset x0 kind straps) := by
  unfold afterReset
  try dsimp only
  repeat' first
    | (with_reducible first
        | assumption | apply keeps_ite | apply keeps_forUp | apply wr_keeps
        | apply realign_keeps | apply setBit_keeps | apply fset_keeps)
    | exact keeps_reset _ _ _ _ _ hm h | exact maskSub hm (by decide) | dsimp only | split | intro _

theorem releasePin_keeps (m : BitVec 64) (s0 x0 t : State) (hm : m &&& 0x10000000000#64 = 0#64) (h0 : Keeps m s0 x0)
     (h1 : Keeps m s0 t) :
    Keeps m s0 (releasePin x0 t) := by
  unfold releasePin
  repeat' first
    | (with_reducible first
        | assumption | apply keeps_ite | apply emit_keeps)
    | exact maskSub hm (by decide) | split | intro _

theorem resetTo_keeps (m : BitVec 64) (s0 x0 : State) (kind : Nat) (straps : Word) (ph : Phase)
     (hm : m &&& 0x800003FCBFFFFFFF#64 = 0#64) (h : Keeps m s0 x0) :
    Keeps m s0 (resetTo x0 kind straps ph) := by
  unfold resetTo
  repeat' first
    | (with_reducible first
        | assumption | apply releasePin_keeps | apply afterReset_keeps
        | apply resetSessions_keeps)
    | exact maskSub hm (by decide) | split
    | (intro q hq; cases q <;> first | exact absurd hq (maskOff hm (by decide)) | with_reducible rfl)
    | exact fun _ => ⟨List.prefix_rfl, id⟩ | exact fun _ => ⟨List.prefix_rfl, fun _ => rfl⟩
    | exact fun g => absurd g (maskOff hm (by decide)) | (fail_if_no_progress with_reducible apply keeps_frame)

theorem execResetNAssert_keeps (m : BitVec 64) (s0 x0 : State) (hm : m &&& 0x800003FCBFFFFFFF#64 = 0#64) (h : Keeps m s0 x0) :
    KeepsOut m s0 (execResetNAssert x0) := by
  unfold execResetNAssert
  repeat' first
    | (with_reducible first
        | assumption | apply keepsOut_next | apply keepsOut_ite | apply keeps_ite
        | apply resetTo_keeps)
    | exact maskSub hm (by decide) | split | intro _

theorem execResetNRelease_keeps (m : BitVec 64) (s0 : State) (makerEn bistQuick : Bool) (x2 : State)
     (hm : m &&& 0x81#64 = 0#64) (h : Keeps m s0 x2) :
    KeepsOut m s0 (execResetNRelease makerEn bistQuick x2) := by
  unfold execResetNRelease
  repeat' first
    | (with_reducible first
        | assumption | apply keepsOut_next | apply keepsOut_ite | apply keeps_ite
        | apply wr_keeps)
    | exact maskSub hm (by decide) | split
    | (intro q hq; cases q <;> first | exact absurd hq (maskOff hm (by decide)) | with_reducible rfl)
    | exact fun _ => ⟨List.prefix_rfl, id⟩ | exact fun _ => ⟨List.prefix_rfl, fun _ => rfl⟩
    | exact fun g => absurd g (maskOff hm (by decide)) | (fail_if_no_progress with_reducible apply keeps_frame) | intro _

theorem recomputeAudit_keeps (m : BitVec 64) (s0 x0 : State) (hm : m &&& 0x80000000#64 = 0#64) (h : Keeps m s0 x0) :
    Keeps m s0 (recomputeAudit x0) := by
  unfold recomputeAudit
  repeat' first
    | (with_reducible first
        | assumption)
    | exact maskSub hm (by decide) | split
    | (intro q hq; cases q <;> first | exact absurd hq (maskOff hm (by decide)) | with_reducible rfl)
    | exact fun _ => ⟨List.prefix_rfl, id⟩ | exact fun _ => ⟨List.prefix_rfl, fun _ => rfl⟩
    | exact fun g => absurd g (maskOff hm (by decide)) | (fail_if_no_progress with_reducible apply keeps_frame)

theorem execPowerOn_keeps (m : BitVec 64) (s0 : State) (makerEn bistQuick : Bool) (x2 : State)
     (hm : m &&& 0x800002FEBFFFFFFF#64 = 0#64) (h : Keeps m s0 x2) :
    KeepsOut m s0 (execPowerOn makerEn bistQuick x2) := by
  unfold execPowerOn
  try dsimp only
  repeat' first
    | (with_reducible first
        | assumption | apply keepsOut_next | apply recomputeAudit_keeps
        | apply afterReset_keeps)
    | exact maskSub hm (by decide) | dsimp only | split
    | (intro q hq; cases q <;> first | exact absurd hq (maskOff hm (by decide)) | with_reducible rfl)
    | exact fun _ => ⟨List.prefix_rfl, id⟩ | exact fun _ => ⟨List.prefix_rfl, fun _ => rfl⟩
    | exact fun g => absurd g (maskOff hm (by decide)) | (fail_if_no_progress with_reducible apply keeps_frame)

theorem chipResetNow_keeps (m : BitVec 64) (s0 x0 : State) (kind : Nat) (hm : m &&& 0x800003FCBFFFFFFF#64 = 0#64)
     (h : Keeps m s0 x0) :
    Keeps m s0 (chipResetNow x0 kind) := by
  unfold chipResetNow
  repeat' first
    | (with_reducible first
        | assumption | apply keeps_ite | apply resetTo_keeps)
    | exact maskSub hm (by decide) | split | intro _

theorem chipResetReaction_keeps (m : BitVec 64) (s0 x0 : State) (hm : m &&& 0x800003FCBFFFFFFF#64 = 0#64)
     (h : Keeps m s0 x0) :
    Keeps m s0 (chipResetReaction x0) := by
  unfold chipResetReaction
  repeat' first
    | (with_reducible first
        | assumption | apply keeps_ite | apply chipResetNow_keeps)
    | exact maskSub hm (by decide) | split | intro _

theorem setStep'_keeps (m : BitVec 64) (s0 x0 : State) (k : Nat) (hm : m &&& 0x1#64 = 0#64) (h : Keeps m s0 x0) :
    Keeps m s0 (setStep' x0 k) := by
  unfold setStep'
  repeat' first
    | (with_reducible first
        | assumption | apply fset_keeps)
    | exact maskSub hm (by decide) | split

theorem stepRails_keeps (m : BitVec 64) (s0 x0 : State) (hm : m &&& 0x10000000101#64 = 0#64) (h : Keeps m s0 x0) :
    Keeps m s0 (stepRails x0) := by
  unfold stepRails
  try dsimp only
  repeat' first
    | (with_reducible first
        | assumption | apply keeps_ite | apply keeps_forUp | apply commandRails_keeps
        | apply setBit_keeps)
    | exact maskSub hm (by decide) | dsimp only | split | intro _

theorem stepRom_keeps (m : BitVec 64) (s0 x0 : State) (hm : m &&& 0x31E8BB9F65F#64 = 0#64) (h : Keeps m s0 x0) :
    Keeps m s0 (stepRom x0) := by
  unfold stepRom
  try dsimp only
  repeat' first
    | (with_reducible first
        | assumption | apply keeps_ite | apply turnOnChain_keeps | apply setBit_keeps
        | apply serve_keeps)
    | exact maskSub hm (by decide) | dsimp only | split | intro _

theorem bootFails_keeps (m : BitVec 64) (s0 x0 : State) (code : Nat) (hm : m &&& 0x11E8801F4C3#64 = 0#64)
     (h : Keeps m s0 x0) :
    Keeps m s0 (bootFails x0 code) := by
  unfold bootFails
  repeat' first
    | (with_reducible first
        | assumption | apply enterFallow_keeps | apply fset_keeps)
    | exact maskSub hm (by decide) | split
    | (intro q hq; cases q <;> first | exact absurd hq (maskOff hm (by decide)) | with_reducible rfl)
    | exact fun _ => ⟨List.prefix_rfl, id⟩ | exact fun _ => ⟨List.prefix_rfl, fun _ => rfl⟩
    | exact fun g => absurd g (maskOff hm (by decide)) | (fail_if_no_progress with_reducible apply keeps_frame)

theorem runImage_keeps (m : BitVec 64) (s0 x0 : State) (hm : m &&& 0x8000000000#64 = 0#64) (h : Keeps m s0 x0) :
    Keeps m s0 (runImage x0) := by
  unfold runImage
  repeat' first
    | (with_reducible first
        | assumption)
    | exact maskSub hm (by decide) | split
    | (intro q hq; cases q <;> first | exact absurd hq (maskOff hm (by decide)) | with_reducible rfl)
    | exact fun _ => ⟨List.prefix_rfl, id⟩ | exact fun _ => ⟨List.prefix_rfl, fun _ => rfl⟩
    | exact fun g => absurd g (maskOff hm (by decide)) | (fail_if_no_progress with_reducible apply keeps_frame)

theorem releaseRetired_keeps (m : BitVec 64) (s0 x0 : State) (unit : Nat) (hm : m &&& 0x1#64 = 0#64) (h : Keeps m s0 x0) :
    Keeps m s0 (releaseRetired x0 unit) := by
  unfold releaseRetired
  repeat' first
    | (with_reducible first
        | assumption | apply keeps_ite | apply keeps_forUp | apply showRetired_keeps
        | apply setBit_keeps)
    | exact maskSub hm (by decide) | dsimp only | split | intro _

theorem settleSettings_keeps (m : BitVec 64) (s0 x0 : State) (hm : m &&& 0x60001#64 = 0#64) (h : Keeps m s0 x0) :
    Keeps m s0 (settleSettings x0) := by
  unfold settleSettings
  try dsimp only
  repeat' first
    | (with_reducible first
        | assumption | apply keeps_ite | apply keeps_forUp | apply releaseRetired_keeps
        | apply fset_keeps | apply fillMeter_keeps | apply setGate_keeps | apply wr_keeps
        | refine keeps_of_snd (by assumption) ?_ | refine keeps_of_fst (by assumption) ?_)
    | exact maskSub hm (by decide) | dsimp only | split | intro _

theorem stepSettings_keeps (m : BitVec 64) (s0 x0 : State) (hm : m &&& 0x1DC4887FE43#64 = 0#64) (h : Keeps m s0 x0) :
    Keeps m s0 (stepSettings x0) := by
  unfold stepSettings
  try dsimp only
  repeat' first
    | (with_reducible first
        | assumption | apply moveOwnReach_keeps | apply settleSettings_keeps
        | apply loadSettings_keeps | apply refSelect_keeps)
    | exact maskSub hm (by decide) | dsimp only | split

theorem blowRollback_keeps (m : BitVec 64) (s0 x0 : State) (hm : m &&& 0x180000000#64 = 0#64) (h : Keeps m s0 x0) :
    Keeps m s0 (blowRollback x0) := by
  unfold blowRollback
  try dsimp only
  repeat' first
    | (with_reducible first
        | assumption | apply keeps_ite | apply auditDevice_keeps)
    | exact maskSub hm (by decide) | dsimp only | split | omega
    | (intro q hq; cases q <;> first | exact absurd hq (maskOff hm (by decide)) | with_reducible rfl)
    | exact fun _ => ⟨List.prefix_rfl, id⟩ | exact fun _ => ⟨List.prefix_rfl, fun _ => rfl⟩
    | exact fun g => absurd g (maskOff hm (by decide)) | (fail_if_no_progress with_reducible apply keeps_frame)
    | (fail_if_no_progress with_reducible apply keeps_fuses) | intro _

theorem stepKat_keeps (m : BitVec 64) (s0 x0 : State) (r : StepReport) (hm : m &&& 0x31F8BB9F45F#64 = 0#64)
     (h : Keeps m s0 x0) :
    Keeps m s0 (stepKat x0 r) := by
  unfold stepKat
  try dsimp only
  repeat' first
    | (with_reducible first
        | assumption | apply keeps_ite | apply keeps_foldl | apply keeps_foldl_fst
        | apply keeps_foldl_snd | apply keeps_ite_fst | apply keeps_ite_snd | apply report_keeps | apply portFault_keeps
        | apply refreshCert_keeps | apply blowRollback_keeps | apply draw_keeps | apply serve_keeps
        | refine keeps_of_snd (by assumption) ?_ | refine keeps_of_fst (by assumption) ?_)
    | exact maskSub hm (by decide) | dsimp only | split | intro _

theorem retireBad_keeps (m : BitVec 64) (s0 x0 : State) (frames : List (Prod Nat Nat)) (hm : m &&& 0x440000011#64 = 0#64)
     (h : Keeps m s0 x0) :
    Keeps m s0 (retireBad x0 frames) := by
  unfold retireBad
  repeat' first
    | (with_reducible first
        | assumption | apply keeps_foldl | apply keeps_foldl_fst | apply keeps_foldl_snd
        | apply retireFrame_keeps | refine keeps_of_snd (by assumption) ?_ | refine keeps_of_fst (by assumption) ?_)
    | exact maskSub hm (by decide) | dsimp only | split | intro _

theorem stepSram_keeps (m : BitVec 64) (s0 x0 : State) (r : StepReport) (hm : m &&& 0x31ECBB9F45F#64 = 0#64)
     (h : Keeps m s0 x0) :
    Keeps m s0 (stepSram x0 r) := by
  unfold stepSram
  try dsimp only
  repeat' first
    | (with_reducible first
        | assumption | apply keeps_ite | apply keeps_ite_fst | apply keeps_ite_snd
        | apply retireBad_keeps | apply draw_keeps | apply serve_keeps | refine keeps_of_snd (by assumption) ?_
        | refine keeps_of_fst (by assumption) ?_)
    | exact maskSub hm (by decide) | dsimp only | split | intro _

theorem stepLpddr_keeps (m : BitVec 64) (s0 x0 : State) (r : StepReport) (hm : m &&& 0x31E8BB9F6DF#64 = 0#64)
     (h : Keeps m s0 x0) :
    Keeps m s0 (stepLpddr x0 r) := by
  unfold stepLpddr
  try dsimp only
  repeat' first
    | (with_reducible first
        | assumption | apply keeps_ite | apply keeps_foldl | apply keeps_forUp
        | apply turnOnChain_keeps | apply fset_keeps | apply setBit_keeps | apply serve_keeps | apply groupDown_keeps
        | apply showCapacity_keeps)
    | exact maskSub hm (by decide) | dsimp only | split
    | (intro q hq; cases q <;> first | exact absurd hq (maskOff hm (by decide)) | with_reducible rfl)
    | exact fun _ => ⟨List.prefix_rfl, id⟩ | exact fun _ => ⟨List.prefix_rfl, fun _ => rfl⟩
    | exact fun g => absurd g (maskOff hm (by decide)) | (fail_if_no_progress with_reducible apply keeps_frame) | intro _

theorem stepFirmware_keeps (m : BitVec 64) (s0 x0 : State) (hm : m &&& 0x10088000003#64 = 0#64) (h : Keeps m s0 x0) :
    Keeps m s0 (stepFirmware x0) := by
  unfold stepFirmware
  try dsimp only
  repeat' first
    | (with_reducible first
        | assumption | apply keeps_ite | apply auditDevice_keeps | apply raise_keeps
        | apply setBit_keeps)
    | exact maskSub hm (by decide) | dsimp only | split | intro _

theorem startPorts_keeps (m : BitVec 64) (s0 x0 : State) (first count : Nat) (hm : m &&& 0xE01#64 = 0#64)
     (h : Keeps m s0 x0) :
    Keeps m s0 (startPorts x0 first count) := by
  unfold startPorts
  repeat' first
    | (with_reducible first
        | assumption | apply keeps_ite | apply keeps_forUp | apply startPort_keeps)
    | exact maskSub hm (by decide) | dsimp only | split | intro _

theorem stepFabric_keeps (m : BitVec 64) (s0 x0 : State) (hm : m &&& 0x10008000083#64 = 0#64) (h : Keeps m s0 x0) :
    Keeps m s0 (stepFabric x0) := by
  unfold stepFabric
  repeat' first
    | (with_reducible first
        | assumption | apply raise_keeps | apply setBit_keeps | apply setStep'_keeps)
    | exact maskSub hm (by decide) | split
    | (intro q hq; cases q <;> first | exact absurd hq (maskOff hm (by decide)) | with_reducible rfl)
    | exact fun _ => ⟨List.prefix_rfl, id⟩ | exact fun _ => ⟨List.prefix_rfl, fun _ => rfl⟩
    | exact fun g => absurd g (maskOff hm (by decide)) | (fail_if_no_progress with_reducible apply keeps_frame)

theorem nextStep_keeps (m : BitVec 64) (s0 x0 : State) (k : Nat) (hm : m &&& 0x81#64 = 0#64) (h : Keeps m s0 x0) :
    Keeps m s0 (nextStep x0 k) := by
  unfold nextStep
  repeat' first
    | (with_reducible first
        | assumption | apply setStep'_keeps)
    | exact maskSub hm (by decide) | split
    | (intro q hq; cases q <;> first | exact absurd hq (maskOff hm (by decide)) | with_reducible rfl)
    | exact fun _ => ⟨List.prefix_rfl, id⟩ | exact fun _ => ⟨List.prefix_rfl, fun _ => rfl⟩
    | exact fun g => absurd g (maskOff hm (by decide)) | (fail_if_no_progress with_reducible apply keeps_frame)

theorem endStartStep_keeps (m : BitVec 64) (s0 x0 : State) (k : Nat) (r : StepReport) (hm : m &&& 0x3DFCBBFFFDF#64 = 0#64)
     (h : Keeps m s0 x0) :
    Keeps m s0 (endStartStep x0 k r) := by
  unfold endStartStep
  repeat' first
    | (with_reducible first
        | assumption | apply keeps_ite | apply nextStep_keeps | apply stepRails_keeps
        | apply stepRom_keeps | apply bootFails_keeps | apply runImage_keeps | apply stepSettings_keeps
        | apply stepKat_keeps | apply stepSram_keeps | apply stepLpddr_keeps | apply turnOnChain_keeps
        | apply startPorts_keeps | apply stepFirmware_keeps | apply stepFabric_keeps)
    | exact maskSub hm (by decide) | split | intro _

theorem execStartUpStepEnd_keeps (m : BitVec 64) (s0 : State) (report : StepReport) (x1 : State)
     (hm : m &&& 0x3DFCBBFFFDF#64 = 0#64) (h : Keeps m s0 x1) :
    KeepsOut m s0 (execStartUpStepEnd report x1) := by
  unfold execStartUpStepEnd
  repeat' first
    | (with_reducible first
        | assumption | apply keepsOut_next | apply endStartStep_keeps)
    | exact maskSub hm (by decide) | split

theorem serveHeld_keeps (m : BitVec 64) (s0 x0 : State) (x1 : Held) (hm : m &&& 0x300B8400003#64 = 0#64) (h : Keeps m s0 x0) :
    Keeps m s0 (serveHeld x0 x1) := by
  unfold serveHeld
  repeat' first
    | (with_reducible first
        | assumption | apply keeps_ite | apply serveLoad_keeps | apply sendError_keeps
        | apply bulkOpenNow_keeps)
    | exact maskSub hm (by decide) | split | intro _

theorem execLpddrBistDone_keeps (m : BitVec 64) (s0 : State) (badFrames : List (Prod Nat Nat)) (x1 : State)
     (hm : m &&& 0x304F8400093#64 = 0#64) (h : Keeps m s0 x1) :
    KeepsOut m s0 (execLpddrBistDone badFrames x1) := by
  unfold execLpddrBistDone
  try dsimp only
  repeat' first
    | (with_reducible first
        | assumption | apply keepsOut_next | apply keepsOut_ite | apply keeps_ite
        | apply keeps_foldl | apply keeps_foldl_fst | apply keeps_foldl_snd | apply keeps_ite_fst | apply keeps_ite_snd
        | apply retireBad_keeps | apply raise_keeps | apply setBit_keeps | apply serveHeld_keeps
        | refine keeps_of_snd (by assumption) ?_ | refine keeps_of_fst (by assumption) ?_)
    | exact maskSub hm (by decide) | dsimp only | split
    | (intro q hq; cases q <;> first | exact absurd hq (maskOff hm (by decide)) | with_reducible rfl)
    | exact fun _ => ⟨List.prefix_rfl, id⟩ | exact fun _ => ⟨List.prefix_rfl, fun _ => rfl⟩
    | exact fun g => absurd g (maskOff hm (by decide)) | (fail_if_no_progress with_reducible apply keeps_frame) | intro _

theorem recordWrite_keeps (m : BitVec 64) (s0 x0 : State) (who : Requester) (addr : Nat) (value mask : Word) (c : Change)
     (st : Nat) (hm : m &&& 0x80000000#64 = 0#64) (h : Keeps m s0 x0) :
    Keeps m s0 (recordWrite x0 who addr value mask c st) := by
  unfold recordWrite
  try dsimp only
  repeat' first
    | (with_reducible first
        | assumption | apply keeps_ite | apply auditAdd_keeps)
    | exact maskSub hm (by decide) | dsimp only | split | intro _

theorem portCfgActs_keeps (m : BitVec 64) (s0 x0 : State) (x1 : Nat) (old new : Word) (hm : m &&& 0x11C0801FE43#64 = 0#64)
     (h : Keeps m s0 x0) :
    Keeps m s0 (portCfgActs x0 x1 old new) := by
  unfold portCfgActs
  try dsimp only
  repeat' first
    | (with_reducible first
        | assumption | apply keeps_ite | apply enterTest_keeps | apply leaveTest_keeps
        | apply enablePort_keeps | apply disablePort_keeps)
    | exact maskSub hm (by decide) | dsimp only | split | intro _

theorem adoptPort_keeps (m : BitVec 64) (s0 x0 : State) (who : Requester) (x2 : Nat) (hm : m &&& 0x11C8801F443#64 = 0#64)
     (h : Keeps m s0 x0) :
    Keeps m s0 (adoptPort x0 who x2) := by
  unfold adoptPort
  try dsimp only
  repeat' first
    | (with_reducible first
        | assumption | apply keeps_ite | apply auditAdd_keeps | apply wr_keeps
        | apply fset_keeps | apply stage9_keeps)
    | exact maskSub hm (by decide) | dsimp only | split | intro _

theorem gateChangeNow_keeps (m : BitVec 64) (s0 x0 : State) (x1 : Nat) (hm : m &&& 0x40001#64 = 0#64) (h : Keeps m s0 x0) :
    Keeps m s0 (gateChangeNow x0 x1) := by
  unfold gateChangeNow
  try dsimp only
  repeat' first
    | (with_reducible first
        | assumption | apply keeps_ite | apply setGate_keeps | apply setBit_keeps)
    | exact maskSub hm (by decide) | dsimp only | split | intro _

theorem triggerActs_keeps (m : BitVec 64) (s0 x0 : State) (t : Nat) (on : Bool) (hm : m &&& 0x10009200007#64 = 0#64)
     (h : Keeps m s0 x0) :
    Keeps m s0 (triggerActs x0 t on) := by
  unfold triggerActs
  repeat' first
    | (with_reducible first
        | assumption | apply keeps_ite | apply testTrigger_keeps | apply fset_keeps)
    | exact maskSub hm (by decide) | split
    | (intro q hq; cases q <;> first | exact absurd hq (maskOff hm (by decide)) | with_reducible rfl)
    | exact fun _ => ⟨List.prefix_rfl, id⟩ | exact fun _ => ⟨List.prefix_rfl, fun _ => rfl⟩
    | exact fun g => absurd g (maskOff hm (by decide)) | (fail_if_no_progress with_reducible apply keeps_frame) | intro _

theorem credCleared_keeps (m : BitVec 64) (s0 x0 : State) (e : Nat) (hm : m &&& 0x100B8200002#64 = 0#64) (h : Keeps m s0 x0) :
    Keeps m s0 (credCleared x0 e) := by
  unfold credCleared
  repeat' first
    | (with_reducible first
        | assumption | apply keeps_foldl | apply closeSession_keeps
        | refine keeps_of_snd (by assumption) ?_ | refine keeps_of_fst (by assumption) ?_)
    | exact maskSub hm (by decide) | dsimp only | split | intro _

theorem katOf_keeps (m : BitVec 64) (s0 x0 : State) (kat : Option Bool) (hm : m &&& 0x20000000000#64 = 0#64)
     (h : Keeps m s0 x0) :
    Keeps m s0 (katOf x0 kat).2 := by
  unfold katOf
  repeat' first
    | (with_reducible first
        | assumption | apply draw_keeps | refine keeps_of_snd (by assumption) ?_
        | refine keeps_of_fst (by assumption) ?_)
    | exact maskSub hm (by decide) | dsimp only | split

theorem chipActs_keeps (m : BitVec 64) (s0 x0 : State) (who : Requester) (kat : Option Bool) (ty off : Nat)
     (old value mask : Word) (hm : m &&& 0x800003FFBFFFFFFF#64 = 0#64) (h : Keeps m s0 x0) :
    Keeps m s0 (chipActs x0 who kat ty off old value mask) := by
  unfold chipActs
  try dsimp only
  repeat' first
    | (with_reducible first
        | assumption | apply keeps_ite | apply keeps_ite_fst | apply keeps_ite_snd
        | apply moveOwnReach_keeps | apply refreshCert_keeps | apply katOf_keeps | apply recommission_keeps
        | apply decommission_keeps | apply refSelect_keeps | apply clkOn_keeps | apply clkOff_keeps
        | apply chipResetNow_keeps | apply showPin_keeps | apply serve_keeps | apply launchSwath_keeps
        | apply disciplineActs_keeps | refine keeps_of_snd (by assumption) ?_ | refine keeps_of_fst (by assumption) ?_)
    | exact maskSub hm (by decide) | dsimp only | split
    | (intro q hq; cases q <;> first | exact absurd hq (maskOff hm (by decide)) | with_reducible rfl)
    | exact fun _ => ⟨List.prefix_rfl, id⟩ | exact fun _ => ⟨List.prefix_rfl, fun _ => rfl⟩
    | exact fun g => absurd g (maskOff hm (by decide)) | (fail_if_no_progress with_reducible apply keeps_frame) | intro _

theorem blockActs_keeps (m : BitVec 64) (s0 x0 : State) (who : Requester) (kat : Option Bool) (k : PageKind)
     (page off : Nat) (old new value mask : Word) (hm : m &&& 0x800003FFFFFFFFFF#64 = 0#64) (h : Keeps m s0 x0) :
    Keeps m s0 (blockActs x0 who kat k page off old new value mask) := by
  unfold blockActs
  try dsimp only
  repeat' first
    | (with_reducible first
        | assumption | apply keeps_ite | apply keeps_forUp | apply portCfgActs_keeps
        | apply adoptPort_keeps | apply retrainPort_keeps | apply releaseBanked_keeps | apply closeNow_keeps
        | apply openStart_keeps | apply setStitch_keeps | apply fset_keeps | apply pump_keeps | apply gateChangeNow_keeps
        | apply fillMeter_keeps | apply showPools_keeps | apply clearRetired_keeps | apply ctrsReset_keeps
        | apply advanceCounter_keeps | apply chipActs_keeps)
    | exact maskSub hm (by decide) | dsimp only | split | intro _

theorem headerActs_keeps (m : BitVec 64) (s0 x0 : State) (k : PageKind) (page off : Nat) (old new value mask : Word)
     (hm : m &&& 0x35C0BB9FE5F#64 = 0#64) (h : Keeps m s0 x0) :
    Keeps m s0 (headerActs x0 k page off old new value mask) := by
  unfold headerActs
  try dsimp only
  repeat' first
    | (with_reducible first
        | assumption | apply keeps_ite | apply portCfgActs_keeps | apply enableBlock_keeps
        | apply resetBlock_keeps | apply notify_keeps)
    | exact maskSub hm (by decide) | dsimp only | split
    | (intro q hq; cases q <;> first | exact absurd hq (maskOff hm (by decide)) | with_reducible rfl)
    | exact fun _ => ⟨List.prefix_rfl, id⟩ | exact fun _ => ⟨List.prefix_rfl, fun _ => rfl⟩
    | exact fun g => absurd g (maskOff hm (by decide)) | (fail_if_no_progress with_reducible apply keeps_frame) | intro _

theorem windowActs_keeps (m : BitVec 64) (s0 x0 : State) (who : Requester) (base e off : Nat) (old new value mask : Word)
     (hm : m &&& 0x30DBFF9E447#64 = 0#64) (h : Keeps m s0 x0) :
    Keeps m s0 (windowActs x0 who base e off old new value mask) := by
  unfold windowActs
  repeat' first
    | (with_reducible first
        | assumption | apply keeps_ite | apply keeps_foldl | apply jobLoadCmd_keeps
        | apply jobUnloadCmd_keeps | apply serveWaiters_keeps | apply releaseDie_keeps | apply triggerActs_keeps
        | apply signBatchCmd_keeps | apply releaseBatchCmd_keeps | apply credCleared_keeps)
    | exact maskSub hm (by decide) | dsimp only | split | intro _

theorem settleBefore_keeps (m : BitVec 64) (s0 x0 : State) (addr : Nat) (hm : m &&& 0x401#64 = 0#64) (h : Keeps m s0 x0) :
    Keeps m s0 (settleBefore x0 addr) := by
  unfold settleBefore
  repeat' first
    | (with_reducible first
        | assumption | apply keeps_ite | apply settleBucket_keeps)
    | exact maskSub hm (by decide) | split | intro _

theorem acceptWrite_keeps (m : BitVec 64) (s0 x0 : State) (who : Requester) (kat : Option Bool) (addr : Nat)
     (value mask : Word) (hm : m &&& 0x800003FFFFFFFFFF#64 = 0#64) (h : Keeps m s0 x0) :
    Keeps m s0 (acceptWrite x0 who kat addr value mask) := by
  unfold acceptWrite
  try dsimp only
  repeat' first
    | (with_reducible first
        | assumption | apply keeps_ite | apply recordWrite_keeps | apply wr_keeps
        | apply settleBefore_keeps | apply headerActs_keeps | apply blockActs_keeps | apply windowActs_keeps)
    | exact maskSub hm (by decide) | dsimp only | split | intro _

theorem refuseWrite_keeps (m : BitVec 64) (s0 x0 : State) (who : Requester) (addr : Nat) (value mask : Word) (st : Nat)
     (hm : m &&& 0x10088000003#64 = 0#64) (h : Keeps m s0 x0) :
    Keeps m s0 (refuseWrite x0 who addr value mask st) := by
  unfold refuseWrite
  try dsimp only
  repeat' first
    | (with_reducible first
        | assumption | apply keeps_ite | apply recordWrite_keeps | apply cfgRefused_keeps)
    | exact maskSub hm (by decide) | dsimp only | split | intro _

theorem writeWord_keeps (m : BitVec 64) (s0 x0 : State) (who : Requester) (kat : Option Bool) (addr : Nat)
     (value mask : Word) (hm : m &&& 0x800003FFFFFFFFFF#64 = 0#64) (h : Keeps m s0 x0) :
    Keeps m s0 (writeWord x0 who kat addr value mask).2 := by
  unfold writeWord
  try dsimp only
  repeat' first
    | (with_reducible first
        | assumption | apply keeps_ite | apply keeps_ite_fst | apply keeps_ite_snd
        | apply acceptWrite_keeps | apply refuseWrite_keeps | refine keeps_of_snd (by assumption) ?_
        | refine keeps_of_fst (by assumption) ?_)
    | exact maskSub hm (by decide) | dsimp only | split | intro _

theorem commandWrite_keeps (m : BitVec 64) (s0 : State) (who : Requester) (kat : Option Bool) (addr : Nat)
     (value mask : Word) (x5 : State) (hm : m &&& 0x800003FFFFFFFFFF#64 = 0#64) (h : Keeps m s0 x5) :
    Keeps m s0 (commandWrite who kat addr value mask x5) := by
  unfold commandWrite
  repeat' first
    | (with_reducible first
        | assumption | apply keeps_ite | apply keeps_ite_fst | apply keeps_ite_snd
        | apply writeWord_keeps | refine keeps_of_snd (by assumption) ?_ | refine keeps_of_fst (by assumption) ?_)
    | exact maskSub hm (by decide) | dsimp only | split | intro _

theorem writeIf_keeps (m : BitVec 64) (s0 : State) (ok : Bool) (who : Requester) (addr : Nat) (value mask : Word)
     (x5 : State) (hm : m &&& 0x800003FFFFFFFFFF#64 = 0#64) (h : Keeps m s0 x5) :
    KeepsOut m s0 (writeIf ok who addr value mask x5) := by
  unfold writeIf
  repeat' first
    | (with_reducible first
        | assumption | apply keepsOut_next | apply keepsOut_ite | apply keeps_ite
        | apply commandWrite_keeps)
    | exact maskSub hm (by decide) | split | intro _

theorem readOne_keeps (m : BitVec 64) (s0 x0 : State) (sid : Nat) (x : Session) (x3 : Nat) (hm : m &&& 0x8000000#64 = 0#64)
     (h : Keeps m s0 x0) :
    Keeps m s0 (readOne x0 sid x x3).2 := by
  unfold readOne
  try dsimp only
  repeat' first
    | (with_reducible first
        | assumption | apply keeps_ite | apply keeps_ite_fst | apply keeps_ite_snd
        | refine keeps_of_snd (by assumption) ?_ | refine keeps_of_fst (by assumption) ?_)
    | exact maskSub hm (by decide) | dsimp only | split
    | (intro q hq; cases q <;> first | exact absurd hq (maskOff hm (by decide)) | with_reducible rfl)
    | exact fun _ => ⟨List.prefix_rfl, id⟩ | exact fun _ => ⟨List.prefix_rfl, fun _ => rfl⟩
    | exact fun g => absurd g (maskOff hm (by decide)) | (fail_if_no_progress with_reducible apply keeps_frame) | intro _

theorem runOp_keeps (m : BitVec 64) (s0 x0 : State) (sid : Nat) (o : RegOp) (hm : m &&& 0x800003FFFFFFFFFF#64 = 0#64)
     (h : Keeps m s0 x0) :
    Keeps m s0 (runOp x0 sid o).2 := by
  unfold runOp
  try dsimp only
  repeat' first
    | (with_reducible first
        | assumption | apply keeps_ite | apply keeps_ite_fst | apply keeps_ite_snd
        | apply readOne_keeps | apply writeWord_keeps | refine keeps_of_snd (by assumption) ?_
        | refine keeps_of_fst (by assumption) ?_)
    | exact maskSub hm (by decide) | dsimp only | split | intro _

theorem runOps_keeps (m : BitVec 64) (s0 : State) (sid : Nat) (stop : Bool) (x2 : List RegOp) (x3 : Bool) (x4 : State)
     (hm : m &&& 0x800003FFFFFFFFFF#64 = 0#64) (h : Keeps m s0 x4) :
    Keeps m s0 (runOps sid stop x2 x3 x4).2 := by
  induction x2 generalizing sid stop x3 x4 with
  | nil =>
    unfold runOps
    try dsimp only
    repeat' first
      | (with_reducible first
          | assumption | apply keeps_ite | apply keeps_ite_fst | apply keeps_ite_snd
          | apply runOp_keeps | refine keeps_of_snd (by assumption) ?_ | refine keeps_of_fst (by assumption) ?_)
      | exact maskSub hm (by decide) | dsimp only | split | intro _
  | cons o os ih =>
    unfold runOps
    try dsimp only
    repeat' first
      | (with_reducible first
          | assumption | apply ih | apply keeps_ite | apply keeps_ite_fst | apply keeps_ite_snd
          | apply runOp_keeps | refine keeps_of_snd (by assumption) ?_ | refine keeps_of_fst (by assumption) ?_)
      | exact maskSub hm (by decide) | dsimp only | split | intro _

theorem execReg_keeps (m : BitVec 64) (s0 : State) (session : Nat) (msgNum : Word) (stop : Bool) (ops : List RegOp)
     (x4 : State) (hm : m &&& 0x800003FFFFFFFFFF#64 = 0#64) (h : Keeps m s0 x4) :
    KeepsOut m s0 (execReg session msgNum stop ops x4) := by
  unfold execReg
  try dsimp only
  repeat' first
    | (with_reducible first
        | assumption | apply keepsOut_next | apply keepsOut_ite | apply keeps_ite
        | apply keeps_ite_fst | apply keeps_ite_snd | apply request_keeps | apply respond_keeps | apply runOps_keeps
        | refine keeps_of_snd (by assumption) ?_ | refine keeps_of_fst (by assumption) ?_)
    | exact maskSub hm (by decide) | dsimp only | split | intro _

theorem execRegisterWrite_keeps (m : BitVec 64) (s0 : State) (who : Requester) (addr value mask : Word) (x4 : State)
     (hm : m &&& 0x800003FFFFFFFFFF#64 = 0#64) (h : Keeps m s0 x4) :
    KeepsOut m s0 (execRegisterWrite who addr value mask x4) := by
  unfold execRegisterWrite
  repeat' first
    | (with_reducible first
        | assumption | apply keepsOut_next | apply commandWrite_keeps)
    | exact maskSub hm (by decide) | split

theorem execBlockEnable_keeps (m : BitVec 64) (s0 : State) (who : Requester) (page : Nat) (x2 : State)
     (hm : m &&& 0x800003FFFFFFFFFF#64 = 0#64) (h : Keeps m s0 x2) :
    KeepsOut m s0 (execBlockEnable who page x2) := by
  unfold execBlockEnable
  repeat' first
    | (with_reducible first
        | assumption | apply keepsOut_next | apply writeIf_keeps)
    | exact maskSub hm (by decide) | split

theorem execBlockDisable_keeps (m : BitVec 64) (s0 : State) (who : Requester) (page : Nat) (x2 : State)
     (hm : m &&& 0x800003FFFFFFFFFF#64 = 0#64) (h : Keeps m s0 x2) :
    KeepsOut m s0 (execBlockDisable who page x2) := by
  unfold execBlockDisable
  repeat' first
    | (with_reducible first
        | assumption | apply keepsOut_next | apply writeIf_keeps)
    | exact maskSub hm (by decide) | split

theorem execBlockReset_keeps (m : BitVec 64) (s0 : State) (who : Option Requester) (page : Nat) (x2 : State)
     (hm : m &&& 0x800003FFFFFFFFFF#64 = 0#64) (h : Keeps m s0 x2) :
    KeepsOut m s0 (execBlockReset who page x2) := by
  unfold execBlockReset
  repeat' first
    | (with_reducible first
        | assumption | apply keepsOut_next | apply keepsOut_ite | apply keeps_ite
        | apply writeIf_keeps | apply resetBlock_keeps)
    | exact maskSub hm (by decide) | split | intro _

theorem execEventStatusClear_keeps (m : BitVec 64) (s0 : State) (who : Requester) (page : Nat) (bits : Word) (x3 : State)
     (hm : m &&& 0x800003FFFFFFFFFF#64 = 0#64) (h : Keeps m s0 x3) :
    KeepsOut m s0 (execEventStatusClear who page bits x3) := by
  unfold execEventStatusClear
  repeat' first
    | (with_reducible first
        | assumption | apply keepsOut_next | apply writeIf_keeps)
    | exact maskSub hm (by decide) | split

theorem execPageLock_keeps (m : BitVec 64) (s0 : State) (who : Requester) (page : Nat) (x2 : State)
     (hm : m &&& 0x800003FFFFFFFFFF#64 = 0#64) (h : Keeps m s0 x2) :
    KeepsOut m s0 (execPageLock who page x2) := by
  unfold execPageLock
  repeat' first
    | (with_reducible first
        | assumption | apply keepsOut_next | apply writeIf_keeps)
    | exact maskSub hm (by decide) | split

theorem execChipReset_keeps (m : BitVec 64) (s0 : State) (who : Option Requester) (x1 : State)
     (hm : m &&& 0x800003FFFFFFFFFF#64 = 0#64) (h : Keeps m s0 x1) :
    KeepsOut m s0 (execChipReset who x1) := by
  unfold execChipReset
  repeat' first
    | (with_reducible first
        | assumption | apply keepsOut_next | apply writeIf_keeps
        | apply chipResetReaction_keeps)
    | exact maskSub hm (by decide) | split

theorem execRefSelectWrite_keeps (m : BitVec 64) (s0 : State) (who : Requester) (sel : Bool) (x2 : State)
     (hm : m &&& 0x800003FFFFFFFFFF#64 = 0#64) (h : Keeps m s0 x2) :
    KeepsOut m s0 (execRefSelectWrite who sel x2) := by
  unfold execRefSelectWrite
  repeat' first
    | (with_reducible first
        | assumption | apply keepsOut_next | apply writeIf_keeps)
    | exact maskSub hm (by decide) | split

theorem execClkGateOn_keeps (m : BitVec 64) (s0 : State) (who : Requester) (node : Nat) (x2 : State)
     (hm : m &&& 0x800003FFFFFFFFFF#64 = 0#64) (h : Keeps m s0 x2) :
    KeepsOut m s0 (execClkGateOn who node x2) := by
  unfold execClkGateOn
  repeat' first
    | (with_reducible first
        | assumption | apply keepsOut_next | apply writeIf_keeps)
    | exact maskSub hm (by decide) | split

theorem execClkGateOff_keeps (m : BitVec 64) (s0 : State) (who : Requester) (node : Nat) (x2 : State)
     (hm : m &&& 0x800003FFFFFFFFFF#64 = 0#64) (h : Keeps m s0 x2) :
    KeepsOut m s0 (execClkGateOff who node x2) := by
  unfold execClkGateOff
  repeat' first
    | (with_reducible first
        | assumption | apply keepsOut_next | apply writeIf_keeps)
    | exact maskSub hm (by decide) | split

theorem execManualFallow_keeps (m : BitVec 64) (s0 : State) (who : Requester) (x1 : State)
     (hm : m &&& 0x800003FFFFFFFFFF#64 = 0#64) (h : Keeps m s0 x1) :
    KeepsOut m s0 (execManualFallow who x1) := by
  unfold execManualFallow
  repeat' first
    | (with_reducible first
        | assumption | apply keepsOut_next | apply writeIf_keeps)
    | exact maskSub hm (by decide) | split

theorem execFaultPinClear_keeps (m : BitVec 64) (s0 : State) (who : Requester) (x1 : State)
     (hm : m &&& 0x800003FFFFFFFFFF#64 = 0#64) (h : Keeps m s0 x1) :
    KeepsOut m s0 (execFaultPinClear who x1) := by
  unfold execFaultPinClear
  repeat' first
    | (with_reducible first
        | assumption | apply keepsOut_next | apply writeIf_keeps)
    | exact maskSub hm (by decide) | split

theorem execFltAckWrite_keeps (m : BitVec 64) (s0 : State) (who : Requester) (seq : Word) (x2 : State)
     (hm : m &&& 0x800003FFFFFFFFFF#64 = 0#64) (h : Keeps m s0 x2) :
    KeepsOut m s0 (execFltAckWrite who seq x2) := by
  unfold execFltAckWrite
  repeat' first
    | (with_reducible first
        | assumption | apply keepsOut_next | apply writeIf_keeps)
    | exact maskSub hm (by decide) | split

theorem execFltReactWrite_keeps (m : BitVec 64) (s0 : State) (who : Requester) (kind : Nat) (value mask : Word) (x4 : State)
     (hm : m &&& 0x800003FFFFFFFFFF#64 = 0#64) (h : Keeps m s0 x4) :
    KeepsOut m s0 (execFltReactWrite who kind value mask x4) := by
  unfold execFltReactWrite
  repeat' first
    | (with_reducible first
        | assumption | apply keepsOut_next | apply writeIf_keeps)
    | exact maskSub hm (by decide) | split

theorem execSecRecommission_keeps (m : BitVec 64) (s0 : State) (who : Requester) (katPass : Bool) (x2 : State)
     (hm : m &&& 0x800003FFFFFFFFFF#64 = 0#64) (h : Keeps m s0 x2) :
    KeepsOut m s0 (execSecRecommission who katPass x2) := by
  unfold execSecRecommission
  repeat' first
    | (with_reducible first
        | assumption | apply keepsOut_next | apply commandWrite_keeps)
    | exact maskSub hm (by decide) | split

theorem execSecDecommission_keeps (m : BitVec 64) (s0 : State) (who : Requester) (x1 : State)
     (hm : m &&& 0x800003FFFFFFFFFF#64 = 0#64) (h : Keeps m s0 x1) :
    KeepsOut m s0 (execSecDecommission who x1) := by
  unfold execSecDecommission
  repeat' first
    | (with_reducible first
        | assumption | apply keepsOut_next | apply writeIf_keeps)
    | exact maskSub hm (by decide) | split

theorem execSwathLaunch_keeps (m : BitVec 64) (s0 : State) (who : Requester) (seq : BitVec 16) (x2 : State)
     (hm : m &&& 0x800003FFFFFFFFFF#64 = 0#64) (h : Keeps m s0 x2) :
    KeepsOut m s0 (execSwathLaunch who seq x2) := by
  unfold execSwathLaunch
  repeat' first
    | (with_reducible first
        | assumption | apply keepsOut_next | apply writeIf_keeps)
    | exact maskSub hm (by decide) | split

theorem execGlbCoordWrite_keeps (m : BitVec 64) (s0 : State) (who : Requester) (value mask : Word) (x3 : State)
     (hm : m &&& 0x800003FFFFFFFFFF#64 = 0#64) (h : Keeps m s0 x3) :
    KeepsOut m s0 (execGlbCoordWrite who value mask x3) := by
  unfold execGlbCoordWrite
  repeat' first
    | (with_reducible first
        | assumption | apply keepsOut_next | apply writeIf_keeps)
    | exact maskSub hm (by decide) | split

theorem execGlbTorusWrite_keeps (m : BitVec 64) (s0 : State) (who : Requester) (value mask : Word) (x3 : State)
     (hm : m &&& 0x800003FFFFFFFFFF#64 = 0#64) (h : Keeps m s0 x3) :
    KeepsOut m s0 (execGlbTorusWrite who value mask x3) := by
  unfold execGlbTorusWrite
  repeat' first
    | (with_reducible first
        | assumption | apply keepsOut_next | apply writeIf_keeps)
    | exact maskSub hm (by decide) | split

theorem execFabricEpochWrite_keeps (m : BitVec 64) (s0 : State) (who : Requester) (value : Word) (x2 : State)
     (hm : m &&& 0x800003FFFFFFFFFF#64 = 0#64) (h : Keeps m s0 x2) :
    KeepsOut m s0 (execFabricEpochWrite who value x2) := by
  unfold execFabricEpochWrite
  repeat' first
    | (with_reducible first
        | assumption | apply keepsOut_next | apply writeIf_keeps)
    | exact maskSub hm (by decide) | split

theorem execPortEnable_keeps (m : BitVec 64) (s0 : State) (who : Requester) (port : Nat) (mode : BitVec 2) (x3 : State)
     (hm : m &&& 0x800003FFFFFFFFFF#64 = 0#64) (h : Keeps m s0 x3) :
    KeepsOut m s0 (execPortEnable who port mode x3) := by
  unfold execPortEnable
  repeat' first
    | (with_reducible first
        | assumption | apply keepsOut_next | apply writeIf_keeps)
    | exact maskSub hm (by decide) | split

theorem execPortDisable_keeps (m : BitVec 64) (s0 : State) (who : Requester) (port : Nat) (x2 : State)
     (hm : m &&& 0x800003FFFFFFFFFF#64 = 0#64) (h : Keeps m s0 x2) :
    KeepsOut m s0 (execPortDisable who port x2) := by
  unfold execPortDisable
  repeat' first
    | (with_reducible first
        | assumption | apply keepsOut_next | apply writeIf_keeps)
    | exact maskSub hm (by decide) | split

theorem execPortTestEnter_keeps (m : BitVec 64) (s0 : State) (who : Requester) (port : Nat) (x2 : State)
     (hm : m &&& 0x800003FFFFFFFFFF#64 = 0#64) (h : Keeps m s0 x2) :
    KeepsOut m s0 (execPortTestEnter who port x2) := by
  unfold execPortTestEnter
  repeat' first
    | (with_reducible first
        | assumption | apply keepsOut_next | apply writeIf_keeps)
    | exact maskSub hm (by decide) | split

theorem execPortRetrain_keeps (m : BitVec 64) (s0 : State) (who : Requester) (port : Nat) (x2 : State)
     (hm : m &&& 0x800003FFFFFFFFFF#64 = 0#64) (h : Keeps m s0 x2) :
    KeepsOut m s0 (execPortRetrain who port x2) := by
  unfold execPortRetrain
  repeat' first
    | (with_reducible first
        | assumption | apply keepsOut_next | apply writeIf_keeps)
    | exact maskSub hm (by decide) | split

theorem execPortAdopt_keeps (m : BitVec 64) (s0 : State) (who : Requester) (port : Nat) (x2 : State)
     (hm : m &&& 0x800003FFFFFFFFFF#64 = 0#64) (h : Keeps m s0 x2) :
    KeepsOut m s0 (execPortAdopt who port x2) := by
  unfold execPortAdopt
  repeat' first
    | (with_reducible first
        | assumption | apply keepsOut_next | apply writeIf_keeps)
    | exact maskSub hm (by decide) | split

theorem execKstForceClose_keeps (m : BitVec 64) (s0 : State) (who : Requester) (stitch : Nat) (x2 : State)
     (hm : m &&& 0x800003FFFFFFFFFF#64 = 0#64) (h : Keeps m s0 x2) :
    KeepsOut m s0 (execKstForceClose who stitch x2) := by
  unfold execKstForceClose
  repeat' first
    | (with_reducible first
        | assumption | apply keepsOut_next | apply writeIf_keeps)
    | exact maskSub hm (by decide) | split

theorem execKstHoldOpen_keeps (m : BitVec 64) (s0 : State) (who : Requester) (stitch : Nat) (hold : Bool) (x3 : State)
     (hm : m &&& 0x800003FFFFFFFFFF#64 = 0#64) (h : Keeps m s0 x3) :
    KeepsOut m s0 (execKstHoldOpen who stitch hold x3) := by
  unfold execKstHoldOpen
  repeat' first
    | (with_reducible first
        | assumption | apply keepsOut_next | apply writeIf_keeps)
    | exact maskSub hm (by decide) | split

theorem execKstRetry_keeps (m : BitVec 64) (s0 : State) (who : Requester) (stitch : Nat) (x2 : State)
     (hm : m &&& 0x800003FFFFFFFFFF#64 = 0#64) (h : Keeps m s0 x2) :
    KeepsOut m s0 (execKstRetry who stitch x2) := by
  unfold execKstRetry
  repeat' first
    | (with_reducible first
        | assumption | apply keepsOut_next | apply writeIf_keeps)
    | exact maskSub hm (by decide) | split

theorem execPatCtrlWrite_keeps (m : BitVec 64) (s0 : State) (who : Requester) (group : Nat) (value mask : Word) (x4 : State)
     (hm : m &&& 0x800003FFFFFFFFFF#64 = 0#64) (h : Keeps m s0 x4) :
    KeepsOut m s0 (execPatCtrlWrite who group value mask x4) := by
  unfold execPatCtrlWrite
  repeat' first
    | (with_reducible first
        | assumption | apply keepsOut_next | apply writeIf_keeps)
    | exact maskSub hm (by decide) | split

theorem execBpCfgWrite_keeps (m : BitVec 64) (s0 : State) (who : Requester) (die : Nat) (value mask : Word) (x4 : State)
     (hm : m &&& 0x800003FFFFFFFFFF#64 = 0#64) (h : Keeps m s0 x4) :
    KeepsOut m s0 (execBpCfgWrite who die value mask x4) := by
  unfold execBpCfgWrite
  repeat' first
    | (with_reducible first
        | assumption | apply keepsOut_next | apply writeIf_keeps)
    | exact maskSub hm (by decide) | split

theorem execGateChange_keeps (m : BitVec 64) (s0 : State) (who : Requester) (port : Nat) (x2 : State)
     (hm : m &&& 0x800003FFFFFFFFFF#64 = 0#64) (h : Keeps m s0 x2) :
    KeepsOut m s0 (execGateChange who port x2) := by
  unfold execGateChange
  repeat' first
    | (with_reducible first
        | assumption | apply keepsOut_next | apply writeIf_keeps)
    | exact maskSub hm (by decide) | split

theorem execMeterWrite_keeps (m : BitVec 64) (s0 : State) (who : Requester) (port cls word : Nat) (value mask : Word)
     (x6 : State) (hm : m &&& 0x800003FFFFFFFFFF#64 = 0#64) (h : Keeps m s0 x6) :
    KeepsOut m s0 (execMeterWrite who port cls word value mask x6) := by
  unfold execMeterWrite
  repeat' first
    | (with_reducible first
        | assumption | apply keepsOut_next | apply writeIf_keeps)
    | exact maskSub hm (by decide) | split

theorem execSlotQuotaWrite_keeps (m : BitVec 64) (s0 : State) (who : Requester) (sub : Nat) (value mask : Word) (x4 : State)
     (hm : m &&& 0x800003FFFFFFFFFF#64 = 0#64) (h : Keeps m s0 x4) :
    KeepsOut m s0 (execSlotQuotaWrite who sub value mask x4) := by
  unfold execSlotQuotaWrite
  repeat' first
    | (with_reducible first
        | assumption | apply keepsOut_next | apply writeIf_keeps)
    | exact maskSub hm (by decide) | split

theorem execRedSpillCfgWrite_keeps (m : BitVec 64) (s0 : State) (who : Requester) (die : Nat) (value mask : Word)
     (x4 : State) (hm : m &&& 0x800003FFFFFFFFFF#64 = 0#64) (h : Keeps m s0 x4) :
    KeepsOut m s0 (execRedSpillCfgWrite who die value mask x4) := by
  unfold execRedSpillCfgWrite
  repeat' first
    | (with_reducible first
        | assumption | apply keepsOut_next | apply writeIf_keeps)
    | exact maskSub hm (by decide) | split

theorem execTrigAdd_keeps (m : BitVec 64) (s0 : State) (who : Requester) (die : Nat) (amount : Word) (x3 : State)
     (hm : m &&& 0x800003FFFFFFFFFF#64 = 0#64) (h : Keeps m s0 x3) :
    KeepsOut m s0 (execTrigAdd who die amount x3) := by
  unfold execTrigAdd
  repeat' first
    | (with_reducible first
        | assumption | apply keepsOut_next | apply writeIf_keeps)
    | exact maskSub hm (by decide) | split

theorem execTriggerValidWrite_keeps (m : BitVec 64) (s0 : State) (who : Requester) (trigger : Nat) (valid : Bool)
     (x3 : State) (hm : m &&& 0x800003FFFFFFFFFF#64 = 0#64) (h : Keeps m s0 x3) :
    KeepsOut m s0 (execTriggerValidWrite who trigger valid x3) := by
  unfold execTriggerValidWrite
  repeat' first
    | (with_reducible first
        | assumption | apply keepsOut_next | apply writeIf_keeps)
    | exact maskSub hm (by decide) | split

theorem execQuireTableWrite_keeps (m : BitVec 64) (s0 : State) (who : Requester) (entry word : Nat) (value mask : Word)
     (x5 : State) (hm : m &&& 0x800003FFFFFFFFFF#64 = 0#64) (h : Keeps m s0 x5) :
    KeepsOut m s0 (execQuireTableWrite who entry word value mask x5) := by
  unfold execQuireTableWrite
  repeat' first
    | (with_reducible first
        | assumption | apply keepsOut_next | apply writeIf_keeps)
    | exact maskSub hm (by decide) | split

theorem execRankXlatWrite_keeps (m : BitVec 64) (s0 : State) (who : Requester) (entry : Nat) (value mask : Word)
     (x4 : State) (hm : m &&& 0x800003FFFFFFFFFF#64 = 0#64) (h : Keeps m s0 x4) :
    KeepsOut m s0 (execRankXlatWrite who entry value mask x4) := by
  unfold execRankXlatWrite
  repeat' first
    | (with_reducible first
        | assumption | apply keepsOut_next | apply writeIf_keeps)
    | exact maskSub hm (by decide) | split

theorem execCredentialWrite_keeps (m : BitVec 64) (s0 : State) (who : Requester) (entry word : Nat) (value mask : Word)
     (x5 : State) (hm : m &&& 0x800003FFFFFFFFFF#64 = 0#64) (h : Keeps m s0 x5) :
    KeepsOut m s0 (execCredentialWrite who entry word value mask x5) := by
  unfold execCredentialWrite
  repeat' first
    | (with_reducible first
        | assumption | apply keepsOut_next | apply writeIf_keeps)
    | exact maskSub hm (by decide) | split

theorem execRetireClear_keeps (m : BitVec 64) (s0 : State) (who : Requester) (unit : Nat) (x2 : State)
     (hm : m &&& 0x800003FFFFFFFFFF#64 = 0#64) (h : Keeps m s0 x2) :
    KeepsOut m s0 (execRetireClear who unit x2) := by
  unfold execRetireClear
  repeat' first
    | (with_reducible first
        | assumption | apply keepsOut_next | apply keepsOut_ite | apply keeps_ite
        | apply writeIf_keeps)
    | exact maskSub hm (by decide) | split | intro _

theorem execJobLoad_keeps (m : BitVec 64) (s0 : State) (who : Requester) (sub : Nat) (x2 : State)
     (hm : m &&& 0x800003FFFFFFFFFF#64 = 0#64) (h : Keeps m s0 x2) :
    KeepsOut m s0 (execJobLoad who sub x2) := by
  unfold execJobLoad
  repeat' first
    | (with_reducible first
        | assumption | apply keepsOut_next | apply writeIf_keeps)
    | exact maskSub hm (by decide) | split

theorem execJobUnload_keeps (m : BitVec 64) (s0 : State) (who : Requester) (sub : Nat) (x2 : State)
     (hm : m &&& 0x800003FFFFFFFFFF#64 = 0#64) (h : Keeps m s0 x2) :
    KeepsOut m s0 (execJobUnload who sub x2) := by
  unfold execJobUnload
  repeat' first
    | (with_reducible first
        | assumption | apply keepsOut_next | apply writeIf_keeps)
    | exact maskSub hm (by decide) | split

theorem execSignBatch_keeps (m : BitVec 64) (s0 : State) (who : Requester) (sub : Nat) (x2 : State)
     (hm : m &&& 0x800003FFFFFFFFFF#64 = 0#64) (h : Keeps m s0 x2) :
    KeepsOut m s0 (execSignBatch who sub x2) := by
  unfold execSignBatch
  repeat' first
    | (with_reducible first
        | assumption | apply keepsOut_next | apply writeIf_keeps)
    | exact maskSub hm (by decide) | split

theorem execReleaseBatch_keeps (m : BitVec 64) (s0 : State) (who : Requester) (sub : Nat) (x2 : State)
     (hm : m &&& 0x800003FFFFFFFFFF#64 = 0#64) (h : Keeps m s0 x2) :
    KeepsOut m s0 (execReleaseBatch who sub x2) := by
  unfold execReleaseBatch
  repeat' first
    | (with_reducible first
        | assumption | apply keepsOut_next | apply writeIf_keeps)
    | exact maskSub hm (by decide) | split

theorem slewStep_keeps (m : BitVec 64) (s0 x0 : State) (hm : m &&& 0x1000000020#64 = 0#64) (h : Keeps m s0 x0) :
    Keeps m s0 (slewStep x0) := by
  unfold slewStep
  try dsimp only
  repeat' first
    | (with_reducible first
        | assumption | apply keeps_ite)
    | exact maskSub hm (by decide) | dsimp only | split
    | (intro q hq; cases q <;> first | exact absurd hq (maskOff hm (by decide)) | with_reducible rfl)
    | exact fun _ => ⟨List.prefix_rfl, id⟩ | exact fun _ => ⟨List.prefix_rfl, fun _ => rfl⟩
    | exact fun g => absurd g (maskOff hm (by decide)) | (fail_if_no_progress with_reducible apply keeps_frame) | intro _

theorem tick_keeps (m : BitVec 64) (s0 x0 : State) (hm : m &&& 0x1000000020#64 = 0#64) (h : Keeps m s0 x0) :
    Keeps m s0 (tick x0) := by
  unfold tick
  try dsimp only
  repeat' first
    | (with_reducible first
        | assumption | apply keeps_ite | apply slewStep_keeps)
    | exact maskSub hm (by decide) | dsimp only | split
    | (intro q hq; cases q <;> first | exact absurd hq (maskOff hm (by decide)) | with_reducible rfl)
    | exact fun _ => ⟨List.prefix_rfl, id⟩ | exact fun _ => ⟨List.prefix_rfl, fun _ => rfl⟩
    | exact fun g => absurd g (maskOff hm (by decide)) | (fail_if_no_progress with_reducible apply keeps_frame) | intro _

end Sys2Proof.Machine
end

