-- ==== Sys2Proof/WellFormed.lean ====
section
/-! DEFINITION. Well-formed commands: operands within what their rows and the device's parts admit. A command that is not well formed
names a part the device does not have; its meaning says what happens then. -/
namespace Sys2Proof

/-- A page's base address (R398). -/
def pageBase? (a : Nat) : Bool := a % 4096 == 0 && decide (a < 67108864)

/-- A lane of a fabric port (Table 1.5): leaf ports have four, spine and pair ports eight. -/
def fabricLane (port lane : Nat) : Bool := decide (port < 160) && decide (lane < if port < 128 then 4 else 8)

/-- A memory that the scrubber walks (R295). -/
def scrubIn (m : ScrubMem) : Bool :=
  match m with
  | .sram die part => decide (die < 8) && decide (part < 5)
  | .stack d => decide (d < 8)
  | .lpddr group => decide (group < 4)

/-- The resources that a start-up step finds bad exist (Tables 18.8, 18.9). -/
def reportIn (r : StepReport) : Bool :=
  (r.badFrames.all fun f => decide (f.1 < 12)) && (r.badChannels.all fun c => decide (c < 32)) &&
    (r.badCheckers.all fun g => decide (g < 193)) && (r.tries.all fun t => decide (t < 4))

/-- A command is well formed. -/
def Instr.wf (c : Instr) : Bool :=
  match c with
  | .powerOn _ _ | .resetNAssert | .resetNRelease _ _ | .chipReset _ | .vioLoss | .refClockLoss _ | .refSelectWrite _ _
  | .clockFallback _ | .pmbusAlert | .faultRecord _ | .extFallowReq | .manualFallow _ | .faultPinClear _
  | .fltAckWrite _ _ | .mgmtLockstep | .mgmtWatchdog | .hostLinkLoss | .hostFrameRx _ | .ptpMessageRx _
  | .shafortSegmentRx _ | .registerWrite _ _ _ _ | .fwCheckDone | .fwProgramDone _ | .auditRecordProgram | .attestSigned
  | .secRecommission _ _ | .secDecommission _ | .linkStateCtrlTimer | .reachMapUpdate | .routeTableRecompute
  | .timeSyncTimer | .timeRootTimeout | .ppsInEdge | .ppsOutPulse | .ackRx _ | .dataRx _ | .contribRx _ | .partialRx _
  | .resultRx _ | .statusNoticeRx _ _ | .countRx _ | .glbCoordWrite _ _ _ | .glbTorusWrite _ _ _ | .fabricEpochWrite _ _
  | .batchSigned | .swathLaunch _ _ | .fallowBlocksHeld | .refClockReturn _ | .fallowReqNHigh | .faultNPulseEnd
  | .watchdogService | .trapReturn => true
  | .railPowerGoodTimeout rail => decide (rail < 9)
  | .supplyOutOfRange rail => decide (rail < 9)
  | .lpddrBistDone badFrames => (badFrames.all fun f => decide (8 ≤ f.1 ∧ f.1 < 12))
  | .clkGateOn _ node => decide (node < 256)
  | .clkGateOff _ node => decide (node < 256)
  | .paceSample monitor rate => decide (monitor < 40) && decide (rate < 65536)
  | .powerControlTick railDw railMv tj => decide (railDw.length = 9) && decide (railMv.length = 9) && decide (tj.length = 17)
  | .thermalTrip sensor => decide (sensor < 17)
  | .blockEnable _ page => pageBase? page
  | .blockDisable _ page => pageBase? page
  | .blockStopDone page => pageBase? page
  | .blockReset _ page => pageBase? page
  | .blockResetDone page => pageBase? page
  | .fltReactWrite _ kind _ _ => decide (kind < 256)
  | .handshakeStall _ inst _ => decide (inst < 4096)
  | .registerSweep bad => (bad.all fun w => decide (w.1 ≤ 0x03FFFFFF) && w.1 % 4 == 0)
  | .tileSelfTest tile => decide (tile < 512)
  | .tileSelfTestDone tile _ => decide (tile < 512)
  | .fenceRx port => decide (port < 161)
  | .crossingWordRx crossing channel _ _ => decide (crossing < 28) && decide (channel < 4)
  | .hostLinkUp mode _ => decide (mode < 4)
  | .segmentTimeout session _ => decide (session < 4294967296)
  | .hello _ role nonce _ => decide (role < 256) && decide (nonce.length = 32)
  | .proof session _ => decide (session < 4294967296)
  | .proofTimeout session => decide (session < 4294967296)
  | .close session => decide (session < 4294967296)
  | .keepalive session => decide (session < 4294967296)
  | .sessionIdleTimeout session => decide (session < 4294967296)
  | .reg session _ _ ops => decide (session < 4294967296) && decide (ops.length ≤ 65535)
  | .eventStatusClear _ page _ => pageBase? page
  | .pageLock _ page => pageBase? page
  | .subscribe session _ ranges => decide (session < 4294967296) && decide (ranges.length ≤ 65535)
  | .eventAck session evtSeq => decide (session < 4294967296) && decide (evtSeq < 4294967296)
  | .eventResendTimer session evtSeq => decide (session < 4294967296) && decide (evtSeq < 4294967296)
  | .eventAckTimeout session evtSeq => decide (session < 4294967296) && decide (evtSeq < 4294967296)
  | .bulkOpen session _ req => decide (session < 4294967296) && decide (req.transfer < 65536)
  | .bulkOpenResume session transfer => decide (session < 4294967296) && decide (transfer < 65536)
  | .bulkData session transfer seg data => decide (session < 4294967296) && decide (transfer < 65536) && decide (seg < 4294967296) && decide (data.length ≤ 1048576)
  | .bulkAck session transfer cum _ => decide (session < 4294967296) && decide (transfer < 65536) && decide (cum < 4294967296)
  | .bulkAckTimer session transfer => decide (session < 4294967296) && decide (transfer < 65536)
  | .bulkResendTimer session transfer seg => decide (session < 4294967296) && decide (transfer < 65536) && decide (seg < 4294967296)
  | .bulkCommit session _ transfer => decide (session < 4294967296) && decide (transfer < 65536)
  | .bulkIdleTimeout session transfer => decide (session < 4294967296) && decide (transfer < 65536)
  | .auditStart session fromSeq => decide (session < 4294967296) && decide (fromSeq < 281474976710656)
  | .auditAck session next => decide (session < 4294967296) && decide (next < 281474976710656)
  | .auditResendTimer session => decide (session < 4294967296)
  | .attestReq session _ nonce => decide (session < 4294967296) && decide (nonce.length = 32)
  | .credentialWrite _ entry word _ _ => decide (entry < 64) && decide (word < 16)
  | .jtagExtest instruction => decide (instruction < 65536)
  | .portEnable _ port _ => decide (port < 161)
  | .portDisable _ port => decide (port < 161)
  | .portTestEnter _ port => decide (port < 161)
  | .signalDetect port lane => fabricLane port lane
  | .trainingFrameRx port lane _ => fabricLane port lane
  | .bringupStageTimeout port => decide (port < 161)
  | .bringupRestart port => decide (port < 161)
  | .identTimer port => decide (port < 161)
  | .identRx port payload => decide (port < 161) && decide (payload.length = 64)
  | .identAckRx port => decide (port < 161)
  | .portRetrain _ port => decide (port < 161)
  | .portAdopt _ port => decide (port < 161)
  | .heldDownRetry port => decide (port < 161)
  | .laneUnhealthy port lane _ _ => fabricLane port lane
  | .restripeDone port _ => decide (port < 161)
  | .laneRejoin port lane _ => fabricLane port lane
  | .linkFrameRx port _ => decide (port < 161)
  | .llrRetryRx port _ => decide (port < 161)
  | .linkAckRx port _ => decide (port < 161)
  | .creditReturnRx port vc count => decide (port < 161) && decide (vc < 16) && decide (count < 65536)
  | .stitchOpenStart stitch => decide (stitch < 12)
  | .stitchSenseSample stitch _ _ => decide (stitch < 12)
  | .stitchAdmitTimeout stitch => decide (stitch < 12)
  | .stitchRetryTimer stitch => decide (stitch < 12)
  | .kstForceClose _ stitch => decide (stitch < 12)
  | .kstHoldOpen _ stitch _ => decide (stitch < 12)
  | .kstRetry _ stitch => decide (stitch < 12)
  | .patCtrlWrite _ group _ _ => decide (group < 193)
  | .packetRx port _ _ => decide (port < 161)
  | .packetTxDone port => decide (port < 161)
  | .origCellWaitEnd die pool => decide (die < 8) && decide (pool < 4)
  | .leakAuditPass die => decide (die < 8)
  | .bpCfgWrite _ die _ _ => decide (die < 8)
  | .gateEntryBoundary port => decide (port < 161)
  | .gateChange _ port => decide (port < 161)
  | .gateListStart port => decide (port < 161)
  | .transitBucketRecover port => decide (port < 161)
  | .meterWrite _ port cls word _ _ => decide (port < 161) && decide (cls < 8) && decide (word < 4)
  | .linkStateCtrlRx port view => decide (port < 161) && (view.all fun e => decide (e.1 < 4096))
  | .timePacketRx port _ _ => decide (port < 161)
  | .ackDelayExpiry ctx => decide (ctx < 16384)
  | .rtoExpiry ctx seq => decide (ctx < 16384) && decide (seq < 16777216)
  | .slotQuotaWrite _ sub _ _ => decide (sub < 256)
  | .redSpillCfgWrite _ die _ _ => decide (die < 8)
  | .holdQueueFree sub => decide (sub < 256)
  | .postPendingResume trigger => decide (trigger < 32768)
  | .slotTake slot => decide (slot < 4096)
  | .retentionFreed slot _ => decide (slot < 4096)
  | .chunkDigest sub _ _ => decide (sub < 256)
  | .livenessExpiry slot => decide (slot < 4096)
  | .settlingEnd slot => decide (slot < 4096)
  | .trigAdd _ die _ => decide (die < 8)
  | .triggerValidWrite _ trigger _ => decide (trigger < 32768)
  | .quireTableWrite _ entry word _ _ => decide (entry < 256) && decide (word < 8)
  | .rankXlatWrite _ entry _ _ => decide (entry < 131072)
  | .jobLoad _ sub => decide (sub < 256)
  | .jobUnload _ sub => decide (sub < 256)
  | .jobUnloadDone sub => decide (sub < 256)
  | .stepForwardResume sub => decide (sub < 256)
  | .stageExecute sub stage _ => decide (sub < 256) && decide (stage < 1024)
  | .sealSpaceFreed sub => decide (sub < 256)
  | .signBatch _ sub => decide (sub < 256)
  | .releaseBatch _ sub => decide (sub < 256)
  | .scrubStep mem address _ _ => scrubIn mem && decide (address < 137438953472)
  | .dramRefresh stack vault _ => decide (stack < 8) && decide (vault < 64)
  | .lpddrRetrain channel temp => decide (channel < 32) && decide (temp < 256)
  | .retireClear _ unit => decide (unit < 12)
  | .swathMarkerRx unit channel => decide (unit < 9) && decide (channel < 36)
  | .jobLoadDecided sub _ => decide (sub < 256)
  | .startUpStepEnd report => reportIn report
  | .dividerRampEnd node => decide (node < 113)
  | .lpddrRefresh channel temp => decide (channel < 32) && decide (temp < 256)

end Sys2Proof
end

