-- ==== Sys2Proof/Laws/PerInstr.lean ====
section
/-! SUPPORT. What holds of every command as syntax: the word that a command writes is a word of the register space. -/
namespace Sys2Proof.Laws.WriteFits

open Sys2Proof Sys2Proof.Machine

set_option Elab.async false

/-- The register write that a well-formed command is addresses a word inside the register space (R311, R398). -/
def Statement (c : Instr) : Prop := c.wf = true → ∀ w, writeOf c = some w → w.2.1 ≤ 0x03FFFFFF ∧ w.2.1 % 4 = 0

theorem noWrite (c : Instr) (h : writeOf c = none) : Statement c := fun _ w hw => by simp [h] at hw

/-- A page's header words lie inside the register space. -/
theorem pageWord (page off : Nat) (h : pageBase? page = true) (ho : off < 4096) (h4 : off % 4 = 0) :
    page + off ≤ 0x03FFFFFF ∧ (page + off) % 4 = 0 := by
  simp only [pageBase?, Bool.and_eq_true, beq_iff_eq, decide_eq_true_eq] at h; omega

theorem powerOn (makerEn : Bool) (bistQuick : Bool) : Statement (.powerOn makerEn bistQuick) := noWrite _ rfl
theorem resetNAssert : Statement .resetNAssert := noWrite _ rfl
theorem resetNRelease (makerEn : Bool) (bistQuick : Bool) : Statement (.resetNRelease makerEn bistQuick) := noWrite _ rfl
theorem chipReset (who : Option Requester) : Statement (.chipReset who) := noWrite _ rfl
theorem railPowerGoodTimeout (rail : Nat) : Statement (.railPowerGoodTimeout rail) := noWrite _ rfl
theorem supplyOutOfRange (rail : Nat) : Statement (.supplyOutOfRange rail) := noWrite _ rfl
theorem vioLoss : Statement .vioLoss := noWrite _ rfl
theorem lpddrBistDone (badFrames : List (Nat × Nat)) : Statement (.lpddrBistDone badFrames) := noWrite _ rfl
theorem refClockLoss (ref : Bool) : Statement (.refClockLoss ref) := noWrite _ rfl
theorem refSelectWrite (who : Requester) (sel : Bool) : Statement (.refSelectWrite who sel) := by
  intro _ w h
  cases h; simp only [pClk]; decide
theorem clockFallback (reserveGood : Bool) : Statement (.clockFallback reserveGood) := noWrite _ rfl
theorem clkGateOn (who : Requester) (node : Nat) : Statement (.clkGateOn who node) := by
  intro _ w h
  simp only [writeOf] at h
  split at h
  · cases h; simp only [pClk]; first | omega | decide
  · cases h
theorem clkGateOff (who : Requester) (node : Nat) : Statement (.clkGateOff who node) := by
  intro _ w h
  simp only [writeOf] at h
  split at h
  · cases h; simp only [pClk]; first | omega | decide
  · cases h
theorem paceSample (monitor : Nat) (rate : Nat) : Statement (.paceSample monitor rate) := noWrite _ rfl
theorem powerControlTick (railDw : List Nat) (railMv : List Nat) (tj : List Nat) : Statement (.powerControlTick railDw railMv tj) := noWrite _ rfl
theorem pmbusAlert : Statement .pmbusAlert := noWrite _ rfl
theorem thermalTrip (sensor : Nat) : Statement (.thermalTrip sensor) := noWrite _ rfl
theorem blockEnable (who : Requester) (page : Nat) : Statement (.blockEnable who page) := by
  intro hw w h
  simp only [writeOf] at h
  split at h
  · cases h; exact pageWord page _ hw (by decide) (by decide)
  · cases h
theorem blockDisable (who : Requester) (page : Nat) : Statement (.blockDisable who page) := by
  intro hw w h
  simp only [writeOf] at h
  split at h
  · cases h; exact pageWord page _ hw (by decide) (by decide)
  · cases h
theorem blockStopDone (page : Nat) : Statement (.blockStopDone page) := noWrite _ rfl
theorem blockReset (who : Option Requester) (page : Nat) : Statement (.blockReset who page) := noWrite _ rfl
theorem blockResetDone (page : Nat) : Statement (.blockResetDone page) := noWrite _ rfl
theorem faultRecord (src : FaultSrc) : Statement (.faultRecord src) := noWrite _ rfl
theorem extFallowReq : Statement .extFallowReq := noWrite _ rfl
theorem manualFallow (who : Requester) : Statement (.manualFallow who) := by
  intro _ w h
  cases h; simp only [pFlt]; decide
theorem faultPinClear (who : Requester) : Statement (.faultPinClear who) := by
  intro _ w h
  cases h; simp only [pFlt]; decide
theorem fltAckWrite (who : Requester) (seq : Word) : Statement (.fltAckWrite who seq) := by
  intro _ w h
  cases h; simp only [pFltLog]; decide
theorem fltReactWrite (who : Requester) (kind : Nat) (value : Word) (mask : Word) : Statement (.fltReactWrite who kind value mask) := by
  intro _ w h
  simp only [writeOf] at h
  split at h
  · cases h; simp only [wReact]; first | omega | decide
  · cases h
theorem handshakeStall (sourceType : BitVec 8) (inst : Nat) (slotsInFlight : List Nat) : Statement (.handshakeStall sourceType inst slotsInFlight) := noWrite _ rfl
theorem registerSweep (bad : List (Nat × Bool)) : Statement (.registerSweep bad) := noWrite _ rfl
theorem mgmtLockstep : Statement .mgmtLockstep := noWrite _ rfl
theorem mgmtWatchdog : Statement .mgmtWatchdog := noWrite _ rfl
theorem tileSelfTest (tile : Nat) : Statement (.tileSelfTest tile) := noWrite _ rfl
theorem tileSelfTestDone (tile : Nat) (pass : Bool) : Statement (.tileSelfTestDone tile pass) := noWrite _ rfl
theorem fenceRx (port : Nat) : Statement (.fenceRx port) := noWrite _ rfl
theorem crossingWordRx (crossing : Nat) (channel : Nat) (codes : List (BitVec 4)) (victim : Nat) : Statement (.crossingWordRx crossing channel codes victim) := noWrite _ rfl
theorem hostLinkUp (mode : Nat) (trained : Bool) : Statement (.hostLinkUp mode trained) := noWrite _ rfl
theorem hostLinkLoss : Statement .hostLinkLoss := noWrite _ rfl
theorem hostFrameRx (frame : HostFrame) : Statement (.hostFrameRx frame) := noWrite _ rfl
theorem ptpMessageRx (msg : PtpMsg) : Statement (.ptpMessageRx msg) := noWrite _ rfl
theorem shafortSegmentRx (d : Dgram) : Statement (.shafortSegmentRx d) := noWrite _ rfl
theorem segmentTimeout (session : Nat) (msgNum : Word) : Statement (.segmentTimeout session msgNum) := noWrite _ rfl
theorem hello (ver : Byte) (role : Nat) (nonce : List Byte) (linkLocal : Bool) : Statement (.hello ver role nonce linkLocal) := noWrite _ rfl
theorem proof (session : Nat) (body : ProofBody) : Statement (.proof session body) := noWrite _ rfl
theorem proofTimeout (session : Nat) : Statement (.proofTimeout session) := noWrite _ rfl
theorem close (session : Nat) : Statement (.close session) := noWrite _ rfl
theorem keepalive (session : Nat) : Statement (.keepalive session) := noWrite _ rfl
theorem sessionIdleTimeout (session : Nat) : Statement (.sessionIdleTimeout session) := noWrite _ rfl
theorem reg (session : Nat) (msgNum : Word) (stop : Bool) (ops : List RegOp) : Statement (.reg session msgNum stop ops) := noWrite _ rfl
theorem registerWrite (who : Requester) (addr : Word) (value : Word) (mask : Word) : Statement (.registerWrite who addr value mask) := noWrite _ rfl
theorem eventStatusClear (who : Requester) (page : Nat) (bits : Word) : Statement (.eventStatusClear who page bits) := by
  intro hw w h
  simp only [writeOf] at h
  split at h
  · cases h; exact pageWord page _ hw (by decide) (by decide)
  · cases h
theorem pageLock (who : Requester) (page : Nat) : Statement (.pageLock who page) := by
  intro hw w h
  simp only [writeOf] at h
  split at h
  · cases h; exact pageWord page _ hw (by decide) (by decide)
  · cases h
theorem subscribe (session : Nat) (msgNum : Word) (ranges : List (Nat × Nat)) : Statement (.subscribe session msgNum ranges) := noWrite _ rfl
theorem eventAck (session : Nat) (evtSeq : Nat) : Statement (.eventAck session evtSeq) := noWrite _ rfl
theorem eventResendTimer (session : Nat) (evtSeq : Nat) : Statement (.eventResendTimer session evtSeq) := noWrite _ rfl
theorem eventAckTimeout (session : Nat) (evtSeq : Nat) : Statement (.eventAckTimeout session evtSeq) := noWrite _ rfl
theorem bulkOpen (session : Nat) (msgNum : Word) (req : BulkReq) : Statement (.bulkOpen session msgNum req) := noWrite _ rfl
theorem bulkOpenResume (session : Nat) (transfer : Nat) : Statement (.bulkOpenResume session transfer) := noWrite _ rfl
theorem bulkData (session : Nat) (transfer : Nat) (seg : Nat) (data : List Byte) : Statement (.bulkData session transfer seg data) := noWrite _ rfl
theorem bulkAck (session : Nat) (transfer : Nat) (cum : Nat) (sack : List Nat) : Statement (.bulkAck session transfer cum sack) := noWrite _ rfl
theorem bulkAckTimer (session : Nat) (transfer : Nat) : Statement (.bulkAckTimer session transfer) := noWrite _ rfl
theorem bulkResendTimer (session : Nat) (transfer : Nat) (seg : Nat) : Statement (.bulkResendTimer session transfer seg) := noWrite _ rfl
theorem bulkCommit (session : Nat) (msgNum : Word) (transfer : Nat) : Statement (.bulkCommit session msgNum transfer) := noWrite _ rfl
theorem bulkIdleTimeout (session : Nat) (transfer : Nat) : Statement (.bulkIdleTimeout session transfer) := noWrite _ rfl
theorem fwCheckDone : Statement .fwCheckDone := noWrite _ rfl
theorem fwProgramDone (readBackOk : Bool) : Statement (.fwProgramDone readBackOk) := noWrite _ rfl
theorem auditStart (session : Nat) (fromSeq : Nat) : Statement (.auditStart session fromSeq) := noWrite _ rfl
theorem auditAck (session : Nat) (next : Nat) : Statement (.auditAck session next) := noWrite _ rfl
theorem auditResendTimer (session : Nat) : Statement (.auditResendTimer session) := noWrite _ rfl
theorem auditRecordProgram : Statement .auditRecordProgram := noWrite _ rfl
theorem attestReq (session : Nat) (msgNum : Word) (nonce : List Byte) : Statement (.attestReq session msgNum nonce) := noWrite _ rfl
theorem attestSigned : Statement .attestSigned := noWrite _ rfl
theorem secRecommission (who : Requester) (katPass : Bool) : Statement (.secRecommission who katPass) := noWrite _ rfl
theorem secDecommission (who : Requester) : Statement (.secDecommission who) := by
  intro _ w h
  cases h; simp only [pSec]; decide
theorem credentialWrite (who : Requester) (entry : Nat) (word : Nat) (value : Word) (mask : Word) : Statement (.credentialWrite who entry word value mask) := by
  intro _ w h
  simp only [writeOf] at h
  split at h
  · cases h; simp only [wCred]; first | omega | decide
  · cases h
theorem jtagExtest (instruction : Nat) : Statement (.jtagExtest instruction) := noWrite _ rfl
theorem portEnable (who : Requester) (port : Nat) (mode : BitVec 2) : Statement (.portEnable who port mode) := by
  intro _ w h
  simp only [writeOf] at h
  split at h
  · cases h; simp only [pPort]; first | omega | decide
  · cases h
theorem portDisable (who : Requester) (port : Nat) : Statement (.portDisable who port) := by
  intro _ w h
  simp only [writeOf] at h
  split at h
  · cases h; simp only [pPort]; first | omega | decide
  · cases h
theorem portTestEnter (who : Requester) (port : Nat) : Statement (.portTestEnter who port) := by
  intro _ w h
  simp only [writeOf] at h
  split at h
  · cases h; simp only [pPort]; first | omega | decide
  · cases h
theorem signalDetect (port : Nat) (lane : Nat) : Statement (.signalDetect port lane) := noWrite _ rfl
theorem trainingFrameRx (port : Nat) (lane : Nat) (frame : TrainFrame) : Statement (.trainingFrameRx port lane frame) := noWrite _ rfl
theorem bringupStageTimeout (port : Nat) : Statement (.bringupStageTimeout port) := noWrite _ rfl
theorem bringupRestart (port : Nat) : Statement (.bringupRestart port) := noWrite _ rfl
theorem identTimer (port : Nat) : Statement (.identTimer port) := noWrite _ rfl
theorem identRx (port : Nat) (payload : List Byte) : Statement (.identRx port payload) := noWrite _ rfl
theorem identAckRx (port : Nat) : Statement (.identAckRx port) := noWrite _ rfl
theorem portRetrain (who : Requester) (port : Nat) : Statement (.portRetrain who port) := by
  intro _ w h
  simp only [writeOf] at h
  split at h
  · cases h; simp only [pPort]; first | omega | decide
  · cases h
theorem portAdopt (who : Requester) (port : Nat) : Statement (.portAdopt who port) := by
  intro _ w h
  simp only [writeOf] at h
  split at h
  · cases h; simp only [pPort]; first | omega | decide
  · cases h
theorem heldDownRetry (port : Nat) : Statement (.heldDownRetry port) := noWrite _ rfl
theorem laneUnhealthy (port : Nat) (lane : Nat) (dir : Dir) (cause : LaneCause) : Statement (.laneUnhealthy port lane dir cause) := noWrite _ rfl
theorem restripeDone (port : Nat) (dir : Dir) : Statement (.restripeDone port dir) := noWrite _ rfl
theorem laneRejoin (port : Nat) (lane : Nat) (dir : Dir) : Statement (.laneRejoin port lane dir) := noWrite _ rfl
theorem linkFrameRx (port : Nat) (frame : LinkFrame) : Statement (.linkFrameRx port frame) := noWrite _ rfl
theorem llrRetryRx (port : Nat) (lsn : BitVec 12) : Statement (.llrRetryRx port lsn) := noWrite _ rfl
theorem linkAckRx (port : Nat) (lsn : BitVec 12) : Statement (.linkAckRx port lsn) := noWrite _ rfl
theorem creditReturnRx (port : Nat) (vc : Nat) (count : Nat) : Statement (.creditReturnRx port vc count) := noWrite _ rfl
theorem stitchOpenStart (stitch : Nat) : Statement (.stitchOpenStart stitch) := noWrite _ rfl
theorem stitchSenseSample (stitch : Nat) (openMade : Bool) (closedMade : Bool) : Statement (.stitchSenseSample stitch openMade closedMade) := noWrite _ rfl
theorem stitchAdmitTimeout (stitch : Nat) : Statement (.stitchAdmitTimeout stitch) := noWrite _ rfl
theorem stitchRetryTimer (stitch : Nat) : Statement (.stitchRetryTimer stitch) := noWrite _ rfl
theorem kstForceClose (who : Requester) (stitch : Nat) : Statement (.kstForceClose who stitch) := by
  intro _ w h
  simp only [writeOf] at h
  split at h
  · cases h; simp only [pStitch]; first | omega | decide
  · cases h
theorem kstHoldOpen (who : Requester) (stitch : Nat) (hold : Bool) : Statement (.kstHoldOpen who stitch hold) := by
  intro _ w h
  simp only [writeOf] at h
  split at h
  · cases h; simp only [pStitch]; first | omega | decide
  · cases h
theorem kstRetry (who : Requester) (stitch : Nat) : Statement (.kstRetry who stitch) := by
  intro _ w h
  simp only [writeOf] at h
  split at h
  · cases h; simp only [pStitch]; first | omega | decide
  · cases h
theorem patCtrlWrite (who : Requester) (group : Nat) (value : Word) (mask : Word) : Statement (.patCtrlWrite who group value mask) := by
  intro _ w h
  simp only [writeOf] at h
  split at h
  · cases h; simp only [pPattern]; first | omega | decide
  · cases h
theorem packetRx (port : Nat) (bytes : List Byte) (stomped : Bool) : Statement (.packetRx port bytes stomped) := noWrite _ rfl
theorem packetTxDone (port : Nat) : Statement (.packetTxDone port) := noWrite _ rfl
theorem origCellWaitEnd (die : Nat) (pool : Nat) : Statement (.origCellWaitEnd die pool) := noWrite _ rfl
theorem leakAuditPass (die : Nat) : Statement (.leakAuditPass die) := noWrite _ rfl
theorem bpCfgWrite (who : Requester) (die : Nat) (value : Word) (mask : Word) : Statement (.bpCfgWrite who die value mask) := by
  intro _ w h
  simp only [writeOf] at h
  split at h
  · cases h; simp only [pBufPool]; first | omega | decide
  · cases h
theorem gateEntryBoundary (port : Nat) : Statement (.gateEntryBoundary port) := noWrite _ rfl
theorem gateChange (who : Requester) (port : Nat) : Statement (.gateChange who port) := by
  intro _ w h
  simp only [writeOf] at h
  split at h
  · cases h; simp only [pGate]; first | omega | decide
  · cases h
theorem gateListStart (port : Nat) : Statement (.gateListStart port) := noWrite _ rfl
theorem transitBucketRecover (port : Nat) : Statement (.transitBucketRecover port) := noWrite _ rfl
theorem meterWrite (who : Requester) (port : Nat) (cls : Nat) (word : Nat) (value : Word) (mask : Word) : Statement (.meterWrite who port cls word value mask) := by
  intro _ w h
  simp only [writeOf] at h
  split at h
  · cases h; simp only [meterAddr, pPolice]; first | omega | decide
  · cases h
theorem linkStateCtrlTimer : Statement .linkStateCtrlTimer := noWrite _ rfl
theorem linkStateCtrlRx (port : Nat) (view : List (Nat × BitVec 24)) : Statement (.linkStateCtrlRx port view) := noWrite _ rfl
theorem reachMapUpdate : Statement .reachMapUpdate := noWrite _ rfl
theorem routeTableRecompute : Statement .routeTableRecompute := noWrite _ rfl
theorem timeSyncTimer : Statement .timeSyncTimer := noWrite _ rfl
theorem timePacketRx (port : Nat) (bytes : List Byte) (ingress : BitVec 64) : Statement (.timePacketRx port bytes ingress) := noWrite _ rfl
theorem timeRootTimeout : Statement .timeRootTimeout := noWrite _ rfl
theorem ppsInEdge : Statement .ppsInEdge := noWrite _ rfl
theorem ppsOutPulse : Statement .ppsOutPulse := noWrite _ rfl
theorem ackDelayExpiry (ctx : Nat) : Statement (.ackDelayExpiry ctx) := noWrite _ rfl
theorem ackRx (handle : Nat) : Statement (.ackRx handle) := noWrite _ rfl
theorem rtoExpiry (ctx : Nat) (seq : Nat) : Statement (.rtoExpiry ctx seq) := noWrite _ rfl
theorem dataRx (handle : Nat) : Statement (.dataRx handle) := noWrite _ rfl
theorem slotQuotaWrite (who : Requester) (sub : Nat) (value : Word) (mask : Word) : Statement (.slotQuotaWrite who sub value mask) := by
  intro _ w h
  simp only [writeOf] at h
  split at h
  · cases h; simp only [wSlotQuota]; first | omega | decide
  · cases h
theorem redSpillCfgWrite (who : Requester) (die : Nat) (value : Word) (mask : Word) : Statement (.redSpillCfgWrite who die value mask) := by
  intro _ w h
  simp only [writeOf] at h
  split at h
  · cases h; simp only [pReduce]; first | omega | decide
  · cases h
theorem holdQueueFree (sub : Nat) : Statement (.holdQueueFree sub) := noWrite _ rfl
theorem postPendingResume (trigger : Nat) : Statement (.postPendingResume trigger) := noWrite _ rfl
theorem slotTake (slot : Nat) : Statement (.slotTake slot) := noWrite _ rfl
theorem contribRx (handle : Nat) : Statement (.contribRx handle) := noWrite _ rfl
theorem partialRx (handle : Nat) : Statement (.partialRx handle) := noWrite _ rfl
theorem retentionFreed (slot : Nat) (chunk : Nat) : Statement (.retentionFreed slot chunk) := noWrite _ rfl
theorem chunkDigest (sub : Nat) (point : Nat) (chunk : Nat) : Statement (.chunkDigest sub point chunk) := noWrite _ rfl
theorem resultRx (handle : Nat) : Statement (.resultRx handle) := noWrite _ rfl
theorem statusNoticeRx (handle : Nat) (commitFault : Bool) : Statement (.statusNoticeRx handle commitFault) := noWrite _ rfl
theorem livenessExpiry (slot : Nat) : Statement (.livenessExpiry slot) := noWrite _ rfl
theorem settlingEnd (slot : Nat) : Statement (.settlingEnd slot) := noWrite _ rfl
theorem countRx (handle : Nat) : Statement (.countRx handle) := noWrite _ rfl
theorem trigAdd (who : Requester) (die : Nat) (amount : Word) : Statement (.trigAdd who die amount) := by
  intro _ w h
  simp only [writeOf] at h
  split at h
  · cases h; simp only [pTrig]; first | omega | decide
  · cases h
theorem triggerValidWrite (who : Requester) (trigger : Nat) (valid : Bool) : Statement (.triggerValidWrite who trigger valid) := by
  intro _ w h
  simp only [writeOf] at h
  split at h
  · cases h; simp only [wTrig]; first | omega | decide
  · cases h
theorem glbCoordWrite (who : Requester) (value : Word) (mask : Word) : Statement (.glbCoordWrite who value mask) := by
  intro _ w h
  cases h; simp only [pGlb]; decide
theorem glbTorusWrite (who : Requester) (value : Word) (mask : Word) : Statement (.glbTorusWrite who value mask) := by
  intro _ w h
  cases h; simp only [pGlb]; decide
theorem fabricEpochWrite (who : Requester) (value : Word) : Statement (.fabricEpochWrite who value) := by
  intro _ w h
  cases h; simp only [pGlb]; decide
theorem quireTableWrite (who : Requester) (entry : Nat) (word : Nat) (value : Word) (mask : Word) : Statement (.quireTableWrite who entry word value mask) := by
  intro _ w h
  simp only [writeOf] at h
  split at h
  · cases h; simp only [wQuire]; first | omega | decide
  · cases h
theorem rankXlatWrite (who : Requester) (entry : Nat) (value : Word) (mask : Word) : Statement (.rankXlatWrite who entry value mask) := by
  intro _ w h
  simp only [writeOf] at h
  split at h
  · cases h; simp only [wRank]; first | omega | decide
  · cases h
theorem jobLoad (who : Requester) (sub : Nat) : Statement (.jobLoad who sub) := by
  intro _ w h
  simp only [writeOf] at h
  split at h
  · cases h; simp only [wJob]; first | omega | decide
  · cases h
theorem jobUnload (who : Requester) (sub : Nat) : Statement (.jobUnload who sub) := by
  intro _ w h
  simp only [writeOf] at h
  split at h
  · cases h; simp only [wJob]; first | omega | decide
  · cases h
theorem jobUnloadDone (sub : Nat) : Statement (.jobUnloadDone sub) := noWrite _ rfl
theorem stepForwardResume (sub : Nat) : Statement (.stepForwardResume sub) := noWrite _ rfl
theorem stageExecute (sub : Nat) (stage : Nat) (check : StageCheck) : Statement (.stageExecute sub stage check) := noWrite _ rfl
theorem sealSpaceFreed (sub : Nat) : Statement (.sealSpaceFreed sub) := noWrite _ rfl
theorem signBatch (who : Requester) (sub : Nat) : Statement (.signBatch who sub) := by
  intro _ w h
  simp only [writeOf] at h
  split at h
  · cases h; simp only [wSeal]; first | omega | decide
  · cases h
theorem batchSigned : Statement .batchSigned := noWrite _ rfl
theorem releaseBatch (who : Requester) (sub : Nat) : Statement (.releaseBatch who sub) := by
  intro _ w h
  simp only [writeOf] at h
  split at h
  · cases h; simp only [wSeal]; first | omega | decide
  · cases h
theorem scrubStep (mem : ScrubMem) (address : Nat) (found : ScrubFound) (newerWrite : Bool) : Statement (.scrubStep mem address found newerWrite) := noWrite _ rfl
theorem dramRefresh (stack : Nat) (vault : Nat) (hot : Bool) : Statement (.dramRefresh stack vault hot) := noWrite _ rfl
theorem lpddrRetrain (channel : Nat) (temp : Nat) : Statement (.lpddrRetrain channel temp) := noWrite _ rfl
theorem retireClear (who : Requester) (unit : Nat) : Statement (.retireClear who unit) := noWrite _ rfl
theorem swathLaunch (who : Requester) (seq : BitVec 16) : Statement (.swathLaunch who seq) := by
  intro _ w h
  cases h; simp only [pSwath]; decide
theorem swathMarkerRx (unit : Nat) (channel : Nat) : Statement (.swathMarkerRx unit channel) := noWrite _ rfl
theorem jobLoadDecided (sub : Nat) (perms : List (Nat × Nat)) : Statement (.jobLoadDecided sub perms) := noWrite _ rfl
theorem startUpStepEnd (report : StepReport) : Statement (.startUpStepEnd report) := noWrite _ rfl
theorem fallowBlocksHeld : Statement .fallowBlocksHeld := noWrite _ rfl
theorem refClockReturn (ref : Bool) : Statement (.refClockReturn ref) := noWrite _ rfl
theorem fallowReqNHigh : Statement .fallowReqNHigh := noWrite _ rfl
theorem faultNPulseEnd : Statement .faultNPulseEnd := noWrite _ rfl
theorem dividerRampEnd (node : Nat) : Statement (.dividerRampEnd node) := noWrite _ rfl
theorem lpddrRefresh (channel : Nat) (temp : Nat) : Statement (.lpddrRefresh channel temp) := noWrite _ rfl
theorem watchdogService : Statement .watchdogService := noWrite _ rfl
theorem trapReturn : Statement .trapReturn := noWrite _ rfl

end Sys2Proof.Laws.WriteFits
end

