-- ==== Sys2Proof/Tests/Slice0.lean ====
section
/-! SUPPORT. Tests: a witness for the hypotheses of every statement, the well-formedness smoke test, and the spec's worked examples. -/
namespace Sys2Proof.Tests

open Sys2Proof Sys2Proof.Machine

set_option Elab.async false

/-! ## States for the tests -/

/-- The machine after start-up, with nothing placed in it. -/
def ready : State := { State.reset with phase := .ready }
/-- A session of a role, accepted, that has done nothing yet. -/
def sess (role : Nat) : Session :=
  { accepted := true, role := role, keyDigest := [], cred := 0, key := [], hostNonce := [], devNonce := [], draw := 0, t1 := [],
    scope := 0, highSeq := 0, seen := [], nextSeq := 1, done := [], ranges := [], lastBits := [], ackedPages := [], events := [],
    trigQueue := [], dropped := 0, partials := [], audit := none }
def withSess (s : State) (x : Session) : State := setSession s 5 (some x)
/-- A job with nothing in it. -/
def job0 : JobSt :=
  { stages := [], conns := [], regions := [], stashes := [], role := 0, roleMap := [], maxBatch := 0, rickBound := 0, alignMode := 0,
    e4mode := 0, descBase := 0, descLen := 0, engines := [], counters := [], triggers := [], streams := [], queues := [], tiles := [],
    frames := [], perms := 0, colophon := [], colophonDigest := [], reservedKib := 0, hold := [], waitPosts := [], posted := [],
    postFloor := 0, rounds := [], failed := false, steps := [], members := [], ended := [], failedSteps := [],
    doneSteps := [], stash := [], stashLost := [], unsettled := [], recvMsgs := [], digests := [], sealedLens := [], staging := [],
    sealWaiting := false, sealSince := 0 }
def withJob (s : State) (n : Nat) (j : JobSt) : State := setJob s n (some j)
/-- `ready` with some words of the register space. -/
def words (s : State) (l : List (Nat × Word)) : State := l.foldl (fun s e => wr s e.1 e.2) s
/-- `ready` with a port in a state and stage of Table 13.7, enabled or not. -/
def portAt (p state stage : Nat) (en : Bool) : State :=
  words ready [(pPort p + 0x44, BitVec.ofNat 32 (256 * stage + state)), (pPort p + 0x40, if en then 0x80000000 else 0)]
def atStep (k : Nat) : State := { State.reset with phase := .starting k }
def report0 : StepReport := { ok := true, badFrames := [], badChannels := [], tries := [], density := 0, badCheckers := [] }
def blankAt (ty : BitVec 6) : Pkt := blankPkt ty
/-- A delivery of a packet under handle 0. -/
def delivered (s : State) (k : Pkt) : State :=
  setDeliv { s with nextHandle := 1 } 0 (some { cell := 0, gen := 0, pkt := k, port := none, die := 7 })

/-! ## Witnesses: the hypotheses of each statement hold somewhere, clause by clause -/

theorem witness_FatalCausesEnterFallow : live ready = true ∧ requestArmed ready = true ∧
    ((atStep 1).phase = .starting 1 ∧ (atStep 1).rails = [] ∧ (8 : Nat) ∈ railOrder ∧ (1 : Nat) ∈ railOrder) := by decide
theorem witness_FatalCausesEnterFallow_write : Accepts ready .mgmt (pFlt + 0x48) 1 1 := by unfold Accepts; decide

theorem witness_ResetsStartOver : ready.phase ≠ .unpowered ∧ ready.phase ≠ .inReset ∧
    { ready with phase := .inReset }.phase = .inReset ∧
    ({ ready with faults := { ready.faults with chipResetOwed := true } }.faults.chipResetOwed = true ∧ stitchesClosed ready = true ∧
      ready.fw.jtag = false) := by decide
theorem witness_ResetsStartOver_write : Accepts ready .mgmt (pRst + 0x40) 1 1 := by unfold Accepts; decide

theorem witness_StartUpAdvances : ((atStep 1).phase = .starting 1 ∧ report0.ok = true ∧ (atStep 1).rails = []) ∧
    ((atStep 3).phase = .starting 3 ∧ { report0 with ok := false }.ok = false) ∧
    ((atStep 3).phase = .starting 3 ∧ { (atStep 3).flash with present := true, headerGood := true }.present = true ∧
      { (atStep 3).flash with present := true, headerGood := true }.headerGood = true) ∧
    ((atStep 4).phase = .starting 4 ∧ fwCode (atStep 4) [] ≠ 0) ∧ (atStep 6).phase = .starting 6 ∧
    ((atStep 13).phase = .starting 13 ∧ (atStep 13).bistRunning = false ∧ ∀ n, n < 12 → stitchSettled (atStep 13) n = true) ∧
    ({ ready with bistRunning := true }.bistRunning = true ∧ { ready with bistRunning := true }.heldReqs = []) := by decide

theorem witness_ClocksFollowTheirRules : live ready = true ∧ refInUse ready ≠ !refInUse ready ∧ bit ready (pClk + 0x44) 28 = false ∧
    (neverGated 112 = true ∧ neverGated 0 = false ∧ childInUse (portAt 0 1 1 true) 0 = some 0x100 ∧
      childInUse ready 0 = none ∧ nodeOn (words ready [(pClk + 0x50, 1)]) 0 = true ∧ childInUse (words ready [(pClk + 0x50, 1)]) 0 = none) ∧
    ({ ready with ramps := [(127, false)] }.ramps.find? fun r => r.1 == 127) = some (127, false) := by decide
theorem witness_ClocksFollowTheirRules_write : Accepts ready .mgmt (pClk + 0x40) 1 1 ∧
    refOk (words ready [(pClk + 0x44, 0xC0000000)]) true = true ∧ refInUse (words ready [(pClk + 0x44, 0xC0000000)]) ≠ true ∧
    Accepts (words ready [(pClk + 0x44, 0xC0000000)]) .mgmt (pClk + 0x40) 1 1 ∧
    Accepts ready .mgmt (pClk + 0x48) (BitVec.ofNat 32 (2147483648 + 112)) 0x800000FF ∧
    Accepts ready .mgmt (pClk + 0x48) (BitVec.ofNat 32 0) 0x800000FF ∧
    Accepts ready .mgmt (pClk + 0x48) (BitVec.ofNat 32 112) 0x800000FF := by unfold Accepts; decide

theorem witness_PowerIsWatched : live ready = true ∧ (39 < 40 ∧ 0 < 40) ∧
    fdef ready (pPwr + 0x40) 15 0 1700 < ((List.range 9).map fun r => [17010].getD r 0).sum / 10 := by decide

theorem witness_BlocksStopAndStart : (∃ k, pageOf (pSched 40) = some (k, (pSched 40)) ∧ k.ty ≠ 0x20 ∧ k.hasReset = true ∧
      k.ty ∉ [0x29, 0x2A, 0x2B]) ∧ (∃ k, pageOf (pCluster 31) = some (k, pCluster 31) ∧ k.ty ≠ 0x20) ∧
    frozen ready (pSched 40) = false ∧ frozen ready (pCluster 31) = false ∧ blkState ready (pSched 40) ≠ 3 ∧
    blkState (words ready [(pCluster 31 + 0x0C, 0)]) (pCluster 31) = 0 ∧
    (blkState (words ready [(pCluster 31 + 0x0C, 0x103)]) (pCluster 31) = 3 ∧
      resetting (words ready [(pCluster 31 + 0x0C, 0x103)]) (pCluster 31) = false) ∧
    blkState (words ready [(pCluster 31 + 0x0C, 1)]) (pCluster 31) = 1 ∧
    blkState (words ready [(pCluster 31 + 0x0C, 2)]) (pCluster 31) = 2 ∧
    resetting (words ready [((pSched 40) + 0x0C, 0x203)]) (pSched 40) = true :=
  ⟨⟨_, rfl, by decide, by decide, by decide⟩, ⟨_, rfl, by decide⟩, by decide⟩
theorem witness_BlocksStopAndStart_write : Accepts ready .mgmt (pCluster 31 + 0x08) 1 1 ∧ Accepts ready .mgmt (pCluster 31 + 0x08) 0 1 ∧
    Accepts ready .mgmt ((pSched 40) + 0x08) 2 2 := by unfold Accepts; decide

def recResidue : FaultRec := mkFault 0xF1 0 2 1 0 0 0
theorem witness_RecordsAreServed : live ready = true ∧ (∃ k, kindOf 0x05 = some k ∧ k.cls = 1 ∧ 2 < 0x05) ∧
    rd (words ready [(wReact 0x05, 1)]) (wReact 0x05) &&& 0x3F = 1 ∧ (∃ k, kindOf 0x4B = some k ∧ k.cls = 2) :=
  ⟨by decide, ⟨_, rfl, by decide, by decide⟩, by decide, ⟨_, rfl, by decide⟩⟩

theorem witness_FaultPinsTrapsAndChecks : (fallow ready = false ∧ ready.faults.pulse = false ∧ ready.faults.latched = false) ∧
    live ready = true ∧
    ({ ready.faults with inHandler := true, traps := [] }.inHandler = true) ∧ ready.faults.traps = [] ∧
    (pageOf pGlb).isSome = true ∧
    (inService ready = true ∧ ready.faults.held = false ∧ 511 < 512 ∧ ownerOfTile ready 511 = none ∧
      ready.faults.tilesWithdrawn.contains 511 = false) ∧
    { ready.faults with tilesUnderTest := [511] }.tilesUnderTest.contains 511 = true ∧
    [(3 : BitVec 4)].all codeOk4 = false ∧
    (fallow (words ready [(pFlt + 0x44, 0x80000000)]) = true ∧ ready.faults.supplyOff = false) := by decide
theorem witness_FaultPinsTrapsAndChecks_write : Accepts ready .mgmt (pFlt + 0x40) 0x80000000 0x80000000 := by unfold Accepts; decide

def hostReady : State := words ready [(pHostIf + 0x44, 0x80000000), (pHostIf + 0x40, 0xF0000000)]
def dgram0 : Dgram :=
  { ver := 1, ty := 0x10, flags := 0, session := 5, seq := 1, msgNum := 0, msgLen := 0, segOff := 0, segLen := 0, status := 0,
    segment := [], tag := [] }
theorem witness_HostPortTakesFrames : live hostReady = true ∧ hostUp hostReady = true ∧ bit hostReady (pHostIf + 0x40) (28 + 3) = true ∧
    hostReady.hostSt.offered ≤ 3 ∧
    Sparse.get (fun _ => 0) { hostReady.hostSt with fails := [(3, 2)] }.fails 3 = 2 ∧
    frameOk hostReady { len := 9217, vlan := none, payload := .other } = false ∧
    frameOk hostReady { len := 9216, vlan := none, payload := .other } = true ∧
    ownIp4 (words hostReady [(pHostIf + 0x40, 0xF4000000)]) 0 = true ∧
    dgramOk { dgram0 with ver := 2 } = false ∧ (dgramOk dgram0 = true ∧ hostTypes.contains (dgram0.ty.toNat, false) = false ∧
      getSession (withSess hostReady (sess 1)) dgram0.session.toNat = some (sess 1) ∧ (sess 1).accepted = true) ∧
    ((sess 1).highSeq < dgram0.seq.toNat) ∧ seqFresh { sess 1 with highSeq := 1 } dgram0.seq.toNat = false := by decide
/-- The tag of R309 is a function of the key and the datagram (log 6), and no part of what it covers. -/
theorem witness_HostPortTakesFrames_tag (g : List Byte) : tagOf [] { dgram0 with tag := g } = tagOf [] dgram0 := rfl

theorem witness_SessionsOpenAndClose : served hostReady = true ∧ hostUp hostReady = true ∧ openingCount hostReady < 4 ∧
    openCount hostReady < 16 ∧ makerOpen hostReady = false ∧ (List.replicate 32 (0 : Byte)).length = 32 ∧
    { hostReady.fuses with secState := 1 }.secState ≠ 0 ∧
    (getSession (withSess hostReady { sess 1 with accepted := false }) 5 = some { sess 1 with accepted := false }) ∧
    openSession (withSess hostReady (sess 1)) 5 = some (sess 1) ∧
    (unackedEvent { sess 1 with events := [⟨7, 0, 0, []⟩] } 7).isSome = true ∧ hostReady.faults.mute = false := by decide
/-- A PROOF with no chain fails; whether one passes rests on the opaque signature check (log 6). -/
theorem witness_SessionsOpenAndClose_proof (t2 : List Byte) :
    proofOk hostReady { sess 1 with accepted := false } ⟨[], [], [], none, none⟩ t2 = none := by
  unfold proofOk; split
  · rfl
  · rw [if_pos (by simp)]

def reply0 : HostMsg := { ty := 0x11, queue := 0, session := 5, seq := 0, msgNum := 1, flags := 0, status := 0, body := [] }
theorem witness_RequestsAreServedOnce : Fresh (withSess ready (sess 1)) 5 1 (sess 1) := by
  unfold Fresh; refine ⟨by decide, by decide, by decide, by decide⟩
theorem witness_RequestsAreServedOnce_more :
    ([(⟨1, 0, 0, 0⟩ : RegOp)] ≠ [] ∧ [(⟨1, 0, 0, 0⟩ : RegOp)].length ≤ 256 ∧ (⟨1, 0, 0, 0⟩ : RegOp).op = 1) ∧
    writeStatus (begin' (withSess ready (sess 1)) 5 1) (.session 5) 2 0 0xFFFFFFFF = 4 ∧
    (List.replicate 64 ((0, 0) : Nat × Nat)).length ≤ 64 ∧ ready.attests = [] ∧
    reqKind { sess 1 with done := [(1, some reply0)] } 1 = .again (some reply0) ∧
    (({ sess 1 with events := [⟨7, 0, 0, []⟩] } : Session).events.find? fun e => e.evtSeq == 7) = some ⟨7, 0, 0, []⟩ ∧ 7 ≠ ready.evtSeq ∧
    unackedEvent { sess 1 with events := [⟨7, 0, 0, []⟩] } 7 = some ⟨7, 0, 0, []⟩ ∧ ready.faults.mute = false ∧
    ([] : List Byte).length ≠ 32 := by decide

def req0 : BulkReq := { transfer := 9, dir := false, target := 0, subscriber := 0, region := 0, offset := 0, length := 1024, segSize := 1024 }
def xfer0 : Transfer := { session := 5, req := req0, msgNum := 1, waiting := false, segs := [], unacked := 0, data := [], sent := 0 }
def withXfer (x : Transfer) : State := { withSess ready (sess 1) with transfers := [x] }
theorem witness_BulkTransfersRun : ({ req0 with segSize := 1 }.segSize % 1024 ≠ 0) ∧
    (ready.transfers = [] ∧ ready.bistRunning = false ∧ req0.segSize = 1024 ∧ req0.target = 0 ∧ req0.dir = false ∧ (sess 1).role = 1) ∧
    (getTransfer (withXfer { xfer0 with waiting := true, req := { req0 with target := 1 } }) 5 9 =
        some { xfer0 with waiting := true, req := { req0 with target := 1 } } ∧
      stepRuns ready 0 = false ∧ bulkRange (withXfer xfer0) { req0 with target := 1 } = false) ∧
    (limited (withXfer xfer0) = false ∧ openSession (withXfer xfer0) 5 = some (sess 1) ∧ getTransfer (withXfer xfer0) 5 9 = some xfer0 ∧
      0 < segCount req0 req0.length ∧ segBytes req0 req0.length 0 = 1024) ∧
    (getTransfer (withXfer { xfer0 with req := { req0 with dir := true }, sent := 1 }) 5 9 =
      some { xfer0 with req := { req0 with dir := true }, sent := 1 } ∧ 0 < 1 ∧ 0 ∉ xfer0.segs) ∧
    { xfer0 with unacked := 1 }.unacked ≠ 0 ∧ firstMissing xfer0 = some 0 ∧ firstMissing { xfer0 with segs := [0] } = none := by decide
theorem witness_BulkTransfersRun_area : loadAreaOk (words ready [(pLpddr 32 + 0x44, 0xF0000000)]) 0 0 = true := by decide
theorem witness_BulkTransfersRun_fresh : Fresh (withXfer xfer0) 5 1 (sess 1) := by
  unfold Fresh; refine ⟨by decide, by decide, by decide, by decide⟩

def audit0 : AuditRec := { seq := 3, kind := 5, time := 0, role := 3, result := 0, subject := 0, session := 0, detail := [], link := [] }
theorem witness_FirmwareAuditAndSecurity :
    ({ ready.fw with staged := some [] }.staged = some [] ∧ fwState (words ready [(pSec + 0x50, 1)]) = 1 ∧ fwCode ready [] ≠ 0) ∧
    { ready.fw with writing := some [] }.writing = some [] ∧
    (served ready = true ∧ openSession (withSess ready { sess 1 with audit := some ⟨4, 3⟩ }) 5 = some { sess 1 with audit := some ⟨4, 3⟩ } ∧
      (3 : Nat) ≤ 4 ∧ (3 : Nat) < 4 ∧ audit0.seq = 3 ∧ audit0.seq < 3 + 128) ∧
    ({ ready.audit with staged := [(audit0, [])] }.staged = (audit0, []) :: [] ∧
      { ready.flash with present := true, ring := [], capacity := 1 }.ring.length < { ready.flash with capacity := 1 }.capacity) := by decide
theorem witness_FirmwareAuditAndSecurity_write : Accepts { ready with fuses := { ready.fuses with secState := 1 } } .mgmt (pSec + 0x4C) 2 3 := by
  unfold Accepts; decide

/-- A port in a state and stage with its protocol side as given. -/
def portWith (p state stage : Nat) (x : PortSt) : State := setPort (portAt p state stage true) p x
/-- A leaf port 0 that has received an IDENT of a device of role `role` and major version 1, whose chip id reads 0 or 1. -/
def identified (p state role chip : Nat) : State :=
  setPort (words (portAt p state 8 true) [(pPort p + 0x88, BitVec.ofNat 32 role), (pPort p + 0x80, BitVec.ofNat 32 chip)]) p
    { portInit with identGot := true, identMajor := 1 }
theorem witness_PortsComeUp : (159 < 160 ∧ 0 < 160) ∧
    (portEn ready 159 = false ∧ portTest ready 159 = false ∧ blkState ready (pPort 159) = 0 ∧ ready.faults.held = false) ∧
    (portEn (words (portAt 0 4 9 true) [(pPort 0 + 0x0C, 2)]) 0 = true ∧
      blkState (words (portAt 0 4 9 true) [(pPort 0 + 0x0C, 2)]) (pPort 0) = 2) ∧
    frozen ready (pPort 0) = false ∧
    (portEn (portAt 128 1 1 true) 128 = true ∧ portTest (portAt 128 1 1 true) 128 = false ∧ pState (portAt 128 1 1 true) 128 = 1 ∧
      (getPort (portAt 128 1 1 true) 128).waitRestart = false ∧ pStage (portAt 128 1 1 true) 128 < 8) ∧
    frameCrcOk 0 = false ∧ frameCrcOk (BitVec.ofNat 80 0x313E) = true ∧
    (2 ≤ pStage (portWith 128 3 7 { portInit with signal := [7] }) 128 ∧ pStage (portWith 128 3 7 { portInit with signal := [7] }) 128 < 8 ∧
      (getPort (portWith 128 3 7 { portInit with signal := [7] }) 128).signal.contains 7 = true) ∧
    (pState (portAt 0 3 5 true) 0 = 3 ∧ mayFallBack (portAt 0 3 5 true) 0 = false) ∧
    (mayFallBack (words (portAt 0 3 7 true) [(pPort 0 + 0x40, 0xA0000000)]) 0 = true ∧
      pState (words (portAt 0 3 7 true) [(pPort 0 + 0x40, 0xA0000000)]) 0 = 3) ∧
    (portEn (portWith 0 1 1 { portInit with waitRestart := true }) 0 = true ∧
      (getPort (portWith 0 1 1 { portInit with waitRestart := true }) 0).waitRestart = true) ∧
    (live (portAt 0 3 8 true) = true ∧ (portAt 0 3 8 true).faults.held = false ∧ portTest (portAt 0 3 8 true) 0 = false) ∧
    (pStage (portAt 0 3 8 true) 0 = 8 ∧ pState (portAt 0 3 8 true) 0 = 3 ∧ (getPort (portAt 0 3 8 true) 0).identGot = false) ∧
    ((getPort (identified 0 3 0 0) 0).identGot = true ∧ admissionCause (identified 0 3 0 0) 0 = some 2 ∧ 8 ≤ pStage (identified 0 3 0 0) 0) ∧
    isLeaf 0 = true ∧ pState ready 0 ≠ 5 ∧ pState (portAt 0 6 9 true) 0 = 6 := by decide +kernel
theorem witness_PortsComeUp_write : Accepts ready .mgmt (pPort 159 + 0x40) (BitVec.ofNat 32 (2147483648 + (0 : BitVec 2).toNat)) 0x80000003 ∧
    Accepts (words (portAt 0 4 9 true) [(pPort 0 + 0x0C, 2)]) .mgmt (pPort 0 + 0x40) 0 0x80000000 ∧
    Accepts ready .mgmt (pPort 0 + 0x40) 0x40000000 0x40000000 ∧ Accepts (portAt 0 4 9 true) .mgmt (pPort 0 + 0x4C) 2 2 ∧
    Accepts (words ready [(pPort 0 + 0x48, 5)]) .mgmt (pPort 0 + 0x4C) 1 1 := by unfold Accepts; decide
/-- Test 3 of Table 13.5 compares with the device's own chip id, an opaque value (log 5): one chip id passes. -/
theorem witness_PortsComeUp_admit : ∃ c, admissionCause (identified 0 3 1 c) 0 = none := by
  by_cases h : natOfLE chipId = 0
  · refine ⟨1, ?_⟩
    have h4 : (foundChip (identified 0 3 1 1) 0 == natOfLE chipId) = false := by rw [h]; decide
    unfold admissionCause; simp only [h4]; decide
  · refine ⟨0, ?_⟩
    have h4 : (foundChip (identified 0 3 1 0) 0 == natOfLE chipId) = false := by
      rw [beq_eq_false_iff_ne]; exact fun e => h (e.symm.trans (by decide))
    unfold admissionCause; simp only [h4]; decide

def framed (p : Nat) (x : PortSt) : State := setPort (words (portAt p 4 9 true) [(wAddr p, 0x80)]) p x
def lf0 : LinkFrame := { uncorrectable := false, lsn := 4095, packet := [], check := 0 }
/-- Port 0 with a retry that named LSN 7 and fifteen failed replays, its four lanes healthy both ways. -/
def retried (x : PortSt) : State := words (framed 0 { x with lastRetry := some 7, replayFails := 15 })
  [(wAddr 0, 0x0F0F44)]
theorem witness_LinksKeepTheirFrames : (framing (framed 127 { portInit with rxLsn := 4095 }) 127 = true ∧ live (framed 127 portInit) = true ∧
      (framed 127 portInit).faults.held = false) ∧
    ({ lf0 with check := linkCheck lf0 }.check = linkCheck { lf0 with check := linkCheck lf0 } ∧
      lf0.lsn.toNat = (getPort (framed 127 { portInit with rxLsn := 4095 }) 127).rxLsn ∧
      (getPort (framed 127 portInit) 127).rxDiscard = false) ∧ lf0.check ≠ linkCheck lf0 ∧
    ((getPort (framed 127 { portInit with rxLsn := 4095, rxDiscard := true }) 127).rxDiscard = true ∧
      lf0.lsn.toNat = (getPort (framed 127 { portInit with rxLsn := 4095, rxDiscard := true }) 127).rxLsn ∧
      lf0.lsn.toNat ≠ (getPort (framed 127 { portInit with rxLsn := 0, rxDiscard := true }) 127).rxLsn) ∧
    (getPort (framed 127 { portInit with replayFails := 14 }) 127).replayFails < 15 ∧
    (framing (retried portInit) 0 = true ∧ (getPort (retried portInit) 0).replayFails = 15 ∧
      (getPort (retried portInit) 0).lastRetry = some (7 : BitVec 12).toNat ∧ widthTx (retried portInit) 0 ≠ 0) ∧
    ((getPort (framed 0 { portInit with replay := [(1, blankAt 1), (2, blankAt 1)] }) 0).replay = [(1, blankAt 1)] ++ (2, blankAt 1) :: [] ∧
      2 = (2 : BitVec 12).toNat ∧ (∀ f ∈ [((1 : Nat), blankAt 1)], f.1 ≠ (2 : BitVec 12).toNat)) ∧
    (admitted (framed 0 portInit) 0 = true ∧ mayStart (framed 0 portInit) 0 = false) ∧
    (3 < lanesOfPort 127 ∧ 7 < lanesOfPort 128 ∧ striped (portAt 127 3 5 true) 127 = false) := by decide +kernel
theorem witness_LinksKeepTheirFrames_widths : (striped (retried portInit) 0 = true ∧
      newWidth (setBit (retried portInit) (wAddr 0) (8 + 3) false) 0 .tx ≠ 0 ∧
      newWidth (setBit (retried portInit) (wAddr 0) (8 + 3) false) 0 .tx ≠ widthOf (retried portInit) 0 .tx) ∧
    (getLane { retried portInit with lanes := [(laneNum 0 3, { laneInit with stage := 7 })] } (laneNum 0 3)).stage = 7 ∧
    mayWiden (retried portInit) (getPort (retried portInit) 0).widenedRx = true := by decide +kernel

/-- Stitch `n` with its ports enabled and its KST_STATE and KST_CTRL words as given. -/
def stitchAt (n : Nat) (st ctrl : Word) (x : StitchSt) : State :=
  setStitch (words ready [(pPort (portsOfStitch n).1 + 0x40, 0x80000000), (pPort (portsOfStitch n).2 + 0x40, 0x80000000),
    (pStitch n + 0x44, st), (pStitch n + 0x40, ctrl)]) n x
theorem witness_StitchesOpenAndClose : (mayOpen (stitchAt 11 0 0 stitchInit) 11 = true ∧ axisFree (stitchAt 11 0 0 stitchInit) 11 = true ∧
      axisTurn (stitchAt 11 0 0 stitchInit) 11 = true ∧ (getStitch (stitchAt 11 0 0 stitchInit) 11).retryOwed = false) ∧
    axisFree (words (stitchAt 11 0 0 stitchInit) [(pStitch 8 + 0x44, 4)]) 11 = false ∧
    ((getStitch (stitchAt 0 0x200 0 { stitchInit with retryOwed := true }) 0).retryOwed = true ∧
      mayOpen (stitchAt 0 0x200 0 { stitchInit with retryOwed := true }) 0 = true ∧
      axisFree (stitchAt 0 0x200 0 { stitchInit with retryOwed := true }) 0 = true ∧
      axisTurn (stitchAt 0 0x200 0 { stitchInit with retryOwed := true }) 0 = true) ∧
    stState (stitchAt 0 0 0 stitchInit) 0 ≠ 5 ∧
    mayOpen (stitchAt 0 0x300 0 stitchInit) 0 = false ∧
    (stState (stitchAt 11 2 0 { stitchInit with commandOpen := true }) 11 = 2 ∧
      (getStitch (stitchAt 11 2 0 { stitchInit with commandOpen := true }) 11).commandOpen = true) ∧
    (stState (stitchAt 11 4 0 stitchInit) 11 = 4 ∧ (getStitch (stitchAt 11 4 0 stitchInit) 11).commandOpen = false) ∧
    (stState (stitchAt 0 3 0 stitchInit) 0 = 3 ∧ admitted (stitchAt 0 3 0 stitchInit) (portsOfStitch 0).1 = false ∧
      holdOpen (stitchAt 0 3 0 stitchInit) 0 = false ∧ bit (stitchAt 0 3 0 stitchInit) (pStitch 0 + 0x40) 0 = false) ∧
    mayOpen (fset (stitchAt 11 0x300 0 stitchInit) (pStitch 11 + 0x44) 9 8 0) 11 = true ∧
    axisFree (fset (stitchAt 11 0x300 0 stitchInit) (pStitch 11 + 0x44) 9 8 0) 11 = true ∧
    axisTurn (fset (stitchAt 11 0x300 0 stitchInit) (pStitch 11 + 0x44) 9 8 0) 11 = true := by decide +kernel
theorem witness_StitchesOpenAndClose_write : Accepts (stitchAt 0 3 0 stitchInit) .mgmt (pStitch 0 + 0x40) 1 1 ∧
    Accepts (stitchAt 11 0x300 0 stitchInit) .mgmt (pStitch 11 + 0x40) 4 4 := by unfold Accepts; decide

/-- A sealed TRANSIT acknowledgement for the device itself, and its bytes. -/
def ackPkt : Pkt := sealPkt { withPayload (blankPkt tAck) (List.replicate 16 0) with cls := 7, dst := 0xFF0 }
def onePort : State := words ready [(pPort 0 + 0x44, 0x904), (pPort 0 + 0x40, 0x80000000)]
theorem witness_SwitchCoreTakesPackets : 160 < 161 ∧ portEn (portAt 0 3 8 true) 0 = true ∧ admitted (portAt 0 3 8 true) 0 = false ∧
    admitted onePort 0 = true ∧ (∃ k, decodePkt (List.replicate 36 0) = some k ∧ k.hcrc ≠ hcrcOf k) ∧
    (∃ k, decodePkt (encodePkt (withHcrc { blankPkt 1 with ver := 2 })) = some k ∧ k.hcrc = hcrcOf k ∧ k.len.toNat ≤ 4096 ∧
      (encodePkt (withHcrc { blankPkt 1 with ver := 2 })).length = 36 + k.len.toNat ∧ k.ver ≠ 1) ∧
    (decodePkt (encodePkt ackPkt) = some ackPkt ∧ formatDrop (encodePkt ackPkt) ackPkt = none ∧ ackPkt.ty = tAck ∧
      classOk ackPkt = true ∧ trailerOk ackPkt = true) ∧
    (getPort (setPort ready 160 { portInit with sending := some (⟨0, 0, ackPkt, false⟩, 0) }) 160).sending = some (⟨0, 0, ackPkt, false⟩, 0) ∧
    queuedAt (setPort ready 160 portInit) 160 = 0 ∧ (7 < 8) ∧
    (mayStart ready 160 = false ∧ (getGate (setGate ready 160 { (getGate ready 160) with len := 256 }) 160).len ≠ 0 ∧
      (getGate ready 160).resync = none ∧ bit (words ready [(pGate 160 + 0x40, 0x20000000)]) (pGate 160 + 0x40) 29 = true) := by
  refine ⟨by decide, by decide, by decide, by decide, ⟨_, rfl, by decide +kernel⟩, ⟨_, rfl, by decide +kernel⟩, by decide +kernel,
    by decide +kernel, by decide +kernel, by decide, by decide +kernel⟩
/-- A status packet of the device itself that waits for a cell of pool 0 of die 0. -/
def wait0 : OrigWait := { die := 0, pkt := ackPkt, targets := [], control := true, sub := none }
def waiting0 : State := { ready with origWait := [wait0] }
theorem witness_SwitchCoreTakesPackets_more : addressDrop ready 0 { ackPkt with dst := 0x7F8 } = none ∧
    chooseEgress ready { ackPkt with dst := 0x7F8 } (some 0) = .here ∧
    freeCell ready (dieOfPort 0) (poolOf (sizeOf' ackPkt)) = some (cellId 0 0 0) ∧
    (confined ready { ackPkt with hops := 48 } 0 = true ∧ addrOk ready 0x7F8 = true ∧ 48 ≤ (48 : BitVec 8).toNat) ∧
    ((waiting0.origWait.find? fun w => w.die == 0 && poolOf (sizeOf' w.pkt) == 0 && origReady waiting0 w) = some wait0 ∧
      wait0.targets = []) := by decide +kernel
def gated : State := words ready [(pGate 0 + 0x40, 1), (wGate 0 0 0 + 4, 64), (wGate 0 1 0 + 4, 64)]
theorem witness_SwitchCoreTakesPackets_write : Accepts ready .mgmt (pBufPool 7 + 0x40) 0 0xFF ∧
    Accepts gated .mgmt (pGate 0 + 0x40) 0x40000000 0x40000000 ∧ mayStart gated 0 = false := by unfold Accepts; decide +kernel

def admittedAt (p : Nat) : State := words ready [(pPort p + 0x44, 0x904), (pPort p + 0x40, 0x80000000)]
def timed (w : Word) : State := words ready [(pTime + 0x40, w)]
theorem witness_MapsRoutesAndTime : (fallow (admittedAt 151) = false ∧ 151 ∈ spinePorts (admittedAt 151)) ∧
    (isSpine 128 = true ∧ admitted (admittedAt 128) 128 = true ∧ 4095 < 4096 ∧ 4095 ≠ ownIndex (admittedAt 128)) ∧
    (decodePkt (List.replicate 35 0)).isNone = true ∧
    (∃ k, decodePkt (encodePkt (timePkt 2 0 0 0 0)) = some k ∧ formatDrop (encodePkt (timePkt 2 0 0 0 0)) k = none ∧ k.ty = tTime ∧
      trailerOk k = true ∧ k.msg = 2) ∧
    (timeSrc (timed 1) = 1 ∧ (timed 1).timeSt.ptpMaster = none ∧ (timed 1).timeSt.ptpForeign = []) ∧
    (1 : Byte).toNat ≠ fget ready (pTime + 0x40) 31 24 ∧ timeSrc (timed 2) = 2 ∧ bit (timed 16) (pTime + 0x40) 4 = true := by
  refine ⟨by decide +kernel, by decide, by decide, ⟨_, rfl, by decide +kernel⟩, by decide⟩
/-- A master that announces itself at every 1,000 ns, and a clock that has heard it once at 500, or follows it. -/
def master0 : PtpData :=
  { source := 7, priority1 := 128, clockClass := 248, accuracy := 0, variance := 0, priority2 := 128, grandmaster := 7, steps := 0,
    interval := 1000 }
def heardOnce : State := { timed 3 with uptime := 1000, timeSt := { (timed 3).timeSt with ptpForeign := [⟨master0, [500]⟩] } }
def followsPtp : State :=
  { heardOnce with timeSt := { heardOnce.timeSt with ptpMaster := some 7, ptpSync := some (7, 0) } }
theorem witness_MapsRoutesAndTime_ptp : (timeSrc heardOnce = 3 ∧ heardOnce.timeSt.ptpMaster = none ∧
      heardOnce.timeSt.ptpForeign = [⟨master0, [500]⟩] ∧ master0.steps.toNat < 255 ∧ 0 < master0.interval.toNat ∧
      heardOnce.uptime < 500 + 4 * master0.interval.toNat) ∧
    (timeSrc followsPtp = 3 ∧ freeRunning followsPtp = false ∧ ptpAlive followsPtp = true ∧ ptpNow followsPtp = some 7) ∧
    (live (timed 16) = true ∧ atSecond (timed 16) = true) ∧ atSecond { timed 16 with time := 500000000 } = false := by decide +kernel
/-- Spine port 151 admitted, with `n` credits of VC 12. -/
def creditedAt (n : Nat) : State := setPort (admittedAt 151) 151 { portInit with credits := [(12, n)] }
theorem witness_MapsRoutesAndTime_sent : 151 ∈ spinePorts (creditedAt 17) ∧ (getPort (creditedAt 17) 151).replay = [] ∧
    17 ≤ vcGet (getPort (creditedAt 17) 151).credits 12 ∧ 1 ≤ vcGet (getPort (creditedAt 1) 151).credits 12 ∧
    portEn (creditedAt 1) 151 = true ∧ admitted (creditedAt 1) 151 = true ∧
    ∃ k, decodePkt (encodePkt (timePkt 2 0 0 0 0)) = some k ∧ frameFits (creditedAt 1) 151 (timePkt 3 k.offset.toNat 0 0 (stampOf (creditedAt 1) 151)) = true ∧
      creditsOf (timePkt 3 k.offset.toNat 0 0 (stampOf (creditedAt 1) 151)) ≤ vcGet (getPort (creditedAt 1) 151).credits 12 :=
  ⟨by decide +kernel, by decide, by decide, by decide, by decide, by decide, _, rfl, by decide +kernel⟩

/-! ### Streams, deliveries, slots, jobs -/

def stream0 : Stream :=
  { sub := 0, kind := .fromMember, peer := 0, pair := some (0, 0), cum := 16777215, got := [], sinceAck := 0, die := 0, ecnSeen := 0,
    dup := 0, outOfWindow := 0, cls := 0, nextSeq := 0, unacked := [], window := 1048576, effWindow := 1048576, waiting := [] }
def sent0 (times : Nat) : Sent := { seq := 5, pkt := blankAt 1, times := times, later := [], slot := none, chunk := none, control := false }
def withStream (x : Stream) : State := setStream ready 3 (some x)
theorem witness_StreamsAcceptOnce : getStream (withStream stream0) 3 = some stream0 ∧ stream0.cum < 16777216 ∧
    (streamAccept (withStream stream0) 3 { blankAt tData with seq := 0xFFFFFF } 0).2 = true ∧
    isDuplicate stream0 16777214 = true ∧ inFlight stream0 ≤ stream0.effWindow ∧ stream0.waiting = [] ∧ stream0.sinceAck = 0 ∧
    ({ stream0 with sinceAck := 1 }.sinceAck ≠ 0 ∧ stream0.pair ≠ none) ∧
    ({ stream0 with unacked := [sent0 64] }.unacked.find? fun w => w.seq == 5) = some (sent0 64) ∧ 64 ≤ (sent0 64).times ∧
    (sent0 63).times < 64 := by decide +kernel

theorem subOfQuire_delivered (s : State) (k : Pkt) (q : Nat) : subOfQuire (delivered s k) q = subOfQuire s q := rfl
theorem ready_quire0 : subOfQuire ready 0 = none := by decide +kernel
theorem witness_DeliveriesAreTakenOnce : ∀ e ∈ [(tContrib, (0 : Word)), (tPartial, 0), (tCount, 0), (tResult, 0), (tResult, 0xFFFFFFFF), (tAck, 0),
      (tData, 0), (tTransit, 0)],
    (getDeliv (delivered ready { blankAt e.1 with offset := e.2 }) 0).isSome = true ∧
    0 < (delivered ready { blankAt e.1 with offset := e.2 }).nextHandle ∧
    subOfQuire (delivered ready { blankAt e.1 with offset := e.2 }) ({ blankAt e.1 with offset := e.2 } : Pkt).quire.toNat = none ∧
    contextOfPair (delivered ready { blankAt e.1 with offset := e.2 }) { blankAt e.1 with offset := e.2 } = none :=
  fun _ _ => ⟨rfl, Nat.one_pos, ready_quire0, rfl⟩

def slot0 : SlotSt :=
  { k := 0, sub := 0, desc := descOf ready 0 0, locals := [], parent := none, children := [], expected := 0, chunks := [], unacked := [],
    okSent := false, code := 0, flags := 0, escapes := 0, rootEscapes := 0, noticeGot := false, settling := false, sentTo := [],
    absent := false, inputs := [], counts := [], countsGot := 0, countsDown := false, joined := [], delivered := [], frickLens := [],
    fromSwitch := [] }
/-- Slot 4095 with a word of Table 6.9 and its collective. -/
def withSlot (w : Word) (x : SlotSt) : State := setSlot (words ready [(wSlot 4095, w)]) 4095 (some x)
/-- A job whose quota is slots 0 to 3, with collective 0 in its hold queue. -/
def holding : State := words (withJob ready 0 { job0 with hold := [0] }) [(wSlotQuota 0, 0x40000), (wSlot 0, 1)]
theorem witness_SlotsFollowTheirGenerations : 8 ≤ genLead ready { blankAt tContrib with msg := 0x8FFF } ∧
    genLead ready { blankAt tContrib with msg := 0x1FFF } = 1 ∧
    (genLead (withSlot 1 slot0) { blankAt tContrib with msg := 0x0FFF } = 0 ∧ slotState (withSlot 1 slot0) 4095 = 1) ∧
    (getSlot (withSlot 2 slot0) 4095 = some slot0 ∧ slot0.okSent = false ∧ slotState (withSlot 2 slot0) 4095 ≠ 4 ∧ slot0.settling = false) ∧
    { slot0 with okSent := true }.okSent = true ∧ { slot0 with settling := true }.settling = true ∧
    slotState (withSlot 3 slot0) 4095 = 3 ∧
    (getJob holding (fget holding (wSlot 0) 15 8) = some { job0 with hold := [0] } ∧ slotState holding 0 = 1 ∧ getSlot holding 0 = none ∧
      slotOf holding 0 0 = 0 ∧ inProgress holding (descOf holding 0 0).engine < 64 ∧ lowerWaits holding 0 { job0 with hold := [0] } 0 = false ∧
      0 / slotQ holding 0 = Sparse.get (fun _ => 0) ({ job0 with hold := [0] } : JobSt).rounds (0 - slotBase holding 0)) := by decide +kernel

/-- Trigger 32767 with its words 0 and 2 (threshold) and its waiting posts. -/
def trigAt (w thr : Word) (posts : List (Nat × Nat)) : State := { words ready [(wTrig 32767, w), (wTrig 32767 + 8, thr)] with pendingPosts := posts }
theorem witness_PostsAndTriggersGoOn : (getJob (withJob ready 255 { job0 with waitPosts := [3] }) 255 = some { job0 with waitPosts := [3] } ∧
      job0.hold.length < 4096 ∧ [(3 : Nat)].length ≤ 4096 ∧ (withJob ready 255 job0).pendingPosts = []) ∧
    (Sparse.get (fun _ => 0) (trigAt 0xA0000000 0 [(32767, 2)]).pendingPosts 32767 ≠ 0 ∧ trigState (trigAt 0xA0000000 0 [(32767, 2)]) 32767 = 2 ∧
      trigRearm (trigAt 0xA0000000 0 [(32767, 2)]) 32767 = false ∧
      ((trigAt 0xA0000000 0 [(32767, 2)]).pendingPosts.all fun e => e.1 == 32767 || e.2 == 0 ||
        trigSub (trigAt 0xA0000000 0 [(32767, 2)]) e.1 != trigSub (trigAt 0xA0000000 0 [(32767, 2)]) 32767) = true ∧
      getJob (trigAt 0xA0000000 0 [(32767, 2)]) (trigSub (trigAt 0xA0000000 0 [(32767, 2)]) 32767) = none) ∧
    trigState ready 0 ≠ 2 ∧
    (bit (trigAt 0 1 []) (wTrig 32767) 31 = false ∧ trigState (trigAt 0 1 []) 32767 = 0 ∧
      (getEvCtr (trigAt 0 1 []) (trigCounter (trigAt 0 1 []) 32767)).toNat < trigThreshold (trigAt 0 1 []) 32767) ∧
    bit (trigAt 0x90000000 1 []) (wTrig 32767) 31 = true := by decide +kernel

def trigOwned (w thr : Word) : State := setJob (trigAt w thr []) 255 (some { job0 with triggers := [32767] })
def counterOwned : State := setJob (words ready [(pTrig 7 + 0x40, 16384)]) 255 (some { job0 with counters := [16384] })
theorem witness_PostsAndTriggersGoOn_write : Accepts counterOwned .mgmt (pTrig 7 + 0x44) 5 0xFFFFFFFF ∧
    triggersOf counterOwned (fget counterOwned (pTrig 7 + 0x40) 14 0) = [] ∧
    Accepts (trigOwned 0 1) .mgmt (wTrig 32767) 0x80000000 0x80000000 ∧ bit (trigOwned 0 1) (wTrig 32767) 31 = false ∧
    trigState (trigOwned 0 1) 32767 = 0 ∧ (getEvCtr (trigOwned 0 1) 0).toNat < trigThreshold (trigOwned 0 1) 32767 ∧
    Accepts (trigOwned 0x90000000 1) .mgmt (wTrig 32767) 0 0x80000000 ∧ bit (trigOwned 0x90000000 1) (wTrig 32767) 31 = true := by
  unfold Accepts; decide +kernel

/-- Job 255's state word as given. -/
def jobAt (w : Word) (j : Option JobSt) : State := setJob (words ready [(wJob 255 + 20, w)]) 255 j
theorem witness_JobsComeAndGo : jobState (jobAt 4 none) 255 = 4 ∧ jobState (jobAt 0 none) 255 = 0 ∧ jobState (jobAt 2 none) 255 = 2 ∧
    (ready.bistRunning = false ∧ { jobAt 2 none with bistRunning := true }.bistRunning = true ∧ jobState (jobAt 1 none) 255 = 1) ∧
    (({ jobAt 1 none with loads := [(255, 3, 0)] }.loads.find? fun l => l.1 == 255) = some (255, 3, 0) ∧
      waitsForTest { jobAt 1 none with loads := [(255, 3, 0)] } 255 = false ∧ (jobAt 1 none).unloadHeld.contains 255 = false) ∧
    (getJob (jobAt 3 (some job0)) 255 = some job0 ∧ jobState (jobAt 3 (some job0)) 255 = 3 ∧ unloadReady (jobAt 3 (some job0)) 255 job0 = true) ∧
    unloadReady (setSlot (setJob ready 0 (some job0)) 7 (some slot0)) 0 job0 = false := by decide +kernel
theorem witness_JobsComeAndGo_write : Accepts (jobAt 0 none) .mgmt (wJob 255) 0x10000000 0xF0000000 ∧
    Accepts (jobAt 4 none) .mgmt (wJob 255) 0x20000000 0xF0000000 := by unfold Accepts; decide +kernel
theorem witness_JobsComeAndGo_busy : Accepts { jobAt 2 none with bistRunning := true } .mgmt (wJob 255) 0x10000000 0xF0000000 ∧
    Accepts (jobAt 1 none) .mgmt (wJob 255) 0x20000000 0xF0000000 := by unfold Accepts; decide +kernel
theorem witness_JobsComeAndGo_loaded : Accepts (jobAt 2 none) .mgmt (wJob 255) 0x10000000 0xF0000000 ∧
    Accepts (jobAt 2 none) .mgmt (wJob 255) 0x20000000 0xF0000000 := by unfold Accepts; decide +kernel
/-- An empty image fails test 1 of Table 9.7; whether one passes rests on the opaque signature check (log 6). -/
theorem witness_JobsComeAndGo_refused : (loadTests { jobAt 1 none with loads := [] } 255).isOk = false := by decide +kernel

def stage0 (ty : Nat) : Stage :=
  { ty := ty, role := 0, index := 0, tileFirst := 0, tiles := 1, outFmt := 0, in0Fmt := 0, auxFmt := 0, in1Fmt := 0, bT := false,
    aT := false, epi := 0, pool := 0, mode := 0, m := 0, n := 0, k := 0, regA := 0, regB := 0, regOut := 0, regAux := 0, desc := 0,
    param0 := 0, bound := 0, param1 := 0 }
def step0 : StepSt := { s := 7, waits := false, inputs := [], results := [], counts := [], held := [], committed := false }
/-- A job of one ADD stage in step 7, with or without its two inputs. -/
def jobStep (ins : Bool) : JobSt :=
  { job0 with stages := [stage0 2], conns := [⟨0xFFFF, 0, 0, 0, 4⟩, ⟨0xFFFF, 1, 0, 0, 4⟩],
              steps := [{ step0 with inputs := if ins then [(0, some []), (1, some [])] else [] }] }
/-- A job of one SEAL stage whose input has come. -/
def sealStep : JobSt := { jobStep true with stages := [stage0 0x12], conns := [⟨0xFFFF, 0, 0, 0, 4⟩] }
/-- What fills the store for the whole job fills it for each of its stages. -/
theorem witness_StagesRunForTheirStep_full (s : State) (m : Nat) (h : 8388608 < digestsHeld s + m) : sealFull s m = true := by
  unfold sealFull; rw [decide_eq_true h, Bool.or_true]
theorem witness_StagesRunForTheirStep : { ready.faults with held := true }.held = true ∧
    (getJob (withJob ready 0 (jobStep true)) 0 = some (jobStep true) ∧ stageOf (jobStep true) 0 = some (stage0 2) ∧
      ((jobStep true).steps.find? fun x => stageReady (withJob ready 0 (jobStep true)) 0 (jobStep true) 0 (stage0 2) x).isSome = true ∧
      (stage0 2).ty ≠ 0x12 ∧ (stage0 2).ty ≠ 1 ∧ inputTooLong (jobStep true) 0 (stage0 2) [] [] = false ∧ malformedInput (jobStep true) (stage0 2) [] = false ∧
      operandPoisoned (withJob ready 0 (jobStep true)) (jobStep true) (stage0 2) [] = false) ∧
    (getJob (withJob ready 0 sealStep) 0 = some sealStep ∧ stageOf sealStep 0 = some (stage0 0x12) ∧
      (sealStep.steps.find? fun x => stageReady (withJob ready 0 sealStep) 0 sealStep 0 (stage0 0x12) x).isSome = true) ∧
    (∀ x ∈ (jobStep false).steps, stageReady (withJob ready 0 (jobStep false)) 0 (jobStep false) 0 (stage0 2) x = false) := by decide +kernel

def sealed : JobSt := { job0 with sealedLens := [(0, 7, 1)], staging := [(0, 7, 0, [1])] }
def batch0 : Batch := { sub := 255, number := 0, first := 0, last := 7, statement := [], sig := [] }
theorem witness_SealsAreSignedInBatches : (getJob (withJob ready 0 sealed) 0 = some sealed ∧ sealed.digests = [] ∧
      sealed.sealedLens = [(0, 7, ([1] : List Byte).length)] ∧ sealed.staging = [(0, 7, 0, [1])] ∧ digestsHeld (withJob ready 0 sealed) < 8388608) ∧
    (getJob (withJob ready 0 { job0 with sealWaiting := true }) 0 = some { job0 with sealWaiting := true } ∧
      sealFull (withJob ready 0 { job0 with sealWaiting := true }) 1 = false ∧
      ((withJob ready 0 { job0 with sealWaiting := true }).slots.all fun e => e.2.all fun x => x.sub != 0) = true) ∧
    (getJob ready 255 = none ∧ getJob (withJob ready 255 job0) 255 ≠ none ∧
      rdPair (withJob ready 255 job0) (wSeal 255 + 4) ≤ rdPair (withJob ready 255 job0) (wSeal 255 + 12) ∧
      stepsIncomplete (withJob ready 255 job0) 255 0 0 = false ∧ (withJob ready 255 job0).batch = none ∧ (withJob ready 255 job0).seals = []) ∧
    { ready with batch := some batch0 }.batch = some batch0 ∧ batch0.sub < 256 ∧
    ({ ready with lastBatch := [batch0] }.lastBatch.find? fun b => b.sub == 255) = some batch0 ∧
    (ready.lastBatch.find? fun b => b.sub == 255) = none := by decide +kernel
/-- A store that is full: one record with 8,388,608 digests. -/
theorem witness_SealsAreSignedInBatches_full (r : SealRec) (h : r.digests.length = 8388608) :
    sealFull { ready with seals := [r] } 1 = true ∧ 8388608 ≤ digestsHeld { ready with seals := [r] } := by
  have e : ready.jobs = [] := rfl
  simp [sealFull, digestsHeld, h, e]
theorem witness_SealsAreSignedInBatches_write : Accepts ready .mgmt (wSeal 255) 0x10000000 0xF0000000 ∧
    Accepts ready .mgmt (wSeal 255) 0x20000000 0xF0000000 := by unfold Accepts; decide +kernel

def withLpddr : State := words ready [(pLpddr 32 + 0x44, 0xF0010000)]
theorem witness_MemoriesAreScrubbed : (7 < 8 ∧ 3221225440 - 1 + 32 < 3221225472) ∧ 33554431 < sramBytes 3 ∧ 67108863 < sramBytes 0 ∧
    (17179869183 < groupBytes withLpddr 3 ∧ withLpddr.jobs = []) ∧ bit (words ready [(pLpddr 31 + 0x40, 0x80000000)]) (pLpddr 31 + 0x40) 31 = true ∧
    (bit (words ready [(retireEntry 11 255, 0x80000000)]) (retireEntry 11 255) 31 = true ∧
      bit (words ready [(retireEntry 11 255, 0x80000000)]) (retireEntry 11 255) 30 = false) ∧
    bit (words ready [(retireEntry 0 0, 0xC0000000)]) (retireEntry 0 0) 30 = true := by decide
theorem witness_MemoriesAreScrubbed_write : Accepts ready .mgmt (pStackMem 7 + 0x4C) 1 1 ∧ Accepts ready .mgmt (pLpddr 32 + 0x4C) 8 8 := by
  unfold Accepts; decide +kernel

def swath0 (left : List (Nat × Nat)) : SwathSt := { seq := 5, cut := [], left := left, started := [0], broken := [] }
theorem witness_SwathMarkersComplete : ready.swath = none ∧ { ready with swath := some (swath0 [(1, 0)]) }.swath = some (swath0 [(1, 0)]) ∧
    ((1, 0) ∈ (swath0 [(1, 0)]).left ∧ channelSource 1 0 ∈ (swath0 [(1, 0)]).started ∧ (∀ e ∈ (swath0 [(1, 0)]).left, e = (1, 0))) ∧
    ((1, 0) ∈ (swath0 [(1, 0), (8, 3)]).left ∧ ∃ e ∈ (swath0 [(1, 0), (8, 3)]).left, e ≠ (1, 0)) ∧
    (∀ e ∈ (swath0 [(1, 0), (8, 3)]).left, e.1 = 1 → e = (1, 0)) ∧ pSched 0 ∈ pagesOf 1 ∧
    channelSource 0 0 ∉ (swath0 []).started := by decide +kernel

/-! ### Register writes -/

theorem witness_RowsAreRegisterWrites : writeOf (.fabricEpochWrite .mgmt 7) = some (.mgmt, pGlb + 0x50, 7, 0xFFFFFFFF) := by decide
theorem witness_PlainWritesMergeTheirFields : ∃ c who a v m, writeOf c = some (who, a, v, m) ∧ plainWrite c = true ∧ Accepts ready who a v m ∧
    mayWrite ready who = true ∧ a % 4096 ≠ 16 := by
  refine ⟨.fltReactWrite .mgmt 0x15 1 0x3F, .mgmt, _, _, _, rfl, by decide, ?_, by decide, by decide⟩
  unfold Accepts; decide +kernel
theorem witness_RefusedWritesChangeNothing : mayWrite ready (.session 9) = false ∧ mayWrite ready .mgmt = true ∧
    writeStatus ready .mgmt 2 0 0 = 4 ∧ writeStatus ready .mgmt (pGlb + 0x50) 0 0xFFFFFFFF = 2 ∧
    (mayWrite (withSess ready (sess 0)) (.session 5) = true ∧ rightsFail (withSess ready (sess 0)) (.session 5) (pGlb + 0x50) 0xFFFFFFFF = true) := by
  decide +kernel
/-- GLB locked, with an installer's session 5 on it. -/
def lockedGlb : State :=
  let s := words (withSess ready (sess 1)) [(pGlb + 0x20, 1)]
  { s with hostSt := { s.hostSt with lockWritten := [pGlb] } }
theorem witness_LocksHold : (∃ k, pageOf pGlb = some (k, pGlb) ∧ k.ty ≠ 0x12) ∧
    (mayWrite ready .mgmt = true ∧ writeStatus ready .mgmt (pGlb + 0x20) 1 1 = 0 ∧ touched (pGlb + 0x20) 1 ≠ []) ∧
    (mayWrite lockedGlb .mgmt = true ∧ pGlb ∈ lockedGlb.hostSt.lockWritten) ∧
    (mayWrite lockedGlb (.session 5) = true ∧ bit lockedGlb (pGlb + 0x20) 0 = true ∧ (∃ k, pageOf (pGlb + 0x48) = some (k, pGlb)) ∧
      rightsFail lockedGlb (.session 5) (pGlb + 0x48) 0x800000 = false ∧
      ∃ f ∈ touched (pGlb + 0x48) 0x800000, f.i = true ∧ f.o = false) := by
  refine ⟨⟨_, rfl, by decide⟩, by decide +kernel, by decide +kernel, by decide +kernel, by decide +kernel, ⟨_, rfl⟩, by decide +kernel,
    by decide +kernel⟩
theorem test_lock_written_once : writeStatus lockedGlb .mgmt (pGlb + 0x20) 0 1 = 2 ∧
    writeStatus lockedGlb (.session 5) (pGlb + 0x48) 0 0x800000 = 2 := by decide +kernel
theorem witness_AccessTypesBehave : 31 < 32 ∧ pGlb + 0x50 < wRank ∧ (∃ f ∈ fieldsAt (pGlb + 0x50), f.mask.getLsbD 31 = true ∧ f.acc = .rw) ∧
    (∃ f ∈ fieldsAt (pGlb + 0x10), f.mask.getLsbD 0 = true ∧ f.acc = .w1c) ∧ (∃ f ∈ fieldsAt (pRst + 0x40), f.mask.getLsbD 0 = true ∧ f.acc = .wo) ∧
    ∀ f ∈ fieldsAt (pRst + 0x40), f.mask.getLsbD 31 = false := by decide +kernel
theorem witness_FabricEpochOnlyRises : mayWrite ready .mgmt = true ∧ rightsFail ready .mgmt (pGlb + 0x50) 0xFFFFFFFF = false ∧
    (rd ready (pGlb + 0x50)).toNat < (0xFFFFFFFF : Word).toNat ∧ recordBlocked ready .mgmt (pGlb + 0x50) 0xFFFFFFFF 0xFFFFFFFF = false ∧
    lockRefuses ready .mgmt (pGlb + 0x50) 0xFFFFFFFF = false := by decide +kernel
theorem witness_SwathsLaunchOneAtATime : rightsFail ready .mgmt (pSwath + 0x40) 0xFFFF = false ∧ (0xFFFF : BitVec 16) ≠ 0 ∧
    (0xFFFF : BitVec 16).toNat ≠ fget ready (pSwath + 0x44) 31 16 ∧ ready.swath = none ∧ ready.swathWait = none ∧ fallow ready = false ∧
    ready.faults.held = false ∧ recordBlocked ready .mgmt (pSwath + 0x40) (BitVec.ofNat 32 0xFFFF) 0xFFFF = false ∧
    lockRefuses ready .mgmt (pSwath + 0x40) 0xFFFF = false := by decide +kernel
theorem witness_PathsTakeTheShorterWay : crossPath 0 7 = [3, 7] ∧ crossPath 1 7 = [2, 3, 7] ∧ crossPath 2 0 = [3, 0] ∧ crossPath 4 4 = [] ∧
    (0 % 4 + 4 - 2 % 4) % 4 = 2 := by decide
theorem witness_ItemsCrossTheDies : ready.swath = none ∧ (cross ready 1 7 3).hand = some (8, inChannel 4 8 3) ∧
    Sparse.get (fun _ => 0) (getCross (cross ready 1 7 3) 2 3).carried 3 = 1 ∧ Sparse.get (fun _ => 0) (getCross (cross ready 1 7 3) 2 8).carried 3 = 0 := by
  decide +kernel
theorem witness_CountersKeepTheirParts : ready.hand = none ∧ { ready with hand := some (8, 63) }.hand = some (8, 63) ∧
    unitOfPage (pReduce 7) = 8 ∧ unitOfPage (pReduce 0) ≠ 8 ∧ Sparse.wf (fun _ => (0 : Dword)) ready.parts = true ∧ 63 < 64 ∧
    (swath0 [(0, 63), (8, 3)]).started.contains 0 = true ∧ pGlb ∈ pagesOf 0 ∧ ∃ e ∈ (swath0 [(0, 63), (8, 3)]).left, e ≠ (0, 63) := by
  decide +kernel
theorem witness_TimePasses : ready.pending = [] ∧ live ready = true ∧ live { ready with phase := .unpowered } = false ∧
    freeRunning ready = false ∧ ready.timeSt.slewLeft = 0 := by decide
theorem witness_PairsReadAtomically : 32767 < 32768 ∧ (readWord ready 5 (sess 1) (wEvCtr 32767)).1 = 0 ∧
    (readWord ready 5 (sess 1) (wEvCtr 32767 + 4)).1 = 0 := by decide +kernel
/-- R425: contacts of host lane 770 and of lanes 256 and 388. -/
theorem witness_LaneContactsAreDistinct : [LaneContact.txp, .txn, .rxp, .rxn].map (laneContact 770) = [⟨19, 63⟩, ⟨19, 64⟩, ⟨20, 63⟩, ⟨20, 64⟩] ∧
    [LaneContact.txp, .txn, .rxp, .rxn].map (laneContact 256) = [⟨100, 92⟩, ⟨100, 91⟩, ⟨99, 92⟩, ⟨99, 91⟩] ∧
    [LaneContact.txp, .txn, .rxp, .rxn].map (laneContact 388) = [⟨100, 42⟩, ⟨100, 41⟩, ⟨99, 42⟩, ⟨99, 41⟩] := by decide
theorem witness_CoordinatesMoveTheSwitch : Accepts ready .mgmt (pGlb + 0x48) 0 0x7FF800 := by unfold Accepts; decide +kernel

/-! ### Numbers and packets, and every command -/

theorem witness_RicksCarryTheirSideFields : rickEmpty.special = false ∧ { rickEmpty with nan := true }.special = true := by decide
theorem witness_RicksReadBack : signInvariant rickEmpty.v = true ∧ folds rickEmpty.v = true ∧ ({ rickEmpty with v := 1 } : Rick).v ≠ 0 ∧
    signInvariant 1 = true ∧ 65535 < 65536 := by decide +kernel
theorem witness_NibblesShareBytes : fmtBits 0 ≠ 4 ∧ ∃ code, code < 64 ∧ fmtBits code = 4 := by decide
theorem witness_MutableFieldsSpareTheTrailer : trailerOk (sealPkt (blankAt 1)) = true := by decide +kernel
theorem witness_CommandsComplete : memoryHole .vioLoss ready = false ∧ memoryHole (.dramRefresh 8 0 false) ready = true ∧
    memoryHole (.dramRefresh 7 63 false) ready = false := by decide
theorem witness_StepsKeepTheTablesCanonical : Canonical State.reset ∧ ∃ t, step State.reset = .next t :=
  ⟨⟨rfl, rfl, rfl, rfl, rfl⟩, _, rfl⟩
theorem witness_WhatHappenedStays : mayReset .vioLoss = false := rfl
/-- The next state of a command whose run `decide` can see. -/
theorem witness_CommandsTouchOnlyTheirParts : (∃ t, exec .fallowReqNHigh ready = .next t) ∧ Part.memory ∉ touches .fallowReqNHigh :=
  ⟨⟨_, rfl⟩, by decide⟩

/-! ### Loads, firmware and sessions: what they need of the opaque checks (log 6) is a premise here -/

/-- The nonzero bytes of an image with no stage: its header, two directory entries and a COLOPHON section. -/
def imageMem : List (Nat × Byte) :=
  [(0, 0x50), (1, 0x47), (2, 0x54), (3, 0x48), (4, 1), (7, 3), (8, 0xA0), (9, 0x75), (15, 2), (20, 1),
   (64, 8), (69, 1), (72, 64), (76, 15), (80, 64), (81, 1), (84, 0x60), (85, 0x74)] ++
  [(260, 1), (264, 1), (265, 1), (266, 1)] ++
  ([0x46, 0xb9, 0xdd, 0x2b, 0x0b, 0xa8, 0x8d, 0x13, 0x23, 0x3b, 0x3f, 0xeb, 0x74, 0x3e, 0xeb, 0x24, 0x3f, 0xcd, 0x52, 0xea, 0x62, 0xb8,
    0x1b, 0x82, 0xb5, 0x0c, 0x27, 0x64, 0x6e, 0xd5, 0x76, 0x2f] : List Byte).mapIdx fun i b => (268 + i, b)
def loadable : State :=
  let s := words withLpddr [(wJob 255 + 16, 30112), (wQuire 255, 0x80000000), (wReach, 1)]
  { s with mem := imageMem, fw := { s.fw with runningDigest := List.replicate 32 0 } }
def loading : State := { loadable with loads := [(255, 3, 0)] }
theorem okOf {a b : Type} (e : Except a b) (p : b → Bool) (h : (match e with
    | .ok r => p r
    | .error _ => false) = true) : ∃ r, e = .ok r ∧ p r = true := by
  cases e with
  | error => exact absurd h (by simp)
  | ok r => exact ⟨r, rfl, h⟩
theorem witness_JobsComeAndGo_loading : (loading.loads.find? fun l => l.1 == 255) = some (255, 3, 0) ∧
    writePerms { loading with loads := loading.loads.filter fun e => e.1 != 255 } [] = loadable := ⟨rfl, rfl⟩
theorem get_beyond (m : List (Nat × Byte)) (hi k : Nat) (h : ∀ e ∈ m, e.1 < hi) (hk : hi ≤ k) : Sparse.get (fun _ => 0) m k = 0 := by
  induction m with
  | nil => rfl
  | cons e m ih =>
    have h1 := h e (List.mem_cons_self ..)
    show (if e.1 = k then e.2 else Sparse.get (fun _ => 0) m k) = 0
    rw [if_neg (by omega), ih fun f hf => h f (List.mem_cons_of_mem _ hf)]
/-- The image's 320 leading bytes; the signature section is zeros. -/
def imageHead : List Byte := (List.range 320).map fun i => memRead loadable i
theorem imageBytes_loadable : imageBytes loadable 255 = imageHead ++ List.replicate 29792 0 := by
  have e1 : (rd loadable (wJob 255 + 8)).toNat + fget loadable (wJob 255 + 12) 7 0 * 2 ^ 32 = 0 := by decide +kernel
  have e2 : (rd loadable (wJob 255 + 16)).toNat = 320 + 29792 := by decide +kernel
  unfold imageBytes memBytes
  rw [e1, e2, List.range_add, List.map_append, List.map_map]
  have h2 : ∀ n, List.map ((fun i => memRead loadable (0 + i)) ∘ fun i => 320 + i) (List.range n) = List.replicate n 0 := by
    intro n
    rw [List.map_eq_replicate_iff.2, List.length_range]
    intro i _
    exact get_beyond imageMem 300 (0 + (320 + i)) (by decide +kernel) (by omega)
  have h1 : ∀ n, List.map (fun i => memRead loadable (0 + i)) (List.range n) = List.map (memRead loadable) (List.range n) := by
    intro n
    simp
  rw [h1, h2]
  rfl
theorem shortUnit_none (i : Image) (role place size : Nat) (free : Nat → Nat) (units : List Nat) (h : i.regions = []) (hs : 0 < size) :
    shortUnit i role place size free units = none := by
  have e : ∀ u, framesNeeded (regionsAt i role place u) size = 0 := fun u => by simp [regionsAt, roleRegions, h, framesNeeded, ceilDiv]; omega
  simp [shortUnit, e]
/-- What the loader asks of an image with no descriptor and no trigger, but for its signature and its resources. -/
def bareImageOk (s : State) (n : Nat) (img : List Byte) : Bool :=
  let i := parseImage img
  formatOk s n img && leAt img 6 2 == 768 && (getJob s n).isNone && quireMatches s n i && colophonOk i &&
    fwExpect s n == s.fw.runningDigest && formatsOk i && i.descs.isEmpty && i.trigs.isEmpty && rd s (wJob n + 4) == rd s (pGlb + 0x50) &&
    !blockAbsent s n && structureOk i && placementOk i (ownRole s n i) && decide (1 ≤ i.rickBound) && decide (i.rickBound ≤ 2147483648) &&
    triggersAcyclic i && permsOk s i && i.concurrency == 0
/-- A signed image that passes those checks is decided by the resource tests alone. -/
theorem loadTests_bare (s : State) (n : Nat) (hs : signatureOk s (imageBytes s n) = true) (h : bareImageOk s n (imageBytes s n) = true) :
    loadTests s n = (resourceTests s n (parseImage (imageBytes s n)) (ownRole s n (parseImage (imageBytes s n)))).map
      fun g => (parseImage (imageBytes s n), g) := by
  simp only [bareImageOk, Bool.and_eq_true, beq_iff_eq, Bool.not_eq_true', decide_eq_true_eq, List.isEmpty_iff, Option.isNone_iff_eq_none] at h
  cases e : resourceTests s n (parseImage (imageBytes s n)) (ownRole s n (parseImage (imageBytes s n))) <;>
    simp [loadTests, earlyTests, need, h, hs, e, Bind.bind, Except.bind, Pure.pure, Except.pure, Except.map]
def image0 : Image := parseImage (imageHead ++ List.replicate 29792 0)
/-- An image that needs no region, context, queue, trigger, counter, engine, descriptor or reduction store of a device with no job. -/
def needsNothing (s : State) (n : Nat) (i : Image) (role : Nat) : Bool :=
  i.regions.isEmpty && i.trigs.isEmpty && i.descs.isEmpty && (otherJobs s n).isEmpty && s.faults.tilesWithdrawn.isEmpty &&
    s.streams.isEmpty && (streamsNeeded s n i role).isEmpty && i.queues == 0 && (countersNamed i).isEmpty && (enginesNamed i).isEmpty &&
    slotQ s n == 0 && (List.range 512).all fun t => decide (tileBytes i role t ≤ 1507328)
theorem resourceTests_bare (s : State) (n : Nat) (i : Image) (role : Nat) (h : needsNothing s n i role = true) :
    ∃ g, resourceTests s n i role = .ok g ∧ g.triggers = [] := by
  simp only [needsNothing, Bool.and_eq_true, List.isEmpty_iff, beq_iff_eq, List.all_eq_true, decide_eq_true_eq] at h
  obtain ⟨h, hsram⟩ := h
  have tile : ((List.range 512).find? fun t => decide (1507328 < tileBytes i role t)) = none :=
    List.find?_eq_none.2 fun t ht => by simpa using hsram t ht
  have run : (descRun [] 0).1.isSome = true := by decide +kernel
  have stack := shortUnit_none i role 1 262144 (fun d => (stackFrames s d (roleTiles i role)).length) (List.range 8) (by simp [h]) (by decide)
  have lpddr := shortUnit_none i role 2 (2 ^ 21) (fun j => (lpddrFrames s j).length) (List.range 4) (by simp [h]) (by decide)
  simp only [resourceTests, tile, stack, lpddr, Option.isNone_none, if_true, need]
  simp [h, run, bindTriggers, Image.ds, Bind.bind, Except.bind]
/-- With a signature that verifies, a load passes every test of Table 9.7. -/
theorem witness_JobsComeAndGo_accepted (h : signatureOk loadable (imageBytes loadable 255) = true) :
    ∃ i g, loadTests loadable 255 = .ok (i, g) ∧ g.triggers = [] := by
  have ok : bareImageOk loadable 255 (imageHead ++ List.replicate 29792 0) = true ∧
      needsNothing loadable 255 image0 (ownRole loadable 255 image0) = true := by decide +kernel
  obtain ⟨g, hg, ht⟩ := resourceTests_bare _ _ _ _ ok.2
  refine ⟨image0, g, ?_, ht⟩
  rw [loadTests_bare loadable 255 h (by rw [imageBytes_loadable]; exact ok.1), imageBytes_loadable]
  show Except.map _ (resourceTests loadable 255 image0 (ownRole loadable 255 image0)) = _
  rw [hg]
  rfl

/-- A firmware image of 256 bytes and a signature section of zeros, and a device whose mask revision (log 5) reads 0. -/
def fwImage : List Byte := [0x50, 0x46, 0x57, 0x31, 1, 0, 0, 3, 0, 0, 0, 0, 0, 0, 0, 0, 0x60, 0x75, 0, 0, 0, 1] ++ List.replicate 30026 0
def maskZero : State := { ready with regs := [(pGlb + 0x40, 0)] }
/-- With a signature that verifies, an image passes every check of Table 16.4. -/
theorem witness_FirmwareAuditAndSecurity_pass (h : fwSignatureOk maskZero fwImage = true) : fwCode maskZero fwImage = 0 := by
  have h3 : fwFormatOk fwImage = true := by decide +kernel
  unfold fwCode
  rw [if_neg (by rw [h3]; decide), if_neg (by rw [h]; decide), if_neg (by decide +kernel), if_neg (by decide +kernel),
    if_neg (by decide +kernel)]
/-- With a certificate that is its own signer's and names the installer, and a signature that verifies, a PROOF passes. -/
theorem witness_SessionsOpenAndClose_pass (ct c t2 g : List Byte) (h0 : ct.length = 1568)
    (h1 : Config.certSignedBy c (Config.certKey c) = true) (h2 : Config.certRole c = some 1)
    (h3 : Config.slhVerify (Config.certKey c) "SHAFORT" t2 g = true) :
    proofOk ready { sess 1 with accepted := false } ⟨ct, [c], g, none, none⟩ t2 = some ⟨Config.certKey c, 0x3F, 0⟩ := by
  have hk : proofKey ready { sess 1 with accepted := false } ⟨ct, [c], g, none, none⟩ = some (Config.certKey c) := by
    show (if (Config.certSignedBy c (Config.certKey c) && Config.certRole c == some 1) = true then some (Config.certKey c) else none) = _
    rw [h1, h2]; rfl
  have hb : auditBlocked ready = false := by decide
  have hl : (ct.length != 1568 || !Config.slhVerify (Config.certKey c) "SHAFORT" t2 g) = false := by rw [h0, h3]; decide
  unfold proofOk
  simp only [hk, hl, hb, Bool.and_false, Bool.false_eq_true, if_false]
  rfl

/-! ## Well-formedness: an ill-formed command for each check, refused -/

theorem test_wf_refuses_1 : (
    [.railPowerGoodTimeout 9, .supplyOutOfRange 9, .lpddrBistDone [(8, 0), (12, 0)], .lpddrBistDone [(7, 0)],
     .clkGateOn .mgmt 256, .clkGateOff .mgmt 256, .paceSample 40 0, .paceSample 0 65536,
     .powerControlTick [] [0, 0, 0, 0, 0, 0, 0, 0, 0] (List.replicate 17 0),
     .powerControlTick [0, 0, 0, 0, 0, 0, 0, 0, 0] [] (List.replicate 17 0),
     .powerControlTick [0, 0, 0, 0, 0, 0, 0, 0, 0] [0, 0, 0, 0, 0, 0, 0, 0, 0] (List.replicate 16 0), .thermalTrip 17,
     .blockEnable .mgmt 0x1004, .blockEnable .mgmt 0x4000000, .blockDisable .mgmt 0x1004, .blockDisable .mgmt 0x4000000,
     .blockStopDone 0x1004, .blockStopDone 0x4000000, .blockReset none 0x1004, .blockReset none 0x4000000,
     .blockResetDone 0x1004, .blockResetDone 0x4000000, .fltReactWrite .mgmt 256 0 0, .handshakeStall 0 4096 []] : List Instr).all (fun c => !c.wf) = true := by decide
theorem test_wf_refuses_2 : (
    [.registerSweep [(0x4000000, true)], .registerSweep [(2, true)], .tileSelfTest 512, .tileSelfTestDone 512 true,
     .fenceRx 161, .crossingWordRx 28 0 [] 0, .crossingWordRx 0 4 [] 0, .hostLinkUp 4 true, .segmentTimeout 4294967296 0,
     .hello 0 256 (List.replicate 32 0) true, .hello 0 0 (List.replicate 31 0) true,
     .proof 4294967296 ⟨[], [], [], none, none⟩, .proofTimeout 4294967296, .close 4294967296, .keepalive 4294967296,
     .sessionIdleTimeout 4294967296, .reg 4294967296 0 true [], .eventStatusClear .mgmt 0x1004 0,
     .eventStatusClear .mgmt 0x4000000 0, .pageLock .mgmt 0x1004, .pageLock .mgmt 0x4000000, .subscribe 4294967296 0 [],
     .eventAck 4294967296 0, .eventAck 0 4294967296] : List Instr).all (fun c => !c.wf) = true := by decide
theorem test_wf_refuses_3 : (
    [.eventResendTimer 4294967296 0, .eventResendTimer 0 4294967296, .eventAckTimeout 4294967296 0,
     .eventAckTimeout 0 4294967296, .bulkOpen 4294967296 0 req0, .bulkOpen 0 0 { req0 with transfer := 65536 },
     .bulkOpenResume 4294967296 0, .bulkOpenResume 0 65536, .bulkData 4294967296 0 0 [], .bulkData 0 65536 0 [],
     .bulkData 0 0 4294967296 [], .bulkAck 4294967296 0 0 [], .bulkAck 0 65536 0 [], .bulkAck 0 0 4294967296 [],
     .bulkAckTimer 4294967296 0, .bulkAckTimer 0 65536, .bulkResendTimer 4294967296 0 0, .bulkResendTimer 0 65536 0,
     .bulkResendTimer 0 0 4294967296, .bulkCommit 4294967296 0 0, .bulkCommit 0 0 65536, .bulkIdleTimeout 4294967296 0,
     .bulkIdleTimeout 0 65536, .auditStart 4294967296 0] : List Instr).all (fun c => !c.wf) = true := by decide
theorem test_wf_refuses_4 : (
    [.auditStart 0 281474976710656, .auditAck 4294967296 0, .auditAck 0 281474976710656, .auditResendTimer 4294967296,
     .attestReq 4294967296 0 (List.replicate 32 0), .attestReq 0 0 (List.replicate 33 0), .credentialWrite .mgmt 64 0 0 0,
     .credentialWrite .mgmt 0 16 0 0, .jtagExtest 65536, .portEnable .mgmt 161 0, .portDisable .mgmt 161,
     .portTestEnter .mgmt 161, .signalDetect 160 0, .signalDetect 0 4, .signalDetect 128 8,
     .trainingFrameRx 160 0 ⟨0, false, 0⟩, .trainingFrameRx 0 4 ⟨0, false, 0⟩, .trainingFrameRx 128 8 ⟨0, false, 0⟩,
     .bringupStageTimeout 161, .bringupRestart 161, .identTimer 161, .identRx 161 (List.replicate 64 0),
     .identRx 0 (List.replicate 63 0), .identAckRx 161] : List Instr).all (fun c => !c.wf) = true := by decide
theorem test_wf_refuses_5 : (
    [.portRetrain .mgmt 161, .portAdopt .mgmt 161, .heldDownRetry 161, .laneUnhealthy 160 0 .rx .los,
     .laneUnhealthy 0 4 .rx .los, .laneUnhealthy 128 8 .rx .los, .restripeDone 161 .rx, .laneRejoin 160 0 .rx,
     .laneRejoin 0 4 .rx, .laneRejoin 128 8 .rx, .linkFrameRx 161 lf0, .llrRetryRx 161 0, .linkAckRx 161 0,
     .creditReturnRx 161 0 0, .creditReturnRx 0 16 0, .creditReturnRx 0 0 65536, .stitchOpenStart 12,
     .stitchSenseSample 12 true true, .stitchAdmitTimeout 12, .stitchRetryTimer 12, .kstForceClose .mgmt 12,
     .kstHoldOpen .mgmt 12 true, .kstRetry .mgmt 12, .patCtrlWrite .mgmt 193 0 0] : List Instr).all (fun c => !c.wf) = true := by decide
theorem test_wf_refuses_6 : (
    [.packetRx 161 [] true, .packetTxDone 161, .origCellWaitEnd 8 0, .origCellWaitEnd 0 4, .leakAuditPass 8,
     .bpCfgWrite .mgmt 8 0 0, .gateEntryBoundary 161, .gateChange .mgmt 161, .gateListStart 161, .transitBucketRecover 161,
     .meterWrite .mgmt 161 0 0 0 0, .meterWrite .mgmt 0 8 0 0 0, .meterWrite .mgmt 0 0 4 0 0, .linkStateCtrlRx 161 [],
     .linkStateCtrlRx 0 [(0, 0), (4096, 0)], .timePacketRx 161 [] 0, .ackDelayExpiry 16384, .rtoExpiry 16384 0,
     .rtoExpiry 0 16777216, .slotQuotaWrite .mgmt 256 0 0, .redSpillCfgWrite .mgmt 8 0 0, .holdQueueFree 256,
     .postPendingResume 32768, .slotTake 4096] : List Instr).all (fun c => !c.wf) = true := by decide
theorem test_wf_refuses_7 : (
    [.retentionFreed 4096 0, .chunkDigest 256 0 0, .livenessExpiry 4096, .settlingEnd 4096, .trigAdd .mgmt 8 0,
     .triggerValidWrite .mgmt 32768 true, .quireTableWrite .mgmt 256 0 0 0, .quireTableWrite .mgmt 0 8 0 0,
     .rankXlatWrite .mgmt 131072 0 0, .jobLoad .mgmt 256, .jobUnload .mgmt 256, .jobUnloadDone 256, .stepForwardResume 256,
     .stageExecute 256 0 .pass, .stageExecute 0 1024 .pass, .sealSpaceFreed 256, .signBatch .mgmt 256,
     .releaseBatch .mgmt 256, .scrubStep (.stack 8) 0 .clean true, .scrubStep (.sram 8 0) 0 .clean true,
     .scrubStep (.sram 0 5) 0 .clean true, .scrubStep (.lpddr 4) 0 .clean true,
     .scrubStep (.stack 0) 137438953472 .clean true, .dramRefresh 8 0 true] : List Instr).all (fun c => !c.wf) = true := by decide
theorem test_wf_refuses_8 : (
    [.dramRefresh 0 64 true, .lpddrRetrain 32 0, .lpddrRetrain 0 256, .retireClear .mgmt 12, .swathMarkerRx 9 0,
     .swathMarkerRx 0 36, .jobLoadDecided 256 [], .startUpStepEnd { report0 with badFrames := [(12, 0)] },
     .startUpStepEnd { report0 with badChannels := [32] }, .startUpStepEnd { report0 with badCheckers := [193] },
     .startUpStepEnd { report0 with tries := [4] }, .dividerRampEnd 113, .lpddrRefresh 32 0, .lpddrRefresh 0 256] : List Instr).all (fun c => !c.wf) = true := by decide
theorem test_wf_refuses_long (ops : List RegOp) (rs : List (Nat × Nat)) (bs : List Byte) (h1 : ops.length = 65536) (h2 : rs.length = 65536)
    (h3 : bs.length = 1048577) : Instr.wf (.reg 0 0 true ops) = false ∧ Instr.wf (.subscribe 0 0 rs) = false ∧
    Instr.wf (.bulkData 0 0 0 bs) = false := by
  refine ⟨?_, ?_, ?_⟩ <;> simp [Instr.wf, h1, h2, h3]
theorem test_wf_accepts_1 : (
    [.railPowerGoodTimeout 0, .supplyOutOfRange 0, .lpddrBistDone [], .clkGateOn .mgmt 0, .clkGateOff .mgmt 0,
     .paceSample 0 0, .powerControlTick [0, 0, 0, 0, 0, 0, 0, 0, 0] [0, 0, 0, 0, 0, 0, 0, 0, 0] (List.replicate 17 0),
     .thermalTrip 0, .blockEnable .mgmt 0, .blockDisable .mgmt 0, .blockStopDone 0, .blockReset none 0, .blockResetDone 0,
     .fltReactWrite .mgmt 0 0 0, .handshakeStall 0 0 [], .registerSweep [], .tileSelfTest 0, .tileSelfTestDone 0 true,
     .fenceRx 0, .crossingWordRx 0 0 [] 0, .hostLinkUp 0 true, .segmentTimeout 0 0, .hello 0 0 (List.replicate 32 0) true,
     .proof 0 ⟨[], [], [], none, none⟩] : List Instr).all (fun c => c.wf) = true := by decide
theorem test_wf_accepts_2 : (
    [.proofTimeout 0, .close 0, .keepalive 0, .sessionIdleTimeout 0, .reg 0 0 true [], .eventStatusClear .mgmt 0 0,
     .pageLock .mgmt 0, .subscribe 0 0 [], .eventAck 0 0, .eventResendTimer 0 0, .eventAckTimeout 0 0, .bulkOpen 0 0 req0,
     .bulkOpenResume 0 0, .bulkData 0 0 0 [], .bulkAck 0 0 0 [], .bulkAckTimer 0 0, .bulkResendTimer 0 0 0,
     .bulkCommit 0 0 0, .bulkIdleTimeout 0 0, .auditStart 0 0, .auditAck 0 0, .auditResendTimer 0,
     .attestReq 0 0 (List.replicate 32 0), .credentialWrite .mgmt 0 0 0 0] : List Instr).all (fun c => c.wf) = true := by decide
theorem test_wf_accepts_3 : (
    [.jtagExtest 0, .portEnable .mgmt 0 0, .portDisable .mgmt 0, .portTestEnter .mgmt 0, .signalDetect 0 0,
     .trainingFrameRx 0 0 ⟨0, false, 0⟩, .bringupStageTimeout 0, .bringupRestart 0, .identTimer 0,
     .identRx 0 (List.replicate 64 0), .identAckRx 0, .portRetrain .mgmt 0, .portAdopt .mgmt 0, .heldDownRetry 0,
     .laneUnhealthy 0 0 .rx .los, .restripeDone 0 .rx, .laneRejoin 0 0 .rx, .linkFrameRx 0 lf0, .llrRetryRx 0 0,
     .linkAckRx 0 0, .creditReturnRx 0 0 0, .stitchOpenStart 0, .stitchSenseSample 0 true true, .stitchAdmitTimeout 0] : List Instr).all (fun c => c.wf) = true := by decide
theorem test_wf_accepts_4 : (
    [.stitchRetryTimer 0, .kstForceClose .mgmt 0, .kstHoldOpen .mgmt 0 true, .kstRetry .mgmt 0, .patCtrlWrite .mgmt 0 0 0,
     .packetRx 0 [] true, .packetTxDone 0, .origCellWaitEnd 0 0, .leakAuditPass 0, .bpCfgWrite .mgmt 0 0 0,
     .gateEntryBoundary 0, .gateChange .mgmt 0, .gateListStart 0, .transitBucketRecover 0, .meterWrite .mgmt 0 0 0 0 0,
     .linkStateCtrlRx 0 [], .timePacketRx 0 [] 0, .ackDelayExpiry 0, .rtoExpiry 0 0, .slotQuotaWrite .mgmt 0 0 0,
     .redSpillCfgWrite .mgmt 0 0 0, .holdQueueFree 0, .postPendingResume 0, .slotTake 0] : List Instr).all (fun c => c.wf) = true := by decide
theorem test_wf_accepts_5 : (
    [.retentionFreed 0 0, .chunkDigest 0 0 0, .livenessExpiry 0, .settlingEnd 0, .trigAdd .mgmt 0 0,
     .triggerValidWrite .mgmt 0 true, .quireTableWrite .mgmt 0 0 0 0, .rankXlatWrite .mgmt 0 0 0, .jobLoad .mgmt 0,
     .jobUnload .mgmt 0, .jobUnloadDone 0, .stepForwardResume 0, .stageExecute 0 0 .pass, .sealSpaceFreed 0,
     .signBatch .mgmt 0, .releaseBatch .mgmt 0, .scrubStep (.stack 0) 0 .clean true, .dramRefresh 0 0 true,
     .lpddrRetrain 0 0, .retireClear .mgmt 0, .swathMarkerRx 0 0, .jobLoadDecided 0 [], .startUpStepEnd report0,
     .dividerRampEnd 0] : List Instr).all (fun c => c.wf) = true := by decide
theorem test_wf_accepts_6 : (
    [.lpddrRefresh 0 0] : List Instr).all (fun c => c.wf) = true := by decide

/-! ## Worked examples of the spec -/

/-- Table 4.10: 300.0, 464.0, 500.0 and a signalling NaN as E4M3. -/
theorem test_convert_e4m3 : convertElem 1 4 0 0x43960000 = (0x79, fInexact) ∧ convertElem 1 4 0 0x43E80000 = (0x7E, fInexact) ∧
    convertElem 1 4 0 0x43FA0000 = (0x7E, fOverflow + fInexact) ∧ convertElem 1 4 1 0x43FA0000 = (0x7F, fOverflow + fInexact) ∧
    convertElem 1 4 0 0x7FA00000 = (0x7F, fInvalid) ∧ convertElem 1 4 0 0xBAC00000 = (0x81, fUnderflow + fInexact) := by decide +kernel
/-- Table 4.10: the other formats. -/
theorem test_convert_narrow : convertElem 1 2 0 0x43960000 = (0x4396, 0) ∧ convertElem 1 3 0 0x43960000 = (0x5CB0, 0) ∧
    convertElem 1 5 0 0x43960000 = (0x5D, fInexact) ∧ convertElem 1 3 0 0xBAC00000 = (0x9600, 0) ∧
    convertElem 1 5 0 0x7F800000 = (0x7C, 0) ∧ convertElem 1 2 0 0x7FA00000 = (0x7FC0, fInvalid) := by decide +kernel
/-- Table 4.11, channel 3: 1.09375 and -0.03125 by the scale 0.0625 are ties to even. -/
theorem test_quantise_ties : quantVal (elemVal 1 0x3F8C0000) 0x3D800000 = (0x12, fInexact) ∧
    quantVal (elemVal 1 0xBD000000) 0x3D800000 = (0, fInexact) := by decide +kernel
/-- Table 5.8: 1.5, -1.5 and two negative zeros cancel to +0 without flags. -/
theorem test_rick_cancels : roundRick (rickSum rickEmpty 2 [0x3FC0, 0xBFC0, 0x8000, 0x8000]) 2 0 = (0, 0) ∧
    (rickSum rickEmpty 2 [0x3FC0, 0xBFC0, 0x8000, 0x8000]).count = 4 ∧ roundRick (rickSum rickEmpty 2 [0x8000, 0x8000]) 2 0 = (0x8000, 0) := by
  decide +kernel
/-- Chapter 5, "A tie": 1.0 + 2^-8 + 2^-140 rounds to 0x3F81, and its folded form. -/
theorem test_rick_tie : roundRick (rickSum rickEmpty 1 [0x3F800000, 0x3B800000, 0x200]) 2 0 = (0x3F81, fInexact) ∧
    foldBytes (rickSum rickEmpty 1 [0x3F800000, 0x3B800000, 0x200]) = [0x80, 4, 1] ++ List.replicate 15 0 ++ [0x10, 0x10] := by decide +kernel
/-- Chapter 5, "A subnormal result". -/
theorem test_rick_subnormal : roundRick (rickSum rickEmpty 1 [0x35800000, 0xB56C0000]) 3 0 = (1, fUnderflow + fInexact) := by decide +kernel
/-- Chapter 5, "An escape": 2^100 + 2^-100 does not fold; its full form for element 37. -/
theorem test_rick_escape : folds (rickSum rickEmpty 1 [0x71800000, 0x0D800000]).v = false ∧
    fullForm (rickSum rickEmpty 1 [0x71800000, 0x0D800000]) 37 = List.replicate 6 0 ++ [2] ++ List.replicate 24 0 ++ [2] ++
      List.replicate 8 0 ++ [2, 0, 0, 0, 0, 0x25, 0, 0] ∧
    roundRick (rickSum rickEmpty 1 [0x71800000, 0x0D800000]) 1 0 = (0x71800000, fInexact) := by decide +kernel
/-- Table 20.17: pages of port 138 and stitch 6, and their PAGE_ID. -/
theorem test_pages_of_port_138 : pPort 138 = 0x18A000 ∧ pSched 138 = 0x48A000 ∧ pGate 138 = 0x58A000 ∧ pStitch 6 = 0x306000 ∧
    pLaneGrp (laneGroup 138 0) = 0x294000 ∧ portsOfStitch 6 = (138, 142) ∧ rd ready (pPort 138) = 0x2008A001 ∧
    rd ready (pLaneGrp 148) = 0x21094001 ∧ wGate 138 0 0 = 0x308A000 ∧ rd ready (pPort 138 + 4) = 0x0010000F := by decide +kernel
/-- Chapter 18, "gating an octet": node 43 is refused for its child 0x13E, lane group 62. -/
theorem test_gate_octet_refused : childInUse (portAt 62 1 1 true) 43 = some 0x13E := by decide +kernel
/-- Table 11.12: pools by size. -/
theorem test_pools : poolOf 52 = 0 ∧ poolOf 204 = 0 ∧ poolOf 1844 = 2 ∧ poolOf 4124 = 3 ∧ poolOf 4132 = 3 := by decide
/-- An empty queue idles for one cycle (log 1); no row gives bits (log 11). -/
theorem test_step_idles : step ready = .next (tick ready) := rfl
theorem test_word_spells_nothing : decodeTableWord 32 0 = none ∧ State.withFetchWord ready 32 0 = ready := ⟨rfl, rfl⟩
/-- R376: power-on begins start-up step 1 with the straps sampled. -/
theorem test_power_on : (match exec (.powerOn true false) ready with
    | .next t => t.phase == .starting 1 && bit t (pRst + 0x44) 9 && !bit t (pRst + 0x44) 8
    | _ => false) = true := by decide +kernel
/-- R43: an epoch that does not rise is refused, with CFG_REFUSED. -/
theorem test_epoch_refused : (match exec (.fabricEpochWrite .mgmt 0) ready with
    | .next t => rd t (pGlb + 0x50) == 0 && bit t (pGlb + 0x10) 0
    | _ => false) = true := by decide +kernel
/-- R390: launching SEQ 42 after 41; launching it again is refused. -/
theorem test_swath_launch : (match exec (.swathLaunch .mgmt 42) ready with
    | .next t => fget t (pSwath + 0x44) 31 16 == 42 && (match exec (.swathLaunch .mgmt 42) t with
      | .next u => bit u (pSwath + 0x10) 0
      | _ => false)
    | _ => false) = true := by decide +kernel

end Sys2Proof.Tests
end

/-! # Paths between the dies (R18) -/

namespace Sys2Proof.Machine

open Sys2Proof

/-! ## The walk along the row ring -/

/-- Columns from die `a` to the column of die `b`, counted upwards modulo 4. -/
def columnsUp (a b : Nat) : Nat := (b % 4 + 4 - a % 4) % 4

/-- The die `i` columns after die `a` on the ring of its row. -/
def ringDie (a i : Nat) : Nat := a / 4 * 4 + (a % 4 + i) % 4

@[simp] theorem ringDie_row (a i : Nat) : ringDie a i / 4 = a / 4 := by unfold ringDie; omega

@[simp] theorem ringDie_column (a i : Nat) : ringDie a i % 4 = (a % 4 + i) % 4 := by unfold ringDie; omega

/-- The dies that traffic from die `a` to die `b` enters before it changes row. -/
def rowWalk (a b : Nat) : List Nat :=
  if columnsUp a b ≤ 2 then (List.range (columnsUp a b)).map fun i => ringDie a (i + 1) else [ringDie a 3]

theorem crossPath_eq_rowWalk_append (a b : Nat) : crossPath a b = rowWalk a b ++ if a / 4 = b / 4 then [] else [b] := by
  by_cases h : a / 4 = b / 4
  all_goals simp [crossPath, rowWalk, columnsUp, ringDie, Nat.add_assoc, h]

theorem crossPath_same_row {a b : Nat} (h : a / 4 = b / 4) : crossPath a b = rowWalk a b := by
  simp [crossPath_eq_rowWalk_append, h]

theorem crossPath_other_row {a b : Nat} (h : a / 4 ≠ b / 4) : crossPath a b = rowWalk a b ++ [b] := by
  simp [crossPath_eq_rowWalk_append, h]

/-- The row walk by the number of columns: upwards for one or two, downwards for three. -/
theorem rowWalk_cases (a b : Nat) :
    (columnsUp a b = 0 ∧ rowWalk a b = []) ∨ (columnsUp a b = 1 ∧ rowWalk a b = [ringDie a 1]) ∨
      (columnsUp a b = 2 ∧ rowWalk a b = [ringDie a 1, ringDie a 2]) ∨ (columnsUp a b = 3 ∧ rowWalk a b = [ringDie a 3]) := by
  have hlt : columnsUp a b < 4 := Nat.mod_lt _ (by omega)
  obtain h | h | h | h : columnsUp a b = 0 ∨ columnsUp a b = 1 ∨ columnsUp a b = 2 ∨ columnsUp a b = 3 := by omega
  all_goals simp [rowWalk, h, List.range_succ]

theorem rowWalk_length (a b : Nat) : (rowWalk a b).length = Nat.min (columnsUp a b) (columnsUp b a) := by
  have hback : columnsUp b a = (4 - columnsUp a b) % 4 := by unfold columnsUp; omega
  obtain ⟨h, e⟩ | ⟨h, e⟩ | ⟨h, e⟩ | ⟨h, e⟩ := rowWalk_cases a b
  all_goals rw [hback, e, h]; rfl

theorem rowWalk_length_le (a b : Nat) : (rowWalk a b).length ≤ 2 := by
  obtain ⟨-, e⟩ | ⟨-, e⟩ | ⟨-, e⟩ | ⟨-, e⟩ := rowWalk_cases a b
  all_goals simp [e]

theorem row_of_mem_rowWalk {a b d : Nat} (h : d ∈ rowWalk a b) : d / 4 = a / 4 := by
  unfold rowWalk at h
  split at h
  · obtain ⟨i, -, rfl⟩ := List.mem_map.1 h
    exact ringDie_row a _
  · rw [List.mem_singleton.1 h, ringDie_row]

/-- The walk ends in the column of `b`. -/
theorem rowWalk_getLastD (a b : Nat) : (rowWalk a b).getLastD a = a / 4 * 4 + b % 4 := by
  obtain ⟨h, e⟩ | ⟨h, e⟩ | ⟨h, e⟩ | ⟨h, e⟩ := rowWalk_cases a b
  all_goals
    simp only [e, List.getLastD_nil, List.getLastD_cons, ringDie]
    unfold columnsUp at h
    omega

theorem rowWalk_nodup (a b : Nat) : (rowWalk a b).Nodup := by
  have hne : ringDie a 1 ≠ ringDie a 2 := by unfold ringDie; omega
  obtain ⟨-, e⟩ | ⟨-, e⟩ | ⟨-, e⟩ | ⟨-, e⟩ := rowWalk_cases a b
  all_goals simp [e, hne]

/-- A crossing between row neighbours (R17). -/
def RowCrossing (e : Nat × Nat) : Prop :=
  e.1 / 4 = e.2 / 4 ∧ (e.2 % 4 = (e.1 % 4 + 1) % 4 ∨ e.1 % 4 = (e.2 % 4 + 1) % 4)

/-- A crossing between the two dies of a column (R17). -/
def ColumnCrossing (e : Nat × Nat) : Prop := e.1 % 4 = e.2 % 4 ∧ e.1 / 4 ≠ e.2 / 4

theorem rowCrossing_ringDie_succ (a i : Nat) : RowCrossing (ringDie a i, ringDie a (i + 1)) := by
  refine ⟨by simp, .inl ?_⟩
  simp only [ringDie_column]
  omega

theorem ringDie_zero (a : Nat) : ringDie a 0 = a := by unfold ringDie; omega

theorem rowCrossing_ringDie_three (a : Nat) : RowCrossing (a, ringDie a 3) := by
  refine ⟨by simp, .inr ?_⟩
  simp only [ringDie_column]
  omega

theorem rowWalk_crossings {a b : Nat} {e : Nat × Nat} (he : e ∈ (a :: rowWalk a b).zip (rowWalk a b)) : RowCrossing e := by
  have h01 : RowCrossing (a, ringDie a 1) := by simpa only [ringDie_zero] using rowCrossing_ringDie_succ a 0
  obtain ⟨-, h⟩ | ⟨-, h⟩ | ⟨-, h⟩ | ⟨-, h⟩ := rowWalk_cases a b <;> rw [h] at he
  · simp at he
  · obtain rfl : e = (a, ringDie a 1) := by simpa using he
    exact h01
  · obtain rfl | rfl : e = (a, ringDie a 1) ∨ e = (ringDie a 1, ringDie a 2) := by simpa using he
    · exact h01
    · exact rowCrossing_ringDie_succ a 1
  · obtain rfl : e = (a, ringDie a 3) := by simpa using he
    exact rowCrossing_ringDie_three a

/-! ## The path -/

/-- The crossings of a path that is one die longer. -/
theorem zip_cons_concat (a b : Nat) (l : List Nat) :
    (a :: (l ++ [b])).zip (l ++ [b]) = (a :: l).zip l ++ [(l.getLastD a, b)] := by
  induction l generalizing a with
  | nil => rfl
  | cons d l ih =>
    rw [List.getLastD_cons]
    exact congrArg ((a, d) :: ·) (ih d)

theorem crossPath_length (a b : Nat) :
    (crossPath a b).length = Nat.min (columnsUp a b) (columnsUp b a) + if a / 4 = b / 4 then 0 else 1 := by
  rw [crossPath_eq_rowWalk_append, List.length_append, rowWalk_length]
  split <;> rfl

theorem crossPath_length_le (a b : Nat) : (crossPath a b).length ≤ 3 := by
  have := rowWalk_length_le a b
  rw [crossPath_eq_rowWalk_append, List.length_append]
  split <;> simp only [List.length_nil, List.length_singleton] <;> omega

theorem crossPath_getLastD (a b : Nat) : (crossPath a b).getLastD a = b := by
  by_cases h : a / 4 = b / 4
  · rw [crossPath_same_row h, rowWalk_getLastD]
    omega
  · simp [crossPath_other_row h]

/-- Every crossing of a path is one of R17, along the row or, the last one only, along the column. -/
theorem crossPath_crossings {a b : Nat} {e : Nat × Nat} (he : e ∈ (a :: crossPath a b).zip (crossPath a b)) :
    RowCrossing e ∨ (ColumnCrossing e ∧ e.2 = b) := by
  by_cases h : a / 4 = b / 4
  · rw [crossPath_same_row h] at he
    exact .inl (rowWalk_crossings he)
  · rw [crossPath_other_row h, zip_cons_concat, List.mem_append, List.mem_singleton, rowWalk_getLastD] at he
    obtain he | rfl := he
    · exact .inl (rowWalk_crossings he)
    · exact .inr ⟨⟨by dsimp only; omega, by dsimp only; omega⟩, rfl⟩

theorem crossPath_head_of_two {a b : Nat} (h : columnsUp a b = 2) : (crossPath a b).head? = some (ringDie a 1) := by
  simp [crossPath_eq_rowWalk_append, rowWalk, h, List.range_succ]

/-- A path enters no die twice. -/
theorem crossPath_nodup (a b : Nat) : (crossPath a b).Nodup := by
  by_cases h : a / 4 = b / 4
  · rw [crossPath_same_row h]
    exact rowWalk_nodup a b
  · rw [crossPath_other_row h]
    have hb : b ∉ rowWalk a b := fun hm => h (row_of_mem_rowWalk hm).symm
    simpa using (rowWalk_nodup a b).concat hb

theorem lt_of_mem_crossPath {a b d : Nat} (ha : a < 8) (hb : b < 8) (hd : d ∈ crossPath a b) : d < 8 := by
  rw [crossPath_eq_rowWalk_append, List.mem_append] at hd
  obtain hd | hd := hd
  · have := row_of_mem_rowWalk hd
    omega
  · split at hd
    · exact absurd hd List.not_mem_nil
    · rwa [List.mem_singleton.1 hd]

/-- Settles O49: the row walk by its number of columns, and then the column crossing where the rows differ. -/
theorem pathsTakeTheShorterWay : Obligations.PathsTakeTheShorterWay := by
  unfold Obligations.PathsTakeTheShorterWay
  intro a b _ _
  refine ⟨crossPath_length a b, crossPath_length_le a b, crossPath_getLastD a b, fun e he => ?_, crossPath_head_of_two⟩
  obtain hrow | ⟨⟨hcol, hne⟩, hb⟩ := crossPath_crossings he
  · exact .inl hrow
  · exact .inr ⟨hcol, hne, hb⟩

end Sys2Proof.Machine

/-! # Items on the crossings (R18, R19) -/

namespace Sys2Proof.Machine

open Sys2Proof

/-! ## One crossing -/

/-- The arbiter serves a channel that requests its crossing alone (R19). -/
theorem arbiter_alone (last : Nat) {ch : Nat} (hch : ch < 4) : arbiter last [ch] = some ch := by
  have hmem : ch ∈ (List.range 4).map fun i => (last + 1 + i) % 4 :=
    List.mem_map.2 ⟨(ch + 3 * (last + 1)) % 4, List.mem_range.2 (Nat.mod_lt _ (by omega)), by omega⟩
  have hsome : (arbiter last [ch]).isSome = true := List.find?_isSome.2 ⟨ch, hmem, by simp⟩
  obtain ⟨c, hc⟩ := Option.isSome_iff_exists.1 hsome
  have hp : [ch].contains c = true := List.find?_some hc
  obtain rfl : c = ch := by simpa using hp
  exact hc

/-- The crossing that one more item on channel `ch` leaves. -/
def CrossSt.serve (x : CrossSt) (ch : Nat) : CrossSt :=
  { last := ch, carried := Sparse.set (fun _ => 0) x.carried ch (Sparse.get (fun _ => 0) x.carried ch + 1) }

/-- The crossings after one more item from unit `u` to unit `v` on channel `ch`. -/
def servedCrossings (s : State) (u v ch : Nat) : Sparse CrossSt :=
  Sparse.set (fun _ => { last := 3, carried := [] }) s.crossings (16 * u + v) ((getCross s u v).serve ch)

theorem serveCross_eq (s : State) (u v : Nat) {ch : Nat} (hch : ch < 4) :
    serveCross s u v ch = { s with crossings := servedCrossings s u v ch } := by
  simp only [serveCross, arbiter_alone _ hch]
  rfl

/-- While no swath is in progress, an item only takes its crossing and comes to the hand of the unit beyond it. -/
theorem hop_eq {s : State} (hs : s.swath = none) (u v : Nat) {ch : Nat} (hch : ch < 4) :
    hop s u v ch = { s with crossings := servedCrossings s u v ch, hand := some (v, inChannel u v ch) } := by
  simp only [hop, hs, serveCross_eq s u v hch]

theorem hop_frame {s : State} (hs : s.swath = none) (u v : Nat) {ch : Nat} (hch : ch < 4) :
    (hop s u v ch).swath = none ∧ (hop s u v ch).regs = s.regs ∧ (hop s u v ch).ctrs = s.ctrs ∧ (hop s u v ch).cells = s.cells := by
  rw [hop_eq hs u v hch]
  exact ⟨hs, rfl, rfl, rfl⟩

/-- Items that a crossing direction has carried on a channel (R19). -/
def carriedOn (s : State) (u v k : Nat) : Nat := Sparse.get (fun _ => 0) (getCross s u v).carried k

theorem carriedOn_hop {s : State} (hs : s.swath = none) {u v ch u' v' : Nat} (hch : ch < 4) (hv : v < 16) (hv' : v' < 16)
    (k : Nat) : carriedOn (hop s u v ch) u' v' k = carriedOn s u' v' k + if k = ch ∧ u' = u ∧ v' = v then 1 else 0 := by
  have hkey : 16 * u' + v' = 16 * u + v ↔ u' = u ∧ v' = v := by omega
  simp only [hop_eq hs u v hch, carriedOn, getCross, servedCrossings, Sparse.get_set, hkey]
  by_cases huv : u' = u ∧ v' = v
  · obtain ⟨rfl, rfl⟩ := huv
    by_cases hk : k = ch
    · subst hk
      simp [CrossSt.serve, Sparse.get_set]
    · simp [CrossSt.serve, Sparse.get_set, hk]
  · simp [huv]

/-! ## A row of crossings between dies -/

/-- An item goes on channel `ch` by the crossings of a list of pairs of dies. -/
def carryAlong (s : State) (ch : Nat) (es : List (Nat × Nat)) : State :=
  es.foldl (fun s e => hop s (1 + e.1) (1 + e.2) ch) s

theorem cross_eq_carryAlong (s : State) (a b ch : Nat) :
    cross s a b ch = carryAlong { s with hand := none } ch ((a :: crossPath a b).zip (crossPath a b)) := rfl

theorem carryAlong_cons (s : State) (ch : Nat) (e : Nat × Nat) (es : List (Nat × Nat)) :
    carryAlong s ch (e :: es) = carryAlong (hop s (1 + e.1) (1 + e.2) ch) ch es := rfl

theorem carryAlong_concat (s : State) (ch : Nat) (es : List (Nat × Nat)) (e : Nat × Nat) :
    carryAlong s ch (es ++ [e]) = hop (carryAlong s ch es) (1 + e.1) (1 + e.2) ch := by
  simp [carryAlong]

theorem carryAlong_frame {s : State} (hs : s.swath = none) {ch : Nat} (hch : ch < 4) (es : List (Nat × Nat)) :
    (carryAlong s ch es).swath = none ∧ (carryAlong s ch es).regs = s.regs ∧ (carryAlong s ch es).ctrs = s.ctrs ∧
      (carryAlong s ch es).cells = s.cells := by
  induction es generalizing s with
  | nil => exact ⟨hs, rfl, rfl, rfl⟩
  | cons e es ih =>
    obtain ⟨hswath, hregs, hctrs, hcells⟩ := hop_frame hs (1 + e.1) (1 + e.2) hch
    simpa only [carryAlong_cons, hregs, hctrs, hcells] using ih hswath

theorem carryAlong_hand {s : State} (hs : s.swath = none) {ch : Nat} (hch : ch < 4) (es : List (Nat × Nat)) (e : Nat × Nat) :
    (carryAlong s ch (es ++ [e])).hand = some (1 + e.2, inChannel (1 + e.1) (1 + e.2) ch) := by
  rw [carryAlong_concat, hop_eq (carryAlong_frame hs hch es).1 _ _ hch]

/-- Each crossing of the list carries the item once for every time it stands there. -/
theorem carriedOn_carryAlong {s : State} (hs : s.swath = none) {ch : Nat} (hch : ch < 4) {es : List (Nat × Nat)}
    (hes : ∀ e ∈ es, e.2 < 8) {u v : Nat} (hv : v < 16) (k : Nat) :
    carriedOn (carryAlong s ch es) u v k =
      carriedOn s u v k + if k = ch then es.countP fun e => u = 1 + e.1 ∧ v = 1 + e.2 else 0 := by
  induction es generalizing s with
  | nil => simp [carryAlong]
  | cons e es ih =>
    obtain ⟨he, hes⟩ := List.forall_mem_cons.1 hes
    rw [carryAlong_cons, ih (hop_frame hs _ _ hch).1 hes, carriedOn_hop hs hch (by omega) hv, List.countP_cons]
    by_cases hk : k = ch
    · simp only [hk, true_and, if_true, decide_eq_true_eq]
      omega
    · simp [hk]

theorem countP_eq_of_nodup {es : List (Nat × Nat)} (hes : es.Nodup) (u v : Nat) :
    (es.countP fun e => u = 1 + e.1 ∧ v = 1 + e.2) = if ∃ e ∈ es, u = 1 + e.1 ∧ v = 1 + e.2 then 1 else 0 := by
  split
  case isTrue h =>
    obtain ⟨e, he, rfl, rfl⟩ := h
    rw [← List.count_eq_one_of_mem hes he, List.count]
    exact List.countP_congr fun e' _ => by
      simp only [decide_eq_true_eq, beq_iff_eq, Prod.ext_iff, Nat.add_left_cancel_iff]
      exact and_congr eq_comm eq_comm
  case isFalse h =>
    exact List.countP_eq_zero.2 fun e he hp => h ⟨e, he, by simpa using hp⟩

/-! ## The crossings of a path -/

/-- The far end of an input channel whose crossing is one of the unit's. -/
theorem channelSource_inChannel {u v ch : Nat} (hu : u ∈ sourcesOf v) (hch : ch < 4) : channelSource v (inChannel u v ch) = u := by
  have hdiv : (4 * (sourcesOf v).idxOf u + ch) / 4 = (sourcesOf v).idxOf u := by omega
  rw [channelSource, inChannel, hdiv, List.getD_eq_getElem _ _ (List.idxOf_lt_length_iff.2 hu), List.getElem_idxOf]

theorem mem_sourcesOf_of_crossing {e : Nat × Nat} (h1 : e.1 < 8) (h2 : e.2 < 8) (h : RowCrossing e ∨ ColumnCrossing e) :
    1 + e.1 ∈ sourcesOf (1 + e.2) := by
  obtain ⟨d, b⟩ := e
  have hpos : (1 + b == 0) = false := beq_eq_false_iff_ne.2 (by omega)
  simp only [sourcesOf, hpos, Bool.false_eq_true, if_false, Nat.add_sub_cancel_left, List.mem_cons, List.not_mem_nil, or_false]
  dsimp only at h1 h2
  unfold RowCrossing ColumnCrossing at h
  omega

theorem crossPath_zip_nodup (a b : Nat) : ((a :: crossPath a b).zip (crossPath a b)).Nodup := by
  refine List.Nodup.of_map Prod.snd ?_
  rw [List.map_snd_zip (by simp)]
  exact crossPath_nodup a b

/-- The crossings of a path end with one to die `b`. -/
theorem exists_crossPath_zip_concat {a b : Nat} (h : a ≠ b) :
    ∃ es d, (a :: crossPath a b).zip (crossPath a b) = es ++ [(d, b)] := by
  have hlast := crossPath_getLastD a b
  obtain hp | ⟨l, c, hp⟩ := (crossPath a b).eq_nil_or_concat
  · rw [hp] at hlast
    exact absurd hlast h
  · obtain rfl : c = b := by simpa [hp] using hlast
    exact ⟨_, _, by rw [hp, List.concat_eq_append, zip_cons_concat]⟩

/-- Settles O50: while no swath is in progress an item is carried once for each time a crossing stands on its path, where none
stands twice, and is left in hand by the last of them. -/
theorem itemsCrossTheDies : Obligations.ItemsCrossTheDies := by
  unfold Obligations.ItemsCrossTheDies
  intro s a b ch ha hb hch hs
  have hs0 : ({ s with hand := none } : State).swath = none := hs
  obtain ⟨-, hregs, hctrs, hcells⟩ := carryAlong_frame hs0 hch ((a :: crossPath a b).zip (crossPath a b))
  rw [cross_eq_carryAlong]
  refine ⟨?_, fun hab => ?_, fun u v k _ hv => ?_, hregs, hctrs, hcells⟩
  · rintro rfl
    have hnil : crossPath a a = [] := by simp [crossPath]
    rw [hnil]
    rfl
  · obtain ⟨es, d, hes⟩ := exists_crossPath_zip_concat hab
    have hmem : (d, b) ∈ (a :: crossPath a b).zip (crossPath a b) := by simp [hes]
    have hd : d ∈ a :: crossPath a b := (List.of_mem_zip hmem).1
    have hd8 : d < 8 := by
      obtain rfl | hd := List.mem_cons.1 hd
      · exact ha
      · exact lt_of_mem_crossPath ha hb hd
    refine ⟨d, hd, ?_, ?_⟩
    · rw [hes]
      exact carryAlong_hand hs0 hch es (d, b)
    · exact channelSource_inChannel (mem_sourcesOf_of_crossing hd8 hb ((crossPath_crossings hmem).imp_right And.left)) hch
  · have hlt : ∀ e ∈ (a :: crossPath a b).zip (crossPath a b), e.2 < 8 := fun e he =>
      lt_of_mem_crossPath ha hb (List.of_mem_zip he).2
    have hcarried := carriedOn_carryAlong hs0 hch hlt (u := u) (by omega : v < 16) k
    rw [countP_eq_of_nodup (crossPath_zip_nodup a b), ← ite_and] at hcarried
    exact hcarried

end Sys2Proof.Machine

/-! # The timebase and its followers (R16, R256, R259, R366) -/

namespace Sys2Proof.Machine

open Sys2Proof

/-! ## One cycle of the timebase -/

/-- The servo changes the count and its own state only. -/
theorem slewStep_frame (s : State) :
    (slewStep s).uptime = s.uptime ∧ (slewStep s).regs = s.regs ∧ (slewStep s).align = s.align := by
  unfold slewStep
  split <;> exact ⟨rfl, rfl, rfl⟩

theorem slewStep_of_no_offset {s : State} (h : s.timeSt.slewLeft = 0) : slewStep s = s := by
  simp [slewStep, h]

/-- The servo slews by one nanosecond at most (R259). -/
theorem slewStep_time (s : State) : (slewStep s).time ≤ s.time + 1 ∧ s.time ≤ (slewStep s).time + 1 := by
  unfold slewStep
  split
  · dsimp only
    split <;> omega
  · omega

/-- Nanoseconds of one cycle: the reserve cycle is 20 ns long (R366). -/
def cycleNs (s : State) : Nat := if freeRunning s then 20 else 1

/-- The device one cycle later, before the servo slews. -/
def advanced (s : State) : State :=
  { s with time := (s.time + cycleNs s) % 18446744073709551616, uptime := s.uptime + cycleNs s }

theorem tick_of_live {s : State} (h : live s = true) : tick s = slewStep (advanced s) := by
  simp only [tick, h, if_true]
  rfl

theorem tick_of_not_live {s : State} (h : live s = false) : tick s = s := by
  simp [tick, h]

theorem step_of_idle {s : State} (h : s.pending = []) : step s = .next (tick s) := by
  simp only [step, h]

/-! ## The followers -/

/-- A follower is ahead of the count by 2 ns at most (R16). -/
theorem dieTime_bounds (s : State) (d : Nat) : s.time ≤ dieTime s d ∧ dieTime s d ≤ s.time + 2 := by
  unfold dieTime
  split <;> omega

/-! ## Power-on -/

/-- What leaves the clock alone leaves the count and the alignment. -/
theorem Keeps.time_align {s t : State} (h : Keeps 0x20#64 s t) : t.time = s.time ∧ t.align = s.align := by
  have hclock : (t.time, t.uptime, t.align) = (s.time, s.uptime, s.align) := h.same .clock (by decide)
  simp only [Prod.mk.injEq] at hclock
  exact ⟨hclock.1, hclock.2.2⟩

/-- A reset starts the count at 0 and realigns the followers by a draw of the free values (R16). -/
theorem afterReset_time_align (s : State) (kind : Nat) (straps : Word) :
    (afterReset s kind straps).time = 0 ∧ (afterReset s kind straps).align = some s.freeCtr := by
  unfold afterReset
  dsimp only
  refine (keeps_forUp (m := 0x20#64) _ 12 0 _ (fun t n h => ?_) (Keeps.refl _ _)).time_align
  exact keeps_ite (fun _ => h) fun _ => fset_keeps _ _ _ _ _ _ _ (by decide) h

theorem exec_powerOn (makerEn bistQuick : Bool) (s : State) : exec (.powerOn makerEn bistQuick) s = execPowerOn makerEn bistQuick s :=
  rfl

/-- Settles O52: an idle step is one cycle of the timebase, slewed by one nanosecond at most, and power-on goes by `afterReset`. -/
theorem timePasses : Obligations.TimePasses := by
  unfold Obligations.TimePasses
  intro s hidle
  refine ⟨fun hdead => ?_, fun hlive => ?_, fun d e => ?_, fun m b => ?_⟩
  · rw [step_of_idle hidle, tick_of_not_live hdead]
  · obtain ⟨huptime, hregs, halign⟩ := slewStep_frame (advanced s)
    obtain ⟨hle, hge⟩ := slewStep_time (advanced s)
    refine ⟨_, by rw [step_of_idle hidle, tick_of_live hlive], huptime, fun h0 => ?_, hle, hge, hregs, halign⟩
    rw [slewStep_of_no_offset (s := advanced s) h0]
    rfl
  · obtain ⟨hd, hd'⟩ := dieTime_bounds s d
    obtain ⟨he, -⟩ := dieTime_bounds s e
    exact ⟨by omega, hd, hd'⟩
  · obtain ⟨htime, halign⟩ := afterReset_time_align
      (recomputeAudit { s with rails := [], alwaysOn := { record := 0, time := 0 } }) 0 (strapWord m b)
    exact ⟨_, exec_powerOn m b s, htime, Option.isSome_iff_exists.2 ⟨_, halign⟩⟩

end Sys2Proof.Machine

/-! # Writes of the GLB page (R32, R41, R43) -/

namespace Sys2Proof.Machine

open Sys2Proof

/-! ## One register write -/

theorem commandWrite_of_accepts {s : State} {who : Requester} {a : Nat} {v m : Word} (h : Accepts s who a v m) (kat : Option Bool) :
    commandWrite who kat a v m s = acceptWrite s who kat a v m := by
  obtain ⟨hmay, hst, htouched⟩ := h
  simp [commandWrite, writeWord, hmay, hst, htouched]

theorem commandWrite_of_refused {s : State} {who : Requester} {a : Nat} {v m : Word} (hmay : mayWrite s who = true)
    (hst : writeStatus s who a v m = 2) (kat : Option Bool) : commandWrite who kat a v m s = refuseWrite s who a v m 2 := by
  simp [commandWrite, writeWord, hmay, hst]

theorem recordWrite_frame (s : State) (who : Requester) (a : Nat) (v m : Word) (c : Change) (st : Nat) :
    recordWrite s who a v m c st = { s with audit := (recordWrite s who a v m c st).audit } := by
  unfold recordWrite
  dsimp only
  split
  · exact auditAdd_frame ..
  · split
    · exact auditAdd_frame ..
    · rfl

@[simp] theorem recordWrite_regs (s : State) (who : Requester) (a : Nat) (v m : Word) (c : Change) (st : Nat) :
    (recordWrite s who a v m c st).regs = s.regs := by rw [recordWrite_frame]

/-! ## The words of the GLB page -/

/-- The row of page GLB in the catalogue (Table 20.8). -/
def glbKind : PageKind := ⟨0x01, 0x0, 1, false, false, 0⟩

theorem pageOf_glb {off : Nat} (h : off < 0x1000) : pageOf (pGlb + off) = some (glbKind, pGlb) := by
  have hfind : pageKinds.find? (fun k => k.base ≤ pGlb + off && pGlb + off < k.base + 0x1000 * k.count) = some glbKind := by
    simp [pageKinds, pGlb, glbKind, h]
  have hdiv : (pGlb + off) / 0x1000 = 0 := by simp only [pGlb]; omega
  simp only [pageOf, hfind, hdiv]
  rfl

theorem homeOf_glb {off : Nat} (h : off < 0x1000) : homeOf (pGlb + off) = pGlb + off := by
  simp [homeOf, pageOf_glb h, glbKind]

/-- A write of a GLB word outside the common header: its record, the word, and what page GLB does. -/
theorem acceptWrite_glb (s : State) (who : Requester) (kat : Option Bool) {off : Nat} (v m : Word) (h : off < 0x1000)
    (h40 : 0x40 ≤ off) :
    acceptWrite s who kat (pGlb + off) v m =
      chipActs (wr (recordWrite s who (pGlb + off) v m (changeOf s (pGlb + off) v m) 0) (pGlb + off)
        (mergeWord (pGlb + off) (rd s (pGlb + off)) v m)) who kat 0x01 off (rd s (pGlb + off)) v m := by
  have hoff : pGlb + off - pGlb = off := by omega
  have hlt : ¬off < 0x40 := by omega
  have hhome : (changeOf s (pGlb + off) v m).home = pGlb + off := homeOf_glb h
  have hold : (changeOf s (pGlb + off) v m).old = rd s (pGlb + off) := by simp [changeOf, homeOf_glb h]
  have hnew : (changeOf s (pGlb + off) v m).new = mergeWord (pGlb + off) (rd s (pGlb + off)) v m := by
    simp [changeOf, homeOf_glb h]
  have hsettle : ∀ t, settleBefore t (pGlb + off) = t := fun t => by simp [settleBefore, pageOf_glb h, glbKind]
  simp only [acceptWrite, pageOf_glb h, hoff, hlt, if_false, hhome, hold, hnew, hsettle]
  rfl

/-! ## The reachability map (R41) -/

/-- Bit `b` of a sum of distinct powers of two. -/
theorem testBit_sum_two_pow {l : List Nat} (h : l.Nodup) (b : Nat) : (l.map fun i => 2 ^ i).sum.testBit b = true ↔ b ∈ l := by
  rw [← List.sum_toFinset _ h, ← Nat.mem_bitIndices, ← List.mem_toFinset, Finset.toFinset_bitIndices_sum_two_pow, List.mem_toFinset]

/-- Word `j` of the map that names the switches of `set` (Table 3.6). -/
def reachWord (set : List Nat) (j : Nat) : Word := BitVec.ofNat 32 ((set.filter fun i => i / 32 == j).map fun i => 2 ^ (i % 32)).sum

theorem reachWord_bit {set : List Nat} (h : set.Nodup) (i : Nat) : (reachWord set (i / 32)).getLsbD (i % 32) = true ↔ i ∈ set := by
  have hinj : ∀ x ∈ set.filter (fun u => u / 32 == i / 32), ∀ y ∈ set.filter (fun u => u / 32 == i / 32), x % 32 = y % 32 → x = y := by
    intro x hx y hy hxy
    simp only [List.mem_filter, beq_iff_eq] at hx hy
    omega
  have hnodup := (h.filter fun u => u / 32 == i / 32).map_on hinj
  have hsum := testBit_sum_two_pow hnodup (i % 32)
  rw [List.map_map] at hsum
  have hlt : i % 32 < 32 := Nat.mod_lt _ (by omega)
  rw [reachWord, BitVec.getLsbD_ofNat, Bool.and_eq_true, decide_eq_true_eq, and_iff_right hlt]
  refine hsum.trans ⟨fun hm => ?_, fun hm => List.mem_map.2 ⟨i, by simp [hm], rfl⟩⟩
  obtain ⟨u, hu, hmod⟩ := List.mem_map.1 hm
  simp only [List.mem_filter, beq_iff_eq] at hu
  obtain rfl : u = i := by omega
  exact hu.1

/-- The first `n` words of the map written one after the other. -/
def writeReach (s : State) (f : Nat → Word) (n : Nat) : State := (List.range n).foldl (fun s j => wr s (wReach + 4 * j) (f j)) s

theorem rd_writeReach (s : State) (f : Nat → Word) (n a : Nat) :
    rd (writeReach s f n) a = if wReach ≤ a ∧ a < wReach + 4 * n ∧ (a - wReach) % 4 = 0 then f ((a - wReach) / 4) else rd s a := by
  induction n with
  | zero =>
    rw [if_neg (by omega)]
    rfl
  | succ n ih =>
    have hstep : writeReach s f (n + 1) = wr (writeReach s f n) (wReach + 4 * n) (f n) := by simp [writeReach, List.range_succ]
    rw [hstep, rd_wr, ih]
    by_cases ha : a = wReach + 4 * n
    · subst ha
      have hdiv : (wReach + 4 * n - wReach) / 4 = n := by omega
      rw [if_pos rfl, if_pos (by omega), hdiv]
    · rw [if_neg ha]
      congr 1
      simp only [eq_iff_iff]
      omega

theorem noteAbsent_regs (s : State) : (noteAbsent s).regs = s.regs :=
  (noteAbsent_keeps 0x1#64 s s (by decide) (Keeps.refl _ s)).same .registers (by decide)

/-- The words of the map that a change of it writes, and its event. -/
theorem setReach_of_changed {s : State} {set : List Nat}
    (h : ¬∀ j < 128, reachWord set j = rd s (wReach + 4 * j)) :
    setReach s set = raise (noteAbsent (wr (writeReach s (reachWord set) 128) (pGlb + 0x54)
      (BitVec.ofNat 32 ((fget (writeReach s (reachWord set) 128) (pGlb + 0x54) 31 16 + 1) % 65536 * 65536 + set.length)))) pGlb 8 := by
  have hne : ¬((List.range 128).map (reachWord set) == (List.range 128).map fun j => rd s (wReach + 4 * j)) = true := by
    simpa only [beq_iff_eq, List.map_inj_left, List.mem_range] using h
  have hzip : ((List.range 128).map (reachWord set)).zip (List.range 128) = (List.range 128).map fun j => (reachWord set j, j) := by
    rw [List.zip_map_left, List.zip_eq_zipWith, List.zipWith_self, List.map_map]
    rfl
  have hfold : (((List.range 128).map (reachWord set)).zip (List.range 128)).foldl (fun s w => wr s (wReach + 4 * w.2) w.1) s =
      writeReach s (reachWord set) 128 := by
    rw [hzip, List.foldl_map]
    rfl
  unfold setReach
  dsimp only
  rw [← hfold]
  exact if_neg hne

theorem setReach_of_same {s : State} {set : List Nat} (h : ∀ j < 128, reachWord set j = rd s (wReach + 4 * j)) : setReach s set = s := by
  have heq : ((List.range 128).map (reachWord set) == (List.range 128).map fun j => rd s (wReach + 4 * j)) = true := by
    simpa only [beq_iff_eq, List.map_inj_left, List.mem_range] using h
  unfold setReach
  exact if_pos heq

/-- A change of the map writes its words, REACH_GEN and the event, and no other register. -/
theorem rd_setReach (s : State) (set : List Nat) {a : Nat} (h10 : a ≠ pGlb + 0x10) (h54 : a ≠ pGlb + 0x54) :
    rd (setReach s set) a =
      if wReach ≤ a ∧ a < wReach + 512 ∧ (a - wReach) % 4 = 0 then reachWord set ((a - wReach) / 4) else rd s a := by
  by_cases h : ∀ j < 128, reachWord set j = rd s (wReach + 4 * j)
  · rw [setReach_of_same h]
    split
    case isTrue ha =>
      have hj := h ((a - wReach) / 4) (by omega)
      rw [hj]
      congr 1
      omega
    case isFalse => rfl
  · rw [setReach_of_changed h, rd_raise_ne _ _ _ _ h10, rd_congr (noteAbsent_regs _), rd_wr_ne _ _ _ _ h54, rd_writeReach]

/-- The map names exactly the switches it is set to (R41). -/
theorem reachable_setReach {s : State} {set : List Nat} (h : set.Nodup) {i : Nat} (hi : i < 4096) :
    reachable (setReach s set) i = true ↔ i ∈ set := by
  have hrd : rd (setReach s set) (wReach + 4 * (i / 32)) = reachWord set (i / 32) := by
    have hdiv : (wReach + 4 * (i / 32) - wReach) / 4 = i / 32 := by omega
    rw [rd_setReach s set (by simp only [pGlb, wReach]; omega) (by simp only [pGlb, wReach]; omega), if_pos (by omega), hdiv]
  rw [reachable, bit, hrd, reachWord_bit h]

theorem setReach_swath (s : State) (set : List Nat) : (setReach s set).swath = s.swath := by
  have h := (setReach_keeps 0x800000000#64 s s set (by decide) (Keeps.refl _ s)).same .swaths (by decide)
  simp only [Prod.mk.injEq] at h
  exact h.1

/-! ## GLB_COORD (R32, R41) -/

theorem ownIndex_lt (s : State) : ownIndex s < 4096 := Nat.mod_lt _ (by omega)

/-- A move of the switch leaves GLB_COORD alone, so the switch stands at the coordinate written. -/
theorem rd_moveOwnReach_coord (s : State) (i : Nat) : rd (moveOwnReach s i) (pGlb + 0x48) = rd s (pGlb + 0x48) := by
  rw [moveOwnReach, rd_setReach _ _ (by decide) (by decide), if_neg (by decide)]

theorem ownIndex_moveOwnReach (s : State) (i : Nat) : ownIndex (moveOwnReach s i) = ownIndex s := by
  simp only [ownIndex, fget, rd_moveOwnReach_coord]

theorem reachable_moveOwnReach (s : State) (i : Nat) : reachable (moveOwnReach s i) (ownIndex s) = true := by
  have hlt := ownIndex_lt s
  exact (reachable_setReach (List.nodup_range.filter _) hlt).2 (by simp [hlt])

theorem exec_glbCoordWrite (who : Requester) (v m : Word) (s : State) :
    exec (.glbCoordWrite who v m) s = .next (commandWrite who none (pGlb + 0x48) v m s) := rfl

/-- Settles O34: the write is merged first, and the map then names the index that the new word gives. -/
theorem coordinatesMoveTheSwitch : Obligations.CoordinatesMoveTheSwitch := by
  unfold Obligations.CoordinatesMoveTheSwitch
  intro s who v m h
  refine ⟨_, exec_glbCoordWrite who v m s, ?_⟩
  rw [commandWrite_of_accepts h, acceptWrite_glb s who none v m (by decide) (by decide)]
  refine ⟨?_, ?_, ?_⟩
  · exact (rd_moveOwnReach_coord _ _).trans (rd_wr_same _ _ _)
  · rw [chipActs, ownIndex_moveOwnReach]
    exact reachable_moveOwnReach _ _
  · rw [chipActs, moveOwnReach, setReach_swath, recordWrite_frame]
    rfl

/-! ## The fabric epoch (R43) -/

theorem exec_fabricEpochWrite (who : Requester) (value : Word) (s : State) :
    exec (.fabricEpochWrite who value) s = .next (commandWrite who none (pGlb + 0x50) value 0xFFFFFFFF s) := rfl

theorem mergeWord_epoch (old value : Word) : mergeWord (pGlb + 0x50) old value 0xFFFFFFFF = value := by
  have hrw : accMask (fieldsAt (pGlb + 0x50)) (fun a => a == .rw || a == .rwl) = 0xFFFFFFFF := by decide
  have hclear : accMask (fieldsAt (pGlb + 0x50)) (· == .w1c) = 0#32 := by decide
  have hrank : (wRank ≤ pGlb + 0x50 && pGlb + 0x50 < wRank + 524288) = false := by decide
  have hall : (0xFFFFFFFF : Word) = BitVec.allOnes 32 := rfl
  simp only [mergeWord, hrw, hclear, hrank, hall, BitVec.and_allOnes, BitVec.not_allOnes, BitVec.and_zero, BitVec.zero_or,
    BitVec.zero_and, BitVec.not_zero, Bool.false_eq_true, if_false]

theorem changeOf_epoch (s : State) (value : Word) :
    changeOf s (pGlb + 0x50) value 0xFFFFFFFF =
      { home := pGlb + 0x50, old := rd s (pGlb + 0x50), new := value, mask := 0xFFFFFFFF,
        sets := [⟨pGlb + 0x50, value, 0xFFFFFFFF⟩] } := by
  have hset : settingMask (pGlb + 0x50) = 0xFFFFFFFF := by decide
  have hsets : ((0xFFFFFFFF : Word) == 0) = false := by decide
  have hmask : (0xFFFFFFFF : Word) &&& 0xFFFFFFFF = 0xFFFFFFFF := by decide
  have hhome : homeOf (pGlb + 0x50) = pGlb + 0x50 := homeOf_glb (by decide)
  simp only [changeOf, hhome, BEq.rfl, if_true, mergeWord_epoch, hset, hsets, hmask, Bool.false_eq_true, if_false]

/-- The one rule of GLB_FABRIC_EPOCH: a write whose value is not greater than the current one is refused (R43). -/
theorem rulesRefuse_epoch (s : State) (who : Requester) (value : Word) :
    rulesRefuse s who (pGlb + 0x50) (changeOf s (pGlb + 0x50) value 0xFFFFFFFF) value 0xFFFFFFFF =
      decide (value.toNat ≤ (rd s (pGlb + 0x50)).toNat) := by
  rw [changeOf_epoch]
  rfl

theorem touched_epoch : (touched (pGlb + 0x50) 0xFFFFFFFF).isEmpty = false := by decide

/-- The status of an epoch write that passes the rights test. -/
theorem writeStatus_epoch {s : State} {who : Requester} (value : Word) (h : rightsFail s who (pGlb + 0x50) 0xFFFFFFFF = false) :
    writeStatus s who (pGlb + 0x50) value 0xFFFFFFFF =
      if recordBlocked s who (pGlb + 0x50) value 0xFFFFFFFF || lockRefuses s who (pGlb + 0x50) 0xFFFFFFFF ||
        decide (value.toNat ≤ (rd s (pGlb + 0x50)).toNat) then 2 else 0 := by
  have hrange : (decide (0x03FFFFFF < pGlb + 0x50) || (pGlb + 0x50) % 4 != 0) = false := by decide
  have hmapped : mapped (pGlb + 0x50) = true := by decide
  have hbusy : busyRefuses s (pGlb + 0x50) 0xFFFFFFFF = false := by
    have hwin : windowOf (pGlb + 0x50) = none := by decide
    simp [busyRefuses, hwin]
  simp only [writeStatus, hrange, hmapped, h, hbusy, rulesRefuse_epoch, touched_epoch, Bool.not_true, Bool.not_false, Bool.true_and,
    Bool.or_false, Bool.false_eq_true, if_false]

theorem recordWrite_epoch (s : State) (who : Requester) (value : Word) :
    recordWrite s who (pGlb + 0x50) value 0xFFFFFFFF (changeOf s (pGlb + 0x50) value 0xFFFFFFFF) 0 =
      auditAdd s 5 (whoRole s who) 0 0 (whoSession who)
        (leBytes 4 (pGlb + 0x50) ++ leBytes 4 (0xFFFFFFFF : Word).toNat ++ leBytes 4 (rd s (pGlb + 0x50)).toNat ++ leBytes 4 value.toNat)
        [⟨pGlb + 0x50, value, 0xFFFFFFFF⟩] := by
  have hstitch : stitchCtrl (pGlb + 0x50) 0xFFFFFFFF = none := by decide
  have hrec : recorded (pGlb + 0x50) value 0xFFFFFFFF = true := by
    have hany : ((touched (pGlb + 0x50) 0xFFFFFFFF).any fun f => f.i || f.m) = true := by decide
    rw [recorded, hany, Bool.true_or]
  simp only [recordWrite, hstitch, hrec, changeOf_epoch, if_true]
  rfl

/-- A record joins the staged ones at the end, with its settings, after the CHECKPOINT that may be due (R341, R342). -/
theorem auditAdd_staged (s : State) (kind role result subject session : Nat) (detail : List Byte) (sets : List Setting) :
    ∃ l r, (auditAdd s kind role result subject session detail sets).audit.staged = s.audit.staged ++ l ++ [(r, sets)] ∧
      r.kind = kind := by
  unfold auditAdd
  dsimp only
  split
  · exact ⟨[_], _, rfl, rfl⟩
  · exact ⟨[], _, by rw [List.append_nil]; rfl, rfl⟩

/-- An accepted epoch write records itself with its setting and writes the word, and does nothing else. -/
theorem acceptWrite_epoch (s : State) (who : Requester) (value : Word) :
    acceptWrite s who none (pGlb + 0x50) value 0xFFFFFFFF =
      wr (recordWrite s who (pGlb + 0x50) value 0xFFFFFFFF (changeOf s (pGlb + 0x50) value 0xFFFFFFFF) 0) (pGlb + 0x50) value := by
  rw [acceptWrite_glb s who none value 0xFFFFFFFF (by decide) (by decide), mergeWord_epoch]
  rfl

/-- A refused write of a GLB word raises CFG_REFUSED of the page and leaves every other register (R404). -/
theorem refuseWrite_glb (s : State) (who : Requester) {off : Nat} (v m : Word) (h : off < 0x1000) :
    bit (refuseWrite s who (pGlb + off) v m 2) (pGlb + 0x10) 0 = true ∧
      ∀ a, a ≠ pGlb + 0x10 → rd (refuseWrite s who (pGlb + off) v m 2) a = rd s a := by
  have heq : ∃ s', s'.regs = s.regs ∧ refuseWrite s who (pGlb + off) v m 2 = raise s' pGlb 0 := by
    refine ⟨if recordBlocked s who (pGlb + off) v m then s
      else recordWrite s who (pGlb + off) v m (changeOf s (pGlb + off) v m) 2, ?_, ?_⟩
    · split
      · rfl
      · exact recordWrite_regs ..
    · simp only [refuseWrite, cfgRefused, pageOf_glb h]
      rfl
  obtain ⟨s', hregs, heq⟩ := heq
  rw [heq]
  refine ⟨?_, fun a ha => ?_⟩
  · simp [bit_raise]
  · rw [rd_raise_ne _ _ _ _ ha, rd_congr hregs]

/-! ## Settings reach the serial memory with their record (R326, R342) -/

theorem ringTake_settings (s : State) (r : AuditRec) :
    (ringTake s r).flash.settings = s.flash.settings ∧ (ringTake s r).flash.present = s.flash.present := by
  unfold ringTake
  split
  · exact ⟨rfl, rfl⟩
  · dsimp only
    split
    · have h : ∀ t : State, (raise (refreshCert t) pAudit 8).flash = t.flash := fun t =>
        (raise_keeps 0x40000000#64 t _ _ _ (by decide) (refreshCert_keeps 0x40000000#64 t t (by decide) (Keeps.refl _ t))).same .flash
          (by decide)
      split <;> simp only [h, and_self]
    · exact ⟨rfl, rfl⟩

theorem pumpStreams_flash (s : State) : (pumpStreams s).flash = s.flash :=
  (pumpStreams_keeps 0x40000000#64 s s (by decide) (Keeps.refl _ s)).same .flash (by decide)

/-- The number that the next transaction of a log takes (R326). -/
def nextTxn (ts : List Txn) : Nat :=
  match ts.getLast? with
  | some t => t.number + 1
  | none => 1

/-- A transaction that its bank has room for is appended to the log. -/
theorem commitTxn_settings {s : State} {es : List Setting} (hes : es ≠ []) (hp : s.flash.present = true)
    (hroom : bankUse (s.flash.settings ++ [mkTxn (nextTxn s.flash.settings) es]) ≤ 131072) :
    (commitTxn s es).flash.settings = s.flash.settings ++ [mkTxn (nextTxn s.flash.settings) es] := by
  simp only [commitTxn, hp, List.isEmpty_eq_false_iff.2 hes, Bool.not_true, Bool.or_false, Bool.false_eq_true, if_false]
  exact if_pos hroom

theorem exec_auditRecordProgram {s : State} {r : AuditRec} {sets : List Setting} {rest : List (AuditRec × List Setting)}
    (h : s.audit.staged = (r, sets) :: rest) (hp : s.flash.present = true) :
    exec .auditRecordProgram s =
      .next (pumpStreams (commitTxn (ringTake { s with audit := { s.audit with staged := rest } } r) sets)) := by
  have hexec : exec .auditRecordProgram s = execAuditRecordProgram s := rfl
  simp [hexec, execAuditRecordProgram, h, hp]

/-- Settles O32: the rule of the word refuses every value that is not greater; an accepted one changes the audit state and the word,
and its record takes its setting to the log. -/
theorem fabricEpochOnlyRises : Obligations.FabricEpochOnlyRises := by
  unfold Obligations.FabricEpochOnlyRises
  intro s who value hmay hrights
  refine ⟨fun hle => ?_, fun hlt hrec hlock => ?_, fun r rest hstaged hp _ hroom => ?_⟩
  · have hst : writeStatus s who (pGlb + 0x50) value 0xFFFFFFFF = 2 := by
      rw [writeStatus_epoch value hrights, decide_eq_true hle, Bool.or_true, if_pos rfl]
    refine ⟨_, exec_fabricEpochWrite who value s, ?_⟩
    rw [commandWrite_of_refused hmay hst]
    obtain ⟨hbit, hrd⟩ := refuseWrite_glb s who value 0xFFFFFFFF (off := 0x50) (by decide)
    exact ⟨hrd _ (by decide), hbit⟩
  · have hst : writeStatus s who (pGlb + 0x50) value 0xFFFFFFFF = 0 := by
      rw [writeStatus_epoch value hrights, hrec, hlock, decide_eq_false (by omega), Bool.or_self, Bool.or_self, if_neg Bool.false_ne_true]
    have haccept : Accepts s who (pGlb + 0x50) value 0xFFFFFFFF := ⟨hmay, hst, List.isEmpty_eq_false_iff.1 touched_epoch⟩
    refine ⟨_, exec_fabricEpochWrite who value s, ?_⟩
    rw [commandWrite_of_accepts haccept, acceptWrite_epoch, recordWrite_epoch]
    refine ⟨rd_wr_same _ _ _, auditAdd_staged s _ _ _ _ _ _ _, ?_⟩
    rw [auditAdd_frame]
    exact ⟨rfl, rfl, rfl, rfl⟩
  · obtain ⟨hsettings, hpresent⟩ := ringTake_settings { s with audit := { s.audit with staged := rest } } r
    have hcommit := commitTxn_settings (es := [⟨pGlb + 0x50, value, 0xFFFFFFFF⟩]) (List.cons_ne_nil _ _) (hpresent.trans hp)
      (by rw [hsettings]; exact hroom)
    rw [hsettings] at hcommit
    refine ⟨_, exec_auditRecordProgram hstaged hp, mkTxn (nextTxn s.flash.settings) [⟨pGlb + 0x50, value, 0xFFFFFFFF⟩], ?_, rfl, rfl⟩
    rw [pumpStreams_flash, hcommit]

end Sys2Proof.Machine

/-! # Maps, routes and time (R40 to R43, R51, R60, R256 to R260) -/

namespace Sys2Proof.Machine

open Sys2Proof

/-! ## Outputs -/

theorem Emits.before {s t u : State} {o : Output} (h : s.out <+: t.out) (he : Emits t u o) : Emits s u o := by
  obtain ⟨l, hl⟩ := h
  obtain ⟨l', hl', ho⟩ := he
  exact ⟨l ++ l', by rw [hl', ← hl, List.append_assoc], List.mem_append_right _ ho⟩

theorem Emits.later {s t u : State} {o : Output} (he : Emits s t o) (h : t.out <+: u.out) : Emits s u o := by
  obtain ⟨l, hl, ho⟩ := he
  obtain ⟨l', hl'⟩ := h
  exact ⟨l ++ l', by rw [← hl', hl, List.append_assoc], List.mem_append_left _ ho⟩

theorem emits_emit (s : State) (o : Output) : Emits s (emit s o) o := ⟨[o], rfl, List.mem_singleton_self o⟩

/-- What keeps the bit of growth in its mask only adds to the outputs. -/
theorem Keeps.out_prefix {s t : State} (h : Keeps 0x8000000000000000#64 s t) : s.out <+: t.out := (h.grows (by decide)).1

/-! ## Packets of a single hop (R51) -/

theorem leBytes_length (n v : Nat) : (leBytes n v).length = n := by
  induction n generalizing v with
  | zero => rfl
  | succ n ih => simp [leBytes, ih]

theorem beBytes_length (n v : Nat) : (beBytes n v).length = n := by simp [beBytes, leBytes_length]

theorem sendSingle_emits {s : State} {p : Nat} {k : Pkt} (hfits : frameFits s p k = true)
    (hcredits : creditsOf k ≤ vcGet (getPort s p).credits 12) : Emits s (sendSingle s p k) (.single p k) := by
  have hsend : (!frameFits s p k || vcGet (getPort s p).credits 12 < creditsOf k) = false := by simp [hfits, hcredits]
  simp only [sendSingle, hsend, Bool.false_eq_true, if_false]
  exact ⟨[.single p k], rfl, List.mem_singleton_self _⟩

theorem sendSingle_grows (s : State) (p : Nat) (k : Pkt) : s.out <+: (sendSingle s p k).out :=
  (sendSingle_keeps _ s s p k (by decide) (Keeps.refl _ s)).out_prefix

/-- A packet on one port leaves the other ports alone. -/
theorem getPort_sendSingle_ne (s : State) {p q : Nat} (k : Pkt) (h : p ≠ q) : getPort (sendSingle s q k) p = getPort s p := by
  unfold sendSingle
  split
  · rfl
  · exact (getPort_setPort _ q p _).trans ((if_neg h).trans ((getPort_setPort _ q p _).trans (if_neg h)))

/-- An empty replay buffer has room for the frame of any packet of a legal size (R71). -/
theorem frameFits_of_empty {s : State} {p : Nat} {k : Pkt} (hr : (getPort s p).replay = []) (hk : sizeOf' k ≤ 4132) :
    frameFits s p k = true := by
  have hbytes : frameBytes k ≤ if lanesOfPort p == 8 then 262144 else 131072 := by
    unfold frameBytes
    split <;> omega
  simpa [frameFits, hr] using hbytes

theorem foldl_grows {f : State → Nat → State} (ps : List Nat) (hgrows : ∀ t q, t.out <+: (f t q).out) (s : State) :
    s.out <+: (ps.foldl f s).out := by
  induction ps generalizing s with
  | nil => exact List.prefix_rfl
  | cons q ps ih => exact (hgrows s q).trans (ih (f s q))

/-- A round over the ports in which port `p` sends: it finds its port as it was before the round. -/
theorem foldl_emits_single {P : Pkt → Prop} {f : State → Nat → State} {ps : List Nat} (hps : ps.Nodup) {p : Nat} (hp : p ∈ ps)
    {s : State} (hother : ∀ t q, p ≠ q → getPort (f t q) p = getPort t p) (hgrows : ∀ t q, t.out <+: (f t q).out)
    (hsends : ∀ t, getPort t p = getPort s p → ∃ k, Emits t (f t p) (.single p k) ∧ P k) :
    ∃ k, Emits s (ps.foldl f s) (.single p k) ∧ P k := by
  induction ps generalizing s with
  | nil => exact absurd hp List.not_mem_nil
  | cons q ps ih =>
    obtain ⟨hq, hps⟩ := List.nodup_cons.1 hps
    have hrest := foldl_grows ps hgrows (f s q)
    by_cases hpq : p = q
    · subst hpq
      obtain ⟨k, hk, hP⟩ := hsends s rfl
      exact ⟨k, hk.later hrest, hP⟩
    · obtain ⟨k, hk, hP⟩ := ih hps ((List.mem_cons.1 hp).resolve_left hpq) fun t ht => hsends t (ht.trans (hother s q hpq))
      exact ⟨k, Emits.before (hgrows s q) hk, hP⟩

/-! ## Link state on the spine (R41, R51) -/

theorem spinePorts_nodup (s : State) : (spinePorts s).Nodup :=
  (List.nodup_range.map fun _ _ h => Nat.add_left_cancel h).filter _

theorem viewBytes_length (views : List (Nat × BitVec 24)) : (viewBytes views).length = 5 * views.length := by
  induction views with
  | nil => rfl
  | cons v views ih =>
    simp only [viewBytes, List.map_cons, List.flatten_cons, List.length_append, beBytes_length, List.length_cons] at ih ⊢
    omega

theorem sizeOf_ctrlPkt (t : BitVec 6) (sub : Nat) (payload : List Byte) : sizeOf' (ctrlPkt t sub payload) = 36 + payload.length := rfl

theorem sendViews_grows (s : State) (p : Nat) (views : List (Nat × BitVec 24)) : s.out <+: (sendViews s p views).out :=
  (sendViews_keeps _ s s p views (by decide) (Keeps.refl _ s)).out_prefix

theorem getPort_sendViews_ne (s : State) {p q : Nat} (views : List (Nat × BitVec 24)) (h : p ≠ q) :
    getPort (sendViews s q views) p = getPort s p := by
  unfold sendViews
  induction viewGroups 6 views generalizing s with
  | nil => rfl
  | cons g gs ih => exact (ih _).trans (getPort_sendSingle_ne s _ h)

/-- The first packet of a port's views takes 16 of the 17 credits that a channel has at most at rest (R64, R249). -/
theorem sendViews_emits {s : State} {p : Nat} (v : Nat × BitVec 24) (views : List (Nat × BitVec 24))
    (hr : (getPort s p).replay = []) (hcredits : 17 ≤ vcGet (getPort s p).credits 12) :
    ∃ k, Emits s (sendViews s p (v :: views)) (.single p k) ∧ k.ty = tCtrl := by
  have hgroups : viewGroups 6 (v :: views) = (v :: views).take 800 :: viewGroups 5 ((v :: views).drop 800) := rfl
  have hlen : (viewBytes ((v :: views).take 800)).length ≤ 4000 := by
    rw [viewBytes_length, List.length_take]
    omega
  have hsize := sizeOf_ctrlPkt tCtrl 0x20 (viewBytes ((v :: views).take 800))
  have hsend : Emits s (sendSingle s p (ctrlPkt tCtrl 0x20 (viewBytes ((v :: views).take 800)))) _ :=
    sendSingle_emits (frameFits_of_empty hr (by omega)) (by simp only [creditsOf, ceilDiv, hsize]; omega)
  rw [sendViews, hgroups, List.foldl_cons]
  refine ⟨_, hsend.later ?_, rfl⟩
  generalize sendSingle s p _ = t
  induction viewGroups 5 ((v :: views).drop 800) generalizing t with
  | nil => exact List.prefix_rfl
  | cons g gs ih => exact (sendSingle_grows t p _).trans (ih _)

theorem exec_linkStateCtrlTimer {s : State} (h : fallow s = false) :
    exec .linkStateCtrlTimer s = .next ((spinePorts s).foldl (fun t p =>
      sendViews t p ((ownIndex s, ownView s) :: s.reach.views.filter fun v => v.1 != ownIndex s)) s) := by
  have hexec : exec .linkStateCtrlTimer s = execLinkStateCtrlTimer s := rfl
  simp [hexec, execLinkStateCtrlTimer, h]

/-- A neighbour's view of another switch takes the place of the one held (R41). -/
theorem keepViews_view {s : State} {v : Nat} (w : BitVec 24) (hv : v < 4096) (hne : v ≠ ownIndex s) :
    Sparse.get (fun _ => 0) (keepViews s [(v, w)]).reach.views v = w := by
  have hkeep : ¬(v = ownIndex s ∨ 4096 ≤ v) := by omega
  simp [keepViews, hkeep, Sparse.get_set]

theorem exec_linkStateCtrlRx {s : State} {p : Nat} (view : List (Nat × BitVec 24)) (hlive : live s = true) (hsp : isSpine p = true)
    (hen : portEn s p = true) (hadm : admitted s p = true) :
    exec (.linkStateCtrlRx p view) s = .next (keepViews (takeSingle s p (ctrlPkt tCtrl 0x20 (viewBytes view))) view) := by
  have hexec : exec (.linkStateCtrlRx p view) s = execLinkStateCtrlRx p view s := rfl
  have hen' : bit s (pPort p + 0x40) 31 = true := hen
  simp [hexec, execLinkStateCtrlRx, hlive, hsp, hen', hadm]

/-- Every admitted spine port with credits and room sends a link-state packet at the timer (R51). -/
theorem linkStateCtrlTimer_sends {s : State} (hfallow : fallow s = false) {p : Nat} (hp : p ∈ spinePorts s)
    (hr : (getPort s p).replay = []) (hcredits : 17 ≤ vcGet (getPort s p).credits 12) :
    Runs .linkStateCtrlTimer s fun t => ∃ k, Emits s t (.single p k) ∧ k.ty = tCtrl := by
  refine ⟨_, exec_linkStateCtrlTimer hfallow, foldl_emits_single (spinePorts_nodup s) hp
    (fun t q hq => getPort_sendViews_ne t _ hq) (fun t q => sendViews_grows t q _) fun t ht => ?_⟩
  exact sendViews_emits _ _ (by rw [ht, hr]) (by rwa [ht])

/-! ## The map and the route table (R41, R60) -/

theorem addNat_nodup {xs : List Nat} (h : xs.Nodup) (x : Nat) : (addNat xs x).Nodup := by
  unfold addNat
  split
  · exact h
  · next hx => exact List.concat_eq_append ▸ h.concat (by simpa using hx)

/-- The switches of a round of the closure: none twice, and none seen before. -/
theorem foldl_addNat_fresh {seen : List Nat} (js acc : List Nat) (hnd : acc.Nodup) (hd : List.Disjoint seen acc) :
    (js.foldl (fun acc j => if seen.contains j then acc else addNat acc j) acc).Nodup ∧
      List.Disjoint seen (js.foldl (fun acc j => if seen.contains j then acc else addNat acc j) acc) := by
  induction js generalizing acc with
  | nil => exact ⟨hnd, hd⟩
  | cons j js ih =>
    rw [List.foldl_cons]
    split
    · exact ih acc hnd hd
    · next hj =>
      refine ih _ (addNat_nodup hnd j) ?_
      unfold addNat
      split
      · exact hd
      · exact List.disjoint_append_right.2 ⟨hd, List.disjoint_singleton.2 (by simpa using hj)⟩

theorem spread_nodup (s : State) (fuel : Nat) {seen front : List Nat} (h : seen.Nodup) : (spread s fuel seen front).Nodup := by
  induction fuel generalizing seen front with
  | zero => exact h
  | succ fuel ih =>
    unfold spread
    dsimp only
    split
    · exact h
    · obtain ⟨hnd, hd⟩ := foldl_addNat_fresh (seen := seen) (front.map fun i => linkedTo s i).flatten [] List.nodup_nil
        (List.disjoint_nil_right _)
      exact ih (List.nodup_append'.2 ⟨h, hnd, hd⟩)

theorem reachSet_nodup (s : State) : (reachSet s).Nodup := spread_nodup s 4096 (List.nodup_singleton _)

theorem Sparse.get_eraseRange {α : Type} (d : Nat → α) (m : Sparse α) {lo hi k : Nat} (h : k < lo ∨ hi ≤ k) :
    Sparse.get d (Sparse.eraseRange m lo hi) k = Sparse.get d m k := by
  induction m with
  | nil => rfl
  | cons e m ih =>
    obtain ⟨j, v⟩ := e
    have ih : Sparse.get d (List.filter (fun p : Nat × α => !(decide (lo ≤ p.1) && decide (p.1 < hi))) m) k = Sparse.get d m k := ih
    rw [Sparse.eraseRange, List.filter_cons]
    split
    · simp only [Sparse.get, ih]
    · next hj =>
      have hj : lo ≤ j ∧ j < hi := by simpa using hj
      have hne : j ≠ k := by omega
      simp only [Sparse.get, hne, if_false, ih]

/-- The route table stands in its window (Table 3.6): below it nothing is written. -/
theorem rd_writeRoutes {s : State} {a : Nat} (h : a < wRoute) : rd (writeRoutes s) a = rd s a := by
  have hreset : rd (regsReset s wRoute wReach) a = rd s a := Sparse.get_eraseRange _ _ (.inl h)
  rw [writeRoutes, ← hreset]
  generalize regsReset s wRoute wReach = t
  induction writeRoutes.blockIndicesAll s generalizing t with
  | nil => rfl
  | cons i is ih => rw [List.foldl_cons, ih, rd_wr_ne _ _ _ _ (by omega)]

theorem fget_writeRoutes {s : State} {a : Nat} (hi lo : Nat) (h : a < wRoute) : fget (writeRoutes s) a hi lo = fget s a hi lo := by
  rw [fget, rd_writeRoutes h, fget]

theorem exec_routeTableRecompute (s : State) :
    exec .routeTableRecompute s =
      .next (fset (writeRoutes s) (pRoute + 0x40) 31 16 ((fget s (pRoute + 0x40) 31 16 + 1) % 65536)) := by
  rw [← fget_writeRoutes 31 16 (by decide : pRoute + 0x40 < wRoute)]
  rfl

theorem exec_reachMapUpdate (s : State) : exec .reachMapUpdate s = .next (setReach s (reachSet s)) := rfl

/-! ## The timebase's discipline (R256 to R259) -/

theorem rd_unlockTime (s : State) {a : Nat} (h10 : a ≠ pTime + 0x10) (h44 : a ≠ pTime + 0x44) : rd (unlockTime s) a = rd s a := by
  rw [unlockTime, rd_raise_ne _ _ _ _ h10, rd_wr_ne _ _ _ _ h44]

theorem timeLocked_unlockTime (s : State) : timeLocked (unlockTime s) = false := by
  rw [timeLocked, unlockTime, bit_raise _ _ _ _ _ (by omega), if_neg (by decide), bit, rd_wr_same]
  decide

theorem unlockTime_timeSt (s : State) : (unlockTime s).timeSt = s.timeSt :=
  (unlockTime_keeps 0x1000000000#64 s s (by decide) (Keeps.refl _ s)).same .timeSync (by decide)

/-- With no master followed, or a living one, the announce receipt time-out does nothing (R257). -/
theorem ptpExpire_of_no_master {s : State} (h : s.timeSt.ptpMaster = none) : ptpExpire s = s := by
  simp [ptpExpire, h]

theorem ptpExpire_of_alive {s : State} (h : ptpAlive s = true) : ptpExpire s = s := by
  simp [ptpExpire, h]

theorem rd_ptpExpire (s : State) {a : Nat} (h10 : a ≠ pTime + 0x10) (h44 : a ≠ pTime + 0x44) : rd (ptpExpire s) a = rd s a := by
  unfold ptpExpire
  split
  · rfl
  · dsimp only
    split
    · rw [rd_unlockTime _ h10 h44]
      rfl
    · rfl

/-- The spine ports stand where the time-out does not write. -/
theorem spinePorts_ptpExpire (s : State) : spinePorts (ptpExpire s) = spinePorts s := by
  refine List.filter_congr fun p hp => ?_
  obtain ⟨q, -, rfl⟩ := List.mem_map.1 hp
  simp only [admitted, pState, fget]
  rw [rd_ptpExpire s (by simp only [pPort, pTime]; omega) (by simp only [pPort, pTime]; omega)]

theorem getPort_ptpExpire (s : State) (p : Nat) : getPort (ptpExpire s) p = getPort s p := by
  have h : (ptpExpire s).ports = s.ports := (ptpExpire_keeps 0x400#64 s s (by decide) (Keeps.refl _ s)).same .ports (by decide)
  rw [getPort, h, getPort]

/-! ## TIME packets (R258, Table 12.6) -/

theorem sizeOf_timePkt (sub off w24 a b : Nat) : sizeOf' (timePkt sub off w24 a b) = 52 := rfl

theorem creditsOf_timePkt (sub off w24 a b : Nat) : creditsOf (timePkt sub off w24 a b) = 1 := by
  rw [creditsOf, sizeOf_timePkt, ceilDiv]

/-- The SYNC and the DELAY_REQ that a port sends at the timer. -/
def sentTimes (s : State) (p n : Nat) : State :=
  sendSingle (sendSingle s p (timePkt 1 (ownOffer s).1 (ownOffer s).2 (stampOf s p) 0)) p (timePkt 2 n 0 (stampOf s p) 0)

theorem sendTimes_out (s : State) (p n : Nat) : (sendTimes s p n).out = (sentTimes s p n).out := by
  simp only [sendTimes, sentTimes]

theorem getPort_sendTimes (s : State) (p q n : Nat) : getPort (sendTimes s q n) p = getPort (sentTimes s q n) p := by
  simp only [getPort, sendTimes, sentTimes]

theorem sendTimes_grows (s : State) (p n : Nat) : s.out <+: (sendTimes s p n).out := by
  rw [sendTimes_out, sentTimes]
  exact (sendSingle_grows s p _).trans (sendSingle_grows _ p _)

theorem getPort_sendTimes_ne (s : State) {p q : Nat} (n : Nat) (h : p ≠ q) : getPort (sendTimes s q n) p = getPort s p := by
  rw [getPort_sendTimes, sentTimes, getPort_sendSingle_ne _ _ h, getPort_sendSingle_ne _ _ h]

/-- The SYNC of a port with an empty replay buffer takes one credit. -/
theorem sendTimes_emits {s : State} {p : Nat} (n : Nat) (hr : (getPort s p).replay = [])
    (hcredits : 1 ≤ vcGet (getPort s p).credits 12) : ∃ k, Emits s (sendTimes s p n) (.single p k) ∧ k.ty = tTime := by
  refine ⟨timePkt 1 (ownOffer s).1 (ownOffer s).2 (stampOf s p) 0, ?_, rfl⟩
  have hsync := sendSingle_emits (k := timePkt 1 (ownOffer s).1 (ownOffer s).2 (stampOf s p) 0)
    (frameFits_of_empty hr (by rw [sizeOf_timePkt]; omega)) (by rwa [creditsOf_timePkt])
  exact hsync.later (by rw [sendTimes_out, sentTimes]; exact sendSingle_grows _ p _)

theorem exec_timeSyncTimer {s : State} (h : fallow s = false) :
    ∃ t, exec .timeSyncTimer s = .next t ∧
      t.out = ((spinePorts s).foldl (fun u p => sendTimes u p (ptpExpire s).timeSt.reqSeq) (ptpExpire s)).out := by
  have hexec : exec .timeSyncTimer s = execTimeSyncTimer s := rfl
  rw [hexec, execTimeSyncTimer, h]
  exact ⟨_, rfl, congrArg (fun ps => (ps.foldl (fun u p => sendTimes u p (ptpExpire s).timeSt.reqSeq) (ptpExpire s)).out)
    (spinePorts_ptpExpire s)⟩

/-- Every admitted spine port with a credit and room sends a TIME packet at the timer (R258). -/
theorem timeSyncTimer_sends {s : State} (hfallow : fallow s = false) {p : Nat} (hp : p ∈ spinePorts s)
    (hr : (getPort s p).replay = []) (hcredits : 1 ≤ vcGet (getPort s p).credits 12) :
    Runs .timeSyncTimer s fun t => ∃ k, Emits s t (.single p k) ∧ k.ty = tTime := by
  obtain ⟨t, hexec, hout⟩ := exec_timeSyncTimer hfallow
  obtain ⟨k, hk, hty⟩ := foldl_emits_single (P := fun k => k.ty = tTime) (spinePorts_nodup s) hp (s := ptpExpire s)
    (fun u q hq => getPort_sendTimes_ne u (ptpExpire s).timeSt.reqSeq hq) (fun u q => sendTimes_grows u q _) fun u hu => by
      rw [getPort_ptpExpire] at hu
      exact sendTimes_emits _ (by rw [hu, hr]) (by rwa [hu])
  have hbefore : s.out <+: (ptpExpire s).out := (ptpExpire_keeps _ s s (by decide) (Keeps.refl _ s)).out_prefix
  exact ⟨t, hexec, k, (Emits.before hbefore hk).later (by rw [hout]), hty⟩

theorem exec_timePacketRx (p : Nat) (bs : List Byte) (g : BitVec 64) (s : State) :
    exec (.timePacketRx p bs g) s = execTimePacketRx p bs g s := rfl

theorem execTimePacketRx_of_error {s t : State} {p : Nat} {bs : List Byte} (g : BitVec 64) (hlive : live s = true)
    (hsp : isSpine p = true) (h : singleHop s p tTime bs = .error t) : execTimePacketRx p bs g s = .next t := by
  simp [execTimePacketRx, hlive, hsp, h]

theorem execTimePacketRx_of_ok {s : State} {p : Nat} {bs : List Byte} {k : Pkt} (g : BitVec 64) (hlive : live s = true)
    (hsp : isSpine p = true) (h : singleHop s p tTime bs = .ok k) :
    execTimePacketRx p bs g s = .next (takeTime (takeSingle s p k) p k g.toNat) := by
  simp [execTimePacketRx, hlive, hsp, h]

/-- What spells no packet is discarded, at most counted (R47). -/
theorem singleHop_of_no_packet {s : State} {p : Nat} {ty : BitVec 6} {bs : List Byte} (h : decodePkt bs = none) :
    ∃ t, singleHop s p ty bs = .error t ∧ t.time = s.time ∧ t.timeSt = s.timeSt := by
  unfold singleHop
  split
  · exact ⟨s, rfl, rfl, rfl⟩
  · split
    · exact ⟨_, rfl, rfl, rfl⟩
    · rw [h]
      exact ⟨_, rfl, rfl, rfl⟩

theorem singleHop_ok {s : State} {p : Nat} {bs : List Byte} {k : Pkt} (hen : portEn s p = true) (hadm : admitted s p = true)
    (hdec : decodePkt bs = some k) (hform : formatDrop bs k = none) (htr : trailerOk k = true) : singleHop s p k.ty bs = .ok k := by
  have hen' : bit s (pPort p + 0x40) 31 = true := hen
  simp [singleHop, hen', hadm, hdec, hform, htr]

/-- A DELAY_REQ is answered at once on its port (R258). -/
theorem takeTime_delayReq {s : State} {p : Nat} {k : Pkt} (ingress : Nat) (h : k.msg = 2) :
    takeTime s p k ingress = sendSingle s p (timePkt 3 k.offset.toNat 0 ingress (stampOf s p)) := by
  have hmsg : k.msg.toNat = 2 := by rw [h]; rfl
  simp only [takeTime, hmsg]

theorem timePacketRx_delayReq {s : State} {p : Nat} {bs : List Byte} {k : Pkt} (g : BitVec 64) (hlive : live s = true)
    (hsp : isSpine p = true) (hok : singleHop s p tTime bs = .ok k) (hmsg : k.msg = 2)
    (hfits : frameFits s p (timePkt 3 k.offset.toNat 0 g.toNat (stampOf s p)) = true)
    (hcredits : creditsOf (timePkt 3 k.offset.toNat 0 g.toNat (stampOf s p)) ≤ vcGet (getPort s p).credits 12) :
    Runs (.timePacketRx p bs g) s fun t => Emits s t (.single p (timePkt 3 k.offset.toNat 0 g.toNat (stampOf s p))) := by
  refine ⟨_, (exec_timePacketRx p bs g s).trans (execTimePacketRx_of_ok g hlive hsp hok), ?_⟩
  rw [takeTime_delayReq _ hmsg]
  exact Emits.before (List.prefix_append _ _) (sendSingle_emits (s := takeSingle s p k) hfits hcredits)

/-! ## PTP and the pulse pins (R257, R260) -/

theorem domain_toNat (s : State) : (BitVec.ofNat 8 (fget s (pTime + 0x40) 31 24)).toNat = fget s (pTime + 0x40) 31 24 := by
  have h : fget s (pTime + 0x40) 31 24 < 256 := Nat.mod_lt _ (by omega)
  rw [BitVec.toNat_ofNat, Nat.mod_eq_of_lt h]

/-- An ANNOUNCE of the configured domain is noted where the time source is PTP (R257). -/
theorem exec_announce_heard {d : Byte} (data : PtpData) {s : State} (hd : d.toNat = fget s (pTime + 0x40) 31 24)
    (hsrc : timeSrc s = 1 ∨ timeSrc s = 3) (hm : s.timeSt.ptpMaster = none) :
    exec (.ptpMessageRx (.announce d data)) s = .next (ptpAnnounce s data) := by
  have hexec : ∀ m, exec (.ptpMessageRx m) s = execPtpMessageRx m s := fun _ => rfl
  simp [hexec, execPtpMessageRx, ptpExpire_of_no_master hm, hd, hsrc]

theorem exec_announce_other {d : Byte} (data : PtpData) {s : State} (hd : d.toNat ≠ fget s (pTime + 0x40) 31 24)
    (hm : s.timeSt.ptpMaster = none) : exec (.ptpMessageRx (.announce d data)) s = .next s := by
  have hexec : ∀ m, exec (.ptpMessageRx m) s = execPtpMessageRx m s := fun _ => rfl
  simp [hexec, execPtpMessageRx, ptpExpire_of_no_master hm, hd]

/-- The foreign masters after an ANNOUNCE: the sender's entry last, with its two latest announcements. -/
def notedMaster (s : State) (d : PtpData) (old : List Nat) : State :=
  { s with timeSt := { s.timeSt with ptpForeign := [{ data := d, heard := (s.uptime :: old).take 2 }] } }

/-- A master heard once is not qualified. -/
theorem ptpAnnounce_first {s : State} (d : PtpData) (h : s.timeSt.ptpForeign = []) : ptpAnnounce s d = notedMaster s d [] := by
  have hq : ptpQualified s.uptime { data := d, heard := [s.uptime] } = false := by
    have hlen := List.length_filter_le (fun t => decide (s.uptime < t + 4 * d.interval.toNat)) [s.uptime]
    have htwo : ¬2 ≤ ([s.uptime].filter fun t => decide (s.uptime < t + 4 * d.interval.toNat)).length := by
      rw [List.length_singleton] at hlen
      omega
    simp only [ptpQualified, decide_eq_false htwo, Bool.and_false]
  simp [ptpAnnounce, h, notedMaster, ptpBest, hq]

/-- A master heard twice within four of its announce intervals is qualified, and the only one is followed (R257). -/
theorem ptpAnnounce_second {s : State} {d data : PtpData} {u : Nat} (h : s.timeSt.ptpForeign = [⟨d, [u]⟩])
    (hm : s.timeSt.ptpMaster = none) (hsrc : d.source = data.source) (hsteps : data.steps.toNat < 255)
    (hint : 0 < data.interval.toNat) (hu : s.uptime < u + 4 * data.interval.toNat) :
    (ptpAnnounce s data).timeSt.ptpMaster = some data.source ∧ (ptpAnnounce s data).time = s.time := by
  have hq : ptpQualified s.uptime { data := data, heard := [s.uptime, u] } = true := by
    have hnow : s.uptime < s.uptime + 4 * data.interval.toNat := by omega
    simp [ptpQualified, hsteps, hu, hint]
  simp [ptpAnnounce, h, hsrc, ptpBest, hq, hm]

/-- A port's gate list keeps its entry until the next cycle boundary in a new time (R259). -/
def resyncGate (s : State) (p : Nat) : State :=
  if (getGate s p).len == 0 then s
  else pump (setGate s p { getGate s p with resync := some (nextBoundary s p (gateNow s p)) }) p

/-- The count after a step, with every instant that the discipline holds moved along (R259). -/
def steppedCount (s : State) (t : Nat) : State :=
  { s with time := t % 2 ^ 64,
           timeSt := { moveTimes (((t % 2 ^ 64 : Nat) : Int) - (s.time : Int)) s.timeSt with slewAt := t % 2 ^ 64, slewLeft := 0 } }

theorem stepTime_eq (s : State) (t : Nat) : stepTime s t = forUp resyncGate 161 0 (steppedCount s t) := rfl

theorem resyncGate_keeps_clock {s t : State} (p : Nat) (h : Keeps 0x20#64 s t) : Keeps 0x20#64 s (resyncGate t p) :=
  keeps_ite (fun _ => h) fun _ => pump_keeps _ _ _ _ (by decide) (setGate_keeps _ _ _ _ _ (by decide) h)

/-- What the ports do as the gates find a new time leaves the count as it was stepped. -/
theorem stepTime_time (s : State) (t : Nat) : (stepTime s t).time = t % 18446744073709551616 := by
  rw [stepTime_eq, (keeps_forUp resyncGate 161 0 _ (fun _ p => resyncGate_keeps_clock p) (Keeps.refl _ _)).time_align.1]
  rfl

theorem exec_ppsInEdge {s : State} {now : Nat} (hsrc : timeSrc s = 3) (hfree : freeRunning s = false) (halive : ptpAlive s = true)
    (hnow : ptpNow s = some now) :
    exec .ppsInEdge s = .next (stepTime (wr (setLocked s 0 0) (pTime + 0x48)
      (BitVec.ofInt 32 ((s.time : Int) - ((now + 500000000) / 1000000000 * 1000000000 : Nat))))
        ((now + 500000000) / 1000000000 * 1000000000)) := by
  have hexec : exec .ppsInEdge s = execPpsInEdge s := rfl
  have htest : (timeSrc s == 3 && !freeRunning s) = true := by simp [hsrc, hfree]
  simp only [hexec, execPpsInEdge, ptpExpire_of_alive halive, htest, if_true, hnow]

theorem exec_timeRootTimeout {s : State} (h : timeSrc s = 2) :
    exec .timeRootTimeout s =
      .next (unlockTime { s with timeSt := { s.timeSt with offers := [], syncs := [], slewLeft := 0 } }) := by
  have hexec : exec .timeRootTimeout s = execTimeRootTimeout s := rfl
  simp [hexec, execTimeRootTimeout, h]

theorem exec_ppsOutPulse {s : State} (hen : bit s (pTime + 0x40) 4 = true) (hlive : live s = true) (hat : atSecond s = true) :
    exec .ppsOutPulse s = .next (emit s (.boundary "PPS_OUT high for 1 us")) := by
  have hexec : exec .ppsOutPulse s = execPpsOutPulse s := rfl
  simp [hexec, execPpsOutPulse, hen, hlive, hat]

theorem exec_ppsOutPulse_none {s : State} (hat : atSecond s = false) : exec .ppsOutPulse s = .next s := by
  have hexec : exec .ppsOutPulse s = execPpsOutPulse s := rfl
  simp [hexec, execPpsOutPulse, hat]

/-- Settles O18, command by command: a round over the spine ports reaches each of them as it stood, the closure of R41 names no switch
twice, and the servo of each time source does what its row says. -/
theorem mapsRoutesAndTime : Obligations.MapsRoutesAndTime := by
  unfold Obligations.MapsRoutesAndTime
  intro s
  refine ⟨fun hfallow => ⟨fun p hp hr hcr => ?_, fun p hp hr hcr => ?_⟩, fun p v w hlive hsp hen hadm hv hne => ?_, ?_, ?_,
    fun p bs g hlive hsp => ⟨fun hdec => ?_, fun k hen hadm hdec hform hty htr hmsg => ?_⟩,
    fun data hsrc hm => ⟨fun hnone => ?_, fun d u hone hd hsteps hint hu => ?_⟩, fun d data hd hm => ?_, fun hsrc => ?_,
    fun now hsrc hfree halive hnow => ?_, fun hen hlive hat => ?_, fun hat => ?_⟩
  · exact linkStateCtrlTimer_sends hfallow hp hr hcr
  · exact timeSyncTimer_sends hfallow hp hr hcr
  · exact ⟨_, exec_linkStateCtrlRx _ hlive hsp hen hadm, keepViews_view w hv hne⟩
  · exact ⟨_, exec_reachMapUpdate s, fun i hi => reachable_setReach (reachSet_nodup s) hi⟩
  · exact ⟨_, exec_routeTableRecompute s, fget_fset_same _ _ _ _ _ (by omega) (by omega) (Nat.mod_lt _ (by omega))⟩
  · obtain ⟨t, ht, htime, htimeSt⟩ := singleHop_of_no_packet (s := s) (p := p) (ty := tTime) hdec
    exact ⟨t, (exec_timePacketRx p bs g s).trans (execTimePacketRx_of_error g hlive hsp ht), htime, htimeSt⟩
  · have hok := singleHop_ok hen hadm hdec hform htr
    rw [hty] at hok
    exact timePacketRx_delayReq g hlive hsp hok hmsg
  · refine ⟨_, exec_announce_heard data (domain_toNat s) hsrc hm, ?_⟩
    rw [ptpAnnounce_first data hnone]
    exact ⟨hm, List.cons_ne_nil _ _⟩
  · exact ⟨_, exec_announce_heard data (domain_toNat s) hsrc hm, ptpAnnounce_second hone hm hd hsteps hint hu⟩
  · exact ⟨_, exec_announce_other data hd hm, rfl⟩
  · refine ⟨_, exec_timeRootTimeout hsrc, ?_, ?_, timeLocked_unlockTime _⟩ <;> rw [unlockTime_timeSt]
  · exact ⟨_, exec_ppsInEdge hsrc hfree halive hnow, stepTime_time _ _⟩
  · exact ⟨_, exec_ppsOutPulse hen hlive hat, emits_emit s _⟩
  · exact ⟨_, exec_ppsOutPulse_none hat, rfl⟩

end Sys2Proof.Machine

/-! # The counters of aborts (R124, R141)

No operation by which a slot that aborts sends, posts and completes counts an abort or a rank lost. -/

namespace Sys2Proof.Machine

open Sys2Proof

/-- The counter at an address. -/
def ctrAt (s : State) (a : Nat) : Dword := Sparse.get (fun _ => 0) s.ctrs a

theorem ctrGet_eq_ctrAt (s : State) (page i : Nat) : ctrGet s page i = ctrAt s (page + 0x800 + 8 * i) := rfl

theorem Keeps.ctrAt_eq {s t : State} (h : Keeps 0x2#64 s t) (a : Nat) : ctrAt t a = ctrAt s a := by
  have hctrs : (t.ctrs, t.parts) = (s.ctrs, s.parts) := h.same .counters (by decide)
  simp only [Prod.mk.injEq] at hctrs
  rw [ctrAt, hctrs.1, ctrAt]

theorem ctrAt_foldl {α : Type} {a : Nat} {f : State → α → State} (hf : ∀ t x, ctrAt (f t x) a = ctrAt t a) (l : List α) (s : State) :
    ctrAt (l.foldl f s) a = ctrAt s a := by
  induction l generalizing s with
  | nil => rfl
  | cons x l ih => rw [List.foldl_cons, ih, hf]

/-- A counter of the aborts of a REDUCE page, or that of the ranks lost. -/
def AbortCounter (a : Nat) : Prop := a = pRankXlat + 0x800 + 8 * 1 ∨ ∃ d, a = pReduce d + 0x800 + 8 * 9

/-- A counter of another index is none of them. -/
theorem AbortCounter.ne {a : Nat} (ha : AbortCounter a) {page i : Nat} (hpage : page % 4096 = 0) (hi : i < 256) (h9 : i ≠ 9)
    (h1 : i = 1 → page ≠ pRankXlat) : a ≠ page + 0x800 + 8 * i := by
  obtain rfl | ⟨d, rfl⟩ := ha
  · simp only [pRankXlat] at h1 ⊢
    omega
  · simp only [pReduce]
    omega

theorem ctrAt_ctrAdd_ne {a : Nat} (s : State) {page i : Nat} (n : Nat) (h : a ≠ page + 0x800 + 8 * i) :
    ctrAt (ctrAdd s page i n) a = ctrAt s a := (Sparse.get_set _ _ _ _ _).trans (if_neg h)

/-! ## Operations that count nothing -/

theorem ctrAt_wr (s : State) (b : Nat) (w : Word) (a : Nat) : ctrAt (wr s b w) a = ctrAt s a := rfl
theorem ctrAt_atRest (s : State) (a : Nat) : ctrAt (atRest s) a = ctrAt s a := rfl
theorem ctrAt_emit (s : State) (o : Output) (a : Nat) : ctrAt (emit s o) a = ctrAt s a := rfl
theorem ctrAt_modPort (s : State) (p : Nat) (f : PortSt → PortSt) (a : Nat) : ctrAt (modPort s p f) a = ctrAt s a := rfl
theorem ctrAt_setQueue (s : State) (q : Nat) (x : List QEntry) (a : Nat) : ctrAt (setQueue s q x) a = ctrAt s a := rfl
theorem ctrAt_storedAdd (s : State) (q n a : Nat) : ctrAt (storedAdd s q n) a = ctrAt s a := rfl
theorem ctrAt_storedSub (s : State) (q n a : Nat) : ctrAt (storedSub s q n) a = ctrAt s a := rfl
theorem ctrAt_setBucket (s : State) (p : Nat) (v : Int) (a : Nat) : ctrAt (setBucket s p v) a = ctrAt s a := rfl
theorem ctrAt_keepFrame (s : State) (p : Nat) (k : Pkt) (a : Nat) : ctrAt (keepFrame s p k) a = ctrAt s a := rfl
theorem ctrAt_setJob (s : State) (n : Nat) (x : Option JobSt) (a : Nat) : ctrAt (setJob s n x) a = ctrAt s a := rfl

theorem ctrAt_trigAfter (a : Nat) (s : State) (t : Nat) : ctrAt (trigAfter s t) a = ctrAt s a :=
  (trigAfter_keeps 0x2#64 s s t (by decide) (Keeps.refl _ s)).ctrAt_eq a

theorem ctrAt_report (a : Nat) (s : State) (r : FaultRec) : ctrAt (report s r) a = ctrAt s a :=
  (report_keeps 0x2#64 s s r (by decide) (Keeps.refl _ s)).ctrAt_eq a

theorem ctrAt_settleAwake (a : Nat) (s : State) (p : Nat) : ctrAt (settleAwake s p) a = ctrAt s a :=
  (settleAwake_keeps 0x2#64 s s p (by decide) (Keeps.refl _ s)).ctrAt_eq a

theorem ctrAt_pickQueue (a : Nat) (s : State) (p : Nat) : ctrAt (pickQueue s p).2 a = ctrAt s a :=
  (pickQueue_keeps 0x2#64 s s p (by decide) (Keeps.refl _ s)).ctrAt_eq a

theorem ctrAt_formPacket (a : Nat) (s : State) (c : Nat) (k : Pkt) (control : Bool) (slot : Option (Nat × Nat)) (chunk : Option Nat) :
    ctrAt (formPacket s c k control slot chunk).1 a = ctrAt s a :=
  (formPacket_keeps 0x2#64 s s c k control slot chunk (by decide) (Keeps.refl _ s)).ctrAt_eq a

/-- The packets that a group of contexts forms, and the state with each numbered or waiting for its window. -/
def formAll (s : State) (items : List (Nat × Pkt)) (control : Bool) (slot : Option (Nat × Nat)) (chunk : Option Nat) :
    State × List Pkt :=
  items.foldl (fun acc i => ((formPacket acc.1 i.1 i.2 control slot chunk).1,
    acc.2 ++ (formPacket acc.1 i.1 i.2 control slot chunk).2.toList)) (s, [])

theorem sendAll_eq (s : State) (die : Nat) (items : List (Nat × Pkt)) (control : Bool) (sub : Nat) (slot : Option (Nat × Nat))
    (chunk : Option Nat) : sendAll s die items control sub slot chunk =
      if (formAll s items control slot chunk).2.isEmpty then (formAll s items control slot chunk).1
      else originateAll (formAll s items control slot chunk).1 die (formAll s items control slot chunk).2 control (some sub) := rfl

/-- The posts that a POST finds space for: what is left of it, and the state (R149). -/
def trigPosts (s : State) (t count : Nat) : Nat × State :=
  if s.pendingPosts.any fun e => e.1 != t && e.2 != 0 && trigSub s e.1 == trigSub s t then (count, s)
  else postSome count s (trigSub s t)

theorem trigPost_eq (s : State) (t count : Nat) :
    trigPost s t count =
      let r := trigPosts s t count
      if r.1 == 0 then trigAfter { r.2 with pendingPosts := Sparse.erase r.2.pendingPosts t } t
      else fset { r.2 with pendingPosts := Sparse.set (fun _ => 0) r.2.pendingPosts t r.1 } (wTrig t) 30 28 2 := rfl

/-- The completion noted in its engine and in its job, before its counter and event (R162). -/
def noteComplete (s : State) (x : SlotSt) (code flags escapes : Nat) : State :=
  let t := ctrAdd (wr s (pColl x.desc.engine + 0x48) (BitVec.ofNat 32 (code * 65536 + x.k % 65536))) (pColl x.desc.engine)
    (if code == 0 then 1 else 2) 1
  match getJob t x.sub with
  | some j => setJob t x.sub (some { j with ended := j.ended ++ [(x.k, ⟨code, flags, escapes⟩, countVec x (countLen x.desc))] })
  | none => t

theorem completeAt_eq (s : State) (x : SlotSt) (code flags escapes : Nat) :
    completeAt s x code flags escapes =
      if code == 0 then
        (if x.desc.doneEn then advanceCounter (noteComplete s x code flags escapes) x.desc.doneCtr 1
         else noteComplete s x code flags escapes)
      else if x.desc.failEn then
        advanceCounter (raise (noteComplete s x code flags escapes) (pColl x.desc.engine) 8) x.desc.failCtr 1
      else raise (noteComplete s x code flags escapes) (pColl x.desc.engine) 8 := rfl

section

variable {a : Nat} (ha : AbortCounter a)
include ha

theorem ctrAt_ctrAdd (s : State) {page i : Nat} (n : Nat) (hpage : page % 4096 = 0) (hi : i < 256) (h9 : i ≠ 9)
    (h1 : i = 1 → page ≠ pRankXlat) : ctrAt (ctrAdd s page i n) a = ctrAt s a :=
  ctrAt_ctrAdd_ne s n (ha.ne hpage hi h9 h1)

theorem ctrAt_ctrAdd_port (s : State) (p n : Nat) {i : Nat} (hi : i < 256) (h9 : i ≠ 9) (h1 : i ≠ 1) :
    ctrAt (ctrAdd s (pPort p) i n) a = ctrAt s a :=
  ctrAt_ctrAdd ha s n (by simp only [pPort]; omega) hi h9 fun h => absurd h h1

theorem ctrAt_ctrAdd_bufPool (s : State) (d n : Nat) {i : Nat} (hi : i < 256) (h9 : i ≠ 9) :
    ctrAt (ctrAdd s (pBufPool d) i n) a = ctrAt s a :=
  ctrAt_ctrAdd ha s n (by simp only [pBufPool]; omega) hi h9 fun _ => by simp only [pBufPool, pRankXlat]; omega

theorem ctrAt_ctrAdd_coll (s : State) (e n : Nat) {i : Nat} (hi : i < 256) (h9 : i ≠ 9) :
    ctrAt (ctrAdd s (pColl e) i n) a = ctrAt s a :=
  ctrAt_ctrAdd ha s n (by simp only [pColl]; omega) hi h9 fun _ => by simp only [pColl, pRankXlat]; omega

theorem ctrAt_ctrAdd_trig (s : State) (d n : Nat) {i : Nat} (hi : i < 256) (h9 : i ≠ 9) :
    ctrAt (ctrAdd s (pTrig d) i n) a = ctrAt s a :=
  ctrAt_ctrAdd ha s n (by simp only [pTrig]; omega) hi h9 fun _ => by simp only [pTrig, pRankXlat]; omega

/-! ## Messages and events -/

theorem ctrAt_sendMsg (s : State) (sid ty msgNum flags status : Nat) (body : List Byte) :
    ctrAt (sendMsg s sid ty msgNum flags status body) a = ctrAt s a := by
  unfold sendMsg
  split
  · rfl
  · dsimp only
    rw [ctrAt_emit, ctrAt_ctrAdd ha _ _ (by decide) (by decide) (by decide) (by decide)]
    split <;> rfl

theorem ctrAt_sendPageEvent (s : State) (sid : Nat) (x : Session) (page : Nat) (v : Word) :
    ctrAt (sendPageEvent s sid x page v) a = ctrAt s a := ctrAt_sendMsg ha _ _ _ _ _ _ _

theorem ctrAt_notifySession (s : State) (page sid : Nat) : ctrAt (notifySession s page sid) a = ctrAt s a := by
  unfold notifySession
  split
  · rfl
  · dsimp only
    split
    · rfl
    · split
      · rfl
      · split
        · exact ctrAt_sendPageEvent ha _ _ _ _ _
        · rfl

theorem ctrAt_notify (s : State) (page : Nat) : ctrAt (notify s page) a = ctrAt s a :=
  ctrAt_foldl (fun t sid => ctrAt_notifySession ha t page sid) _ s

theorem ctrAt_raise (s : State) (page b : Nat) : ctrAt (raise s page b) a = ctrAt s a := ctrAt_notify ha _ _

/-! ## Crossings -/

theorem ctrAt_endSwath (s : State) (st ev : Nat) : ctrAt (endSwath s st ev) a = ctrAt s a := ctrAt_raise ha _ _ _

theorem ctrAt_takeMarker (s : State) (x : SwathSt) (u c : Nat) : ctrAt (takeMarker s x u c) a = ctrAt s a := by
  have hunit : ∀ y, ctrAt (completeUnit s y u) a = ctrAt s a := fun y =>
    (completeUnit_keeps 0x2#64 s s y u (by decide) (Keeps.refl _ s)).ctrAt_eq a
  unfold takeMarker
  dsimp only
  split
  · rw [ctrAt_endSwath ha]
    split
    · rfl
    · exact hunit _
  · split
    · rfl
    · exact hunit _

theorem ctrAt_hop (s : State) (u v ch : Nat) : ctrAt (hop s u v ch) a = ctrAt s a := by
  have hserve : ∀ t, ctrAt (serveCross t u v ch) a = ctrAt t a := fun t =>
    (serveCross_keeps 0x2#64 t t u v ch (by decide) (Keeps.refl _ t)).ctrAt_eq a
  unfold hop
  dsimp only
  refine (hserve _).trans ?_
  split
  · split
    · exact ctrAt_takeMarker ha _ _ _ _
    · rfl
  · rfl

theorem ctrAt_cross (s : State) (d e ch : Nat) : ctrAt (cross s d e ch) a = ctrAt s a :=
  ctrAt_foldl (fun t _ => ctrAt_hop ha t _ _ ch) _ _

/-! ## Cells and ports -/

theorem ctrAt_takeCell (s : State) (c refs : Nat) (ch : Charge) (acct : Option Nat) (ing : Option (Nat × Nat)) (credits : Nat) :
    ctrAt (takeCell s c refs ch acct ing credits) a = ctrAt s a := ctrAt_ctrAdd_bufPool ha _ _ _ (by decide) (by decide)

theorem ctrAt_returnCredits (s : State) (p v k : Nat) : ctrAt (returnCredits s p v k) a = ctrAt s a := by
  unfold returnCredits
  dsimp only
  split
  · rw [ctrAt_modPort]
  · split
    · split
      · rw [ctrAt_ctrAdd_bufPool ha _ _ _ (by decide) (by decide), ctrAt_modPort, ctrAt_modPort]
      · rw [ctrAt_emit, ctrAt_ctrAdd_bufPool ha _ _ _ (by decide) (by decide), ctrAt_modPort, ctrAt_modPort]
    · rw [ctrAt_emit, ctrAt_modPort, ctrAt_modPort]

theorem ctrAt_releaseCell (s : State) (c : Nat) : ctrAt (releaseCell s c) a = ctrAt s a := by
  have hdie : ∀ t d, ctrAt (releaseDie t d) a = ctrAt t a := fun t d =>
    (releaseDie_keeps 0x2#64 t t d (by decide) (Keeps.refl _ t)).ctrAt_eq a
  unfold releaseCell
  dsimp only
  rw [hdie]
  split
  · rw [ctrAt_returnCredits ha]
    split <;> rfl
  · split <;> rfl

theorem ctrAt_decCell (s : State) (c gen : Nat) : ctrAt (decCell s c gen) a = ctrAt s a := by
  unfold decCell
  dsimp only
  split
  · rw [ctrAt_report a, ctrAt_ctrAdd_bufPool ha _ _ _ (by decide) (by decide)]
  · split
    · rw [ctrAt_ctrAdd_bufPool ha _ _ _ (by decide) (by decide), ctrAt_releaseCell ha]
    · rfl

theorem ctrAt_startSend (s : State) (p q : Nat) (e : QEntry) : ctrAt (startSend s p q e) a = ctrAt s a := by
  unfold startSend
  dsimp only
  rw [ctrAt_atRest, ctrAt_settleAwake, ctrAt_modPort, ctrAt_keepFrame, ctrAt_cross ha]
  split
  · exact ctrAt_setBucket _ _ _ a
  · rfl

theorem ctrAt_trailerFault (s : State) (p : Nat) : ctrAt (trailerFault s p) a = ctrAt s a := by
  rw [trailerFault, ctrAt_report a, ctrAt_ctrAdd_port ha _ _ _ (by decide) (by decide) (by decide)]

theorem ctrAt_pumpFuel (n : Nat) (s : State) (p : Nat) : ctrAt (pumpFuel n s p) a = ctrAt s a := by
  induction n generalizing s with
  | zero => rfl
  | succ n ih =>
    have hpick := ctrAt_pickQueue a (settleAwake s p) p
    rw [ctrAt_settleAwake a] at hpick
    unfold pumpFuel
    dsimp only
    split
    · exact ctrAt_settleAwake a s p
    · split
      · next h => rwa [h] at hpick
      · next q t h =>
        rw [h] at hpick
        split
        · exact hpick
        · split
          · exact ctrAt_settleAwake a s p
          · split
            · exact (ctrAt_startSend ha _ _ _ _).trans hpick
            · exact (ih _).trans ((ctrAt_decCell ha _ _ _).trans ((ctrAt_trailerFault ha _ _).trans hpick))

theorem ctrAt_pump (s : State) (p : Nat) : ctrAt (pump s p) a = ctrAt s a := ctrAt_pumpFuel ha _ s p

theorem ctrAt_markEcn (s : State) (p : Nat) (k : Pkt) : ctrAt (markEcn s p k).2 a = ctrAt s a := by
  unfold markEcn
  split
  · rfl
  · exact ctrAt_ctrAdd_port ha _ _ _ (by decide) (by decide) (by decide)

theorem ctrAt_enqueue (s : State) (p c gen : Nat) (k : Pkt) (ing : Option Nat) : ctrAt (enqueue s p c gen k ing) a = ctrAt s a := by
  unfold enqueue
  dsimp only
  rw [ctrAt_pump ha, ctrAt_storedAdd, ctrAt_setQueue, ctrAt_atRest, ctrAt_ctrAdd_port ha _ _ _ (by decide) (by decide) (by decide)]
  split
  · rw [ctrAt_markEcn ha, ctrAt_cross ha]
  · exact ctrAt_cross ha _ _ _ _

/-! ## Packets of the device -/

theorem ctrAt_origStore (s : State) (w : OrigWait) : ctrAt (origStore s w) a = ctrAt s a := by
  unfold origStore
  dsimp only
  split
  · rfl
  · split
    · exact ctrAt_takeCell ha _ _ _ _ _ _ _
    · rw [ctrAt_foldl fun t _ => ctrAt_enqueue ha t _ _ _ _ _, ctrAt_takeCell ha]

theorem ctrAt_origSubmit (s : State) (w : OrigWait) : ctrAt (origSubmit s w) a = ctrAt s a := by
  unfold origSubmit
  split
  · exact ctrAt_origStore ha s w
  · exact ctrAt_ctrAdd_bufPool ha _ _ _ (by decide) (by decide)

theorem ctrAt_originateAll (s : State) (die : Nat) (ks : List Pkt) (control : Bool) (sub : Option Nat) :
    ctrAt (originateAll s die ks control sub) a = ctrAt s a := by
  unfold originateAll
  split
  · rfl
  · dsimp only
    rw [ctrAt_foldl fun t _ => ctrAt_origSubmit ha t _]
    have hlost : ∀ n, ctrAt (if n == 0 then s else ctrAdd s (pBufPool die) 7 n) a = ctrAt s a := fun n => by
      split
      · rfl
      · exact ctrAt_ctrAdd_bufPool ha _ _ _ (by decide) (by decide)
    split
    · exact hlost _
    · exact (ctrAt_origSubmit ha _ _).trans (hlost _)

theorem ctrAt_sendAll (s : State) (die : Nat) (items : List (Nat × Pkt)) (control : Bool) (sub : Nat) (slot : Option (Nat × Nat))
    (chunk : Option Nat) : ctrAt (sendAll s die items control sub slot chunk) a = ctrAt s a := by
  have hform : ctrAt (formAll s items control slot chunk).1 a = ctrAt s a :=
    (keeps_foldl_fst (m := 0x2#64) _ items (s, []) (fun p i h => formPacket_keeps _ _ _ _ _ _ _ _ (by decide) h)
      (Keeps.refl _ s)).ctrAt_eq a
  rw [sendAll_eq]
  split
  · exact hform
  · rw [ctrAt_originateAll ha, hform]

theorem ctrAt_sendNotice (s : State) (i : Nat) (x : SlotSt) (code flags escapes : Nat) :
    ctrAt (sendNotice s i x code flags escapes) a = ctrAt s a := ctrAt_sendAll ha _ _ _ _ _ _ _

theorem ctrAt_sendAbort (s : State) (i : Nat) (x : SlotSt) (code : Nat) : ctrAt (sendAbort s i x code) a = ctrAt s a := by
  unfold sendAbort
  split
  · rfl
  · split
    · rfl
    · dsimp only
      rw [sendOne, ctrAt_sendAll ha,
        ctrAt_ctrAdd ha _ _ (by simp only [pReduce]; omega) (by decide) (by decide) fun h => absurd h (by decide)]

/-! ## Posts, triggers and completion -/

theorem ctrAt_postK (s : State) (n k : Nat) : ctrAt (postK s n k) a = ctrAt s a := by
  unfold postK
  split
  · rfl
  · dsimp only
    split <;> rw [ctrAt_setJob, ctrAt_ctrAdd_coll ha _ _ _ (by decide) (by decide)]

theorem ctrAt_postSome (fuel : Nat) (s : State) (n : Nat) : ctrAt (postSome fuel s n).2 a = ctrAt s a := by
  induction fuel generalizing s with
  | zero => rfl
  | succ fuel ih =>
    unfold postSome
    split
    · rfl
    · split
      · rfl
      · split
        · rfl
        · split
          · rfl
          · split
            · rfl
            · rw [ih, ctrAt_postK ha]

theorem ctrAt_queueTrigEvent (s : State) (sid t tag value : Nat) (x : Session) :
    ctrAt (queueTrigEvent s sid t tag value x) a = ctrAt s a := by
  unfold queueTrigEvent
  split
  · rfl
  · dsimp only
    rw [ctrAt_sendMsg ha]
    rfl

theorem ctrAt_sendTrigEvent (s : State) (t : Nat) : ctrAt (sendTrigEvent s t) a = ctrAt s a := by
  refine ctrAt_foldl (fun u sid => ?_) _ s
  split
  · split
    · exact ctrAt_queueTrigEvent ha _ _ _ _ _ _
    · rfl
  · rfl

theorem ctrAt_trigPost (s : State) (t count : Nat) : ctrAt (trigPost s t count) a = ctrAt s a := by
  have hposts : ctrAt (trigPosts s t count).2 a = ctrAt s a := by
    unfold trigPosts
    split
    · rfl
    · exact ctrAt_postSome ha _ _ _
  rw [trigPost_eq]
  dsimp only
  split
  · rw [ctrAt_trigAfter]
    exact hposts
  · exact hposts

/-- A firing counts a firing, whatever its ADD does, as long as that counts no abort. -/
theorem ctrAt_fireOnce {adv : State → Nat → Nat → State} (hadv : ∀ t c n, ctrAt (adv t c n) a = ctrAt t a) (s : State) (t : Nat) :
    ctrAt (fireOnce adv s t) a = ctrAt s a := by
  have hcount : ctrAt (fieldSat (ctrAdd s (pTrig (t / 4096)) 0 1) (wTrig t + 24) 31 0 1) a = ctrAt s a :=
    ctrAt_ctrAdd_trig ha s _ _ (by decide) (by decide)
  unfold fireOnce
  dsimp only
  split
  · split
    · rw [ctrAt_ctrAdd_trig ha _ _ _ (by decide) (by decide), ctrAt_trigPost ha, hcount]
    · rw [ctrAt_trigPost ha, hcount]
  · rw [ctrAt_trigAfter, hadv, hcount]
  · rw [ctrAt_trigAfter, ctrAt_sendTrigEvent ha, hcount]

theorem ctrAt_fireLoop {adv : State → Nat → Nat → State} (hadv : ∀ t c n, ctrAt (adv t c n) a = ctrAt t a) (n : Nat) (s : State)
    (t : Nat) : ctrAt (fireLoop adv n s t) a = ctrAt s a := by
  induction n generalizing s with
  | zero => rfl
  | succ n ih =>
    unfold fireLoop
    split
    · rw [ih, ctrAt_fireOnce ha hadv]
    · rfl

theorem ctrAt_advance (fuel : Nat) (s : State) (c amt : Nat) : ctrAt (advance fuel s c amt) a = ctrAt s a := by
  induction fuel generalizing s c amt with
  | zero => rfl
  | succ fuel ih => exact ctrAt_foldl (fun t x => ctrAt_fireLoop ha ih _ t x) _ _

theorem ctrAt_advanceCounter (s : State) (c amt : Nat) : ctrAt (advanceCounter s c amt) a = ctrAt s a := ctrAt_advance ha _ s c amt

theorem ctrAt_noteComplete (s : State) (x : SlotSt) (code flags escapes : Nat) :
    ctrAt (noteComplete s x code flags escapes) a = ctrAt s a := by
  have hcount : ∀ t, ctrAt (ctrAdd t (pColl x.desc.engine) (if code == 0 then 1 else 2) 1) a = ctrAt t a := fun t =>
    ctrAt_ctrAdd_coll ha t _ _ (by split <;> decide) (by split <;> decide)
  unfold noteComplete
  dsimp only
  split
  · rw [ctrAt_setJob, hcount, ctrAt_wr]
  · rw [hcount, ctrAt_wr]

theorem ctrAt_completeAt (s : State) (x : SlotSt) (code flags escapes : Nat) :
    ctrAt (completeAt s x code flags escapes) a = ctrAt s a := by
  rw [completeAt_eq]
  split
  · split
    · rw [ctrAt_advanceCounter ha, ctrAt_noteComplete ha]
    · exact ctrAt_noteComplete ha _ _ _ _ _
  · split
    · rw [ctrAt_advanceCounter ha, ctrAt_raise ha, ctrAt_noteComplete ha]
    · rw [ctrAt_raise ha, ctrAt_noteComplete ha]

end

end Sys2Proof.Machine

/-! # Slots and their generations (R45, R122, R124, R131, R132) -/

namespace Sys2Proof.Machine

open Sys2Proof

/-! ## What a crossing leaves alone

A marker that arrives writes the pages of its unit, all of them below the windows of Table 20.10. -/

/-- Every page stands below the windows. -/
theorem pagesOf_lt {u p : Nat} (h : p ∈ pagesOf u) : p + 0x1000 ≤ wRoute := by
  have hkinds : ∀ k ∈ pageKinds, k.base + 0x1000 * k.count ≤ wRoute := by decide
  simp only [pagesOf, swathPages, List.mem_map, List.mem_filter, List.mem_flatten] at h
  obtain ⟨e, ⟨⟨l, ⟨k, ⟨hk, -⟩, rfl⟩, he⟩, -⟩, rfl⟩ := h
  obtain ⟨i, hi, rfl⟩ := List.mem_map.1 he
  have := hkinds k hk
  have := List.mem_range.1 hi
  dsimp only
  omega

section

variable {a : Nat} (ha : wRoute ≤ a)
include ha

theorem rd_completeUnit_window (s : State) (x : SwathSt) (u : Nat) : rd (completeUnit s x u) a = rd s a := by
  have hfold : ∀ ps : List Nat, (∀ p ∈ ps, p + 0x1000 ≤ wRoute) → ∀ (f : State → Nat → State),
      (∀ t p, p + 0x1000 ≤ wRoute → rd (f t p) a = rd t a) → ∀ t, rd (ps.foldl f t) a = rd t a := by
    intro ps hps f hf
    induction ps with
    | nil => exact fun _ => rfl
    | cons p ps ih =>
      obtain ⟨hp, hps⟩ := List.forall_mem_cons.1 hps
      exact fun t => (ih hps _).trans (hf t p hp)
  refine hfold _ (fun p hp => pagesOf_lt hp) _ (fun t p hp => ?_) s
  exact rd_wr_ne _ _ _ _ (by omega)

theorem rd_endSwath_window (s : State) (st ev : Nat) : rd (endSwath s st ev) a = rd s a := by
  have h44 : a ≠ pSwath + 0x44 := fun h => absurd ha (by rw [h]; decide)
  have h50 : a ≠ pSwath + 0x50 := fun h => absurd ha (by rw [h]; decide)
  have h54 : a ≠ pSwath + 0x54 := fun h => absurd ha (by rw [h]; decide)
  have h10 : a ≠ pSwath + 0x10 := fun h => absurd ha (by rw [h]; decide)
  unfold endSwath
  dsimp only
  rw [rd_raise_ne _ _ _ _ h10]
  exact (rd_wr_ne _ _ _ _ h54).trans ((rd_wr_ne _ _ _ _ h50).trans (rd_fset_ne _ _ _ _ _ _ h44))

theorem rd_takeMarker_window (s : State) (x : SwathSt) (u c : Nat) : rd (takeMarker s x u c) a = rd s a := by
  have h44 : a ≠ pSwath + 0x44 := fun h => absurd ha (by rw [h]; decide)
  unfold takeMarker
  dsimp only
  have hunit : ∀ (b : Bool) y n, rd (fset { (if b then s else completeUnit s y u) with swath := some y } (pSwath + 0x44) 11 3 n) a =
      rd s a := fun b y n => by
    rw [rd_fset_ne _ _ _ _ _ _ h44]
    cases b
    · exact rd_completeUnit_window ha s y u
    · rfl
  split
  · rw [rd_endSwath_window ha]
    exact hunit _ _ _
  · exact hunit _ _ _

theorem rd_hop_window (s : State) (u v ch : Nat) : rd (hop s u v ch) a = rd s a := by
  have hserve : ∀ t, rd (serveCross t u v ch) a = rd t a := fun t =>
    rd_congr ((serveCross_keeps 0x1#64 t t u v ch (by decide) (Keeps.refl _ t)).same .registers (by decide)) a
  unfold hop
  dsimp only
  refine (hserve _).trans ?_
  split
  · split
    · exact rd_takeMarker_window ha _ _ _ _
    · rfl
  · rfl

theorem rd_cross_window (s : State) (d e ch : Nat) : rd (cross s d e ch) a = rd s a := by
  rw [cross_eq_carryAlong]
  refine Eq.trans ?_ (rd_congr (s := s) (t := { s with hand := none }) rfl a)
  generalize { s with hand := none } = t
  induction (d :: crossPath d e).zip (crossPath d e) generalizing t with
  | nil => rfl
  | cons x xs ih => rw [carryAlong_cons, ih, rd_hop_window ha]

end

theorem slotState_cross (s : State) (d e ch i : Nat) : slotState (cross s d e ch) i = slotState s i := by
  rw [slotState, fget, rd_cross_window (by simp only [wRoute, wSlot]; omega), slotState, fget]

theorem Keeps.getSlot_eq {s t : State} (h : Keeps 0x800000#64 s t) (i : Nat) : getSlot t i = getSlot s i := by
  have hslots : t.slots = s.slots := h.same .slots (by decide)
  rw [getSlot, hslots, getSlot]

/-! ## Packets by their generation (R122, R132) -/

theorem byGeneration_late {s : State} {k : Pkt} (h : 8 ≤ genLead s k) (n i arrival : Nat) (j : JobSt) (port err : Option Nat) :
    byGeneration s n i arrival j port k err = ctrAdd s (pReduce arrival) 6 1 := by
  simp [byGeneration, h]

theorem byGeneration_early {s : State} {i : Nat} {k : Pkt} (h : genLead s k = 1 ∨ (genLead s k = 0 ∧ slotState s i = 1))
    (n arrival : Nat) (j : JobSt) (port err : Option Nat) :
    byGeneration s n i arrival j port k err = atRest (holdPacket (cross s arrival (packetDie i k) chReduction) n i j port k err) := by
  have hlate : ¬8 ≤ genLead s k := by omega
  have hhold : (genLead s k == 1 || (genLead s k == 0 && slotState (cross s arrival (packetDie i k) chReduction) i == 1)) = true := by
    rw [slotState_cross]
    obtain h | ⟨h0, h1⟩ := h
    · simp [h]
    · simp [h0, h1]
  simp only [byGeneration, hlate, hhold, if_false, if_true]

/-- A packet that is held joins those of its slot at the end, and changes no slot. -/
theorem holdPacket_held (s : State) (n i : Nat) (j : JobSt) (port : Option Nat) (k : Pkt) (err : Option Nat) :
    (holdPacket s n i j port k err).slots = s.slots ∧
      Sparse.get (fun _ => []) (holdPacket s n i j port k err).heldPkts i =
        Sparse.get (fun _ => []) s.heldPkts i ++ [(k, port, err)] := by
  have hpost : ∀ t c, Keeps 0x1800000#64 t (autoPost t n c) := fun t c => autoPost_keeps _ t t n c (by decide) (Keeps.refl _ t)
  have hwaiting : ∀ t c, (autoPost t n c).heldPkts = t.heldPkts := fun t c => by
    have h : ((autoPost t n c).heldPkts, (autoPost t n c).pendingPosts) = (t.heldPkts, t.pendingPosts) :=
      (hpost t c).same .waiting (by decide)
    simp only [Prod.mk.injEq] at h
    exact h.1
  unfold holdPacket
  dsimp only
  refine ⟨(hpost _ _).same .slots (by decide), ?_⟩
  rw [hwaiting]
  exact (Sparse.get_set _ _ _ _ _).trans (if_pos rfl)

theorem byGeneration_held {s : State} {i : Nat} {k : Pkt} (h : genLead s k = 1 ∨ (genLead s k = 0 ∧ slotState s i = 1))
    (n arrival : Nat) (j : JobSt) (port err : Option Nat) :
    (byGeneration s n i arrival j port k err).slots = s.slots ∧
      Sparse.get (fun _ => []) (byGeneration s n i arrival j port k err).heldPkts i =
        Sparse.get (fun _ => []) s.heldPkts i ++ [(k, port, err)] := by
  have hcross : Keeps 0x1800000#64 s (cross s arrival (packetDie i k) chReduction) :=
    cross_keeps _ s s _ _ _ (by decide) (Keeps.refl _ s)
  have hslots : (cross s arrival (packetDie i k) chReduction).slots = s.slots := hcross.same .slots (by decide)
  have hwaiting := hcross.same .waiting (by decide)
  simp only [Prod.mk.injEq] at hwaiting
  obtain ⟨hs, hh⟩ := holdPacket_held (cross s arrival (packetDie i k) chReduction) n i j port k err
  rw [hwaiting.1] at hh
  rw [byGeneration_early h]
  exact ⟨hs.trans hslots, hh⟩

/-! ## Release (R131) -/

/-- The slot is emptied, and its streams from the tree forget its message. -/
def emptySlot (s : State) (i : Nat) (x : SlotSt) : State :=
  { setSlot s i none with msgs := s.msgs.filter fun e => !(e.msg == msgOf s x.sub x.k && (match getStream s e.ctx with
    | some t => t.sub == x.sub && t.kind == .fromTree
    | none => false)) }

/-- The words of a slot that is released: its generation is one more, and it waits. -/
def releaseWords (s : State) (i : Nat) (x : SlotSt) : State :=
  wr (wr (fset (fset (fset s (wSlot i) 7 4 ((slotGen s i + 1) % 16)) (wSlot i) 2 0 1) (wSlot i) 20 16 0) (wSlot i + 4) 0)
    (wSlot i + 28) (BitVec.ofNat 32 (x.code % 65536 * 65536 + x.flags % 16))

/-- The job counts the round of slot `i`. -/
def countRound (s : State) (sub i : Nat) : State :=
  match getJob s sub with
  | some j =>
    let o := i - slotBase s sub
    setJob s sub (some { j with rounds := Sparse.set (fun _ => 0) j.rounds o (Sparse.get (fun _ => 0) j.rounds o + 1) })
  | none => s

theorem releaseSlot_eq (s : State) (i : Nat) (x : SlotSt) :
    releaseSlot s i x = countRound (releaseWords (emptySlot s i x) i x) x.sub i := rfl

theorem countRound_regs (s : State) (sub i : Nat) : (countRound s sub i).regs = s.regs := by
  unfold countRound
  split
  · rfl
  · rfl

theorem getSlot_countRound (s : State) (sub i i' : Nat) : getSlot (countRound s sub i) i' = getSlot s i' := by
  unfold countRound
  split
  · rfl
  · rfl

theorem getSlot_wr (s : State) (a : Nat) (v : Word) (i : Nat) : getSlot (wr s a v) i = getSlot s i := rfl
theorem getSlot_fset (s : State) (a hi lo v i : Nat) : getSlot (fset s a hi lo v) i = getSlot s i := rfl

theorem getSlot_releaseSlot (s : State) (i : Nat) (x : SlotSt) : getSlot (releaseSlot s i x) i = none := by
  rw [releaseSlot_eq, getSlot_countRound, releaseWords, getSlot_wr, getSlot_wr, getSlot_fset, getSlot_fset, getSlot_fset]
  exact (getSlot_setSlot s i i none).trans (if_pos rfl)

theorem slotGen_emptySlot (s : State) (i : Nat) (x : SlotSt) (i' : Nat) : slotGen (emptySlot s i x) i' = slotGen s i' := rfl

theorem slotState_releaseSlot (s : State) (i : Nat) (x : SlotSt) : slotState (releaseSlot s i x) i = 1 := by
  rw [slotState, releaseSlot_eq, fget_congr (countRound_regs _ _ _), releaseWords, fget_wr_ne _ _ _ _ _ _ (by omega),
    fget_wr_ne _ _ _ _ _ _ (by omega), fget_fset_apart _ _ _ _ _ _ _ (by omega) (by omega) (by omega),
    fget_fset_same _ _ _ _ _ (by omega) (by omega) (by omega)]

theorem slotGen_releaseSlot (s : State) (i : Nat) (x : SlotSt) : slotGen (releaseSlot s i x) i = (slotGen s i + 1) % 16 := by
  rw [slotGen, releaseSlot_eq, fget_congr (countRound_regs _ _ _), releaseWords, fget_wr_ne _ _ _ _ _ _ (by omega),
    fget_wr_ne _ _ _ _ _ _ (by omega), fget_fset_apart _ _ _ _ _ _ _ (by omega) (by omega) (by omega),
    fget_fset_apart _ _ _ _ _ _ _ (by omega) (by omega) (by omega), slotGen_emptySlot]
  exact fget_fset_same _ _ _ _ _ (by omega) (by omega) (Nat.mod_lt _ (by omega))

theorem tryRelease_cases (s : State) (i : Nat) : tryRelease s i = s ∨ ∃ x, tryRelease s i = releaseSlot s i x := by
  unfold tryRelease
  split
  · exact .inl rfl
  · split
    · exact .inr ⟨_, rfl⟩
    · exact .inl rfl

/-! ## Aborts (R124) -/

/-- Slot `i` holds collective `k`, stopped under a code. -/
def StoppedUnder (s : State) (i k code : Nat) : Prop := ∃ y, getSlot s i = some y ∧ y.code = code ∧ y.chunks = [] ∧ y.k = k

theorem Keeps.stoppedUnder {s t : State} (h : Keeps 0x800000#64 s t) {i k code : Nat} (hs : StoppedUnder s i k code) :
    StoppedUnder t i k code := by
  rw [StoppedUnder, h.getSlot_eq]
  exact hs

/-- What a slot owes says nothing of its collective or its code. -/
theorem stoppedUnder_slotOwes {s : State} {i k code : Nat} (h : StoppedUnder s i k code) (c seq : Nat) (p : Pkt)
    (slot : Option (Nat × Nat)) (chunk : Option Nat) : StoppedUnder (slotOwes s c seq p slot chunk) i k code := by
  obtain ⟨y, hy, hcode, hchunks, hk⟩ := h
  unfold slotOwes
  split
  · exact ⟨y, hy, hcode, hchunks, hk⟩
  · next i' n =>
    split
    · next x hx =>
      split
      · by_cases hi : i = i'
        · subst hi
          obtain rfl : y = x := Option.some.inj (hy.symm.trans hx)
          exact ⟨_, (getSlot_setSlot _ _ _ _).trans (if_pos rfl), hcode, hchunks, hk⟩
        · exact ⟨y, (getSlot_setSlot _ _ _ _).trans ((if_neg hi).trans hy), hcode, hchunks, hk⟩
      · exact ⟨y, hy, hcode, hchunks, hk⟩
    · exact ⟨y, hy, hcode, hchunks, hk⟩

theorem stoppedUnder_formPacket {s : State} {i k code : Nat} (h : StoppedUnder s i k code) (c : Nat) (p : Pkt) (control : Bool)
    (slot : Option (Nat × Nat)) (chunk : Option Nat) : StoppedUnder (formPacket s c p control slot chunk).1 i k code := by
  unfold formPacket
  split
  · exact h
  · dsimp only
    split
    · exact stoppedUnder_slotOwes h _ _ _ _ _
    · exact h

theorem stoppedUnder_formAll {s : State} {i k code : Nat} (h : StoppedUnder s i k code) (items : List (Nat × Pkt)) (control : Bool)
    (slot : Option (Nat × Nat)) (chunk : Option Nat) : StoppedUnder (formAll s items control slot chunk).1 i k code := by
  unfold formAll
  generalize ([] : List Pkt) = ps
  induction items generalizing s ps with
  | nil => exact h
  | cons x xs ih => exact ih (stoppedUnder_formPacket h _ _ _ _ _) _

theorem stoppedUnder_sendAll {s : State} {i k code : Nat} (h : StoppedUnder s i k code) (die : Nat) (items : List (Nat × Pkt))
    (control : Bool) (sub : Nat) (slot : Option (Nat × Nat)) (chunk : Option Nat) :
    StoppedUnder (sendAll s die items control sub slot chunk) i k code := by
  have hform := stoppedUnder_formAll h items control slot chunk
  rw [sendAll_eq]
  split
  · exact hform
  · exact (originateAll_keeps _ _ _ _ _ _ _ (by decide) (Keeps.refl _ _)).stoppedUnder hform

theorem stoppedUnder_sendAbort {s : State} {i k code : Nat} (h : StoppedUnder s i k code) (i' : Nat) (x : SlotSt) (code' : Nat) :
    StoppedUnder (sendAbort s i' x code') i k code := by
  unfold sendAbort
  split
  · exact h
  · split
    · exact h
    · exact stoppedUnder_sendAll (s := ctrAdd s _ _ _) h _ _ _ _ _ _

/-- The entry of a slot that aborts: its chunks are gone, and it carries the code. -/
def stopped (x : SlotSt) (code : Nat) : SlotSt := { x with chunks := [], code := code, unacked := [], inputs := [], fromSwitch := [] }

/-- The slot stops: the abort is counted and nothing of the generation waits any more. -/
def abortStop (s : State) (i code : Nat) (x : SlotSt) : State :=
  forgetWaiting (fset (setSlot (ctrAdd s (pReduce (i % 8)) 9 1) i (some (stopped x code))) (wSlot i) 2 0 4) i x.k

/-- The abort goes up the tree where it starts here. -/
def abortUp (s : State) (i code : Nat) (up : Bool) (x : SlotSt) : State :=
  if up then sendAbort (abortStop s i code x) i (stopped x code) code else abortStop s i code x

/-- The members and the children are told, and the collective completes. -/
def abortDown (s : State) (i code : Nat) (up : Bool) (x : SlotSt) : State :=
  let e := failEscapes (abortUp s i code up x) (stopped x code) up
  completeAt (sendNotice e.2 i (stopped x code) code x.flags e.1) (stopped x code) code x.flags e.1

theorem abortSlot_eq {s : State} {i : Nat} {x : SlotSt} (code : Nat) (up : Bool) (hx : getSlot s i = some x)
    (hok : x.okSent = false) (hst : slotState s i ≠ 4) : abortSlot s i code up = tryRelease (abortDown s i code up x) i := by
  have hgo : (x.okSent || slotState s i == 4) = false := by simp [hok, hst]
  simp only [abortSlot, hx, hgo, Bool.false_eq_true, if_false]
  rfl

theorem abortSlot_of_okSent {s : State} {i : Nat} {x : SlotSt} (code : Nat) (up : Bool) (hx : getSlot s i = some x)
    (hok : x.okSent = true) : abortSlot s i code up = s := by
  simp [abortSlot, hx, hok]

theorem stoppedUnder_abortStop (s : State) (i code : Nat) (x : SlotSt) : StoppedUnder (abortStop s i code x) i x.k code := by
  refine (forgetWaiting_keeps _ _ _ i x.k (by decide) (Keeps.refl _ _)).stoppedUnder ?_
  exact ⟨stopped x code, (getSlot_fset _ _ _ _ _ i).trans ((getSlot_setSlot _ i i _).trans (if_pos rfl)), rfl, rfl, rfl⟩

theorem stoppedUnder_abortDown (s : State) (i code : Nat) (up : Bool) (x : SlotSt) :
    StoppedUnder (abortDown s i code up x) i x.k code := by
  have hup : StoppedUnder (abortUp s i code up x) i x.k code := by
    unfold abortUp
    split
    · exact stoppedUnder_sendAbort (stoppedUnder_abortStop s i code x) _ _ _
    · exact stoppedUnder_abortStop s i code x
  unfold abortDown
  refine (completeAt_keeps _ _ _ _ _ _ _ (by decide) (Keeps.refl _ _)).stoppedUnder (stoppedUnder_sendAll ?_ _ _ _ _ _ _)
  exact (failEscapes_keeps _ _ _ _ _ (by decide) (Keeps.refl _ _)).stoppedUnder hup

/-- An abort empties its slot under the code, or releases it at once. -/
theorem abortSlot_slot {s : State} {i : Nat} {x : SlotSt} (code : Nat) (up : Bool) (hx : getSlot s i = some x)
    (hok : x.okSent = false) (hst : slotState s i ≠ 4) :
    getSlot (abortSlot s i code up) i = none ∨ StoppedUnder (abortSlot s i code up) i x.k code := by
  rw [abortSlot_eq code up hx hok hst]
  obtain h | ⟨y, h⟩ := tryRelease_cases (abortDown s i code up x) i
  · rw [h]
    exact .inr (stoppedUnder_abortDown s i code up x)
  · rw [h]
    exact .inl (getSlot_releaseSlot _ _ _)

theorem ctrAt_tryRelease (s : State) (i a : Nat) : ctrAt (tryRelease s i) a = ctrAt s a := by
  obtain h | ⟨x, h⟩ := tryRelease_cases s i
  · rw [h]
  · rw [h, (releaseSlot_keeps 0x2#64 s s i x (by decide) (Keeps.refl _ s)).ctrAt_eq a]

/-- An abort is counted once, and nothing that it sends or completes counts another (R141). -/
theorem ctrAt_abortSlot {a : Nat} (ha : AbortCounter a) {s : State} {i : Nat} {x : SlotSt} (code : Nat) (up : Bool)
    (hx : getSlot s i = some x) (hok : x.okSent = false) (hst : slotState s i ≠ 4) :
    ctrAt (abortSlot s i code up) a = ctrAt (ctrAdd s (pReduce (i % 8)) 9 1) a := by
  have hstop : ctrAt (abortStop s i code x) a = ctrAt (ctrAdd s (pReduce (i % 8)) 9 1) a :=
    (forgetWaiting_keeps 0x2#64 _ _ i x.k (by decide) (Keeps.refl _ _)).ctrAt_eq a
  have hup : ctrAt (abortUp s i code up x) a = ctrAt (abortStop s i code x) a := by
    unfold abortUp
    split
    · exact ctrAt_sendAbort ha _ _ _ _
    · rfl
  have hescapes : ctrAt (failEscapes (abortUp s i code up x) (stopped x code) up).2 a = ctrAt (abortUp s i code up x) a :=
    (failEscapes_keeps 0x2#64 _ _ _ _ (by decide) (Keeps.refl _ _)).ctrAt_eq a
  rw [abortSlot_eq code up hx hok hst, ctrAt_tryRelease, abortDown, ctrAt_completeAt ha, ctrAt_sendNotice ha, hescapes, hup, hstop]

theorem abortCounter_reduce (d : Nat) : AbortCounter (pReduce d + 0x800 + 8 * 9) := .inr ⟨d, rfl⟩
theorem abortCounter_rankXlat : AbortCounter (pRankXlat + 0x800 + 8 * 1) := .inl rfl

theorem ctrGet_abortSlot {s : State} {i : Nat} {x : SlotSt} (code : Nat) (up : Bool) (hx : getSlot s i = some x)
    (hok : x.okSent = false) (hst : slotState s i ≠ 4) :
    ctrGet (abortSlot s i code up) (pReduce (i % 8)) 9 = ctrGet s (pReduce (i % 8)) 9 + 1 := by
  rw [ctrGet_eq_ctrAt, ctrAt_abortSlot (abortCounter_reduce _) code up hx hok hst]
  exact ctrGet_ctrAdd_same s _ _ _

/-- A rank that is lost is counted once, and its collective ends under code 8 (R59). -/
theorem ctrGet_rankLost {s : State} {i : Nat} {x : SlotSt} (hx : getSlot s i = some x) (hok : x.okSent = false)
    (hst : slotState s i ≠ 4) : ctrGet (rankLost s i) pRankXlat 1 = ctrGet s pRankXlat 1 + 1 := by
  rw [rankLost, ctrGet_eq_ctrAt, ctrAt_abortSlot abortCounter_rankXlat (s := ctrAdd s pRankXlat 1 1) 8 true hx hok hst,
    ctrAt_ctrAdd_ne _ _ (by simp only [pRankXlat, pReduce]; omega)]
  exact ctrGet_ctrAdd_same s _ _ _

/-! ## The commands of a slot's life -/

theorem execLivenessExpiry_eq {s : State} {i : Nat} {x : SlotSt} (hx : getSlot s i = some x) (hset : x.settling = false)
    (hst : slotState s i ≠ 4) :
    exec (.livenessExpiry i) s = .next (setSlot (if x.okSent then s else forgetWaiting s i x.k) i
      (some { x with settling := true, chunks := if x.okSent then x.chunks else [] })) := by
  have hexec : exec (.livenessExpiry i) s = execLivenessExpiry i s := rfl
  have hgo : (x.settling || slotState s i == 4) = false := by simp [hset, hst]
  simp only [hexec, execLivenessExpiry, hx, hgo, Bool.false_eq_true, if_false]

theorem livenessExpiry_settles {s : State} {i : Nat} {x : SlotSt} (hx : getSlot s i = some x) (hset : x.settling = false)
    (hst : slotState s i ≠ 4) : Runs (.livenessExpiry i) s fun t =>
      ∃ y, getSlot t i = some y ∧ y.settling = true ∧ (x.okSent = false → y.chunks = []) ∧ t.regs = s.regs := by
  have hforget : (forgetWaiting s i x.k).regs = s.regs :=
    (forgetWaiting_keeps 0x1#64 s s i x.k (by decide) (Keeps.refl _ s)).same .registers (by decide)
  refine ⟨_, execLivenessExpiry_eq hx hset hst, _, (getSlot_setSlot _ _ _ _).trans (if_pos rfl), rfl, fun hok => ?_, ?_⟩
  · simp [hok]
  · split
    · rfl
    · exact hforget

theorem exec_settlingEnd (i : Nat) (s : State) : exec (.settlingEnd i) s = execSettlingEnd i s := rfl

theorem execRetentionFreed_eq {s : State} {i : Nat} {x : SlotSt} (c : Nat) (hx : getSlot s i = some x)
    (hst : slotState s i = 2 ∨ slotState s i = 3) :
    exec (.retentionFreed i c) s = .next (settle (rootOk (moveChunk s i x c) i) x.sub) := by
  have hexec : exec (.retentionFreed i c) s = execRetentionFreed i c s := rfl
  have hgo : (slotState s i == 2 || slotState s i == 3) = true := by simpa using hst
  simp only [hexec, execRetentionFreed, retentionFreed, hx, hgo, if_true]

theorem execSlotTake_eq {s : State} {i : Nat} {j : JobSt} {k : Nat} {hs : List Nat} (hj : getJob s (fget s (wSlot i) 15 8) = some j)
    (hhold : j.hold = k :: hs) (hst : slotState s i = 1) (hfree : getSlot s i = none)
    (hslot : slotOf s (fget s (wSlot i) 15 8) k = i) (hprog : inProgress s (descOf s (fget s (wSlot i) 15 8) k).engine < 64)
    (hround : k / slotQ s (fget s (wSlot i) 15 8) =
      Sparse.get (fun _ => 0) j.rounds (i - slotBase s (fget s (wSlot i) 15 8)))
    (hlower : lowerWaits s (fget s (wSlot i) 15 8) j k = false) :
    exec (.slotTake i) s = .next (settle (takeSlot s i (fget s (wSlot i) 15 8) k j) (fget s (wSlot i) 15 8)) := by
  have hexec : exec (.slotTake i) s = execSlotTake i s := rfl
  have hprog' := Nat.not_le.2 hprog
  simp [hexec, execSlotTake, hj, hhold, hst, hfree, hslot, hprog', hround, hlower]

/-- Settles O21: a packet by its lead; an abort through the chain of its sends, none of which touches the slot's code or the
counters of aborts; a release by the words it writes; and the commands by their equations. -/
theorem slotsFollowTheirGenerations : Obligations.SlotsFollowTheirGenerations := by
  unfold Obligations.SlotsFollowTheirGenerations
  intro s i
  refine ⟨fun n arrival j port k err h => ?_, fun n arrival j port k err h => byGeneration_held h n arrival j port err,
    fun code up x hx hok hst => ⟨abortSlot_slot code up hx hok hst, ctrGet_abortSlot code up hx hok hst⟩,
    fun code up x hx hok => abortSlot_of_okSent code up hx hok, fun x hx hok hst => ⟨?_, ctrGet_rankLost hx hok hst⟩,
    fun x => ⟨getSlot_releaseSlot s i x, slotState_releaseSlot s i x, slotGen_releaseSlot s i x⟩,
    fun x hx hset hst => livenessExpiry_settles hx hset hst, fun x hx hset => ⟨s, ?_, rfl⟩,
    fun x hx hset => ⟨fun hok => ⟨_, ?_, rfl⟩, fun hok => ⟨_, ?_, rfl⟩⟩,
    fun x c hx hst => ⟨_, execRetentionFreed_eq c hx hst, rfl⟩,
    fun j k hs hj hhold hst hfree hslot hprog hround hlower =>
      ⟨_, execSlotTake_eq hj hhold hst hfree hslot hprog hround hlower, rfl⟩⟩
  · rw [byGeneration_late h]
    exact ⟨rfl, ctrGet_ctrAdd_same s _ _ _⟩
  · obtain h | ⟨y, hy, hcode, -, -⟩ := abortSlot_slot (s := ctrAdd s pRankXlat 1 1) 8 true hx hok hst
    · exact .inl h
    · exact .inr ⟨y, hy, hcode⟩
  · simp [exec_settlingEnd, execSettlingEnd, hx, hset]
  · simp [exec_settlingEnd, execSettlingEnd, hx, hset, hok]
  · simp [exec_settlingEnd, execSettlingEnd, hx, hset, hok]

end Sys2Proof.Machine

/-! # The bytes of a packet (R47, R56 to R58, Table 3.2) -/

namespace Sys2Proof.Machine

open Sys2Proof

/-! ## Reading a packet back (R47) -/

theorem natOfLE_leBytes (n v : Nat) : natOfLE (leBytes n v) = v % 256 ^ n := by
  induction n generalizing v with
  | zero => simp [leBytes, natOfLE, Nat.mod_one]
  | succ n ih =>
    have hbyte : (BitVec.ofNat 8 v).toNat = v % 256 := BitVec.toNat_ofNat v 8
    rw [leBytes, natOfLE, ih, hbyte, pow_succ', Nat.mod_mul]

theorem natOfBE_beBytes (n v : Nat) : natOfBE (beBytes n v) = v % 256 ^ n := by
  rw [natOfBE, beBytes, List.reverse_reverse, natOfLE_leBytes]

/-- The `n` bytes of an `8 n`-bit word spell that word. -/
theorem ofNat_beBytes {w : Nat} (n : Nat) (x : BitVec w) (h : w = 8 * n) : BitVec.ofNat w (natOfBE (beBytes n x.toNat)) = x := by
  have hpow : 256 ^ n = 2 ^ w := by rw [h, pow_mul]; rfl
  apply BitVec.eq_of_toNat_eq
  rw [natOfBE_beBytes, hpow, BitVec.toNat_ofNat, Nat.mod_mod, Nat.mod_eq_of_lt x.isLt]

/-- Every field is cut from the place of the header word at which it was put. -/
theorem pktOfHeader_headerWord (p : Pkt) : pktOfHeader (headerWord p) p.payload p.trailer = p := by
  simp only [pktOfHeader, headerWord]
  congr
  case e_ver =>
    repeat rw [BitVec.extractLsb'_append_eq_of_le (by decide)]
    exact BitVec.extractLsb'_eq_self
  case e_dl | e_last | e_sealBit | e_ecn | e_flag0 =>
    simp only [BitVec.getLsbD_append]
    simp
  all_goals
    repeat rw [BitVec.extractLsb'_append_eq_of_le (by decide)]
    rw [BitVec.extractLsb'_append_eq_of_add_le (by decide)]
    exact BitVec.extractLsb'_eq_self

theorem encodePkt_length (p : Pkt) : (encodePkt p).length = 36 + p.payload.length := by
  simp only [encodePkt, List.length_append, beBytes_length]
  omega

theorem decodePkt_encodePkt (p : Pkt) : decodePkt (encodePkt p) = some p := by
  have hlen := encodePkt_length p
  have hheader : (encodePkt p).take 32 = beBytes 32 (headerWord p).toNat := List.take_left' (beBytes_length _ _)
  have hrest : (encodePkt p).drop 32 = p.payload ++ beBytes 4 p.trailer.toNat := List.drop_left' (beBytes_length _ _)
  have hpayload : ((encodePkt p).drop 32).take ((encodePkt p).length - 36) = p.payload := by
    rw [hrest]
    exact List.take_left' (by omega)
  have htrailer : (encodePkt p).drop ((encodePkt p).length - 4) = beBytes 4 p.trailer.toNat := by
    have hsplit : (encodePkt p).length - 4 = 32 + p.payload.length := by omega
    rw [hsplit, ← List.drop_drop, hrest]
    exact List.drop_left' rfl
  rw [decodePkt, if_neg (by omega), hheader, hpayload, htrailer, ofNat_beBytes 32 _ rfl, ofNat_beBytes 4 _ rfl,
    pktOfHeader_headerWord]

/-- Settles O39: header, payload and trailer are cut where they were joined, and each field from its place in the header. -/
theorem packetsReadBack : Obligations.PacketsReadBack := by
  unfold Obligations.PacketsReadBack
  exact fun p => ⟨decodePkt_encodePkt p, encodePkt_length p⟩

/-! ## What the checks cover (R56 to R58) -/

theorem leBytes_mod (n v : Nat) : leBytes n (v % 256 ^ n) = leBytes n v := by
  induction n generalizing v with
  | zero => rfl
  | succ n ih =>
    rw [leBytes, leBytes, ← ih (v / 256), pow_succ', Nat.mod_mul_right_div_self]
    congr 1
    apply BitVec.eq_of_toNat_eq
    simp

theorem leBytes_append (m n v : Nat) : leBytes (m + n) v = leBytes m v ++ leBytes n (v / 256 ^ m) := by
  induction m generalizing v with
  | zero => simp [leBytes]
  | succ m ih =>
    rw [Nat.succ_add, leBytes, ih, leBytes, List.cons_append, pow_succ', Nat.div_div_eq_div_mul]

/-- The first `n` of `n + m` bytes spell the number without its last `m` bytes. -/
theorem take_beBytes (n m v : Nat) : (beBytes (n + m) v).take n = beBytes n (v / 256 ^ m) := by
  rw [beBytes, Nat.add_comm, leBytes_append, List.reverse_append]
  exact List.take_left' (beBytes_length _ _)

/-- The last `m` of `n + m` bytes spell the number modulo their range. -/
theorem drop_beBytes (n m v : Nat) : (beBytes (n + m) v).drop n = beBytes m (v % 256 ^ m) := by
  rw [beBytes, Nat.add_comm, leBytes_append, List.reverse_append, beBytes, leBytes_mod]
  exact List.drop_left' (beBytes_length _ _)

/-- HCRC covers the 224 bits of bytes 0 to 27 and the 16 of bytes 30 and 31. -/
theorem hcrcBytes_eq (p : Pkt) : hcrcBytes p =
    beBytes 28 ((headerWord p).extractLsb' 32 224).toNat ++ beBytes 2 ((headerWord p).extractLsb' 0 16).toNat := by
  have hhigh : ((headerWord p).extractLsb' 32 224).toNat = (headerWord p).toNat / 256 ^ 4 := by
    have := (headerWord p).isLt
    rw [BitVec.extractLsb'_toNat, Nat.shiftRight_eq_div_pow]
    exact Nat.mod_eq_of_lt (by omega)
  have hlow : ((headerWord p).extractLsb' 0 16).toNat = (headerWord p).toNat % 256 ^ 2 := BitVec.extractLsb'_toNat 0 16 _
  rw [hcrcBytes, take_beBytes 28 4, drop_beBytes 30 2, hhigh, hlow]

/-- HCRC does not cover itself. -/
theorem hcrcBytes_hcrc (p : Pkt) (h : BitVec 16) : hcrcBytes { p with hcrc := h } = hcrcBytes p := by
  have hlow : ∀ q : Pkt, (headerWord q).extractLsb' 0 16 = q.aux := fun q => congrArg Pkt.aux (pktOfHeader_headerWord q)
  have hhigh : ∀ q : Pkt, (headerWord q).extractLsb' 32 224 = (headerWord { q with hcrc := 0 }).extractLsb' 32 224 := fun q => by
    simp only [headerWord]
    rw [BitVec.extractLsb'_append_eq_of_le (by decide), BitVec.extractLsb'_append_eq_of_le (by decide)]
    conv_rhs => rw [BitVec.extractLsb'_append_eq_of_le (by decide), BitVec.extractLsb'_append_eq_of_le (by decide)]
  rw [hcrcBytes_eq, hcrcBytes_eq, hlow, hlow, hhigh p, hhigh]

theorem hcrcOf_withHcrc (p : Pkt) : (withHcrc p).hcrc = hcrcOf (withHcrc p) :=
  congrArg (fun bs => BitVec.ofNat 16 (crc16 bs)) (hcrcBytes_hcrc p (hcrcOf p)).symm

/-- The trailer covers neither itself nor HCRC, and takes DL, ECN and HOPS as 0 (R57). -/
theorem trailerOf_mutable (p : Pkt) (dl ecn : Bool) (hops : BitVec 8) (h : BitVec 16) (t : Word) :
    trailerOf { p with dl := dl, ecn := ecn, hops := hops, hcrc := h, trailer := t } = trailerOf p := by
  rw [trailerOf, trailerOf]
  exact congrArg (fun bs => BitVec.ofNat 32 (crc32c (bs ++ p.payload)))
    (hcrcBytes_hcrc { p with dl := false, ecn := false, hops := 0 } h)

theorem trailerOk_sealPkt (p : Pkt) : trailerOk (sealPkt p) = true :=
  beq_iff_eq.2 (trailerOf_mutable p p.dl p.ecn p.hops (hcrcOf { p with trailer := trailerOf p }) (trailerOf p)).symm

theorem trailerOk_changed {p : Pkt} (h : trailerOk p = true) (dl ecn : Bool) (hops : BitVec 8) :
    trailerOk (withHcrc { p with dl := dl, ecn := ecn, hops := hops }) = true :=
  beq_iff_eq.2 ((beq_iff_eq.1 h).trans
    (trailerOf_mutable p dl ecn hops (hcrcOf { p with dl := dl, ecn := ecn, hops := hops }) p.trailer).symm)

/-- Settles O40: HCRC covers every byte of the header but its own, and the trailer none of the mutable fields. -/
theorem mutableFieldsSpareTheTrailer : Obligations.MutableFieldsSpareTheTrailer := by
  unfold Obligations.MutableFieldsSpareTheTrailer
  exact fun p dl ecn hops => ⟨trailerOk_sealPkt p, hcrcOf_withHcrc _, fun h => ⟨trailerOk_changed h dl ecn hops, hcrcOf_withHcrc _⟩⟩

end Sys2Proof.Machine

/-! # Streams (R65 to R68) -/

namespace Sys2Proof.Machine

open Sys2Proof

/-! ## The table of contexts -/

theorem Keeps.getStream_eq {s t : State} (h : Keeps 0x80000#64 s t) (c : Nat) : getStream t c = getStream s c := by
  have hstreams : t.streams = s.streams := h.same .streams (by decide)
  rw [getStream, hstreams, getStream]

@[simp] theorem getStream_setStream_same (s : State) (c : Nat) (x : Option Stream) : getStream (setStream s c x) c = x := by
  simp [getStream_setStream]

/-- A packet that the device originates is the packet of no context any more: it goes to the cells and the queues. -/
theorem getStream_originate (s : State) (die : Nat) (k : Pkt) (control : Bool) (sub : Option Nat) (c : Nat) :
    getStream (originate s die k control sub) c = getStream s c :=
  (originate_keeps 0x80000#64 s s die k control sub (by decide) (Keeps.refl _ s)).getStream_eq c

/-! ## Acceptance (R66) -/

theorem findUp_bounds {p : Nat → Bool} {fuel i j : Nat} (h : findUp p fuel i = some j) : i ≤ j ∧ j < i + fuel := by
  induction fuel generalizing i with
  | zero => cases h
  | succ fuel ih =>
    unfold findUp at h
    split at h
    · cases h
      omega
    · have := ih h
      omega

/-- What is a duplicate rests on CUM_SEQ and the numbers received above it. -/
theorem isDuplicate_congr {x y : Stream} (hcum : y.cum = x.cum) (hgot : y.got = x.got) (seq : Nat) :
    isDuplicate y seq = isDuplicate x seq := by
  simp only [isDuplicate, hcum, hgot]

/-- The place of SEQ above CUM_SEQ, modulo 2^24. -/
def seqAbove (x : Stream) (seq : Nat) : Nat := (seq + 2 ^ 24 - x.cum) % 2 ^ 24

/-- A number up to 4,194,304 below CUM_SEQ, or noted as received above it, is a duplicate. -/
theorem isDuplicate_iff (x : Stream) (seq : Nat) : isDuplicate x seq = true ↔
    2 ^ 24 - 4194304 ≤ seqAbove x seq ∨ seqAbove x seq < 4096 ∧ seqAbove x seq ∈ x.got := by
  simp only [isDuplicate, seqAbove, Bool.or_eq_true, Bool.and_eq_true, decide_eq_true_eq, List.contains_iff_mem]

/-- The packet at CUM_SEQ moves it on, past the numbers received after it. -/
theorem receiveSeq_zero (x : Stream) : ∃ n, 1 ≤ n ∧ n ≤ 4096 ∧ (receiveSeq x 0).cum = (x.cum + n) % 2 ^ 24 := by
  refine ⟨(findUp (fun i => !x.got.contains i) 4096 1).getD 1, ?_, ?_, rfl⟩
  all_goals
    cases hfind : findUp (fun i => !x.got.contains i) 4096 1 with
    | none => decide
    | some j =>
      have := findUp_bounds hfind
      rw [Option.getD_some]
      omega

/-- A packet above CUM_SEQ is noted there. -/
theorem receiveSeq_ne_zero (x : Stream) {d : Nat} (h : d ≠ 0) : receiveSeq x d = { x with got := x.got ++ [d] } :=
  if_neg (by simpa using h)

/-- A number received is a duplicate from then on. -/
theorem isDuplicate_receiveSeq {x : Stream} {seq : Nat} (hcum : x.cum < 16777216) (hseq : seq < 16777216)
    (hd : seqAbove x seq < 4096) : isDuplicate (receiveSeq x (seqAbove x seq)) seq = true := by
  rw [isDuplicate_iff]
  by_cases h0 : seqAbove x seq = 0
  · obtain ⟨n, hlo, hhi, hn⟩ := receiveSeq_zero x
    rw [h0]
    left
    simp only [seqAbove] at h0 ⊢
    rw [hn]
    omega
  · rw [receiveSeq_ne_zero x h0]
    exact .inr ⟨hd, List.mem_append_right _ (List.mem_singleton_self _)⟩

/-- A context tied to the pair of a packet, with the die and the class of its ACKs. -/
def tiedTo (x : Stream) (k : Pkt) (die : Nat) : Stream := { x with pair := some (k.src, k.stream), die := die, cls := k.cls }

/-- The pair, the die and the class play no part in what is received. -/
theorem receiveSeq_tiedTo (x : Stream) (k : Pkt) (die d : Nat) :
    (receiveSeq (tiedTo x k die) d).cum = (receiveSeq x d).cum ∧ (receiveSeq (tiedTo x k die) d).got = (receiveSeq x d).got ∧
      (receiveSeq (tiedTo x k die) d).pair = some (k.src, k.stream) := by
  unfold receiveSeq
  split <;> exact ⟨rfl, rfl, rfl⟩

/-- An ACK empties the context's counts and leaves its record of what was received (R67). -/
theorem getStream_sendAck {s : State} {c : Nat} {x : Stream} (hx : getStream s c = some x) (hp : x.pair ≠ none) :
    getStream (sendAck s c) c = some { x with sinceAck := 0, ecnSeen := 0 } := by
  obtain ⟨⟨src, st⟩, hpair⟩ := Option.ne_none_iff_exists'.1 hp
  simp only [sendAck, hx, hpair, getStream_originate, getStream_setStream_same]

theorem sendAck_slots (s : State) (c : Nat) : (sendAck s c).slots = s.slots :=
  (sendAck_keeps 0x800000#64 s s c (by decide) (Keeps.refl _ s)).same .slots (by decide)

/-- A packet more that waits for an ACK. -/
def oneMore (x : Stream) (k : Pkt) : Stream :=
  { x with sinceAck := x.sinceAck + 1, ecnSeen := Nat.min 255 (x.ecnSeen + b2n k.ecn) }

/-- A context has received a packet: an ACK goes out where it is due (R67). -/
def ackWhenDue (s : State) (c : Nat) (x : Stream) : State :=
  if ackCount (setStream s c (some x)) ≤ x.sinceAck then sendAck (setStream s c (some x)) c else setStream s c (some x)

theorem getStream_ackWhenDue (s : State) (c : Nat) {x : Stream} (hp : x.pair ≠ none) (k : Pkt) :
    ∃ y, getStream (ackWhenDue s c (oneMore x k)) c = some y ∧ y.cum = x.cum ∧ y.got = x.got := by
  unfold ackWhenDue
  split
  · exact ⟨_, getStream_sendAck (getStream_setStream_same _ _ _) hp, rfl, rfl⟩
  · exact ⟨_, getStream_setStream_same _ _ _, rfl, rfl⟩

theorem streamAccept_eq {s : State} {c : Nat} {x : Stream} (hx : getStream s c = some x) (k : Pkt) (die : Nat) :
    streamAccept s c k die =
      if x.pair.getD (k.src, k.stream) != (k.src, k.stream) then
        (setStream s c (some { x with outOfWindow := x.outOfWindow + 1 }), false)
      else if isDuplicate (tiedTo x k die) k.seq.toNat then
        (sendAck (setStream s c (some { tiedTo x k die with dup := x.dup + 1 })) c, false)
      else if 4096 ≤ seqAbove x k.seq.toNat then
        (setStream s c (some { tiedTo x k die with outOfWindow := x.outOfWindow + 1 }), false)
      else (ackWhenDue s c (oneMore (receiveSeq (tiedTo x k die) (seqAbove x k.seq.toNat)) k), true) := by
  rw [streamAccept, hx]
  rfl

/-- A packet is refused, or it is accepted: then it is no duplicate, lies within 4,096 of CUM_SEQ and is received in its
context. -/
theorem streamAccept_cases {s : State} {c : Nat} {x : Stream} (hx : getStream s c = some x) (k : Pkt) (die : Nat) :
    (streamAccept s c k die).2 = false ∨
      isDuplicate x k.seq.toNat = false ∧ seqAbove x k.seq.toNat < 4096 ∧
        ∃ y, getStream (streamAccept s c k die).1 c = some y ∧ y.cum = (receiveSeq x (seqAbove x k.seq.toNat)).cum ∧
          y.got = (receiveSeq x (seqAbove x k.seq.toNat)).got := by
  have hdup : isDuplicate (tiedTo x k die) k.seq.toNat = isDuplicate x k.seq.toNat := isDuplicate_congr rfl rfl _
  obtain ⟨hcum, hgot, hpair⟩ := receiveSeq_tiedTo x k die (seqAbove x k.seq.toNat)
  rw [streamAccept_eq hx, hdup]
  split
  · exact .inl rfl
  · split
    · exact .inl rfl
    · next hnew =>
      split
      · exact .inl rfl
      · next hnear =>
        have htied : (receiveSeq (tiedTo x k die) (seqAbove x k.seq.toNat)).pair ≠ none := by simp [hpair]
        obtain ⟨y, hy, hycum, hygot⟩ := getStream_ackWhenDue s c htied k
        exact .inr ⟨by simpa using hnew, Nat.not_le.1 hnear, y, hy, hycum.trans hcum, hygot.trans hgot⟩

theorem streamAccept_duplicate {s : State} {c : Nat} {x : Stream} (hx : getStream s c = some x) {k : Pkt} (die : Nat)
    (h : isDuplicate x k.seq.toNat = true) : (streamAccept s c k die).2 = false := by
  obtain hno | ⟨hnew, -⟩ := streamAccept_cases hx k die
  · exact hno
  · exact absurd h (by simp [hnew])

/-! ## Sending (R65) -/

theorem onStream_payload (s : State) (c : Nat) (x : Stream) (k : Pkt) : (onStream s c x k).payload = k.payload := rfl

theorem getStream_slotOwes (s : State) (c seq : Nat) (k : Pkt) (slot : Option (Nat × Nat)) (chunk : Option Nat) (c' : Nat) :
    getStream (slotOwes s c seq k slot chunk) c' = getStream s c' :=
  (slotOwes_keeps 0x80000#64 s s c seq k slot chunk (by decide) (Keeps.refl _ s)).getStream_eq c'

/-- The context after packet `u` of it has taken its number. -/
def afterNumbering (s : State) (c : Nat) (x : Stream) (u : Sent) : Stream :=
  { x with nextSeq := (x.nextSeq + 1) % 2 ^ 24,
           unacked := x.unacked ++ [{ u with seq := x.nextSeq, pkt := onStream s c x u.pkt, times := 1 }] }

theorem getStream_numberPacket (s : State) (c : Nat) (x : Stream) (u : Sent) :
    getStream (numberPacket s c x u).1 c = some (afterNumbering s c x u) := by
  rw [numberPacket, getStream_setStream_same, afterNumbering]

theorem inFlight_afterNumbering (s : State) (c : Nat) (x : Stream) (u : Sent) :
    inFlight (afterNumbering s c x u) = inFlight x + u.pkt.payload.length := by
  simp [inFlight, afterNumbering, onStream_payload]

theorem inFlight_le_of_windowOk {x : Stream} {k : Pkt} (h : windowOk x k = true) : inFlight x + k.payload.length ≤ x.effWindow := by
  simp only [windowOk, Bool.and_eq_true, decide_eq_true_eq] at h
  exact h.1

/-- A packet formed on a context takes its number where the window admits it and none waits before it. -/
theorem formPacket_sent {s : State} {c : Nat} {x : Stream} (hx : getStream s c = some x) {k : Pkt}
    (h : (x.waiting.isEmpty && windowOk x (onStream s c x k)) = true) (control : Bool) (slot : Option (Nat × Nat)) (chunk : Option Nat) :
    formPacket s c k control slot chunk =
      ((numberPacket s c x ⟨0, k, 0, [], slot, chunk, control⟩).1, some (onStream s c x k)) := by
  simp only [formPacket, hx, h, if_true]
  rfl

/-- Otherwise it waits, without a number (log 86). -/
theorem formPacket_waits {s : State} {c : Nat} {x : Stream} (hx : getStream s c = some x) {k : Pkt}
    (h : (x.waiting.isEmpty && windowOk x (onStream s c x k)) = false) (control : Bool) (slot : Option (Nat × Nat)) (chunk : Option Nat) :
    formPacket s c k control slot chunk =
      (setStream s c (some { x with waiting := x.waiting ++ [⟨0, k, 0, [], slot, chunk, control⟩] }), none) := by
  simp only [formPacket, hx, h, Bool.false_eq_true, if_false]

theorem onStream_seq (s : State) (c : Nat) (x : Stream) (k : Pkt) : (onStream s c x k).seq.toNat = x.nextSeq % 16777216 :=
  BitVec.toNat_ofNat x.nextSeq 24

/-! ## Acknowledgement and retransmission (R67, R68) -/

/-- A packet of a window after packet `seq` was sent again: that one is counted, the others count it as no loss any more. -/
def sentAgain (seq : Nat) (shown : Bool) (above : List Nat) (w : Sent) : Sent :=
  if w.seq == seq then { w with times := w.times + 1, later := if shown then (w.later ++ above).eraseDups else w.later }
  else { w with later := w.later.filter (· != seq) }

theorem sentAgain_seq (seq : Nat) (shown : Bool) (above : List Nat) (w : Sent) : (sentAgain seq shown above w).seq = w.seq := by
  unfold sentAgain
  split <;> rfl

theorem retransmit_of_none {s : State} {c seq : Nat} {x : Stream} (hx : getStream s c = some x)
    (hu : (x.unacked.find? fun u => u.seq == seq) = none) (shown : Bool) : retransmit s c seq shown = s := by
  simp only [retransmit, hx, hu]

/-- A packet is sent 64 times at most (R68). -/
theorem retransmit_of_spent {s : State} {c seq : Nat} {x : Stream} {u : Sent} (hx : getStream s c = some x)
    (hu : (x.unacked.find? fun u => u.seq == seq) = some u) (h : 64 ≤ u.times) (shown : Bool) : retransmit s c seq shown = s := by
  simp only [retransmit, hx, hu, h, if_true]

theorem getStream_retransmit {s : State} {c seq : Nat} {x : Stream} {u : Sent} (hx : getStream s c = some x)
    (hu : (x.unacked.find? fun u => u.seq == seq) = some u) (h : u.times < 64) (shown : Bool) :
    ∃ above, getStream (retransmit s c seq shown) c = some { x with unacked := x.unacked.map (sentAgain seq shown above) } := by
  have hlt : ¬64 ≤ u.times := by omega
  simp only [retransmit, hx, hu, hlt, if_false, getStream_originate, getStream_setStream_same]
  exact ⟨_, rfl⟩

/-- What the window of a context holds is not shown as received by an ACK, and its record of what was received is as before. -/
def Unshown (s : State) (c cum sack cumSeq : Nat) : Prop :=
  ∃ y, getStream s c = some y ∧ y.cum = cumSeq ∧ ∀ u ∈ y.unacked, ackShows cum sack u.seq = false

theorem Unshown.retransmit {s : State} {c cum sack cumSeq : Nat} (h : Unshown s c cum sack cumSeq) (seq : Nat) (shown : Bool) :
    Unshown (retransmit s c seq shown) c cum sack cumSeq := by
  obtain ⟨y, hy, hcum, hun⟩ := h
  cases hfind : y.unacked.find? fun u => u.seq == seq with
  | none =>
    rw [retransmit_of_none hy hfind]
    exact ⟨y, hy, hcum, hun⟩
  | some u =>
    by_cases htimes : 64 ≤ u.times
    · rw [retransmit_of_spent hy hfind htimes]
      exact ⟨y, hy, hcum, hun⟩
    · obtain ⟨above, hafter⟩ := getStream_retransmit hy hfind (Nat.not_le.1 htimes) shown
      refine ⟨_, hafter, hcum, fun w hw => ?_⟩
      obtain ⟨v, hv, rfl⟩ := List.mem_map.1 hw
      rw [sentAgain_seq]
      exact hun v hv

/-- An ACK releases what it shows as received; what it sends again stays in the window (R67, R68). -/
theorem takeAck_unshown (s : State) (c : Nat) {x : Stream} (hw : x.waiting = []) (k : Pkt) :
    Unshown (takeAck s c x k).1 c (beAt k.payload 0 3) (beAt k.payload 4 8) x.cum := by
  unfold takeAck
  dsimp only
  rw [hw, List.length_nil, drainWaiting]
  refine List.foldlRecOn _ _ (motive := fun t => Unshown t c (beAt k.payload 0 3) (beAt k.payload 4 8) x.cum) ?_
    fun t h u _ => h.retransmit u.seq true
  refine ⟨_, getStream_setStream_same _ _ _, rfl, fun u hu => ?_⟩
  obtain ⟨v, hv, rfl⟩ := List.mem_map.1 hu
  have hkept : ackShows (beAt k.payload 0 3) (beAt k.payload 4 8) v.seq = false := by
    simpa using (List.mem_filter.1 hv).2
  split
  · exact hkept
  · exact hkept

/-- Of a packet sent again the number and the bytes stay, and the window holds it at the same place. -/
theorem find?_sentAgain {l : List Sent} {seq : Nat} {u : Sent} (h : (l.find? fun w => w.seq == seq) = some u) (shown : Bool)
    (above : List Nat) : ((l.map (sentAgain seq shown above)).find? fun w => w.seq == seq) = some (sentAgain seq shown above u) := by
  rw [List.find?_map]
  have hseq : (fun w : Sent => w.seq == seq) ∘ sentAgain seq shown above = fun w => w.seq == seq :=
    funext fun w => by simp only [Function.comp, sentAgain_seq]
  rw [hseq, h, Option.map_some]

theorem exec_ackDelayExpiry {s : State} {c : Nat} {x : Stream} (hx : getStream s c = some x) :
    exec (.ackDelayExpiry c) s = .next (if x.sinceAck = 0 then s else sendAck s c) := by
  have hexec : exec (.ackDelayExpiry c) s = execAckDelayExpiry c s := rfl
  rw [hexec, execAckDelayExpiry, hx]
  simp only [beq_iff_eq]
  split <;> rfl

theorem exec_rtoExpiry (s : State) (c seq : Nat) : exec (.rtoExpiry c seq) s = .next (retransmit s c seq false) := rfl

/-- Settles O19: acceptance through what `receiveSeq` notes, sending through the window's test, and acknowledgement and
retransmission through what they leave of the window. -/
theorem streamsAcceptOnce : Obligations.StreamsAcceptOnce := by
  unfold Obligations.StreamsAcceptOnce
  intro s c x hx
  refine ⟨fun k die hcum hacc => ?_, fun k die hdup => streamAccept_duplicate hx die hdup,
    fun k control slot chunk hfl => ?_, fun k hw => takeAck_unshown s c hw k, fun h0 => ?_, fun h0 hp => ?_, fun seq u hu => ⟨fun ht => ?_, fun ht => ?_⟩⟩
  · obtain hno | ⟨-, hnear, y, hy, hycum, hygot⟩ := streamAccept_cases hx k die
    · exact absurd hacc (by simp [hno])
    exact ⟨y, hy, (isDuplicate_congr hycum hygot _).trans (isDuplicate_receiveSeq hcum k.seq.isLt hnear)⟩
  · cases hok : x.waiting.isEmpty && windowOk x (onStream s c x k) with
    | true =>
      have hwin := inFlight_le_of_windowOk (Bool.and_eq_true_iff.1 hok).2
      rw [onStream_payload] at hwin
      rw [formPacket_sent hx hok]
      refine ⟨_, getStream_numberPacket _ _ _ _, (inFlight_afterNumbering _ _ _ _).trans_le hwin, fun q hq => ?_, nofun⟩
      cases hq
      exact ⟨rfl, onStream_seq _ _ _ _⟩
    | false =>
      rw [formPacket_waits hx hok]
      exact ⟨_, getStream_setStream_same _ _ _, hfl, nofun, fun _ => ⟨rfl, rfl, List.length_append⟩⟩
  · exact ⟨s, by rw [exec_ackDelayExpiry hx, if_pos h0], rfl⟩
  · refine ⟨sendAck s c, by rw [exec_ackDelayExpiry hx, if_neg h0], _, getStream_sendAck hx hp, rfl, rfl, rfl, rfl, sendAck_slots s c⟩
  · exact ⟨s, by rw [exec_rtoExpiry, retransmit_of_spent hx hu ht], rfl⟩
  · obtain ⟨above, hafter⟩ := getStream_retransmit hx hu ht false
    have hself : (u.seq == seq) = true := List.find?_some (p := fun w : Sent => w.seq == seq) hu
    refine ⟨_, exec_rtoExpiry s c seq, _, _, hafter, find?_sentAgain hu false above, ?_, ?_, rfl⟩ <;> rw [sentAgain, if_pos hself]

end Sys2Proof.Machine

/-! # What the sending of packets leaves alone (R72, R75, R222 to R238)

Cells, queues and the scheduler are at work wherever a packet is stored, sent or dropped. Whatever they do, they count no packet as
sent, write none of the words below, re-stripe no link, and give a link without credits and frames neither. -/

namespace Sys2Proof.Machine

open Sys2Proof

/-! ## The relation -/

/-- A port with neither credits nor frames to replay: it can send nothing (R72). -/
def dark (x : PortSt) : Prop := x.credits = [] ∧ x.replay = []

/-- Two records of a port agree on its re-striping, and on whether it can send anything. -/
structure SameLink (x y : PortSt) : Prop where
  rx : y.stripingRx = x.stripingRx
  tx : y.stripingTx = x.stripingTx
  dark : dark y ↔ dark x

theorem SameLink.refl (x : PortSt) : SameLink x x := ⟨rfl, rfl, Iff.rfl⟩

theorem SameLink.trans {x y z : PortSt} (h : SameLink x y) (h' : SameLink y z) : SameLink x z :=
  ⟨h'.rx.trans h.rx, h'.tx.trans h.tx, h'.dark.trans h.dark⟩

/-- Credits, frames and re-striping are as they were. -/
theorem SameLink.of_eq {x y : PortSt} (hrx : y.stripingRx = x.stripingRx) (htx : y.stripingTx = x.stripingTx)
    (hcredits : y.credits = x.credits) (hreplay : y.replay = x.replay) : SameLink x y :=
  ⟨hrx, htx, by rw [Machine.dark, Machine.dark, hcredits, hreplay]⟩

/-- A word at offset 0x40 or 0x54 of a page of lane groups or above: LG_STATUS and the words of the leak auditor are such. -/
def SteadyWord (a : Nat) : Prop := 0x200000 ≤ a ∧ a < 0x1000000 ∧ (a % 4096 = 0x40 ∨ a % 4096 = 0x54)

/-- From `s` to `t` no port counts a packet as sent, and the steady words and the links are as they were. -/
structure Quiet (s t : State) : Prop where
  sent : ∀ p < 161, ctrGet t (pPort p) 1 = ctrGet s (pPort p) 1
  word : ∀ a, SteadyWord a → rd t a = rd s a
  link : ∀ q, SameLink (getPort s q) (getPort t q)

theorem Quiet.refl (s : State) : Quiet s s := ⟨fun _ _ => rfl, fun _ _ => rfl, fun _ => .refl _⟩

theorem Quiet.trans {s t u : State} (h : Quiet s t) (h' : Quiet t u) : Quiet s u :=
  ⟨fun p hp => (h'.sent p hp).trans (h.sent p hp), fun a ha => (h'.word a ha).trans (h.word a ha),
    fun q => (h.link q).trans (h'.link q)⟩

/-- Counters, registers and ports are as they were. -/
theorem Quiet.of_eq {s t : State} (hctrs : t.ctrs = s.ctrs) (hregs : t.regs = s.regs) (hports : t.ports = s.ports) : Quiet s t :=
  ⟨fun _ _ => ctrGet_congr hctrs _ _, fun _ _ => rd_congr hregs _, fun q => by rw [getPort, getPort, hports]; exact .refl _⟩

theorem Quiet.ite {s t u : State} {c : Prop} [Decidable c] (ht : c → Quiet s t) (hu : ¬c → Quiet s u) :
    Quiet s (if c then t else u) := by
  split
  · exact ht ‹_›
  · exact hu ‹_›

theorem Quiet.foldl_mem {α : Type} {f : State → α → State} {l : List α} (hf : ∀ t, ∀ x ∈ l, Quiet t (f t x)) (s : State) :
    Quiet s (l.foldl f s) := by
  induction l generalizing s with
  | nil => exact .refl s
  | cons x l ih =>
    exact (hf s x List.mem_cons_self).trans (ih (fun t y hy => hf t y (List.mem_cons_of_mem x hy)) _)

theorem Quiet.foldl {α : Type} {f : State → α → State} (hf : ∀ t x, Quiet t (f t x)) (l : List α) (s : State) :
    Quiet s (l.foldl f s) :=
  .foldl_mem (fun t x _ => hf t x) s

/-! ## The basic updates -/

theorem quiet_wr (s : State) {a : Nat} (w : Word) (h : ¬SteadyWord a) : Quiet s (wr s a w) :=
  ⟨fun _ _ => rfl, fun b hb => rd_wr_ne s a b w fun e => h (e ▸ hb), fun _ => .refl _⟩

/-- A word of a page at an offset that no steady word has. -/
theorem not_steadyWord {page off : Nat} (hpage : page % 4096 = 0) (hoff : off < 4096) (h40 : off ≠ 0x40) (h54 : off ≠ 0x54) :
    ¬SteadyWord (page + off) := by
  rintro ⟨-, -, h⟩
  omega

/-- A word of a page at another offset. -/
theorem quiet_wr_page (s : State) {page : Nat} (off : Nat) (w : Word) (hpage : page % 4096 = 0)
    (hoff : off < 4096 := by decide) (h40 : off ≠ 0x40 := by decide) (h54 : off ≠ 0x54 := by decide) : Quiet s (wr s (page + off) w) :=
  quiet_wr s w (not_steadyWord hpage hoff h40 h54)

theorem quiet_fset_page (s : State) {page : Nat} (off h l v : Nat) (hpage : page % 4096 = 0)
    (hoff : off < 4096 := by decide) (h40 : off ≠ 0x40 := by decide) (h54 : off ≠ 0x54 := by decide) :
    Quiet s (fset s (page + off) h l v) :=
  quiet_wr_page s off _ hpage hoff h40 h54

/-- A counter other than PORT_PKT_TX of a port. -/
theorem quiet_ctrAdd (s : State) {page i : Nat} (n : Nat) (h : ∀ p < 161, page + 0x800 + 8 * i ≠ pPort p + 0x800 + 8 * 1) :
    Quiet s (ctrAdd s page i n) :=
  ⟨fun p hp => ctrAt_ctrAdd_ne s n (h p hp).symm, fun _ _ => rfl, fun _ => .refl _⟩

theorem quiet_ctrAdd_port (s : State) (p n : Nat) {i : Nat} (hi : i < 256) (h1 : i ≠ 1) : Quiet s (ctrAdd s (pPort p) i n) :=
  quiet_ctrAdd s n fun q _ => by simp only [pPort]; omega

theorem quiet_ctrAdd_bufPool (s : State) (d i n : Nat) : Quiet s (ctrAdd s (pBufPool d) i n) :=
  quiet_ctrAdd s n fun q hq => by simp only [pPort, pBufPool]; omega

theorem quiet_modPort (s : State) (p : Nat) {f : PortSt → PortSt} (h : SameLink (getPort s p) (f (getPort s p))) :
    Quiet s (modPort s p f) :=
  ⟨fun _ _ => rfl, fun _ _ => rfl, fun q => by
    rw [modPort, getPort_setPort]
    split
    · next e => rw [e]; exact h
    · exact .refl _⟩

theorem quiet_emit (s : State) (o : Output) : Quiet s (emit s o) := .of_eq rfl rfl rfl
theorem quiet_setCell (s : State) (c : Nat) (x : Cell) : Quiet s (setCell s c x) := .of_eq rfl rfl rfl
theorem quiet_setQueue (s : State) (q : Nat) (x : List QEntry) : Quiet s (setQueue s q x) := .of_eq rfl rfl rfl
theorem quiet_setSession (s : State) (i : Nat) (x : Option Session) : Quiet s (setSession s i x) := .of_eq rfl rfl rfl
theorem quiet_deliver (s : State) (d : Delivery) : Quiet s (deliver s d) := .of_eq rfl rfl rfl
theorem quiet_atRest (s : State) : Quiet s (atRest s) := .of_eq rfl rfl rfl

theorem quiet_queueWord (s : State) (q : Nat) (w : Word) : Quiet s (wr s (wQueue q + 4) w) :=
  quiet_wr s w fun h => by
    have := h.2.1
    simp only [wQueue] at this
    omega

/-! ## Messages, reports and crossings -/

theorem quiet_sendMsg (s : State) (sid ty msgNum flags status : Nat) (body : List Byte) :
    Quiet s (sendMsg s sid ty msgNum flags status body) := by
  have hcount : ∀ t n, Quiet t (ctrAdd t pHostIf 1 n) := fun t n => quiet_ctrAdd t n fun p _ => by
    simp only [pPort, pHostIf]
    omega
  unfold sendMsg
  refine .ite (fun _ => .refl s) fun _ => ?_
  dsimp only
  refine .trans (.trans ?_ (hcount _ _)) (quiet_emit _ _)
  split
  · exact quiet_setSession _ _ _
  · exact .refl s

theorem quiet_sendPageEvent (s : State) (sid : Nat) (x : Session) (page : Nat) (v : Word) : Quiet s (sendPageEvent s sid x page v) :=
  Quiet.trans (t := setSession { s with evtSeq := (s.evtSeq + 1) % 2 ^ 32 } sid _) (.of_eq rfl rfl rfl) (quiet_sendMsg _ _ _ _ _ _ _)

theorem quiet_notifySession (s : State) (page sid : Nat) : Quiet s (notifySession s page sid) := by
  unfold notifySession
  split
  · exact .refl s
  · dsimp only
    exact .ite (fun _ => .refl s) fun _ => .ite (fun _ => quiet_setSession _ _ _) fun _ =>
      .ite (fun _ => quiet_sendPageEvent _ _ _ _ _) fun _ => quiet_setSession _ _ _

theorem quiet_raise (s : State) {page : Nat} (b : Nat) (hpage : page % 4096 = 0) : Quiet s (raise s page b) :=
  (quiet_wr_page s 0x10 _ hpage).trans (.foldl (fun t sid => quiet_notifySession t page sid) _ _)

theorem quiet_queueReport (s : State) (r : FaultRec) : Quiet s (queueReport s r) := .of_eq rfl rfl rfl

theorem quiet_report (s : State) (r : FaultRec) : Quiet s (report s r) := by
  unfold report
  split
  · next p hp => exact (quiet_fset_page s 0x18 7 0 r.kind.toNat (pageOfSource_mod hp)).trans (quiet_queueReport _ r)
  · exact quiet_queueReport s r

theorem quiet_completeUnit (s : State) (x : SwathSt) (u : Nat) : Quiet s (completeUnit s x u) := by
  refine .foldl_mem (fun t p hp => ?_) s
  dsimp only
  refine .trans ?_ (quiet_wr_page _ 0x24 _ (pagesOf_mod u p hp))
  exact .of_eq rfl rfl rfl

theorem quiet_swath (s : State) (x : Option SwathSt) : Quiet s { s with swath := x } := .of_eq rfl rfl rfl

theorem quiet_wr_swath (s : State) (off : Nat) (w : Word) (hoff : off < 4096) : Quiet s (wr s (pSwath + off) w) :=
  quiet_wr s w fun h => by
    have := h.1
    simp only [pSwath] at this
    omega

theorem quiet_endSwath (s : State) (st ev : Nat) : Quiet s (endSwath s st ev) := by
  unfold endSwath
  refine .trans ?_ (quiet_raise _ ev (by decide))
  refine .trans ?_ (quiet_swath _ none)
  exact ((quiet_wr_swath s 0x44 _ (by decide)).trans (quiet_wr_swath _ 0x50 _ (by decide))).trans
    (quiet_wr_swath _ 0x54 _ (by decide))

theorem quiet_takeMarker (s : State) (x : SwathSt) (u c : Nat) : Quiet s (takeMarker s x u c) := by
  have hleft : ∀ t y v, Quiet t (fset { t with swath := y } (pSwath + 0x44) 11 3 v) := fun t y v =>
    (quiet_swath t y).trans (quiet_wr_swath _ 0x44 _ (by decide))
  have hunit : ∀ (b : Bool) y, Quiet s (if b = true then s else completeUnit s y u) := fun b y =>
    .ite (fun _ => .refl s) fun _ => quiet_completeUnit s y u
  unfold takeMarker
  dsimp only
  split
  · exact ((hunit _ _).trans (hleft _ _ _)).trans (quiet_endSwath _ 2 8)
  · exact (hunit _ _).trans (hleft _ _ _)

theorem quiet_hop (s : State) (u v ch : Nat) : Quiet s (hop s u v ch) := by
  have hserve : ∀ t, Quiet t { serveCross t u v ch with hand := some (v, inChannel u v ch) } := fun t => by
    unfold serveCross
    dsimp only
    split <;> exact .of_eq rfl rfl rfl
  unfold hop
  dsimp only
  refine .trans ?_ (hserve _)
  split
  · exact .ite (fun _ => quiet_takeMarker _ _ _ _) fun _ => .refl s
  · exact .refl s

theorem quiet_cross (s : State) (d e ch : Nat) : Quiet s (cross s d e ch) :=
  Quiet.trans (t := { s with hand := none }) (.of_eq rfl rfl rfl) (.foldl (fun t _ => quiet_hop t _ _ ch) _ _)

/-! ## Cells -/

theorem quiet_poolWord (s : State) (c : Nat) (w : Word) : Quiet s (wr s (pBufPool (cellDie c) + 0x44 + 4 * cellPool c) w) :=
  quiet_wr s w fun h => by
    have hpool : cellPool c < 4 := Nat.mod_lt _ (by decide)
    have := h.2.2
    simp only [pBufPool] at this
    omega

theorem quiet_takeCell (s : State) (c refs : Nat) (ch : Charge) (acct : Option Nat) (ing : Option (Nat × Nat)) (credits : Nat) :
    Quiet s (takeCell s c refs ch acct ing credits) :=
  ((quiet_setCell s c _).trans (quiet_poolWord _ c _)).trans (quiet_ctrAdd_bufPool _ _ _ _)

/-- What a port grants and banks is no credit of its own. -/
theorem quiet_modPort_grants (s : State) (p : Nat) (f : PortSt → PortSt)
    (h : ∀ x, ∃ held granted banked next, f x = { x with held := held, granted := granted, banked := banked, bankNext := next }) :
    Quiet s (modPort s p f) := by
  obtain ⟨held, granted, banked, next, heq⟩ := h (getPort s p)
  exact quiet_modPort s p (by rw [heq]; exact .of_eq rfl rfl rfl rfl)

theorem quiet_unbank (n : Nat) (s : State) (p : Nat) : Quiet s (unbank n s p) := by
  induction n generalizing s with
  | zero => exact .refl s
  | succ n ih =>
    unfold unbank
    refine .ite (fun _ => .refl s) fun _ => ?_
    split
    · exact .refl s
    · exact ((quiet_modPort_grants s p _ fun _ => ⟨_, _, _, _, rfl⟩).trans (quiet_emit _ _)).trans (ih _)

theorem quiet_releaseDie (s : State) (d : Nat) : Quiet s (releaseDie s d) := .foldl (fun t p => quiet_unbank _ t p) _ s

theorem quiet_returnCredits (s : State) (p v k : Nat) : Quiet s (returnCredits s p v k) := by
  have hheld : ∀ t (f g : PortSt → List (Nat × Nat)), Quiet t (modPort t p fun x => { x with held := f x, granted := g x }) :=
    fun t f g => quiet_modPort_grants t p _ fun _ => ⟨_, _, _, _, rfl⟩
  have hgranted : ∀ t (f : PortSt → List (Nat × Nat)), Quiet t (modPort t p fun x => { x with granted := f x }) :=
    fun t f => quiet_modPort_grants t p _ fun _ => ⟨_, _, _, _, rfl⟩
  have hbanked : ∀ t (f : PortSt → List (Nat × Nat)), Quiet t (modPort t p fun x => { x with banked := f x }) :=
    fun t f => quiet_modPort_grants t p _ fun _ => ⟨_, _, _, _, rfl⟩
  unfold returnCredits
  dsimp only
  refine .trans (hheld s _ _) (.ite (fun _ => .refl _) fun _ => .ite (fun _ => ?_) fun _ => ?_)
  · exact ((hbanked _ _).trans (quiet_ctrAdd_bufPool _ _ 3 _)).trans (.ite (fun _ => .refl _) fun _ => quiet_emit _ _)
  · exact (hgranted _ _).trans (quiet_emit _ _)

theorem quiet_releaseCell (s : State) (c : Nat) : Quiet s (releaseCell s c) := by
  unfold releaseCell
  dsimp only
  refine .trans ?_ (quiet_releaseDie _ _)
  have hfreed : ∀ (b : Bool) x w, Quiet s (if b = true then setCell s c x else
      wr (setCell s c x) (pBufPool (cellDie c) + 0x44 + 4 * cellPool c) w) := fun b x w =>
    .ite (fun _ => quiet_setCell s c x) fun _ => (quiet_setCell s c x).trans (quiet_poolWord _ c w)
  split
  · exact (hfreed _ _ _).trans (quiet_returnCredits _ _ _ _)
  · exact hfreed _ _ _

theorem quiet_decCell (s : State) (c gen : Nat) : Quiet s (decCell s c gen) := by
  unfold decCell
  dsimp only
  exact .ite (fun _ => (quiet_ctrAdd_bufPool _ _ _ _).trans (quiet_report _ _)) fun _ =>
    .ite (fun _ => (quiet_releaseCell _ _).trans (quiet_ctrAdd_bufPool _ _ _ _)) fun _ => quiet_setCell _ _ _

/-! ## The scheduler -/

/-- What waking does for one queue and its node. -/
def wakeOne (x : PortSt) (e : Nat × Nat × Nat) : PortSt :=
  let x := if x.awake.contains e.2.2 then x else { x with queueStart := vcSet x.queueStart e.2.2 (vcGet x.vtimeNode e.1) }
  if x.awake.contains (nodeKey e.1) then x else { x with nodeStart := vcSet x.nodeStart e.1 x.vtime, awake := x.awake ++ [nodeKey e.1] }

/-- Waking changes the tags of the scheduler and nothing else of the port. -/
theorem foldl_wakeOne (el : List (Nat × Nat × Nat)) (x : PortSt) : ∃ nodes queues awake,
    el.foldl wakeOne x = { x with nodeStart := nodes, queueStart := queues, awake := awake } := by
  have hone : ∀ x e, ∃ nodes queues awake, wakeOne x e = { x with nodeStart := nodes, queueStart := queues, awake := awake } := by
    intro x e
    unfold wakeOne
    dsimp only
    split <;> split <;> exact ⟨_, _, _, rfl⟩
  induction el generalizing x with
  | nil => exact ⟨_, _, _, rfl⟩
  | cons e el ih =>
    obtain ⟨_, _, _, he⟩ := hone x e
    obtain ⟨nodes, queues, awake, heq⟩ := ih (wakeOne x e)
    exact ⟨nodes, queues, awake, by rw [List.foldl_cons, heq, he]⟩

theorem getPort_wakeAll (s : State) (p : Nat) (el : List (Nat × Nat × Nat)) : ∃ nodes queues awake,
    getPort (wakeAll s p el) p = { getPort s p with nodeStart := nodes, queueStart := queues, awake := awake } := by
  obtain ⟨nodes, queues, _, heq⟩ := foldl_wakeOne el (getPort s p)
  refine ⟨nodes, queues, ((el.map fun e => e.2.2) ++ el.map fun e => nodeKey e.1).eraseDups, ?_⟩
  rw [wakeAll, getPort_modPort_same]
  change ({ el.foldl wakeOne (getPort s p) with awake := _ } : PortSt) = _
  rw [heq]

theorem quiet_wakeAll (s : State) (p : Nat) (el : List (Nat × Nat × Nat)) : Quiet s (wakeAll s p el) := by
  obtain ⟨nodes, queues, awake, heq⟩ := getPort_wakeAll s p el
  rw [wakeAll, getPort_modPort_same] at heq
  exact quiet_modPort s p (by rw [heq]; exact .of_eq rfl rfl rfl rfl)

theorem quiet_settleAwake (s : State) (p : Nat) : Quiet s (settleAwake s p) := quiet_wakeAll s p _

theorem quiet_pickQueue (s : State) (p : Nat) : Quiet s (pickQueue s p).2 := by
  unfold pickQueue
  dsimp only
  split
  · exact quiet_wakeAll s p _
  · split
    · exact quiet_wakeAll s p _
    · split
      · exact quiet_wakeAll s p _
      · dsimp only
        exact (quiet_wakeAll s p _).trans (quiet_modPort _ p (.of_eq rfl rfl rfl rfl))

theorem creditsOf_pos (k : Pkt) : 0 < creditsOf k := by
  simp only [creditsOf, ceilDiv, sizeOf']
  omega

/-- A port without credits has no queue to pick (R247). -/
theorem eligibleOf_of_no_credits {s : State} {p : Nat} (h : (getPort s p).credits = []) : eligibleOf s p = [] := by
  refine List.filter_eq_nil_iff.2 fun e _ => ?_
  unfold queueEligible
  split
  · exact Bool.false_ne_true
  · next f _ _ =>
    have hshort : ¬creditsOf f.pkt ≤ vcGet (getPort s p).credits (vcOf f.pkt) := by
      rw [h]
      exact Nat.not_le.2 (creditsOf_pos f.pkt)
    simp [hshort]

theorem pickQueue_of_no_credits {s : State} {p : Nat} (h : (getPort s p).credits = []) : (pickQueue s p).1 = none := by
  simp [pickQueue, eligibleOf_of_no_credits h, pickLevel]

theorem quiet_setBucket (s : State) (p : Nat) (v : Int) : Quiet s (setBucket s p v) :=
  (quiet_wr s _ (not_steadyWord (by simp only [pSched]; omega) (by decide) (by decide) (by decide))).trans
    (quiet_modPort _ p (.of_eq rfl rfl rfl rfl))

/-- A port that is not dark sends: its frame waits for an acknowledgement, so it is not dark after it. -/
theorem quiet_keepFrame {s : State} {p : Nat} (h : ¬dark (getPort s p)) (k : Pkt) : Quiet s (keepFrame s p k) :=
  quiet_modPort s p ⟨rfl, rfl, iff_of_false (fun hd => by simpa using hd.2) h⟩

theorem replay_keepFrame (s : State) (p : Nat) (k : Pkt) : (getPort (keepFrame s p k) p).replay ≠ [] := by
  rw [keepFrame, getPort_modPort_same]
  simp

theorem quiet_startSend {s : State} {p : Nat} (h : ¬dark (getPort s p)) (q : Nat) (e : QEntry) : Quiet s (startSend s p q e) := by
  unfold startSend
  dsimp only
  refine .trans (.trans ?_ (quiet_settleAwake _ p)) (quiet_atRest _)
  have hbucket : ∀ v, Quiet s (if isTransit e.pkt then setBucket s p v else s) := fun v =>
    .ite (fun _ => quiet_setBucket s p v) fun _ => .refl s
  have hcross := (hbucket (bucketNow s p - 2048 * (sizeOf' e.pkt : Int))).trans (quiet_cross _ (cellDie e.cell) (dieOfPort p) chPacket)
  refine .trans (hcross.trans (quiet_keepFrame (fun hd => h ((hcross.link p).dark.1 hd)) e.pkt)) ?_
  exact quiet_modPort _ p ⟨rfl, rfl, iff_of_false (fun hd => replay_keepFrame _ _ _ hd.2) fun hd => replay_keepFrame _ _ _ hd.2⟩

theorem quiet_trailerFault (s : State) (p : Nat) : Quiet s (trailerFault s p) :=
  (quiet_ctrAdd_port s p _ (by decide) (by decide)).trans (quiet_report _ _)

theorem quiet_pumpFuel (n : Nat) (s : State) (p : Nat) : Quiet s (pumpFuel n s p) := by
  induction n generalizing s with
  | zero => exact .refl s
  | succ n ih =>
    have hawake := quiet_settleAwake s p
    have hpick := quiet_pickQueue (settleAwake s p) p
    have hnone := pickQueue_of_no_credits (s := settleAwake s p) (p := p)
    unfold pumpFuel
    dsimp only
    refine .ite (fun _ => hawake) fun _ => ?_
    split
    · next t ht =>
      rw [ht] at hpick
      exact hawake.trans hpick
    · next q t ht =>
      rw [ht] at hpick hnone
      have hbright : ¬dark (getPort t p) := fun hd => nomatch hnone ((hpick.link p).dark.1 hd).1
      split
      · exact hawake.trans hpick
      · next e rest _ =>
        have htaken : Quiet s (storedSub (setQueue t q rest) q (sizeOf' e.pkt)) :=
          (hawake.trans hpick).trans ((quiet_setQueue t q rest).trans (quiet_queueWord _ q _))
        have hsend : ¬dark (getPort (storedSub (setQueue t q rest) q (sizeOf' e.pkt)) p) := hbright
        refine .ite (fun _ => hawake) fun _ => .ite (fun _ => htaken.trans (quiet_startSend hsend q e)) fun _ => ?_
        exact ((htaken.trans (quiet_trailerFault _ p)).trans (quiet_decCell _ _ _)).trans (ih _)

theorem quiet_pump (s : State) (p : Nat) : Quiet s (pump s p) := quiet_pumpFuel _ s p

/-! ## Packets stored -/

theorem quiet_markEcn (s : State) (p : Nat) (k : Pkt) : Quiet s (markEcn s p k).2 := by
  unfold markEcn
  split
  · exact .refl s
  · exact quiet_ctrAdd_port s p _ (by decide) (by decide)

theorem quiet_enqueue (s : State) (p c gen : Nat) (k : Pkt) (ing : Option Nat) : Quiet s (enqueue s p c gen k ing) := by
  have hcross := quiet_cross s (cellDie c) (dieOfPort p) chPacket
  unfold enqueue
  dsimp only
  refine .trans (.trans (.trans (.trans ?_ (quiet_ctrAdd_port _ p 1 (i := 14) (by decide) (by decide))) (quiet_atRest _))
    ((quiet_setQueue _ _ _).trans (quiet_queueWord _ _ _))) (quiet_pump _ p)
  split
  · exact hcross.trans (quiet_markEcn _ _ _)
  · exact hcross

theorem quiet_origStore (s : State) (w : OrigWait) : Quiet s (origStore s w) := by
  unfold origStore
  dsimp only
  split
  · exact .refl s
  · exact .trans (quiet_takeCell _ _ _ _ _ _ _) (.ite (fun _ => quiet_deliver _ _) fun _ => .foldl (fun t _ => quiet_enqueue t _ _ _ _ _) _ _)

theorem quiet_serveOrig (n : Nat) (s : State) : Quiet s (serveOrig n s) := by
  induction n generalizing s with
  | zero => exact .refl s
  | succ n ih =>
    unfold serveOrig
    split
    · exact .refl s
    · refine .trans (.trans ?_ (quiet_origStore _ _)) (ih _)
      exact .of_eq rfl rfl rfl

theorem quiet_serveWaiters (s : State) : Quiet s (serveWaiters s) := quiet_serveOrig _ s

end Sys2Proof.Machine

/-! # A transmitter that may not start (R72, R247)

While a port may not start a packet the scheduler only wakes its queues: it changes their tags and nothing else. -/

namespace Sys2Proof.Machine

open Sys2Proof

theorem pump_of_not_mayStart {s : State} {p : Nat} (h : mayStart s p = false) : pump s p = settleAwake s p := by
  simp [pump, pumpFuel, h]

/-- Whether a packet may start rests on three words and on what the transmitter does. -/
theorem mayStart_congr {s t : State} {p : Nat} (hstate : rd t (pPort p + 0x44) = rd s (pPort p + 0x44))
    (hblock : rd t (pPort p + 0x0C) = rd s (pPort p + 0x0C)) (hfallow : rd t (pFlt + 0x44) = rd s (pFlt + 0x44))
    (hstriping : (getPort t p).stripingTx = (getPort s p).stripingTx) (hsending : (getPort t p).sending = (getPort s p).sending) :
    mayStart t p = mayStart s p := by
  simp only [mayStart, admitted, pState, fallow, fget, bit, hstate, hblock, hfallow, hstriping, hsending]

/-- Writes of the pages above PORT leave it alone. -/
theorem mayStart_of_low_words {s t : State} {p : Nat} (hp : p < 161) (hlow : ∀ a < 0x400000, rd t a = rd s a)
    (hstriping : (getPort t p).stripingTx = (getPort s p).stripingTx) (hsending : (getPort t p).sending = (getPort s p).sending) :
    mayStart t p = mayStart s p :=
  mayStart_congr (hlow _ (by simp only [pPort]; omega)) (hlow _ (by simp only [pPort]; omega)) (hlow _ (by decide)) hstriping hsending

theorem getPort_settleAwake (s : State) (p : Nat) : ∃ nodes queues awake,
    getPort (settleAwake s p) p = { getPort s p with nodeStart := nodes, queueStart := queues, awake := awake } :=
  getPort_wakeAll s p _

theorem mayStart_settleAwake (s : State) (p : Nat) : mayStart (settleAwake s p) p = mayStart s p := by
  obtain ⟨_, _, _, heq⟩ := getPort_settleAwake s p
  exact mayStart_congr rfl rfl rfl (by rw [heq]) (by rw [heq])

end Sys2Proof.Machine

/-! # Writes of the block pages (R312, Table 20.8) -/

namespace Sys2Proof.Machine

open Sys2Proof

/-- Two rows of the catalogue have no address in common. -/
theorem pageKinds_apart {a b : PageKind} (ha : a ∈ pageKinds) (hb : b ∈ pageKinds) (hne : a ≠ b) :
    a.base + 0x1000 * a.count ≤ b.base ∨ b.base + 0x1000 * b.count ≤ a.base := by
  have hsorted : pageKinds.Pairwise fun a b => a.base + 0x1000 * a.count ≤ b.base := by decide
  have hsymm : Std.Symm fun a b : PageKind => a.base + 0x1000 * a.count ≤ b.base ∨ b.base + 0x1000 * b.count ≤ a.base :=
    ⟨fun _ _ h => h.symm⟩
  exact (hsorted.imp (S := fun a b => a.base + 0x1000 * a.count ≤ b.base ∨ b.base + 0x1000 * b.count ≤ a.base) Or.inl).forall
    ha hb hne

/-- An address within a row of the catalogue lies on a page of that row. -/
theorem pageOf_of_mem {k : PageKind} {addr : Nat} (hk : k ∈ pageKinds) (hle : k.base ≤ addr) (hlt : addr < k.base + 0x1000 * k.count) :
    pageOf addr = some (k, 0x1000 * (addr / 0x1000)) := by
  have hfind : pageKinds.find? (fun k => k.base ≤ addr && addr < k.base + 0x1000 * k.count) = some k := by
    cases hk' : pageKinds.find? (fun k => k.base ≤ addr && addr < k.base + 0x1000 * k.count) with
    | none => simpa [hle, hlt] using List.find?_eq_none.1 hk' k hk
    | some k' =>
      have hin := List.find?_some hk'
      simp only [Bool.and_eq_true, decide_eq_true_eq] at hin
      by_contra hne
      have := pageKinds_apart (List.mem_of_find?_eq_some hk') hk fun e => hne (by rw [e])
      omega
  simp only [pageOf, hfind]

/-- The rows of the gates and of the buffer pools. -/
def gateKind : PageKind := ⟨0x24, 0x500000, 161, false, true, 0⟩
def poolKind : PageKind := ⟨0x28, 0x800000, 8, false, false, 8⟩

theorem pageOf_gate {p off : Nat} (hp : p < 161) (h : off < 0x1000) : pageOf (pGate p + off) = some (gateKind, pGate p) := by
  have hdiv : 0x1000 * ((pGate p + off) / 0x1000) = pGate p := by simp only [pGate]; omega
  rw [pageOf_of_mem (k := gateKind) (by decide) (by simp only [pGate, gateKind]; omega) (by simp only [pGate, gateKind]; omega), hdiv]

theorem pageOf_pool {d off : Nat} (hd : d < 8) (h : off < 0x1000) : pageOf (pBufPool d + off) = some (poolKind, pBufPool d) := by
  have hdiv : 0x1000 * ((pBufPool d + off) / 0x1000) = pBufPool d := by simp only [pBufPool]; omega
  rw [pageOf_of_mem (k := poolKind) (by decide) (by simp only [pBufPool, poolKind]; omega)
    (by simp only [pBufPool, poolKind]; omega), hdiv]

section Page

variable {k : PageKind} {page off : Nat}

theorem changeOf_page (s : State) (v m : Word) (hpage : pageOf (page + off) = some (k, page)) (hport : k.ty ≠ 0x20) :
    (changeOf s (page + off) v m).home = page + off ∧ (changeOf s (page + off) v m).old = rd s (page + off) ∧
      (changeOf s (page + off) v m).new = mergeWord (page + off) (rd s (page + off)) v m := by
  have hhome : homeOf (page + off) = page + off := by simp [homeOf, hpage, hport]
  refine ⟨hhome, ?_, ?_⟩ <;> simp [changeOf, hhome]

/-- A write of a block page other than PORT and SCHED, outside the common header: its record, the word, and what the page does. -/
theorem acceptWrite_page (s : State) (who : Requester) (kat : Option Bool) (v m : Word)
    (hpage : pageOf (page + off) = some (k, page)) (hport : k.ty ≠ 0x20) (hsched : k.ty ≠ 0x23) (h40 : 0x40 ≤ off) :
    acceptWrite s who kat (page + off) v m =
      blockActs (wr (recordWrite s who (page + off) v m (changeOf s (page + off) v m) 0) (page + off)
        (mergeWord (page + off) (rd s (page + off)) v m)) who kat k page off (rd s (page + off))
        (mergeWord (page + off) (rd s (page + off)) v m) v m := by
  obtain ⟨hhome, hold, hnew⟩ := changeOf_page s v m hpage hport
  have hoff : page + off - page = off := Nat.add_sub_cancel_left ..
  have hlt : ¬off < 0x40 := by omega
  have hsettle : ∀ t, settleBefore t (page + off) = t := fun t => by simp [settleBefore, hpage, hsched]
  simp only [acceptWrite, hpage, hoff, hlt, if_false, hhome, hold, hnew, hsettle]

/-- An accepted write passes the test of its page. -/
theorem blockRefused_of_accepts {s : State} {who : Requester} {v m : Word} (h : Accepts s who (page + off) v m)
    (hpage : pageOf (page + off) = some (k, page)) (hport : k.ty ≠ 0x20) (h40 : 0x40 ≤ off) :
    blockRefused s who k page off (rd s (page + off)) (mergeWord (page + off) (rd s (page + off)) v m) v m = false := by
  obtain ⟨-, hstatus, htouched⟩ := h
  obtain ⟨-, hold, hnew⟩ := changeOf_page s v m hpage hport
  have hrules : rulesRefuse s who (page + off) (changeOf s (page + off) v m) v m =
      blockRefused s who k page off (rd s (page + off)) (mergeWord (page + off) (rd s (page + off)) v m) v m := by
    have hoff : page + off - page = off := Nat.add_sub_cancel_left ..
    have hlt : ¬off < 0x40 := by omega
    simp only [rulesRefuse, hpage, hoff, hlt, if_false, hold, hnew]
  have hempty : (touched (page + off) m).isEmpty = false := List.isEmpty_eq_false_iff.2 htouched
  rw [← hrules]
  by_contra hrefused
  rw [Bool.not_eq_false] at hrefused
  simp only [writeStatus, hrefused, hempty, Bool.not_false, Bool.and_self, Bool.or_true, if_true] at hstatus
  split at hstatus <;> (try split at hstatus) <;> (try split at hstatus) <;> omega

end Page

end Sys2Proof.Machine

/-! # The switch core (R47 to R60, R222 to R255) -/

namespace Sys2Proof.Machine

open Sys2Proof

/-! ## A packet received -/

/-- A packet that arrives whole on a port of a live device that is enabled. -/
structure Arrives (s : State) (p : Nat) : Prop where
  live : live s = true
  notHeld : s.faults.held = false
  enabled : portEn s p = true

theorem receivePacket_of_not_admitted {s : State} {p : Nat} (bs : List Byte) (h : Arrives s p) (hadm : admitted s p = false) :
    receivePacket s p bs false = ctrAdd s (pPort p) 15 1 := by
  obtain ⟨hlive, hheld, hen⟩ := h
  rw [portEn] at hen
  simp [receivePacket, heldNow, hlive, hheld, hen, hadm]

theorem receivePacket_of_formatDrop {s : State} {p i : Nat} {bs : List Byte} {k : Pkt} (h : Arrives s p) (hadm : admitted s p = true)
    (hk : decodePkt bs = some k) (hdrop : formatDrop bs k = some i) : receivePacket s p bs false = ctrAdd s (pPort p) i 1 := by
  obtain ⟨hlive, hheld, hen⟩ := h
  rw [portEn] at hen
  simp [receivePacket, heldNow, hlive, hheld, hen, hadm, hk, hdrop]

theorem receivePacket_of_addressDrop {s : State} {p i : Nat} {bs : List Byte} {k : Pkt} (h : Arrives s p) (hadm : admitted s p = true)
    (hk : decodePkt bs = some k) (hformat : formatDrop bs k = none) (hctrl : k.ty ≠ tCtrl) (htime : k.ty ≠ tTime)
    (hdrop : addressDrop s p k = some i) : receivePacket s p bs false = ctrAdd s (pPort p) i 1 := by
  obtain ⟨hlive, hheld, hen⟩ := h
  rw [portEn] at hen
  simp [receivePacket, heldNow, hlive, hheld, hen, hadm, hk, hformat, hctrl, htime, hdrop]

theorem receivePacket_of_accepted {s : State} {p : Nat} {bs : List Byte} {k : Pkt} (h : Arrives s p) (hadm : admitted s p = true)
    (hk : decodePkt bs = some k) (hformat : formatDrop bs k = none) (hctrl : k.ty ≠ tCtrl) (htime : k.ty ≠ tTime)
    (haddress : addressDrop s p k = none) : receivePacket s p bs false = meterAndStore s p k := by
  obtain ⟨hlive, hheld, hen⟩ := h
  rw [portEn] at hen
  simp [receivePacket, heldNow, hlive, hheld, hen, hadm, hk, hformat, hctrl, htime, haddress]

/-- What a discarded packet leaves: one more of its counter, and no cell taken. -/
theorem runs_packetRx_of_dropped {s : State} {p i : Nat} {bs : List Byte} (h : receivePacket s p bs false = ctrAdd s (pPort p) i 1) :
    Runs (.packetRx p bs false) s fun t => ctrGet t (pPort p) i = ctrGet s (pPort p) i + 1 ∧ t.cells = s.cells :=
  ⟨_, rfl, by rw [h]; exact ctrGet_ctrAdd_same .., by rw [h]; rfl⟩

theorem formatDrop_of_hcrc {bs : List Byte} {k : Pkt} (h : k.hcrc ≠ hcrcOf k) : formatDrop bs k = some 4 := by
  simp [formatDrop, h]

theorem formatDrop_of_ver {bs : List Byte} {k : Pkt} (hcrc : k.hcrc = hcrcOf k) (hlen : k.len.toNat ≤ 4096)
    (hbytes : bs.length = 36 + k.len.toNat) (hver : k.ver ≠ 1) : formatDrop bs k = some 6 := by
  rw [formatDrop, if_neg (by simp [hcrc]), if_neg (by simp [hlen, hbytes]), if_pos (by rw [bne_iff_ne.2 hver, Bool.true_or])]

theorem addressDrop_of_hops {s : State} {p : Nat} {k : Pkt} (haddr : addrOk s k.dst = true) (hclass : classOk k = true)
    (hconfined : confined s k p = true) (hhops : 48 ≤ k.hops.toNat) : addressDrop s p k = some 7 := by
  simp [addressDrop, haddr, hclass, hconfined, hhops]

/-! ## A packet for the switch itself -/

theorem meterAndStore_of_ack {s : State} {p : Nat} {k : Pkt} (hack : k.ty = tAck) (hhere : chooseEgress s k (some p) = .here) :
    meterAndStore s p k = storePacket s p k .here := by
  simp [meterAndStore, hack, hhere]

theorem getDeliv_deliver (s : State) (d : Delivery) : getDeliv (deliver s d) s.nextHandle = some d := by
  rw [deliver, getDeliv_setDeliv, if_pos rfl]

theorem getCell_ctrAdd (s : State) (page i n c : Nat) : getCell (ctrAdd s page i n) c = getCell s c := rfl

theorem getCell_takeCell (s : State) (c refs : Nat) (ch : Charge) (acct : Option Nat) (ing : Option (Nat × Nat)) (credits : Nat) :
    (getCell (takeCell s c refs ch acct ing credits) c).allocated = true := by
  simp [takeCell, getCell, fset, wr, ctrAdd, setCell, Sparse.get_set]

/-- A packet whose trailer holds, stored for the switch itself: the first free cell is taken, and the packet delivered in it. -/
theorem storePacket_here {s : State} {p c : Nat} {k : Pkt} (hfree : freeCell s (dieOfPort p) (poolOf (sizeOf' k)) = some c)
    (htrailer : trailerOk k = true) : ∃ t d, storePacket s p k .here = deliver t d ∧ t.nextHandle = s.nextHandle ∧ d.pkt = k ∧
      d.cell = c ∧ (getCell t c).allocated = true := by
  simp only [storePacket, hfree, htrailer, if_true]
  refine ⟨_, _, rfl, ?_, rfl, rfl, ?_⟩
  · split <;> rfl
  · split <;> simp only [getCell_ctrAdd, getCell_takeCell]

/-! ## Packets that wait for a cell, and packets sent -/

/-- A packet of the switch's own that waited, without a port to leave by: it is delivered to the switch. -/
theorem origStore_here {s : State} {w : OrigWait} (hfree : (freeCell s w.die (poolOf (sizeOf' w.pkt))).isSome = true)
    (hhere : w.targets = []) : ∃ d, getDeliv (origStore s w) s.nextHandle = some d ∧ d.pkt = w.pkt ∧
      (origStore s w).origWait = s.origWait := by
  obtain ⟨c, hc⟩ := Option.isSome_iff_exists.1 hfree
  simp only [origStore, hc, hhere, List.isEmpty_nil, if_true]
  exact ⟨_, getDeliv_deliver _ _, rfl, rfl⟩

/-- The send that ends is counted once; what the freed cell lets start counts none. -/
theorem ctrGet_packetTxDone {s : State} {p q : Nat} {e : QEntry} (hp : p < 161) (hsending : (getPort s p).sending = some (e, q))
    (hcut : e.cutThrough = false) : ctrGet (serveWaiters (sendDone s p)) (pPort p) 1 = ctrGet s (pPort p) 1 + 1 := by
  have hdone : sendDone s p =
      pump (decCell (ctrAdd (modPort s p fun x => { x with sending := none }) (pPort p) 1 1) e.cell e.gen) p := by
    simp [sendDone, hsending, hcut]
  have hquiet := ((quiet_decCell (ctrAdd (modPort s p fun x => { x with sending := none }) (pPort p) 1 1) e.cell e.gen).trans
    (quiet_pump _ p)).trans (quiet_serveWaiters _)
  rw [hdone, hquiet.sent p hp]
  exact ctrGet_ctrAdd_same _ _ _ _

/-! ## The leak auditor (R240) -/

theorem quiet_markCell (s : State) (c : Nat) : Quiet s (markCell s c) := quiet_setCell s c _

theorem quiet_auditCell (s : State) (c : Nat) : Quiet s (auditCell s c) := by
  unfold auditCell
  dsimp only
  refine .ite (fun _ => .refl s) fun _ => .ite (fun _ => quiet_setCell s c _) fun _ => .ite (fun _ => quiet_setCell s c _) fun _ => ?_
  exact (((quiet_ctrAdd_bufPool s _ 6 1).trans (quiet_report _ _)).trans (quiet_releaseCell _ c)).trans (quiet_setCell _ c _)

/-- A pass over the cells of a die counts itself in BP_LEAK and is otherwise the auditor's own work. -/
theorem fget_leakAuditPass {die : Nat} (s : State) (hd : die < 8) : Runs (.leakAuditPass die) s fun t =>
    fget t (pBufPool die + 0x54) 31 16 = (fget s (pBufPool die + 0x54) 31 16 + 1) % 65536 := by
  have hsteady : SteadyWord (pBufPool die + 0x54) := by
    simp only [SteadyWord, pBufPool]
    omega
  refine ⟨_, rfl, ?_⟩
  generalize (s.cells.map (·.1)).filter (fun c => cellDie c == die) = cs
  have hquiet := ((Quiet.foldl quiet_markCell cs s).trans (Quiet.foldl quiet_auditCell cs _)).trans (quiet_serveWaiters _)
  have hword := hquiet.word _ hsteady
  generalize serveWaiters (cs.foldl auditCell (cs.foldl markCell s)) = t at hword
  have hpasses : fget t (pBufPool die + 0x54) 31 16 = fget s (pBufPool die + 0x54) 31 16 := by rw [fget, hword, fget]
  rw [fget_fset_apart _ _ _ _ _ _ _ (by decide) (by decide) (by decide), fget_fset_same _ _ _ _ _ (by decide) (by decide), hpasses]
  omega

/-! ## Gates and the bucket (R223, R255 to R257) -/

theorem getGate_setGate (s : State) (p : Nat) (g : GateSt) : getGate (setGate s p g) p = g :=
  (Sparse.get_set _ _ _ _ _).trans (if_pos rfl)

theorem getGate_settleAwake (s : State) (p q : Nat) : getGate (settleAwake s p) q = getGate s q := rfl

theorem runs_gateEntryBoundary {s : State} {p : Nat} (hquiet : mayStart s p = false) (hlen : (getGate s p).len ≠ 0)
    (hresync : (getGate s p).resync = none) : Runs (.gateEntryBoundary p) s fun t =>
      (getGate t p).entry = ((getGate s p).entry + 1) % (getGate s p).len ∧ (getGate t p).since = gateEnd s p := by
  have hend : gateEnd (settleAwake s p) p = gateEnd s p := rfl
  have hexec : ∃ g, exec (.gateEntryBoundary p) s = .next (pump (setGate (settleAwake s p) p g) p) ∧
      g.entry = ((getGate s p).entry + 1) % (getGate s p).len ∧ g.since = gateEnd s p := by
    refine ⟨{ getGate s p with entry := ((getGate s p).entry + 1) % (getGate s p).len, since := gateEnd s p }, ?_, rfl, rfl⟩
    change execGateEntryBoundary p s = _
    simp [execGateEntryBoundary, hlen, hresync, hend]
  obtain ⟨g, hexec, hg⟩ := hexec
  refine ⟨_, hexec, ?_⟩
  dsimp only
  rwa [pump_of_not_mayStart (s := setGate (settleAwake s p) p g) ((mayStart_settleAwake s p).trans hquiet), getGate_settleAwake,
    getGate_setGate]

/-- The list that waited is in force, from its first entry (R256). -/
def listStarted (g : GateSt) : GateSt :=
  { g with len := g.waitLen, entry := 0, since := g.startAt, base := g.waitBase, resync := none }

theorem runs_gateListStart {s : State} {p : Nat} (hp : p < 161) (hquiet : mayStart s p = false) (hwaits : bit s (pGate p + 0x40) 29 = true) :
    Runs (.gateListStart p) s fun t =>
      bit t (pGate p + 0x40) 29 = false ∧ (getGate t p).entry = 0 ∧ (getGate t p).len = (getGate s p).waitLen ∧
      (getGate t p).since = (getGate s p).startAt := by
  have hexec : ∃ cyc g, exec (.gateListStart p) s = .next (pump (setGate (wr (fset (setBit (settleAwake s p) (pGate p + 0x40) 29 false)
      (pGate p + 0x40) 28 28 (1 - operBank s p)) (pGate p + 0x4C) cyc) p g) p) ∧
      g.entry = 0 ∧ g.len = (getGate s p).waitLen ∧ g.since = (getGate s p).startAt := by
    refine ⟨BitVec.ofNat 32 (waitingList s p (getGate s p).waitLen).sum, listStarted (getGate s p), ?_, rfl, rfl, rfl⟩
    change execGateListStart p s = _
    rw [execGateListStart]
    simp only [hwaits, Bool.not_true, Bool.false_eq_true, if_false]
    rfl
  obtain ⟨cyc, g, hexec, hg⟩ := hexec
  have hstart := mayStart_settleAwake s p
  generalize settleAwake s p = t at hexec hstart
  refine ⟨_, hexec, ?_⟩
  have hother : ∀ a, a ≠ pGate p + 0x40 → a ≠ pGate p + 0x4C → rd (wr (fset (setBit t (pGate p + 0x40) 29 false)
      (pGate p + 0x40) 28 28 (1 - operBank s p)) (pGate p + 0x4C) cyc) a = rd t a := fun a h40 h4C => by
    rw [rd_wr_ne _ _ _ _ h4C, rd_fset_ne _ _ _ _ _ _ h40]
    exact rd_fset_ne _ _ _ _ _ _ h40
  have hbit : bit (wr (fset (setBit t (pGate p + 0x40) 29 false) (pGate p + 0x40) 28 28 (1 - operBank s p)) (pGate p + 0x4C) cyc)
      (pGate p + 0x40) 29 = false := by
    rw [bit, rd_wr_ne _ _ _ _ (by omega)]
    exact (bit_fset _ _ _ _ _ _ _ (by decide) (by decide)).trans ((if_neg (by omega)).trans (bit_setBit_same _ _ _ _ (by decide)))
  have hports : (wr (fset (setBit t (pGate p + 0x40) 29 false) (pGate p + 0x40) 28 28 (1 - operBank s p))
      (pGate p + 0x4C) cyc).ports = t.ports := rfl
  generalize wr (fset (setBit t (pGate p + 0x40) 29 false) (pGate p + 0x40) 28 28 (1 - operBank s p)) (pGate p + 0x4C) cyc = u
    at hexec hother hbit hports
  have hport : getPort u p = getPort t p := by rw [getPort, hports, getPort]
  have hu : mayStart (setGate u p g) p = false :=
    (mayStart_of_low_words (t := u) hp (fun a ha => hother a (by simp only [pGate]; omega) (by simp only [pGate]; omega))
      (by rw [hport]) (by rw [hport])).trans (hstart.trans hquiet)
  dsimp only
  rw [pump_of_not_mayStart hu, getGate_settleAwake, getGate_setGate]
  exact ⟨hbit, hg⟩

theorem runs_transitBucketRecover {s : State} {p : Nat} (hp : p < 161) (hquiet : mayStart s p = false) :
    Runs (.transitBucketRecover p) s fun t => (getPort t p).bucketAt = s.uptime := by
  refine ⟨_, rfl, ?_⟩
  have hlow : ∀ a < 0x400000, rd (setBucket s p (bucketNow s p)) a = rd s a := fun a ha =>
    rd_wr_ne _ _ _ _ (by simp only [pSched]; omega)
  have hport : getPort (setBucket s p (bucketNow s p)) p =
      { getPort s p with bucketFrac := (bucketNow s p % 2048).toNat, bucketAt := s.uptime } := getPort_modPort_same _ _ _
  rw [pump_of_not_mayStart ((mayStart_of_low_words hp hlow (by rw [hport]) (by rw [hport])).trans hquiet)]
  obtain ⟨_, _, _, heq⟩ := getPort_settleAwake (setBucket s p (bucketNow s p)) p
  dsimp only
  rw [heq, hport]

/-! ## A change of the gate list (R256, R257) -/

theorem mergeWord_gateChange {p : Nat} (hp : p < 161) (old : Word) :
    mergeWord (pGate p + 0x40) old 0x40000000 0x40000000 = old := by
  have hfields : fieldsAt (pGate p + 0x40) = [fldI 31 31, actI 30 30, fldI 8 0] := by
    simp only [fieldsAt, pageOf_gate hp (by decide : 0x40 < 0x1000), Nat.add_sub_cancel_left]
    rfl
  have hrw : accMask [fldI 31 31, actI 30 30, fldI 8 0] (fun a => a == .rw || a == .rwl) &&& 0x40000000 = 0#32 := by decide
  have hclear : accMask [fldI 31 31, actI 30 30, fldI 8 0] (· == .w1c) = 0#32 := by decide
  have hrank : ¬(wRank ≤ pGate p + 0x40 && pGate p + 0x40 < wRank + 524288) = true := by
    simp only [Bool.and_eq_true, decide_eq_true_eq]
    simp only [wRank, pGate]
    omega
  simp only [mergeWord, hfields, if_neg hrank, hrw, hclear, BitVec.and_zero, BitVec.zero_and, BitVec.not_zero, BitVec.or_zero,
    BitVec.and_allOnes]

/-- The cycle of a list that passes the test of a change is not empty. -/
theorem sum_waitingList_pos {s : State} {p len : Nat} (h : gateChangeRefused s p len = false) : 0 < (waitingList s p len).sum := by
  simp only [gateChangeRefused, Bool.or_eq_false_iff, beq_eq_false_iff_ne, List.any_eq_false] at h
  obtain ⟨⟨⟨⟨-, hlen⟩, -⟩, hshort⟩, -⟩ := h
  have hmem : (rd s (wGate p (1 - operBank s p) 0 + 4)).toNat ∈ waitingList s p len :=
    List.mem_map.2 ⟨0, List.mem_range.2 (by omega), rfl⟩
  have hlong := hshort _ hmem
  simp only [Bool.or_eq_true, decide_eq_true_eq] at hlong
  exact Nat.lt_of_lt_of_le (by omega) (List.le_sum_of_mem hmem)

/-- The new list starts at a boundary of its cycle, no sooner than 10 microseconds from now. -/
theorem gateNow_le_startAt {s : State} {p : Nat} (hcycle : 0 < (waitingList s p (fget s (pGate p + 0x40) 8 0)).sum) :
    gateNow s p + 10000 ≤ (getGate (gateChangeNow s p) p).startAt := by
  rw [gateChangeNow, getGate_setGate]
  dsimp only
  split
  · assumption
  · generalize (waitingList s p (fget s (pGate p + 0x40) 8 0)).sum = cyc at hcycle
    have := Nat.lt_mul_div_succ (gateNow s p + 10000 - rdPair s (pGate p + 0x44) + cyc - 1) hcycle
    rw [ceilDiv, Nat.mul_comm]
    rw [Nat.mul_add_one] at this
    omega
theorem blockActs_gateChange (s : State) (who : Requester) (kat : Option Bool) {p : Nat} (old new v m : Word)
    (h : (woVal v m 30 30 == 1) = true) :
    blockActs s who kat gateKind (pGate p) 0x40 old new v m = pump (gateChangeNow s p) p := by
  have hinst : gateKind.inst (pGate p) = p := by
    simp only [PageKind.inst, gateKind, pGate]
    omega
  change pump (if woVal v m 30 30 == 1 then gateChangeNow s (gateKind.inst (pGate p)) else s) (gateKind.inst (pGate p)) = _
  rw [hinst, if_pos h]

/-- The state in which an accepted change is made: its record is kept, and no register differs. -/
def gateChangeRecorded (s : State) (who : Requester) (p : Nat) : State :=
  wr (recordWrite s who (pGate p + 0x40) 0x40000000 0x40000000 (changeOf s (pGate p + 0x40) 0x40000000 0x40000000) 0)
    (pGate p + 0x40) (rd s (pGate p + 0x40))

theorem rd_gateChangeRecorded (s : State) (who : Requester) (p a : Nat) : rd (gateChangeRecorded s who p) a = rd s a := by
  rw [gateChangeRecorded, rd_wr]
  split
  · next h => rw [h]
  · exact rd_congr (recordWrite_regs ..) a

theorem gateNow_gateChangeRecorded (s : State) (who : Requester) (p : Nat) :
    gateNow (gateChangeRecorded s who p) p = gateNow s p := by
  rw [gateChangeRecorded, recordWrite_frame]
  rfl

theorem getPort_gateChangeRecorded (s : State) (who : Requester) (p : Nat) :
    getPort (gateChangeRecorded s who p) p = getPort s p := by
  rw [gateChangeRecorded, recordWrite_frame]
  rfl

theorem exec_gateChange {who : Requester} {p : Nat} {s : State} (hp : p < 161)
    (h : Accepts s who (pGate p + 0x40) 0x40000000 0x40000000) :
    exec (.gateChange who p) s = .next (pump (gateChangeNow (gateChangeRecorded s who p) p) p) := by
  have hexec : exec (.gateChange who p) s = .next (commandWrite who none (pGate p + 0x40) 0x40000000 0x40000000 s) := by
    change writeIf (decide (p ≤ 160)) who (pGate p + 0x40) 0x40000000 0x40000000 s = _
    rw [writeIf, if_pos (decide_eq_true (by omega))]
  rw [hexec, commandWrite_of_accepts h, acceptWrite_page s who none _ _ (pageOf_gate hp (by decide)) (by decide) (by decide)
    (by decide), mergeWord_gateChange hp, blockActs_gateChange _ _ _ _ _ _ _ (by decide), gateChangeRecorded]

theorem gateChange_passes {who : Requester} {p : Nat} {s : State} (hp : p < 161)
    (h : Accepts s who (pGate p + 0x40) 0x40000000 0x40000000) : gateChangeRefused s p (fget s (pGate p + 0x40) 8 0) = false := by
  have hpasses := blockRefused_of_accepts h (pageOf_gate hp (by decide)) (by decide) (by decide)
  have hinst : gateKind.inst (pGate p) = p := by
    simp only [PageKind.inst, gateKind, pGate]
    omega
  rw [mergeWord_gateChange hp] at hpasses
  have hgate : ∀ old new v m, (woVal v m 30 30 == 1) = true →
      blockRefused s who gateKind (pGate p) 0x40 old new v m = gateChangeRefused s p (bitsOf new 8 0) := fun old new v m hchange => by
    change (woVal v m 30 30 == 1 && gateChangeRefused s (gateKind.inst (pGate p)) (bitsOf new 8 0)) = _
    rw [hinst, hchange, Bool.true_and]
  rwa [hgate _ _ _ _ (by decide)] at hpasses

theorem waitingList_congr {s t : State} (h : ∀ a, rd t a = rd s a) (p len : Nat) : waitingList t p len = waitingList s p len := by
  simp only [waitingList, operBank, fget, h]

theorem rd_settleAwake (s : State) (p a : Nat) : rd (settleAwake s p) a = rd s a := rfl

theorem rd_setGate (s : State) (p a : Nat) (g : GateSt) : rd (setGate s p g) a = rd s a := rfl

theorem rd_gateChangeNow (s : State) (p a : Nat) : rd (gateChangeNow s p) a = rd (setBit s (pGate p + 0x40) 29 true) a := by
  rw [gateChangeNow, rd_setGate]

theorem getPort_gateChangeNow (s : State) (p : Nat) : getPort (gateChangeNow s p) p = getPort s p := rfl

/-- A change whose list passes its test waits, and starts no sooner than 10 microseconds from now. -/
theorem runs_gateChange {who : Requester} {p : Nat} {s : State} (hp : p < 161)
    (h : Accepts s who (pGate p + 0x40) 0x40000000 0x40000000) (hquiet : mayStart s p = false) : Runs (.gateChange who p) s fun t =>
      bit t (pGate p + 0x40) 29 = true ∧ gateNow s p + 10000 ≤ (getGate t p).startAt := by
  have hregs := rd_gateChangeRecorded s who p
  have hcycle := sum_waitingList_pos (gateChange_passes hp h)
  have hnow := gateNow_gateChangeRecorded s who p
  have hport := getPort_gateChangeRecorded s who p
  refine ⟨_, exec_gateChange hp h, ?_⟩
  dsimp only
  generalize gateChangeRecorded s who p = u at hregs hnow hport
  have hlow : ∀ a < 0x400000, rd (gateChangeNow u p) a = rd s a := fun a ha =>
    (rd_gateChangeNow u p a).trans ((rd_fset_ne _ _ _ _ _ _ (by simp only [pGate]; omega)).trans (hregs a))
  have hstill : mayStart (gateChangeNow u p) p = false :=
    (mayStart_of_low_words hp hlow (by rw [getPort_gateChangeNow, hport]) (by rw [getPort_gateChangeNow, hport])).trans hquiet
  rw [pump_of_not_mayStart hstill, getGate_settleAwake, bit, rd_settleAwake, rd_gateChangeNow, ← hnow]
  refine ⟨bit_setBit_same u (pGate p + 0x40) 29 true (by decide), ?_⟩
  refine gateNow_le_startAt ?_
  rwa [waitingList_congr hregs, fget, hregs]

/-! ## BP_CFG (R236) -/

theorem rd_showPools (s : State) (d : Nat) {a : Nat} (h : ∀ n < 4, a ≠ pBufPool d + 0x44 + 4 * n) : rd (showPools s d) a = rd s a := by
  simp only [showPools, forUp]
  rw [rd_fset_ne _ _ _ _ _ _ (h 3 (by decide)), rd_fset_ne _ _ _ _ _ _ (h 2 (by decide)), rd_fset_ne _ _ _ _ _ _ (h 1 (by decide)),
    rd_fset_ne _ _ _ _ _ _ (h 0 (by decide))]

/-- An accepted write of BP_CFG leaves the merged word: the pools' counts that follow it are other words. -/
theorem runs_bpCfgWrite {who : Requester} {die : Nat} {v m : Word} {s : State} (hd : die < 8)
    (h : Accepts s who (pBufPool die + 0x40) v m) : Runs (.bpCfgWrite who die v m) s fun t =>
      rd t (pBufPool die + 0x40) = mergeWord (pBufPool die + 0x40) (rd s (pBufPool die + 0x40)) v m := by
  have hexec : exec (.bpCfgWrite who die v m) s = .next (commandWrite who none (pBufPool die + 0x40) v m s) := by
    change writeIf (decide (die < 8)) who (pBufPool die + 0x40) v m s = _
    rw [writeIf, if_pos (decide_eq_true hd)]
  refine ⟨_, hexec, ?_⟩
  rw [commandWrite_of_accepts h, acceptWrite_page s who none v m (pageOf_pool hd (by decide)) (by decide) (by decide) (by decide)]
  change rd (showPools _ (poolKind.inst (pBufPool die))) _ = _
  have hinst : poolKind.inst (pBufPool die) = die := by
    simp only [PageKind.inst, poolKind, pBufPool]
    omega
  rw [hinst, rd_showPools _ _ fun n _ => by omega]
  exact rd_wr_same _ _ _

/-! ## The core as a whole -/

/-- Settles O17: each discard and each send is one counter, a delivery is the cell taken for it, and while nothing may start the
scheduler only wakes its queues. -/
theorem switchCoreTakesPackets : Obligations.SwitchCoreTakesPackets := by
  unfold Obligations.SwitchCoreTakesPackets
  intro s p hp
  refine ⟨fun bs hlive hheld hen => ?_, fun e q hsending hcut => ?_, fun die pool w hfind htargets => ?_,
    fun die hd => fget_leakAuditPass s hd, fun hquiet => ?_, fun who h hquiet => runs_gateChange hp h hquiet,
    fun who die v m hd h => runs_bpCfgWrite hd h⟩
  · have harrives : Arrives s p := ⟨hlive, hheld, hen⟩
    refine ⟨fun hadm => runs_packetRx_of_dropped (receivePacket_of_not_admitted bs harrives hadm), fun hadm k hk => ⟨?_, ?_, ?_, ?_⟩⟩
    · exact fun hcrc => runs_packetRx_of_dropped (receivePacket_of_formatDrop harrives hadm hk (formatDrop_of_hcrc hcrc))
    · exact fun hcrc hlen hbytes hver => runs_packetRx_of_dropped
        (receivePacket_of_formatDrop harrives hadm hk (formatDrop_of_ver hcrc hlen hbytes hver))
    · exact fun hformat hctrl htime haddr hclass hconfined hhops => runs_packetRx_of_dropped
        (receivePacket_of_addressDrop harrives hadm hk hformat hctrl htime (addressDrop_of_hops haddr hclass hconfined hhops))
    · intro hformat hack haddress hhere htrailer c hfree
      obtain ⟨t, d, hstore, hhandle, hpkt, hcell, halloc⟩ := storePacket_here hfree htrailer
      have haccepted := receivePacket_of_accepted harrives hadm hk hformat (by rw [hack]; decide) (by rw [hack]; decide) haddress
      refine ⟨_, rfl, d, ?_, hpkt, hcell, ?_⟩
      · rw [haccepted, meterAndStore_of_ack hack hhere, hstore, ← hhandle, getDeliv_deliver]
      · rw [haccepted, meterAndStore_of_ack hack hhere, hstore]
        exact halloc
  · exact ⟨_, rfl, ctrGet_packetTxDone hp hsending hcut⟩
  · have hmem := List.mem_of_find?_eq_some hfind
    have hready := List.find?_some hfind
    simp only [origReady, Bool.and_eq_true] at hready
    obtain ⟨-, -, hfree⟩ := hready
    obtain ⟨d, hdeliv, hpkt, hwait⟩ := origStore_here (s := { s with origWait := s.origWait.erase w }) hfree htargets
    have hexec : exec (.origCellWaitEnd die pool) s = .next (origStore { s with origWait := s.origWait.erase w } w) := by
      change execOrigCellWaitEnd die pool s = _
      rw [execOrigCellWaitEnd, hfind]
    refine ⟨_, hexec, ?_, d, hdeliv, hpkt⟩
    have hpos := List.length_pos_of_mem hmem
    rw [hwait, List.length_erase_of_mem hmem]
    omega
  · exact ⟨fun hlen hresync => runs_gateEntryBoundary hquiet hlen hresync, fun hwaits => runs_gateListStart hp hquiet hwaits,
      runs_transitBucketRecover hp hquiet⟩

end Sys2Proof.Machine

/-! # The fall of a link (R71, R72, R75)

A link that falls gives up its credits and its frames; what follows, the closing of its stitch and the start of the next training,
gives it neither back, and no step of it writes the status of its lanes. -/

namespace Sys2Proof.Machine

open Sys2Proof

/-! ## What a fall does besides -/

theorem quiet_wr_width (s : State) (p : Nat) (w : Word) : Quiet s (wr s (wAddr p) w) :=
  quiet_wr_page s 0x60 w (by simp only [pPort]; omega)

theorem quiet_settleBucket (s : State) (p : Nat) : Quiet s (settleBucket s p) := quiet_setBucket s p _

theorem quiet_storedSub (s : State) (q n : Nat) : Quiet s (storedSub s q n) := quiet_queueWord s q _

theorem quiet_dropQueues (s : State) (p : Nat) : Quiet s (dropQueues s p) := by
  unfold dropQueues
  dsimp only
  refine .trans ?_ (.foldl (fun t q => ?_) _ _)
  · split
    · exact (quiet_modPort s p (.of_eq rfl rfl rfl rfl)).trans (quiet_decCell _ _ _)
    · exact .refl s
  · exact ((quiet_setQueue t _ _).trans (quiet_storedSub _ _ _)).trans (.foldl (fun u e => quiet_decCell u _ _) _ _)

theorem quiet_forgetHeld (s : State) (p : Nat) : Quiet s (forgetHeld s p) := by
  unfold forgetHeld
  dsimp only
  refine .trans (.foldl (fun t e => ?_) s.cells s) (quiet_modPort_grants _ p _ fun _ => ⟨_, _, _, _, rfl⟩)
  split
  · exact .ite (fun _ => quiet_setCell t _ _) fun _ => .refl t
  · exact .refl t

theorem quiet_forgetTime (s : State) (p : Nat) : Quiet s (forgetTime s p) := .of_eq rfl rfl rfl

/-! ## The fall -/

/-- What a fall leaves of a port (R72). -/
def fallen (x : PortSt) : PortSt :=
  { x with credits := [], initial := [], replay := [], txLsn := 0, rxLsn := 0, rxDiscard := false, replayFails := 0,
           lastRetry := none, stripingRx := false, stripingTx := false, signal := [], halfReq := false, halfTried := false,
           identGot := false, identAcked := false, widenedRx := none, widenedTx := none }

/-- A fall is quiet but for the port, which it leaves dark. -/
theorem linkDown_eq (s : State) (p : Nat) : ∃ t, Quiet s t ∧ Quiet (modPort t p fallen) (linkDown s p) := by
  refine ⟨forgetHeld (if committed s p == 0 then dropQueues (settleBucket s p) p
    else ctrAdd (dropQueues (settleBucket s p) p) (pPort p) 10 (committed s p)) p, ?_, ?_⟩
  · have hdropped := (quiet_settleBucket s p).trans (quiet_dropQueues _ p)
    refine .trans (.ite (fun _ => hdropped) fun _ => ?_) (quiet_forgetHeld _ p)
    exact hdropped.trans (quiet_ctrAdd_port _ p _ (by decide) (by decide))
  · exact ((quiet_forgetTime _ p).trans (quiet_wr_width _ p _)).trans (quiet_serveWaiters _)

theorem dark_linkDown (s : State) (p : Nat) : dark (getPort (linkDown s p) p) := by
  obtain ⟨t, -, hafter⟩ := linkDown_eq s p
  refine (hafter.link p).dark.2 ?_
  rw [getPort_modPort_same]
  exact ⟨rfl, rfl⟩

theorem rd_linkDown (s : State) (p : Nat) {a : Nat} (ha : SteadyWord a) : rd (linkDown s p) a = rd s a := by
  obtain ⟨t, hbefore, hafter⟩ := linkDown_eq s p
  exact (hafter.word a ha).trans (hbefore.word a ha)

/-! ## What follows a fall -/

theorem quiet_closeForPort (s : State) (p cause : Nat) (preventable : Bool) : Quiet s (closeForPort s p cause preventable) := by
  have hpage : ∀ n, pStitch n % 4096 = 0 := fun n => by
    simp only [pStitch]
    omega
  have hstate : ∀ t n v, Quiet t (fset (setSt t n v) (pStitch n + 0x44) 23 16 cause) := fun t n v =>
    (quiet_fset_page t 0x44 2 0 v (hpage n)).trans (quiet_fset_page _ 0x44 23 16 cause (hpage n))
  have hclose : ∀ n, Quiet s (closeStitch s n cause) := fun n => by
    unfold closeStitch
    dsimp only
    refine .ite (fun _ => ?_) fun _ => .ite (fun _ => hstate s n 0) fun _ => .refl s
    refine (hstate s n 4).trans (.trans ?_ (quiet_ctrAdd _ 1 fun q hq => ?_))
    · exact .of_eq rfl rfl rfl
    · simp only [pStitch, pPort]
      omega
  unfold closeForPort
  exact .ite (fun _ => hclose _) fun _ => .refl s

theorem quiet_setBlk (s : State) {page : Nat} (v : Nat) (hpage : page % 4096 = 0) : Quiet s (setBlk s page v) :=
  quiet_fset_page s 0x0C 2 0 v hpage

theorem quiet_showClock (s : State) (n : Nat) (on : Bool) : Quiet s (showClock s n on) := by
  unfold showClock
  refine .foldl_mem (fun t a ha => ?_) s
  have hpage : a % 4096 = 0 := by
    split at ha
    · obtain ⟨l, hl, hal⟩ := List.mem_flatten.1 ha
      obtain ⟨g, -, rfl⟩ := List.mem_map.1 hl
      obtain rfl | rfl : a = pLaneGrp g ∨ a = pPattern g := by simpa using hal
      · simp only [pLaneGrp]; omega
      · simp only [pPattern]; omega
    · split at ha
      · obtain ⟨i, -, rfl⟩ := List.mem_map.1 ha
        simp only [pLpddr]
        omega
      · exact absurd ha List.not_mem_nil
  refine .ite (fun _ => .ite (fun _ => quiet_setBlk t 2 hpage) fun _ => .refl t) fun _ => ?_
  exact (quiet_setBlk t 0 hpage).trans (quiet_fset_page _ 0x0C 15 8 6 hpage)

/-- The nodes of the clock tree are 113, and their words those of CLK_ACTIVE (Table 18.2). -/
theorem quiet_turnOn (s : State) {n : Nat} (hn : n < 113) : Quiet s (turnOn s n) := by
  have hramps : ∀ t r, Quiet t { t with ramps := r } := fun t r => .of_eq rfl rfl rfl
  have hnode : ∀ t, Quiet t (setNode t n true) := fun t => quiet_wr t _ fun h => by
    have := h.1
    simp only [pClk] at this
    omega
  unfold turnOn
  exact (hramps s _).trans (.ite (fun _ => .refl _) fun _ => ((hramps _ _).trans (hnode _)).trans (quiet_showClock _ n true))

theorem parentNode_lt {n a : Nat} (h : parentNode n = some a) : a < 113 := by
  unfold parentNode at h
  split at h
  · injection h; omega
  · split at h
    · injection h; omega
    · contradiction

theorem quiet_turnOnChain (s : State) {n : Nat} (hn : n < 113) : Quiet s (turnOnChain s n) := by
  unfold turnOnChain
  split
  · exact quiet_turnOn s hn
  · next a ha =>
    split
    · exact (quiet_turnOn s (parentNode_lt ha)).trans (quiet_turnOn _ hn)
    · next b hb => exact ((quiet_turnOn s (parentNode_lt hb)).trans (quiet_turnOn _ (parentNode_lt ha))).trans (quiet_turnOn _ hn)

theorem nodeOfPort_lt {p : Nat} (hp : p < 161) : nodeOfPort p < 113 := by
  have hdie : dieOfPort p < 8 := by
    unfold dieOfPort
    split_ifs <;> omega
  unfold nodeOfPort
  split_ifs <;> omega

theorem quiet_bringUp (s : State) {p : Nat} (hp : p < 161) : Quiet s (bringUp s p) := by
  have hpage : pPort p % 4096 = 0 := by
    simp only [pPort]
    omega
  have htrain : ∀ t b v, Quiet t (setStage (setPState (setBit t (pPort p + 0x44) 17 b) p v) p 1) := fun t b v =>
    ((quiet_fset_page t 0x44 17 17 _ hpage).trans ((quiet_fset_page _ 0x44 3 0 v hpage).trans
      (quiet_fset_page _ 0x48 31 31 _ hpage))).trans (quiet_fset_page _ 0x44 11 8 1 hpage)
  have hlanes : ∀ t, Quiet t ((List.range (lanesOfPort p)).foldl (fun s l => { s with lanes := Sparse.erase s.lanes (laneNum p l) }) t) := by
    refine fun t => .foldl (fun u l => ?_) _ t
    exact .of_eq rfl rfl rfl
  unfold bringUp
  dsimp only
  refine .trans (.trans (.trans (quiet_turnOnChain s (nodeOfPort_lt hp)) ?_) (hlanes _)) (htrain _ _ _)
  exact quiet_modPort _ p (.of_eq rfl rfl rfl rfl)

theorem quiet_losePort (s : State) {p : Nat} (hp : p < 161) : Quiet (linkDown s p) (losePort s p) := by
  have hclosed : Quiet (linkDown s p) (if admitted s p then setBlk (closeForPort (linkDown s p) p 5 true) (pPort p) 1 else linkDown s p) :=
    .ite (fun _ => (quiet_closeForPort _ p 5 true).trans (quiet_setBlk _ 1 (by simp only [pPort]; omega))) fun _ => .refl _
  unfold losePort
  exact .ite (fun _ => hclosed.trans (quiet_bringUp _ hp)) fun _ => hclosed

/-- A port that is lost has neither credits nor frames (R72). -/
theorem dark_losePort (s : State) {p : Nat} (hp : p < 161) : dark (getPort (losePort s p) p) :=
  ((quiet_losePort s hp).link p).dark.2 (dark_linkDown s p)

theorem rd_losePort (s : State) {p a : Nat} (hp : p < 161) (ha : SteadyWord a) : rd (losePort s p) a = rd s a :=
  ((quiet_losePort s hp).word a ha).trans (rd_linkDown s p ha)

end Sys2Proof.Machine

/-! # Frames and replays (R63, R71) -/

namespace Sys2Proof.Machine

open Sys2Proof

/-- What a frame with an uncorrectable codeword adds: its counter and its record, nothing of the port and no answer. -/
def frameRead (s : State) (p : Nat) (f : LinkFrame) : State :=
  if f.uncorrectable then
    report (ctrAdd s (pLaneGrp ((groupsOfPort p).getD 0 0)) 2 1) (mkFault 0x20 p 0x3A 0 f.lsn.toNat 0xFF 0)
  else s

theorem report_frame_ports_out (s : State) (r : FaultRec) : (report s r).ports = s.ports ∧ (report s r).out = s.out := by
  unfold report
  split <;> exact ⟨rfl, rfl⟩

theorem frameRead_frame (s : State) (p : Nat) (f : LinkFrame) :
    (frameRead s p f).ports = s.ports ∧ (frameRead s p f).out = s.out := by
  unfold frameRead
  split
  · exact report_frame_ports_out _ _
  · exact ⟨rfl, rfl⟩

theorem getPort_frameRead (s : State) (p q : Nat) (f : LinkFrame) : getPort (frameRead s p f) q = getPort s q := by
  rw [getPort, (frameRead_frame s p f).1, getPort]

/-- The frame is the next one and is read without error. -/
def frameGood (s : State) (p : Nat) (f : LinkFrame) : Bool :=
  !f.uncorrectable && f.check == linkCheck f && f.lsn.toNat == (getPort s p).rxLsn

theorem exec_linkFrameRx {s : State} {p : Nat} (f : LinkFrame) (hlive : live s = true) (hheld : s.faults.held = false)
    (hframing : framing s p = true) : exec (.linkFrameRx p f) s =
      if frameGood s p f then
        .next (emit (modPort (frameRead s p f) p fun x => { x with rxLsn := (x.rxLsn + 1) % 4096, rxDiscard := false })
          (.link p "ACK" f.lsn.toNat))
      else if (getPort s p).rxDiscard && f.lsn.toNat != (getPort s p).rxLsn then .next (frameRead s p f)
      else .next (emit (modPort (frameRead s p f) p fun x => { x with rxDiscard := true }) (.link p "RETRY" (getPort s p).rxLsn)) := by
  have hport := getPort_frameRead s p p f
  change execLinkFrameRx p f s = _
  rw [execLinkFrameRx, if_neg (by simp [hlive, heldNow, hheld, hframing])]
  dsimp only
  change (if (!f.uncorrectable && f.check == linkCheck f && f.lsn.toNat == (getPort (frameRead s p f) p).rxLsn) = true then _
    else if ((getPort (frameRead s p f) p).rxDiscard && f.lsn.toNat != (getPort (frameRead s p f) p).rxLsn) = true then _
    else Host.Outcome.next (emit (modPort (frameRead s p f) p _) (.link p "RETRY" (getPort (frameRead s p f) p).rxLsn))) = _
  rw [hport]
  rfl

/-- The answer to a frame goes out, whatever its reading added. -/
theorem emits_frame (s : State) (p : Nat) (f : LinkFrame) (g : PortSt → PortSt) (o : Output) :
    Emits s (emit (modPort (frameRead s p f) p g) o) o :=
  ⟨[o], congrArg (· ++ [o]) (frameRead_frame s p f).2, List.mem_singleton_self o⟩

theorem getPort_frame (s : State) (p : Nat) (f : LinkFrame) (g : PortSt → PortSt) (o : Output) :
    getPort (emit (modPort (frameRead s p f) p g) o) p = g (getPort s p) :=
  (getPort_modPort_same _ _ _).trans (congrArg g (getPort_frameRead s p p f))

/-- The next frame, read without error, is acknowledged. -/
theorem linkFrameRx_of_good {s : State} {p : Nat} (f : LinkFrame) (hlive : live s = true) (hheld : s.faults.held = false)
    (hframing : framing s p = true) (hgood : frameGood s p f = true) : Runs (.linkFrameRx p f) s fun t =>
      Emits s t (.link p "ACK" f.lsn.toNat) ∧ (getPort t p).rxLsn = ((getPort s p).rxLsn + 1) % 4096 ∧
        (getPort t p).rxDiscard = false := by
  refine ⟨_, (exec_linkFrameRx f hlive hheld hframing).trans (if_pos hgood), emits_frame s p f _ _, ?_⟩
  rw [getPort_frame]
  exact ⟨rfl, rfl⟩

/-- Any other frame asks for the next one again, unless it was asked for already and this is not it. -/
theorem linkFrameRx_of_bad {s : State} {p : Nat} (f : LinkFrame) (hlive : live s = true) (hheld : s.faults.held = false)
    (hframing : framing s p = true) (hbad : frameGood s p f = false)
    (hask : (getPort s p).rxDiscard = false ∨ f.lsn.toNat = (getPort s p).rxLsn) : Runs (.linkFrameRx p f) s fun t =>
      Emits s t (.link p "RETRY" (getPort s p).rxLsn) ∧ (getPort t p).rxLsn = (getPort s p).rxLsn ∧ (getPort t p).rxDiscard = true := by
  have hasks : ¬((getPort s p).rxDiscard && f.lsn.toNat != (getPort s p).rxLsn) = true := by
    obtain h | h := hask <;> simp [h]
  refine ⟨_, (exec_linkFrameRx f hlive hheld hframing).trans ((if_neg (by simp [hbad])).trans (if_neg hasks)),
    emits_frame s p f _ _, ?_⟩
  rw [getPort_frame]
  exact ⟨rfl, rfl⟩

theorem linkFrameRx_of_passed_over {s : State} {p : Nat} (f : LinkFrame) (hlive : live s = true) (hheld : s.faults.held = false)
    (hframing : framing s p = true) (hread : f.uncorrectable = false) (hdiscard : (getPort s p).rxDiscard = true)
    (hlsn : f.lsn.toNat ≠ (getPort s p).rxLsn) : exec (.linkFrameRx p f) s = .next s := by
  have hbad : frameGood s p f = false := by simp [frameGood, hlsn]
  have hsame : frameRead s p f = s := by simp [frameRead, hread]
  rw [exec_linkFrameRx f hlive hheld hframing, if_neg (by simp [hbad]), if_pos (by simp [hdiscard, hlsn]), hsame]

theorem frameGood_of_check_ne {s : State} {p : Nat} {f : LinkFrame} (h : f.check ≠ linkCheck f) : frameGood s p f = false := by
  simp [frameGood, h]

/-- A FENCE leaves neither credits nor frames (R72). -/
theorem runs_fenceRx {s : State} {p : Nat} (hp : p < 161) (hlive : live s = true) (hheld : s.faults.held = false)
    (hframing : framing s p = true) : Runs (.fenceRx p) s fun t => (getPort t p).credits = [] ∧ (getPort t p).replay = [] := by
  refine ⟨losePort s p, ?_, dark_losePort s hp⟩
  change execFenceRx p s = _
  rw [execFenceRx, if_pos (by simp [hlive, heldNow, hheld, hframing])]

/-! ## Replays and acknowledgements -/

/-- What a request to replay from an LSN leaves of the port. -/
def replaying (lsn fails : Nat) (x : PortSt) : PortSt :=
  { x with replay := replayFrom lsn x.replay, replayFails := fails, lastRetry := some lsn }

def replayed (s : State) (p lsn fails : Nat) : State :=
  emit (ctrAdd (modPort s p (replaying lsn fails)) (pPort p) 9 1) (.link p "REPLAY" lsn)

theorem ctrGet_replayed (s : State) (p lsn fails i : Nat) :
    ctrGet (replayed s p lsn fails) (pPort p) i = ctrGet (ctrAdd s (pPort p) 9 1) (pPort p) i := by
  have hctrs : (replayed s p lsn fails).ctrs = (ctrAdd s (pPort p) 9 1).ctrs := rfl
  exact ctrGet_congr hctrs _ _

theorem getPort_replayed (s : State) (p lsn fails : Nat) : getPort (replayed s p lsn fails) p = replaying lsn fails (getPort s p) :=
  getPort_modPort_same s p (replaying lsn fails)

/-- A request to replay: what is replayed, and after the 16th in a row for one frame the end of the run (R71, R263). -/
theorem exec_llrRetryRx {s : State} {p : Nat} (lsn : BitVec 12) (hframing : framing s p = true) : ∃ fails,
    fails = (if (getPort s p).lastRetry == some lsn.toNat then (getPort s p).replayFails + 1 else 0) ∧
    exec (.llrRetryRx p lsn) s =
      if fails < 16 then .next (replayed s p lsn.toNat fails)
      else
        if widthTx s p == 0 then .next (losePort (modPort (replayed s p lsn.toNat fails) p fun x => { x with replayFails := 0 }) p)
        else .next (beginStripe (modPort (replayed s p lsn.toNat fails) p fun x => { x with replayFails := 0 }) p .tx) := by
  refine ⟨_, rfl, ?_⟩
  change execLlrRetryRx p lsn s = _
  rw [execLlrRetryRx, if_neg (by simp [hframing])]
  rfl

theorem llrRetryRx_of_few {s : State} {p : Nat} (lsn : BitVec 12) (hframing : framing s p = true)
    (hfew : (getPort s p).replayFails < 15) : Runs (.llrRetryRx p lsn) s fun t =>
      (getPort t p).replay = replayFrom lsn.toNat (getPort s p).replay ∧ ctrGet t (pPort p) 9 = ctrGet s (pPort p) 9 + 1 ∧
      Emits s t (.link p "REPLAY" lsn.toNat) := by
  obtain ⟨fails, hfails, hexec⟩ := exec_llrRetryRx lsn hframing
  have hlt : fails < 16 := by
    rw [hfails]
    split <;> omega
  refine ⟨_, hexec.trans (if_pos hlt), ?_, ?_, emits_emit _ _⟩
  · rw [getPort_replayed, replaying]
  · rw [ctrGet_replayed]
    exact ctrGet_ctrAdd_same _ _ _ _

theorem ctrGet_beginStripe (s : State) (p : Nat) (d : Dir) : ctrGet (beginStripe s p d) (pPort p) 12 = ctrGet s (pPort p) 12 + 1 := by
  have hctrs : (beginStripe s p d).ctrs = (ctrAdd s (pPort p) 12 1).ctrs := rfl
  rw [ctrGet_congr hctrs]
  exact ctrGet_ctrAdd_same _ _ _ _

theorem stripingTx_beginStripe (s : State) (p : Nat) : (getPort (beginStripe s p .tx) p).stripingTx = true := by
  rw [beginStripe, getPort_modPort_same]

theorem llrRetryRx_of_last {s : State} {p : Nat} (lsn : BitVec 12) (hframing : framing s p = true)
    (hlast : (getPort s p).replayFails = 15) (hagain : (getPort s p).lastRetry = some lsn.toNat) (hwidth : widthTx s p ≠ 0) :
    Runs (.llrRetryRx p lsn) s fun t => (getPort t p).stripingTx = true ∧ ctrGet t (pPort p) 12 = ctrGet s (pPort p) 12 + 1 := by
  obtain ⟨fails, hfails, hexec⟩ := exec_llrRetryRx lsn hframing
  have h16 : ¬fails < 16 := by
    rw [hfails, hagain, hlast]
    simp
  have hother : ctrGet (replayed s p lsn.toNat fails) (pPort p) 12 = ctrGet s (pPort p) 12 := by
    rw [ctrGet_replayed, ctrGet_ctrAdd, if_neg (by omega)]
  refine ⟨_, hexec.trans ((if_neg h16).trans (if_neg (by simpa using hwidth))), stripingTx_beginStripe _ p, ?_⟩
  rw [ctrGet_beginStripe, ← hother]
  rfl

/-- What stands after the frame of an LSN. -/
theorem dropWhile_ne_append {lsn : Nat} {pre post : List (Nat × Pkt)} {e : Nat × Pkt} (he : e.1 = lsn) (hpre : ∀ f ∈ pre, f.1 ≠ lsn) :
    ((pre ++ e :: post).dropWhile fun f => f.1 != lsn).drop 1 = post := by
  rw [List.dropWhile_append_of_pos (by simpa using hpre), List.dropWhile_cons_of_neg (by simp [he])]
  rfl

/-- What the scheduler's waking leaves of a port that may not start a packet. -/
theorem replay_settleAwake (s : State) (p : Nat) : (getPort (settleAwake s p) p).replay = (getPort s p).replay := by
  obtain ⟨_, _, _, heq⟩ := getPort_settleAwake s p
  rw [heq]

theorem credits_settleAwake (s : State) (p : Nat) : (getPort (settleAwake s p) p).credits = (getPort s p).credits := by
  obtain ⟨_, _, _, heq⟩ := getPort_settleAwake s p
  rw [heq]

theorem pump_modPort {s : State} {p : Nat} {f : PortSt → PortSt} (hquiet : mayStart s p = false)
    (hstriping : (f (getPort s p)).stripingTx = (getPort s p).stripingTx) (hsending : (f (getPort s p)).sending = (getPort s p).sending) :
    pump (modPort s p f) p = settleAwake (modPort s p f) p :=
  pump_of_not_mayStart ((mayStart_congr (s := s) (t := modPort s p f) rfl rfl rfl (by rw [getPort_modPort_same, hstriping])
    (by rw [getPort_modPort_same, hsending])).trans hquiet)

/-- A port whose frame of an LSN is acknowledged. -/
def acknowledged (lsn : Nat) (x : PortSt) : PortSt :=
  if x.replay.any fun e => e.1 == lsn then
    { x with replay := (x.replay.dropWhile fun e => e.1 != lsn).drop 1, replayFails := 0, lastRetry := none }
  else x

/-- An acknowledgement takes its frame and those before it out of the replay buffer. -/
theorem runs_linkAckRx {s : State} {p : Nat} (lsn : BitVec 12) {pre post : List (Nat × Pkt)} {e : Nat × Pkt}
    (hreplay : (getPort s p).replay = pre ++ e :: post) (he : e.1 = lsn.toNat) (hpre : ∀ f ∈ pre, f.1 ≠ lsn.toNat)
    (hquiet : mayStart s p = false) :
    Runs (.linkAckRx p lsn) s fun t => (getPort t p).replay = post ∧ t.regs = s.regs := by
  have hany : ((getPort s p).replay.any fun e => e.1 == lsn.toNat) = true :=
    List.any_eq_true.2 ⟨e, by rw [hreplay]; simp, by simp [he]⟩
  have hport : acknowledged lsn.toNat (getPort s p) = { getPort s p with replay := post, replayFails := 0, lastRetry := none } := by
    rw [acknowledged, if_pos hany, hreplay, dropWhile_ne_append he hpre]
  have hexec : exec (.linkAckRx p lsn) s = .next (pump (modPort s p (acknowledged lsn.toNat)) p) := rfl
  rw [pump_modPort hquiet (by rw [hport]) (by rw [hport])] at hexec
  refine ⟨_, hexec, ?_, rfl⟩
  rw [replay_settleAwake, getPort_modPort_same, hport]

theorem vcGet_vcSet_same (m : Sparse Nat) (v n : Nat) : vcGet (vcSet m v n) v = n := (Sparse.get_set _ _ _ _ _).trans (if_pos rfl)

/-- A port to which credits return. -/
def credited (vc n : Nat) (x : PortSt) : PortSt :=
  { x with credits := vcSet x.credits vc (vcGet x.credits vc + n),
           initial := vcSet x.initial vc (Nat.max (vcGet x.initial vc) (vcGet x.credits vc + n)) }

/-- Returned credits are there to be used. -/
theorem runs_creditReturnRx {s : State} {p : Nat} (vc n : Nat) (hadm : admitted s p = true) (hquiet : mayStart s p = false) :
    Runs (.creditReturnRx p vc n) s fun t => vcGet (getPort t p).credits vc = vcGet (getPort s p).credits vc + n := by
  have hexec : exec (.creditReturnRx p vc n) s = .next (pump (modPort s p (credited vc n)) p) := by
    change execCreditReturnRx p vc n s = _
    rw [execCreditReturnRx, if_pos hadm]
    rfl
  rw [pump_modPort hquiet rfl rfl] at hexec
  refine ⟨_, hexec, ?_⟩
  dsimp only
  rw [credits_settleAwake, getPort_modPort_same]
  exact vcGet_vcSet_same _ _ _

end Sys2Proof.Machine

/-! # Lanes and widths (R73, R263, R267) -/

namespace Sys2Proof.Machine

open Sys2Proof

theorem laneGroup_lt {p lane : Nat} (hp : p < 160) : laneGroup p lane < 192 := by
  have hgroups : ∀ g ∈ groupsOfPort p, g < 192 := by
    unfold groupsOfPort
    split_ifs <;> simp <;> omega
  rw [laneGroup, List.getD_eq_getElem?_getD]
  cases hg : (groupsOfPort p)[lane / 4]? with
  | none => decide
  | some g => exact hgroups g (List.mem_of_getElem? hg)

theorem steadyWord_lanes {p lane : Nat} (hp : p < 160) : SteadyWord (pLaneGrp (laneGroup p lane) + 0x40) := by
  have := laneGroup_lt (lane := lane) hp
  simp only [SteadyWord, pLaneGrp]
  omega

theorem wAddr_ne_lanes (p q lane : Nat) : pLaneGrp (laneGroup q lane) + 0x40 ≠ wAddr p := by
  simp only [pLaneGrp, wAddr, pPort]
  omega

/-! ## A re-striping that ends -/

theorem striping_restoreCredits (s : State) (p : Nat) :
    (getPort (restoreCredits s p) p).stripingRx = (getPort s p).stripingRx ∧
      (getPort (restoreCredits s p) p).stripingTx = (getPort s p).stripingTx := by
  rw [restoreCredits, getPort_modPort_same]
  exact ⟨rfl, rfl⟩

theorem quiet_restoreGrants (s : State) (p : Nat) : Quiet s (restoreGrants s p) := by
  have hnone : ∀ t, Quiet t (modPort t p fun x => { x with granted := [], banked := [], bankNext := 0 }) := fun t =>
    quiet_modPort_grants t p _ fun _ => ⟨_, _, _, _, rfl⟩
  have hgranted : ∀ t (f : PortSt → Sparse Nat), Quiet t (modPort t p fun x => { x with granted := f x }) := fun t f =>
    quiet_modPort_grants t p _ fun _ => ⟨_, _, _, _, rfl⟩
  unfold restoreGrants grantInitial
  exact (((quiet_forgetHeld s p).trans (hnone _)).trans (hgranted _ _)).trans (.foldl (fun t v => quiet_emit t _) _ _)

theorem runs_restripeDone_rx (s : State) (p : Nat) : Runs (.restripeDone p .rx) s fun t =>
    (getPort t p).stripingRx = false ∧ (getPort t p).stripingTx = (getPort s p).stripingTx := by
  cases hx : (getPort s p).stripingRx
  · refine ⟨s, ?_, hx, rfl⟩
    change execRestripeDone p .rx s = _
    simp [execRestripeDone, hx]
  · have hquiet : Quiet (modPort s p fun x => { x with stripingRx := false }) (pump (if admitted s p then
        restoreGrants (modPort s p fun x => { x with stripingRx := false }) p else modPort s p fun x => { x with stripingRx := false }) p) :=
      .trans (.ite (fun _ => quiet_restoreGrants _ p) fun _ => .refl _) (quiet_pump _ p)
    have hlink := hquiet.link p
    rw [getPort_modPort_same] at hlink
    refine ⟨_, ?_, hlink.rx, hlink.tx⟩
    change execRestripeDone p .rx s = _
    simp only [execRestripeDone, hx, Bool.not_true, Bool.false_eq_true, if_false]
    rfl

theorem runs_restripeDone_tx (s : State) (p : Nat) : Runs (.restripeDone p .tx) s fun t =>
    (getPort t p).stripingTx = false ∧ (getPort t p).stripingRx = (getPort s p).stripingRx := by
  cases hx : (getPort s p).stripingTx
  · refine ⟨s, ?_, hx, rfl⟩
    change execRestripeDone p .tx s = _
    simp [execRestripeDone, hx]
  · have hrestored : ∀ t, (getPort (if admitted s p then restoreCredits t p else t) p).stripingRx = (getPort t p).stripingRx ∧
        (getPort (if admitted s p then restoreCredits t p else t) p).stripingTx = (getPort t p).stripingTx := fun t => by
      split
      · exact striping_restoreCredits t p
      · exact ⟨rfl, rfl⟩
    obtain ⟨hrx, htx⟩ := hrestored (modPort s p fun x => { x with stripingTx := false })
    have hlink := (quiet_pump (if admitted s p then restoreCredits (modPort s p fun x => { x with stripingTx := false }) p
      else modPort s p fun x => { x with stripingTx := false }) p).link p
    rw [getPort_modPort_same] at hrx htx
    refine ⟨_, ?_, hlink.tx.trans htx, hlink.rx.trans hrx⟩
    change execRestripeDone p .tx s = _
    simp only [execRestripeDone, hx, Bool.not_true, Bool.false_eq_true, if_false]
    rfl

/-! ## A lane that falls out -/

theorem laneBit_setLaneBit (s : State) (p lane b b' : Nat) (v : Bool) (hb : b ≤ 12) :
    laneBit (setLaneBit s p lane b v) p lane b' = if b' = b then v else laneBit s p lane b' := by
  have hlane : lane % 4 < 4 := Nat.mod_lt _ (by decide)
  rw [laneBit, setLaneBit, bit_setBit _ _ _ _ _ _ (by omega)]
  by_cases h : b' = b
  · rw [if_pos ⟨rfl, by omega⟩, if_pos h]
  · rw [if_neg (by omega), if_neg h, laneBit]

theorem laneBit_congr {s t : State} (h : t.regs = s.regs) (p lane b : Nat) : laneBit t p lane b = laneBit s p lane b := bit_congr h _ _

/-- The lanes in use of a port are no lane's own status. -/
theorem laneBit_setBit_width (s : State) (p i lane b : Nat) (v : Bool) : laneBit (setBit s (wAddr p) i v) p lane b = laneBit s p lane b := by
  rw [laneBit, bit, setBit, rd_fset_ne _ _ _ _ _ _ (wAddr_ne_lanes p p lane)]
  rfl

theorem striped_setBit_width (s : State) (p i : Nat) (v : Bool) : striped (setBit s (wAddr p) i v) p = striped s p := by
  rw [striped, pStage, fget, setBit, rd_fset_ne _ _ _ _ _ _ (by simp only [wAddr]; omega)]
  rfl

/-- The loss of the signal of a lane is noted and counted. -/
def lossCounted (s : State) (p lane : Nat) : State :=
  ctrAdd (setLaneBit s p lane 0 true) (pLaneGrp (laneGroup p lane)) 4 1

/-- The port while the signal of a lane is lost, before its word of lanes in use follows. -/
def signalLost (s : State) (p lane : Nat) : State :=
  modPort { setLaneBit (lossCounted s p lane) p lane 12 false with lanes := Sparse.erase s.lanes (laneNum p lane) } p
    fun x => { x with signal := x.signal.filter (· != lane) }

theorem lossCounted_regs (s : State) (p lane : Nat) : (lossCounted s p lane).regs = (setLaneBit s p lane 0 true).regs := rfl

theorem signalLost_regs (s : State) (p lane : Nat) :
    (signalLost s p lane).regs = (setLaneBit (lossCounted s p lane) p lane 12 false).regs := rfl

theorem rd_signalLost (s : State) {p lane a : Nat} (h : a ≠ pLaneGrp (laneGroup p lane) + 0x40) :
    rd (signalLost s p lane) a = rd s a := by
  rw [rd_congr (signalLost_regs s p lane), setLaneBit, setBit, rd_fset_ne _ _ _ _ _ _ h, rd_congr (lossCounted_regs s p lane),
    setLaneBit, setBit, rd_fset_ne _ _ _ _ _ _ h]

/-- The lane is not healthy, and its loss of signal is noted. -/
theorem laneBit_signalLost (s : State) (p lane b : Nat) :
    laneBit (signalLost s p lane) p lane b = if b = 12 then false else if b = 0 then true else laneBit s p lane b := by
  rw [laneBit_congr (signalLost_regs s p lane), laneBit_setLaneBit _ _ _ _ _ _ (by decide), laneBit_congr (lossCounted_regs s p lane),
    laneBit_setLaneBit _ _ _ _ _ _ (by decide)]

theorem ctrGet_signalLost (s : State) (p lane : Nat) :
    ctrGet (signalLost s p lane) (pLaneGrp (laneGroup p lane)) 4 = ctrGet s (pLaneGrp (laneGroup p lane)) 4 + 1 := by
  have hctrs : (signalLost s p lane).ctrs = (ctrAdd s (pLaneGrp (laneGroup p lane)) 4 1).ctrs := rfl
  rw [ctrGet_congr hctrs]
  exact ctrGet_ctrAdd_same _ _ _ _

theorem not_mem_signal_signalLost (s : State) (p lane : Nat) : lane ∉ (getPort (signalLost s p lane) p).signal := by
  rw [signalLost, getPort_modPort_same]
  simp

/-- The port when the signal of a lane is lost; the lane it carried is in use no more. -/
def laneLost (s : State) (p lane : Nat) : State :=
  if laneBit (lossCounted s p lane) p lane 12 then
    setBit (signalLost s p lane) (wAddr p) (16 + rxLane (signalLost s p lane) p lane) false
  else signalLost s p lane

theorem exec_laneUnhealthy_los (s : State) (p lane : Nat) : exec (.laneUnhealthy p lane .rx .los) s =
    .next (if striped (laneLost s p lane) p then restripe (laneLost s p lane) p .rx else laneLost s p lane) := rfl

theorem striped_signalLost (s : State) (p lane : Nat) : striped (signalLost s p lane) p = striped s p := by
  rw [striped, pStage, fget, rd_signalLost s (by simp only [pPort, pLaneGrp]; omega), striped, pStage, fget]

/-- What is stated of a lane that lost its signal. -/
structure SignalGone (s t : State) (p lane : Nat) : Prop where
  striped : striped t p = striped s p
  healthy : laneBit t p lane 12 = false
  los : laneBit t p lane 0 = true
  signal : lane ∉ (getPort t p).signal
  count : ctrGet t (pLaneGrp (laneGroup p lane)) 4 = ctrGet s (pLaneGrp (laneGroup p lane)) 4 + 1

theorem signalGone_signalLost (s : State) (p lane : Nat) : SignalGone s (signalLost s p lane) p lane where
  striped := striped_signalLost s p lane
  healthy := by rw [laneBit_signalLost, if_pos rfl]
  los := by rw [laneBit_signalLost, if_neg (by decide), if_pos rfl]
  signal := not_mem_signal_signalLost s p lane
  count := ctrGet_signalLost s p lane

/-- A change of the lanes in use is none of it. -/
theorem SignalGone.setBit_width {s t : State} {p lane : Nat} (h : SignalGone s t p lane) (i : Nat) (v : Bool) :
    SignalGone s (setBit t (wAddr p) i v) p lane where
  striped := (striped_setBit_width t p i v).trans h.striped
  healthy := (laneBit_setBit_width t p i lane 12 v).trans h.healthy
  los := (laneBit_setBit_width t p i lane 0 v).trans h.los
  signal := h.signal
  count := h.count

theorem signalGone_laneLost (s : State) (p lane : Nat) : SignalGone s (laneLost s p lane) p lane := by
  unfold laneLost
  split
  · exact (signalGone_signalLost s p lane).setBit_width _ _
  · exact signalGone_signalLost s p lane

theorem runs_laneUnhealthy_rx {s : State} {p lane : Nat} (hstriped : striped s p = false) :
    Runs (.laneUnhealthy p lane .rx .los) s fun t => laneBit t p lane 12 = false ∧ laneBit t p lane 0 = true ∧
      lane ∉ (getPort t p).signal ∧ ctrGet t (pLaneGrp (laneGroup p lane)) 4 = ctrGet s (pLaneGrp (laneGroup p lane)) 4 + 1 := by
  obtain ⟨hsame, hhealthy, hlos, hsignal, hcount⟩ := signalGone_laneLost s p lane
  have hexec := exec_laneUnhealthy_los s p lane
  rw [hsame, hstriped, if_neg Bool.false_ne_true] at hexec
  exact ⟨_, hexec, hhealthy, hlos, hsignal, hcount⟩

/-! ## A narrower transmitter -/

theorem popField_le (s : State) (a hi lo : Nat) : popField s a hi lo ≤ hi + 1 - lo :=
  (List.length_filter_le _ _).trans_eq List.length_range

theorem newWidth_lt (s : State) (p : Nat) (d : Dir) : newWidth s p d < 16 := by
  have hwidth : ∀ n ≤ 8, widthFor p n < 16 := fun n hn => by
    unfold widthFor
    split_ifs <;> omega
  cases d with
  | rx => exact hwidth _ (popField_le _ _ 23 16)
  | tx => exact hwidth _ (popField_le _ _ 15 8)

/-- A width that changes, and not to none: the port re-stripes over the lanes that are left (R73). -/
theorem restripe_of_changed {s : State} {p : Nat} (hnone : newWidth s p .tx ≠ 0) (hchanged : newWidth s p .tx ≠ widthOf s p .tx) :
    restripe s p .tx = beginStripe (fset (settleBucket s p) (wAddr p) 3 0 (newWidth s p .tx)) p .tx := by
  simp only [restripe, beq_iff_eq, hnone, hchanged, if_false]

theorem widthTx_beginStripe (s : State) (p : Nat) (d : Dir) : widthTx (beginStripe s p d) p = widthTx s p := by
  have hregs : (beginStripe s p d).regs = (fieldSat s (wAddr p) 31 24 1).regs := rfl
  rw [widthTx, fget_congr hregs, fieldSat]
  exact fget_fset_apart s (wAddr p) 31 24 _ 3 0 (by decide) (by decide) (by decide)

theorem runs_laneUnhealthy_tx {s : State} {p lane : Nat} (cause : LaneCause) (hlane : lane < 8) (hstriped : striped s p = true)
    (hnone : newWidth (setBit s (wAddr p) (8 + lane) false) p .tx ≠ 0)
    (hchanged : newWidth (setBit s (wAddr p) (8 + lane) false) p .tx ≠ widthOf s p .tx) :
    Runs (.laneUnhealthy p lane .tx cause) s fun t => widthTx t p = newWidth (setBit s (wAddr p) (8 + lane) false) p .tx ∧
      (getPort t p).stripingTx = true ∧ ctrGet t (pPort p) 12 = ctrGet s (pPort p) 12 + 1 := by
  have hstill : striped (setBit s (wAddr p) (8 + lane) false) p = true := by
    rw [← hstriped]
    exact striped_setBit_width s p _ false
  have hwidth : widthOf (setBit s (wAddr p) (8 + lane) false) p .tx = widthOf s p .tx :=
    fget_fset_apart s (wAddr p) _ _ _ 3 0 le_rfl (by omega) (by omega)
  have hexec : exec (.laneUnhealthy p lane .tx cause) s = .next (restripe (setBit s (wAddr p) (8 + lane) false) p .tx) := by
    change execLaneUnhealthy p lane .tx cause s = _
    simp only [execLaneUnhealthy, hstill, if_true]
  have hlt := newWidth_lt (setBit s (wAddr p) (8 + lane) false) p .tx
  rw [restripe_of_changed hnone (by rw [hwidth]; exact hchanged)] at hexec
  have hctrs : ∀ u w, (fset (settleBucket u p) (wAddr p) 3 0 w).ctrs = u.ctrs := fun u w => rfl
  refine ⟨_, hexec, ?_, stripingTx_beginStripe _ p, ?_⟩
  · rw [widthTx_beginStripe]
    exact fget_fset_same _ _ 3 0 _ (by decide) (by decide) hlt
  · rw [ctrGet_beginStripe, ctrGet_congr (hctrs _ _)]
    rfl

/-! ## A lane that comes back -/

theorem rd_restripe {s : State} {p a : Nat} (d : Dir) (hp : p < 161) (ha : SteadyWord a) : rd (restripe s p d) a = rd s a := by
  have hstripe : ∀ t, rd (beginStripe t p d) a = rd t a := fun t => (quiet_wr_width t p _).word a ha
  have hsettled := (quiet_settleBucket s p).word a ha
  unfold restripe
  dsimp only
  split
  · exact rd_losePort s hp ha
  · split
    · rfl
    · rw [hstripe]
      cases d with
      | rx => exact ((quiet_wr_width _ p _).word a ha).trans hsettled
      | tx => exact ((quiet_wr_width _ p _).word a ha).trans hsettled

theorem rd_widen {s : State} {p a : Nat} (d : Dir) (hp : p < 161) (ha : SteadyWord a) : rd (widen s p d) a = rd s a := by
  unfold widen
  split
  · rfl
  · exact rd_restripe d hp ha

/-- The status of a lane whose signal is good again. -/
def signalBack (s : State) (p lane : Nat) : State :=
  setLaneBit (setLaneBit (setLaneBit s p lane 0 false) p lane 4 false) p lane 12 true

theorem runs_laneRejoin_rx {s : State} {p lane : Nat} (hp : p < 160) (hstriped : striped s p = true)
    (hstage : (getLane s (laneNum p lane)).stage = 7) (hwiden : mayWiden s (getPort s p).widenedRx = true) :
    Runs (.laneRejoin p lane .rx) s fun t => laneBit t p lane 12 = true := by
  have hexec : exec (.laneRejoin p lane .rx) s = .next (widen (setBit (signalBack s p lane) (wAddr p)
      (16 + rxLane (signalBack s p lane) p lane) true) p .rx) := by
    change execLaneRejoin p lane .rx s = _
    simp only [execLaneRejoin, hstriped, hstage, hwiden, Bool.not_true, Bool.false_eq_true, if_false, bne_self_eq_false, Bool.or_false]
    rfl
  refine ⟨_, hexec, ?_⟩
  change bit _ _ _ = true
  rw [bit, rd_widen .rx (by omega) (steadyWord_lanes hp)]
  exact (laneBit_setBit_width _ p _ lane 12 true).trans ((laneBit_setLaneBit _ _ _ _ _ _ (by decide)).trans (if_pos rfl))

theorem exec_laneRejoin_of_not_striped {s : State} {p : Nat} (lane : Nat) (d : Dir) (h : striped s p = false) :
    exec (.laneRejoin p lane d) s = .next s := by
  change execLaneRejoin p lane d s = _
  simp [execLaneRejoin, h]

/-! ## Links as a whole -/

/-- Settles O15: a frame is answered by whether it is the next one read without error, a fall is dark, and a change of lanes
re-stripes what is left of them. -/
theorem linksKeepTheirFrames : Obligations.LinksKeepTheirFrames := by
  unfold Obligations.LinksKeepTheirFrames
  intro s p hp
  have hp' : p < 161 := by omega
  refine ⟨fun hlive hheld hframing => ⟨fun f hread hcheck hlsn => ?_, fun f hcheck hfirst => ?_, fun f hcheck hdiscard hlsn => ?_,
      fun f hread hdiscard hlsn => ?_, runs_fenceRx hp' hlive hheld hframing⟩,
    fun lsn hframing hfew => llrRetryRx_of_few lsn hframing hfew,
    fun lsn hframing hlast hagain hwidth => llrRetryRx_of_last lsn hframing hlast hagain hwidth,
    fun lsn pre e post hreplay he hpre hquiet => runs_linkAckRx lsn hreplay he hpre hquiet,
    fun vc n hadm hquiet => runs_creditReturnRx vc n hadm hquiet, fun lane _ hstriped => runs_laneUnhealthy_rx hstriped,
    fun lane cause hlane hstriped => ?_, runs_restripeDone_rx s p, runs_restripeDone_tx s p,
    fun lane _ hstriped hstage hwiden => runs_laneRejoin_rx hp hstriped hstage hwiden,
    fun lane d h => ⟨s, exec_laneRejoin_of_not_striped lane d h, rfl⟩⟩
  · exact linkFrameRx_of_good f hlive hheld hframing (by simp [frameGood, hread, hcheck, hlsn])
  · exact linkFrameRx_of_bad f hlive hheld hframing (frameGood_of_check_ne hcheck) (.inl hfirst)
  · obtain ⟨t, hexec, hemits, -, hdiscards⟩ :=
      linkFrameRx_of_bad f hlive hheld hframing (frameGood_of_check_ne hcheck) (.inr hlsn)
    exact ⟨t, hexec, hemits, hdiscards⟩
  · exact ⟨s, linkFrameRx_of_passed_over f hlive hheld hframing hread hdiscard hlsn, rfl⟩
  · have hlt : lane < 8 := by
      unfold lanesOfPort at hlane
      split at hlane <;> omega
    exact runs_laneUnhealthy_tx cause hlt hstriped

end Sys2Proof.Machine

/-! # 4-bit elements (R78) -/

namespace Sys2Proof.Machine

open Sys2Proof

/-! ## Reading -/

theorem elemAt_of_nibbles {code : Nat} (h : fmtBits code = 4) (bs : List Byte) (i : Nat) :
    elemAt code bs i = (bs.getD (i / 2) 0).toNat / (if i % 2 = 0 then 1 else 16) % 16 := by
  obtain heven | hodd := Nat.mod_two_eq_zero_or_one i
  · simp [elemAt, h, heven]
  · simp [elemAt, h, hodd]

theorem elemAt_two_mul {code : Nat} (h : fmtBits code = 4) (bs : List Byte) (j : Nat) :
    elemAt code bs (2 * j) = (bs.getD j 0).toNat % 16 := by
  simp [elemAt_of_nibbles h]

theorem elemAt_two_mul_add_one {code : Nat} (h : fmtBits code = 4) (bs : List Byte) (j : Nat) :
    elemAt code bs (2 * j + 1) = (bs.getD j 0).toNat / 16 := by
  have hbyte := (bs.getD j 0).isLt
  rw [elemAt_of_nibbles h, if_neg (by omega), show (2 * j + 1) / 2 = j by omega]
  omega

theorem elemAt_cons_zero {code : Nat} (h : fmtBits code = 4) (b : Byte) (bs : List Byte) :
    elemAt code (b :: bs) 0 = b.toNat % 16 := elemAt_two_mul h (b :: bs) 0

theorem elemAt_cons_one {code : Nat} (h : fmtBits code = 4) (b : Byte) (bs : List Byte) :
    elemAt code (b :: bs) 1 = b.toNat / 16 := elemAt_two_mul_add_one h (b :: bs) 0

theorem elemAt_cons_add_two {code : Nat} (h : fmtBits code = 4) (b : Byte) (bs : List Byte) (i : Nat) :
    elemAt code (b :: bs) (i + 2) = elemAt code bs i := by
  simp [elemAt_of_nibbles h, show (i + 2) / 2 = i / 2 + 1 by omega]

/-- Element `i` rests on the byte that holds it, and an element before the high nibble of that byte on its low nibble alone. -/
theorem elemAt_set_of_lt {code : Nat} (h : fmtBits code = 4) {bs : List Byte} {b : Byte} {j i : Nat}
    (hlow : b.toNat % 16 = (bs.getD j 0).toNat % 16) (hi : i < 2 * j + 1) : elemAt code (bs.set j b) i = elemAt code bs i := by
  by_cases hij : i = 2 * j
  · have hset : ((bs.set j b).getD j 0).toNat % 16 = (bs.getD j 0).toNat % 16 := by
      by_cases hj : j < bs.length
      · simpa [List.getD_eq_getElem?_getD, hj] using hlow
      · rw [List.set_eq_of_length_le (by omega)]
    rw [hij, elemAt_two_mul h, elemAt_two_mul h, hset]
  · have hbyte : j ≠ i / 2 := by omega
    simp [elemAt_of_nibbles h, List.getD_eq_getElem?_getD, List.getElem?_set_ne hbyte]

/-! ## Writing -/

theorem packElems_of_nibbles {code : Nat} (h : fmtBits code = 4) (xs : List Nat) : packElems code xs = packNibbles xs := by
  simp [packElems, h]

theorem length_packNibbles (xs : List Nat) : (packNibbles xs).length = (xs.length + 1) / 2 := by
  induction xs using packNibbles.induct with
  | case1 => rfl
  | case2 a => simp [packNibbles]
  | case3 a b rest ih =>
    simp only [packNibbles, List.length_cons, ih]
    omega

theorem toNat_nibblePair (a b : Nat) : (BitVec.ofNat 8 (a % 16 + 16 * (b % 16))).toNat = a % 16 + 16 * (b % 16) := by
  rw [BitVec.toNat_ofNat]
  omega

/-- The elements read back from the nibbles that hold them, and every nibble past the last element, the padding among them, as 0. -/
theorem elemAt_packNibbles {code : Nat} (h : fmtBits code = 4) (xs : List Nat) (i : Nat) :
    elemAt code (packNibbles xs) i = xs.getD i 0 % 16 := by
  induction xs using packNibbles.induct generalizing i with
  | case1 => simp [packNibbles, elemAt_of_nibbles h]
  | case2 a =>
    have hbyte : (BitVec.ofNat 8 (a % 16)).toNat = a % 16 := toNat_nibblePair a 0
    match i with
    | 0 => rw [packNibbles, elemAt_cons_zero h, hbyte, Nat.mod_mod, List.getD_cons_zero]
    | 1 => rw [packNibbles, elemAt_cons_one h, hbyte, Nat.div_eq_of_lt (Nat.mod_lt _ (by decide)), List.getD_cons_succ,
        List.getD_nil]
    | i + 2 => simp [packNibbles, elemAt_cons_add_two h, elemAt_of_nibbles h]
  | case3 a b rest ih =>
    have hbyte := toNat_nibblePair a b
    match i with
    | 0 =>
      rw [packNibbles, elemAt_cons_zero h, List.getD_cons_zero]
      omega
    | 1 =>
      rw [packNibbles, elemAt_cons_one h, List.getD_cons_succ, List.getD_cons_zero]
      omega
    | i + 2 => rw [packNibbles, elemAt_cons_add_two h, ih, List.getD_cons_succ, List.getD_cons_succ]

/-! ## 4-bit vectors as a whole -/

/-- Settles O38: what is packed reads back nibble by nibble, the padding as the element past the last one, and no element of an odd
vector lies in the high nibble of its last byte. -/
theorem nibblesShareBytes : Obligations.NibblesShareBytes := by
  unfold Obligations.NibblesShareBytes
  intro code h
  simp only [packElems_of_nibbles h]
  refine ⟨fun xs i _ => ?_, length_packNibbles, fun xs hodd => ?_, elemAt_of_nibbles h, fun bs b n hodd hlow => ?_⟩
  · rw [← elemAt_of_nibbles h, elemAt_packNibbles h]
  · have hpad : elemAt code (packNibbles xs) xs.length = 0 := by simp [elemAt_packNibbles h]
    have hlen : xs.length = 2 * (xs.length / 2) + 1 := by omega
    rwa [hlen, elemAt_two_mul_add_one h] at hpad
  · refine List.map_congr_left fun i hi => elemAt_set_of_lt h hlow ?_
    have hlt := List.mem_range.mp hi
    omega

end Sys2Proof.Machine

/-! # The rick (R98 to R110) -/

namespace Sys2Proof.Machine

open Sys2Proof

/-! ## Merging (R101, R103) -/

@[simp] theorem special_rickMerge (a b : Rick) : (rickMerge a b).special = (a.special || b.special) := by
  simp only [Rick.special, rickMerge]
  ac_rfl

theorem v_rickMerge_of_special {a b : Rick} (h : (rickMerge a b).special = true) : (rickMerge a b).v = 0 := by
  rw [special_rickMerge] at h
  exact if_pos h

theorem v_rickMerge_of_not_special {a b : Rick} (ha : a.special = false) (hb : b.special = false) :
    (rickMerge a b).v = a.v + b.v := by
  simp [rickMerge, ha, hb]

theorem rickMerge_comm (a b : Rick) : rickMerge a b = rickMerge b a := by
  simp only [rickMerge, Bool.or_comm, Bool.and_comm, BitVec.add_comm, Nat.add_comm]

/-- A special flag of any of the three clears V on both sides; without one the three V are added. -/
theorem rickMerge_assoc (a b c : Rick) : rickMerge (rickMerge a b) c = rickMerge a (rickMerge b c) := by
  have hv : (rickMerge (rickMerge a b) c).v = (rickMerge a (rickMerge b c)).v := by
    by_cases h : (a.special || b.special || c.special) = true
    · rw [v_rickMerge_of_special (by simpa using h), v_rickMerge_of_special (by simpa [or_assoc] using h)]
    · obtain ⟨⟨ha, hb⟩, hc⟩ : (a.special = false ∧ b.special = false) ∧ c.special = false := by simpa using h
      simp [v_rickMerge_of_not_special, ha, hb, hc, BitVec.add_assoc]
  rw [Rick.mk.injEq]
  exact ⟨hv, Bool.or_assoc .., Bool.or_assoc .., Bool.or_assoc .., Bool.and_assoc .., Nat.add_assoc ..⟩

/-- The empty rick is neutral for every rick that holds V at 0 while a special flag is set (R103). -/
theorem rickMerge_rickEmpty {r : Rick} (h : r.special = true → r.v = 0) : rickMerge r rickEmpty = r := by
  have hv : (rickMerge r rickEmpty).v = r.v := by
    cases hr : r.special
    · exact (v_rickMerge_of_not_special hr rfl).trans (BitVec.add_zero _)
    · rw [v_rickMerge_of_special (by simp [hr]), h hr]
  calc
    rickMerge r rickEmpty = { r with v := (rickMerge r rickEmpty).v } := by simp [rickMerge, rickEmpty]
    _ = r := by rw [hv]

/-- Settles O35: Table 5.2 field by field; V has its lemma, and the flags and the count are the fields of the merge. -/
theorem ricksCarryTheirSideFields : Obligations.RicksCarryTheirSideFields := by
  unfold Obligations.RicksCarryTheirSideFields
  exact ⟨rfl, rfl, rfl, rfl, rfl, rfl, fun _ _ => ⟨rfl, rfl, rfl, rfl, rfl⟩, fun _ _ => v_rickMerge_of_not_special⟩

/-! ## Sums (R102, R103) -/

theorem rickSum_append (r : Rick) (code : Nat) (xs ys : List Nat) :
    rickSum r code (xs ++ ys) = rickSum (rickSum r code xs) code ys := List.foldl_append

theorem rickSum_concat (r : Rick) (code : Nat) (xs : List Nat) (e : Nat) :
    rickSum r code (xs ++ [e]) = rickAdd (rickSum r code xs) code e := rickSum_append r code xs [e]

theorem rickMerge_rickAdd (a b : Rick) (code e : Nat) : rickMerge a (rickAdd b code e) = rickAdd (rickMerge a b) code e :=
  (rickMerge_assoc a b _).symm

theorem rickAdd_right_comm (r : Rick) (code x y : Nat) : rickAdd (rickAdd r code x) code y = rickAdd (rickAdd r code y) code x := by
  simp only [rickAdd, rickMerge_assoc, rickMerge_comm (rickOfVal (elemVal code x))]

/-- R103 along a sum: V is held at 0 while a special flag is set. -/
theorem v_rickSum_of_special (code : Nat) (xs : List Nat) :
    (rickSum rickEmpty code xs).special = true → (rickSum rickEmpty code xs).v = 0 := by
  induction xs using List.reverseRecOn with
  | nil => exact fun _ => rfl
  | append_singleton xs e _ =>
    rw [rickSum_concat]
    exact v_rickMerge_of_special

/-- Elements added to a rick one by one, or summed apart and merged in. -/
theorem rickSum_eq_rickMerge {r : Rick} (h : r.special = true → r.v = 0) (code : Nat) (ys : List Nat) :
    rickSum r code ys = rickMerge r (rickSum rickEmpty code ys) := by
  induction ys using List.reverseRecOn with
  | nil => exact (rickMerge_rickEmpty h).symm
  | append_singleton ys e ih => rw [rickSum_concat, rickSum_concat, rickMerge_rickAdd, ih]

/-- Settles O36: the merge is commutative and associative, so that two addends of a sum change places, and a sum splits where
its list does. -/
theorem ricksDependOnlyOnTheSet : Obligations.RicksDependOnlyOnTheSet := by
  unfold Obligations.RicksDependOnlyOnTheSet
  refine ⟨rickMerge_comm, rickMerge_assoc, fun _ _ => v_rickMerge_of_special, fun r code xs ys hperm => ?_, fun code xs ys => ?_⟩
  · exact hperm.foldl_eq' (fun x _ y _ z => rickAdd_right_comm z code x y) r
  · rw [rickSum_append, rickSum_eq_rickMerge (v_rickSum_of_special code xs)]

end Sys2Proof.Machine

/-! # The wire forms of a rick (R105 to R110, Tables 5.5 and 5.6) -/

namespace Sys2Proof.Machine

open Sys2Proof

/-! ## Reading bytes where they were joined -/

theorem leAt_leBytes (n v : Nat) : leAt (leBytes n v) 0 n = v % 256 ^ n := by
  rw [leAt, slice, List.drop_zero, List.take_of_length_le (leBytes_length n v).le, natOfLE_leBytes]

/-- The `n` bytes of an `8 n`-bit word read back as that word. -/
theorem leAt_leBytes_toNat {w n : Nat} (x : BitVec w) (h : w = 8 * n) : leAt (leBytes n x.toNat) 0 n = x.toNat := by
  have hpow : 256 ^ n = 2 ^ w := by rw [h, pow_mul]; rfl
  rw [leAt_leBytes, hpow, Nat.mod_eq_of_lt x.isLt]

theorem leAt_append_left {as : List Byte} (bs : List Byte) {start n : Nat} (h : start + n ≤ as.length) :
    leAt (as ++ bs) start n = leAt as start n := by
  rw [leAt, slice, List.drop_append_of_le_length (by omega), List.take_append_of_le_length (by rw [List.length_drop]; omega)]
  rfl

theorem leAt_append_leBytes {as : List Byte} {start n v : Nat} (hv : v < 256 ^ n) (hstart : as.length = start) :
    leAt (as ++ leBytes n v) start n = v := by
  rw [leAt, slice, List.drop_left' hstart]
  exact (leAt_leBytes n v).trans (Nat.mod_eq_of_lt hv)

/-! ## The flag bits -/

theorem b2n_le_one (b : Bool) : b2n b ≤ 1 := by cases b <;> decide

theorem beq_one_of_eq_b2n {n : Nat} {b : Bool} (h : n = b2n b) : (n == 1) = b := by
  subst h
  cases b <;> rfl

theorem rickFlagBits_lt (r : Rick) : rickFlagBits r < 128 := by
  have := b2n_le_one r.nan
  have := b2n_le_one r.pinf
  have := b2n_le_one r.ninf
  have := b2n_le_one r.negz
  rw [rickFlagBits]
  omega

/-- Each flag reads back from its bit, whatever stands above bit 6. -/
theorem flags_of_rickFlagBits (r : Rick) (high : Nat) : let x := high * 128 + rickFlagBits r
    (x / 64 % 2 == 1) = r.nan ∧ (x / 32 % 2 == 1) = r.pinf ∧ (x / 16 % 2 == 1) = r.ninf ∧ (x / 8 % 2 == 1) = r.negz := by
  have := b2n_le_one r.nan
  have := b2n_le_one r.pinf
  have := b2n_le_one r.ninf
  have := b2n_le_one r.negz
  simp only [rickFlagBits]
  exact ⟨beq_one_of_eq_b2n (by omega), beq_one_of_eq_b2n (by omega), beq_one_of_eq_b2n (by omega), beq_one_of_eq_b2n (by omega)⟩

/-! ## The full form (R109, R110) -/

theorem fullForm_length (r : Rick) (elem : Nat) : (fullForm r elem).length = 48 := by
  simp [fullForm, leBytes_length]

theorem leAt_fullForm_value (r : Rick) (elem : Nat) : leAt (fullForm r elem) 0 40 = r.v.toNat := by
  simp [fullForm, leAt_append_left, leAt_leBytes_toNat, leBytes_length, - List.append_assoc]

theorem leAt_fullForm_count {r : Rick} (h : r.count ≤ 2147483648) (elem : Nat) : leAt (fullForm r elem) 40 4 = r.count := by
  have hlt : r.count < 256 ^ 4 := by omega
  simp [fullForm, leAt_append_left, leAt_append_leBytes hlt, leBytes_length, - List.append_assoc]

theorem leAt_fullForm_flags (r : Rick) (elem : Nat) : leAt (fullForm r elem) 44 1 = rickFlagBits r := by
  have hlt : rickFlagBits r < 256 ^ 1 := (rickFlagBits_lt r).trans (by decide)
  simp [fullForm, leAt_append_left, leAt_append_leBytes hlt, leBytes_length, - List.append_assoc]

theorem leAt_fullForm_elem (r : Rick) {elem : Nat} (h : elem < 65536) : leAt (fullForm r elem) 45 2 = elem := by
  have hlt : elem < 256 ^ 2 := h
  simp [fullForm, leAt_append_left, leAt_append_leBytes hlt, leBytes_length, - List.append_assoc]

theorem readFull?_fullForm {r : Rick} (hsign : signInvariant r.v = true) (hcount : r.count ≤ 2147483648) {elem : Nat}
    (helem : elem < 65536) : readFull? (fullForm r elem) = some (r, elem) := by
  obtain ⟨hnan, hpinf, hninf, hnegz⟩ := flags_of_rickFlagBits r 0
  simp only [Nat.zero_mul, Nat.zero_add] at hnan hpinf hninf hnegz
  have hcount' : ¬ 2 ^ 31 < r.count := by omega
  simp only [readFull?, leAt_fullForm_value, leAt_fullForm_count hcount, leAt_fullForm_flags, leAt_fullForm_elem r helem, hnan, hpinf,
    hninf, hnegz, BitVec.ofNat_toNat, BitVec.setWidth_eq, hsign, hcount', if_false, Bool.not_true, Bool.false_eq_true]

/-! ## Folding (R106) -/

theorem two_pow_trailingZeros_dvd (fuel n : Nat) : 2 ^ trailingZeros fuel n ∣ n := by
  induction fuel generalizing n with
  | zero => exact one_dvd n
  | succ fuel ih =>
    rw [trailingZeros]
    split
    · exact one_dvd n
    next hodd =>
      have heven : 2 ∣ n := by
        rw [beq_iff_eq] at hodd
        omega
      rw [Nat.add_comm, pow_succ]
      exact (Nat.mul_dvd_mul_right (ih (n / 2)) 2).trans (Nat.div_mul_cancel heven).dvd

theorem foldPos_le (v : BitVec 320) : foldPos v ≤ 176 := by
  rw [foldPos]
  split
  · exact Nat.zero_le _
  · exact Nat.min_le_right ..

theorem two_pow_foldPos_dvd (v : BitVec 320) : (2 : Int) ^ foldPos v ∣ v.toInt := by
  have hnat : 2 ^ foldPos v ∣ v.toNat := by
    rw [foldPos]
    split
    · simp
    · exact (Nat.pow_dvd_pow 2 (Nat.min_le_left ..)).trans (two_pow_trailingZeros_dvd 320 v.toNat)
  have hwidth : (2 : Int) ^ foldPos v ∣ 2 ^ 320 := pow_dvd_pow 2 ((foldPos_le v).trans (by decide))
  have hint : (2 : Int) ^ foldPos v ∣ v.toNat := mod_cast hnat
  rw [BitVec.toInt_eq_msb_cond]
  split
  · exact_mod_cast hint.sub hwidth
  · exact hint

/-- A negative V is the complement of its magnitude bits. -/
theorem toInt_eq_signDiff (v : BitVec 320) : v.toInt = if v.msb then - (signDiff v : Int) - 1 else signDiff v := by
  have := v.isLt
  rw [BitVec.toInt_eq_msb_cond, signDiff]
  split <;> omega

theorem folds_iff (v : BitVec 320) : folds v = true ↔
    v = 0 ∨ signDiff v = 0 ∨ Nat.log2 (signDiff v) < foldPos v ∨ Nat.log2 (signDiff v) ≤ foldPos v + 142 := by
  rw [folds]
  simp only [Bool.or_eq_true, beq_iff_eq, decide_eq_true_eq, or_assoc]

theorem signDiff_zero : signDiff 0 = 0 := by
  simp only [signDiff, BitVec.ofNat_eq_ofNat, BitVec.msb_zero, Bool.false_eq_true, if_false, BitVec.toNat_ofNat, Nat.zero_mod]

/-- A rick that folds differs from its sign at no bit past the 143 from POS on. -/
theorem signDiff_lt_of_folds {v : BitVec 320} (h : folds v = true) : signDiff v < 2 ^ (foldPos v + 143) := by
  by_cases hdiff : signDiff v = 0
  · rw [hdiff]
    positivity
  · rw [← Nat.log2_lt hdiff]
    obtain rfl | hzero | hbelow | hwithin := (folds_iff v).mp h
    · exact absurd signDiff_zero hdiff
    · exact absurd hzero hdiff
    · omega
    · omega

/-- What R106 puts into the window is a 144-bit two's complement value. -/
theorem toInt_div_foldPos_bounds {v : BitVec 320} (h : folds v = true) :
    -2 ^ 143 ≤ v.toInt / 2 ^ foldPos v ∧ v.toInt / 2 ^ foldPos v < 2 ^ 143 := by
  have hpos : (0 : Int) < 2 ^ foldPos v := by positivity
  have hlt : (signDiff v : Int) < 2 ^ 143 * 2 ^ foldPos v := by
    rw [← pow_add, Nat.add_comm]
    exact_mod_cast signDiff_lt_of_folds h
  have hsign := toInt_eq_signDiff v
  rw [Int.le_ediv_iff_mul_le hpos, Int.ediv_lt_iff_lt_mul hpos]
  split at hsign <;> constructor <;> linarith

/-- The low bits of a word are those of its signed value. -/
theorem toNat_mod_eq_toInt_emod {w k : Nat} (x : BitVec w) (h : k ≤ w) : ((x.toNat % 2 ^ k : Nat) : Int) = x.toInt % 2 ^ k := by
  have hdvd : (2 : Int) ^ k ∣ 2 ^ w := pow_dvd_pow 2 h
  rw [BitVec.toInt_eq_msb_cond]
  push_cast
  split
  · exact Int.modEq_iff_dvd.mpr (by simpa using hdvd)
  · rfl

theorem foldWindow_eq (v : BitVec 320) : (foldWindow v : Int) = v.toInt / 2 ^ foldPos v % 2 ^ 144 := by
  have hshift : (v.sshiftRight (foldPos v)).toInt = v.toInt / 2 ^ foldPos v := by
    rw [BitVec.toInt_sshiftRight, Int.shiftRight_eq_div_pow]
    norm_cast
  rw [foldWindow, ← hshift, toNat_mod_eq_toInt_emod _ (by decide)]

/-- A 144-bit two's complement value read from its low 144 bits. -/
theorem ofWindow_emod {q : Int} (hlow : -2 ^ 143 ≤ q) (hhigh : q < 2 ^ 143) {win : Nat} (h : (win : Int) = q % 2 ^ 144) :
    (if win < 2 ^ 143 then (win : Int) else win - 2 ^ 144) = q := by
  split <;> omega

theorem foldWindow_lt (v : BitVec 320) : foldWindow v < 2 ^ 144 := Nat.mod_lt _ (by positivity)

theorem foldWindow_zero : foldWindow 0 = 0 := by
  simp only [foldWindow, BitVec.ofNat_eq_ofNat, BitVec.zero_sshiftRight, BitVec.toNat_ofNat, Nat.zero_mod]

/-! ## The folded form (R105, R107) -/

theorem foldBytes_length (r : Rick) : (foldBytes r).length = 20 := leBytes_length 20 _

theorem leAt_foldBytes (r : Rick) :
    leAt (foldBytes r) 0 20 = (foldWindow r.v * 512 + foldPos r.v) * 128 + rickFlagBits r := by
  have hwin := foldWindow_lt r.v
  have hpos := foldPos_le r.v
  have hflags := rickFlagBits_lt r
  rw [foldBytes, leAt_leBytes]
  omega

theorem foldedPos_foldBytes (r : Rick) : foldedPos (foldBytes r) = foldPos r.v := by
  have hpos := foldPos_le r.v
  have hflags := rickFlagBits_lt r
  rw [foldedPos, leAt_foldBytes]
  omega

theorem foldedWindow_foldBytes (r : Rick) : foldedWindow (foldBytes r) = foldWindow r.v := by
  have hwin := foldWindow_lt r.v
  have hpos := foldPos_le r.v
  have hflags := rickFlagBits_lt r
  rw [foldedWindow, leAt_foldBytes]
  omega

theorem ofInt_foldWindow {v : BitVec 320} (h : folds v = true) :
    BitVec.ofInt 320 ((if foldWindow v < 2 ^ 143 then (foldWindow v : Int) else foldWindow v - 2 ^ 144) * 2 ^ foldPos v) = v := by
  obtain ⟨hlow, hhigh⟩ := toInt_div_foldPos_bounds h
  rw [ofWindow_emod hlow hhigh (foldWindow_eq v), Int.ediv_mul_cancel (two_pow_foldPos_dvd v), BitVec.ofInt_toInt]

theorem unfold?_foldBytes {r : Rick} (hsign : signInvariant r.v = true) (hfolds : folds r.v = true)
    (hflags : r.nan = true ∨ r.pinf = true ∨ r.ninf = true ∨ r.negz = true → r.v = 0) : unfold? (foldBytes r) r.count = some r := by
  obtain ⟨hnan, hpinf, hninf, hnegz⟩ := flags_of_rickFlagBits r (foldWindow r.v * 512 + foldPos r.v)
  have hpos : ¬ 176 < foldPos r.v := (foldPos_le r.v).not_gt
  have hwin : ((r.nan || r.pinf || r.ninf || r.negz) && foldWindow r.v != 0) = false := by
    by_cases hset : (r.nan || r.pinf || r.ninf || r.negz) = true
    · rw [hflags (by simpa [or_assoc] using hset), foldWindow_zero, bne_self_eq_false, Bool.and_false]
    · rw [Bool.eq_false_of_not_eq_true hset, Bool.false_and]
  simp only [unfold?, foldedPos_foldBytes, foldedWindow_foldBytes, leAt_foldBytes, hnan, hpinf, hninf, hnegz, ofInt_foldWindow hfolds,
    hpos, hwin, hsign, if_false, Bool.not_true, Bool.false_eq_true]

/-- Settles O37: a full form is read field by field; a folded rick keeps V in its window, since V is a multiple of 2^POS and
fits 144 bits once divided by it. -/
theorem ricksReadBack : Obligations.RicksReadBack := by
  unfold Obligations.RicksReadBack
  exact fun r hsign => ⟨unfold?_foldBytes hsign, fun _ hcount helem => readFull?_fullForm hsign hcount helem, foldBytes_length r,
    fullForm_length r⟩

end Sys2Proof.Machine

/-! # What buffers and links leave to the reduction slots (R35, R141)

Where a delivery is taken, cells are freed and taken, packets are queued and sent, and items cross the dies. Whatever is done on the
way, no counter of index 7 advances (RED_NO_SLOT_DROP is one), and no word at a multiple of 32 is written (the first word of an entry
of the quire table is one). -/

namespace Sys2Proof.Machine

open Sys2Proof

/-! ## The relation -/

/-- From `s` to `t` no counter 7 of a page advances, and the first word of every entry of 32 bytes is as it was. -/
structure Buffering (s t : State) : Prop where
  drops : ∀ page, page % 4096 = 0 → ctrGet t page 7 = ctrGet s page 7
  heads : ∀ a, a % 32 = 0 → rd t a = rd s a

theorem Buffering.refl (s : State) : Buffering s s := ⟨fun _ _ => rfl, fun _ _ => rfl⟩

theorem Buffering.trans {s t u : State} (h : Buffering s t) (h' : Buffering t u) : Buffering s u :=
  ⟨fun p hp => (h'.drops p hp).trans (h.drops p hp), fun a ha => (h'.heads a ha).trans (h.heads a ha)⟩

theorem Buffering.of_eq {s t : State} (hctrs : t.ctrs = s.ctrs) (hregs : t.regs = s.regs) : Buffering s t :=
  ⟨fun _ _ => ctrGet_congr hctrs _ _, fun _ _ => rd_congr hregs _⟩

/-- An operation that is neither for registers nor for counters. -/
theorem Keeps.buffering {s t : State} (h : Keeps 0x3#64 s t) : Buffering s t := by
  have hctrs : (t.ctrs, t.parts) = (s.ctrs, s.parts) := h.same .counters (by decide)
  simp only [Prod.mk.injEq] at hctrs
  exact .of_eq hctrs.1 (h.same .registers (by decide))

theorem Buffering.ite {s t u : State} {c : Prop} [Decidable c] (ht : Buffering s t) (hu : Buffering s u) :
    Buffering s (if c then t else u) := by
  split
  · exact ht
  · exact hu

theorem Buffering.foldl_mem {α : Type} {f : State → α → State} {l : List α} (hf : ∀ t, ∀ x ∈ l, Buffering t (f t x))
    (s : State) : Buffering s (l.foldl f s) := by
  induction l generalizing s with
  | nil => exact .refl s
  | cons x l ih =>
    exact (hf s x List.mem_cons_self).trans (ih (fun t y hy => hf t y (List.mem_cons_of_mem x hy)) _)

theorem Buffering.foldl {α : Type} {f : State → α → State} (hf : ∀ t x, Buffering t (f t x)) (l : List α) (s : State) :
    Buffering s (l.foldl f s) :=
  .foldl_mem (fun t x _ => hf t x) s

/-! ## The basic updates -/

theorem buffering_wr (s : State) {a : Nat} (w : Word) (h : a % 32 ≠ 0) : Buffering s (wr s a w) :=
  ⟨fun _ _ => rfl, fun b hb => rd_wr_ne s a b w fun e => h (e ▸ hb)⟩

/-- A word of a page at an offset that is no multiple of 32. -/
theorem buffering_wr_page (s : State) {page : Nat} (off : Nat) (w : Word) (hpage : page % 4096 = 0)
    (hoff : off % 32 ≠ 0 := by decide) : Buffering s (wr s (page + off) w) :=
  buffering_wr s w (by omega)

theorem buffering_ctrAdd (s : State) {page i : Nat} (n : Nat) (hpage : page % 4096 = 0) (hi : i < 256 := by decide)
    (h7 : i ≠ 7 := by decide) : Buffering s (ctrAdd s page i n) :=
  ⟨fun q hq => (ctrGet_ctrAdd s page i n q 7).trans (if_neg (by omega)), fun _ _ => rfl⟩

theorem buffering_setCell (s : State) (c : Nat) (x : Cell) : Buffering s (setCell s c x) := .of_eq rfl rfl
theorem buffering_setQueue (s : State) (q : Nat) (x : List QEntry) : Buffering s (setQueue s q x) := .of_eq rfl rfl
theorem buffering_setSession (s : State) (i : Nat) (x : Option Session) : Buffering s (setSession s i x) := .of_eq rfl rfl
theorem buffering_modPort (s : State) (p : Nat) (f : PortSt → PortSt) : Buffering s (modPort s p f) := .of_eq rfl rfl
theorem buffering_emit (s : State) (o : Output) : Buffering s (emit s o) := .of_eq rfl rfl
theorem buffering_deliver (s : State) (d : Delivery) : Buffering s (deliver s d) := .of_eq rfl rfl
theorem buffering_atRest (s : State) : Buffering s (atRest s) := .of_eq rfl rfl
theorem buffering_swath (s : State) (x : Option SwathSt) : Buffering s { s with swath := x } := .of_eq rfl rfl

theorem pPort_mod (p : Nat) : pPort p % 4096 = 0 := by simp only [pPort]; omega
theorem pBufPool_mod (d : Nat) : pBufPool d % 4096 = 0 := by simp only [pBufPool]; omega

theorem buffering_queueWord (s : State) (q : Nat) (w : Word) : Buffering s (wr s (wQueue q + 4) w) :=
  buffering_wr s w (by simp only [wQueue]; omega)

theorem buffering_poolWord (s : State) (c : Nat) (w : Word) :
    Buffering s (wr s (pBufPool (cellDie c) + 0x44 + 4 * cellPool c) w) :=
  buffering_wr s w (by
    have hpool : cellPool c < 4 := Nat.mod_lt _ (by decide)
    simp only [pBufPool]
    omega)

/-! ## Messages, reports and crossings -/

theorem buffering_sendMsg (s : State) (sid ty msgNum flags status : Nat) (body : List Byte) :
    Buffering s (sendMsg s sid ty msgNum flags status body) := by
  unfold sendMsg
  refine .ite (.refl s) ?_
  dsimp only
  refine .trans (.trans ?_ (buffering_ctrAdd _ _ (by decide))) (buffering_emit _ _)
  split
  · exact buffering_setSession _ _ _
  · exact .refl s

theorem buffering_sendPageEvent (s : State) (sid : Nat) (x : Session) (page : Nat) (v : Word) :
    Buffering s (sendPageEvent s sid x page v) :=
  Buffering.trans (t := setSession { s with evtSeq := (s.evtSeq + 1) % 2 ^ 32 } sid _) (.of_eq rfl rfl) (buffering_sendMsg _ _ _ _ _ _ _)

theorem buffering_notifySession (s : State) (page sid : Nat) : Buffering s (notifySession s page sid) := by
  unfold notifySession
  split
  · exact .refl s
  · dsimp only
    exact .ite (.refl s) (.ite (buffering_setSession _ _ _)
      (.ite (buffering_sendPageEvent _ _ _ _ _) (buffering_setSession _ _ _)))

theorem buffering_raise (s : State) {page : Nat} (b : Nat) (hpage : page % 4096 = 0) : Buffering s (raise s page b) :=
  (buffering_wr_page s 0x10 _ hpage).trans (.foldl (fun t sid => buffering_notifySession t page sid) _ _)

theorem buffering_report (s : State) (r : FaultRec) : Buffering s (report s r) := by
  unfold report
  split
  · next p hp => exact (buffering_wr_page s 0x18 _ (pageOfSource_mod hp)).trans (.of_eq rfl rfl)
  · exact .of_eq rfl rfl

theorem buffering_completeUnit (s : State) (x : SwathSt) (u : Nat) : Buffering s (completeUnit s x u) := by
  refine .foldl_mem (fun t p hp => ?_) s
  dsimp only
  refine .trans ?_ (buffering_wr_page _ 0x24 _ (pagesOf_mod u p hp))
  exact .of_eq rfl rfl

theorem buffering_swathWord (s : State) (off : Nat) (w : Word) (hoff : off % 32 ≠ 0 := by decide) :
    Buffering s (wr s (pSwath + off) w) :=
  buffering_wr_page s off w (by decide) hoff

theorem buffering_endSwath (s : State) (st ev : Nat) : Buffering s (endSwath s st ev) := by
  unfold endSwath
  refine .trans ?_ (buffering_raise _ ev (by decide))
  refine .trans ?_ (buffering_swath _ none)
  exact ((buffering_swathWord s 0x44 _).trans (buffering_swathWord _ 0x50 _)).trans (buffering_swathWord _ 0x54 _)

theorem buffering_takeMarker (s : State) (x : SwathSt) (u c : Nat) : Buffering s (takeMarker s x u c) := by
  have hleft : ∀ t y v, Buffering t (fset { t with swath := y } (pSwath + 0x44) 11 3 v) := fun t y v =>
    (buffering_swath t y).trans (buffering_swathWord _ 0x44 _)
  have hunit : ∀ (b : Bool) y, Buffering s (if b = true then s else completeUnit s y u) := fun b y =>
    .ite (.refl s) (buffering_completeUnit s y u)
  unfold takeMarker
  dsimp only
  split
  · exact ((hunit _ _).trans (hleft _ _ _)).trans (buffering_endSwath _ 2 8)
  · exact (hunit _ _).trans (hleft _ _ _)

theorem buffering_hop (s : State) (u v ch : Nat) : Buffering s (hop s u v ch) := by
  have hserve : ∀ t, Buffering t { serveCross t u v ch with hand := some (v, inChannel u v ch) } := fun t => by
    unfold serveCross
    dsimp only
    split <;> exact .of_eq rfl rfl
  unfold hop
  dsimp only
  refine .trans ?_ (hserve _)
  split
  · exact .ite (buffering_takeMarker _ _ _ _) (.refl s)
  · exact .refl s

theorem buffering_cross (s : State) (d e ch : Nat) : Buffering s (cross s d e ch) :=
  Buffering.trans (t := { s with hand := none }) (.of_eq rfl rfl) (.foldl (fun t _ => buffering_hop t _ _ ch) _ _)

/-! ## Cells -/

theorem buffering_takeCell (s : State) (c refs : Nat) (ch : Charge) (acct : Option Nat) (ing : Option (Nat × Nat)) (credits : Nat) :
    Buffering s (takeCell s c refs ch acct ing credits) :=
  ((buffering_setCell s c _).trans (buffering_poolWord _ c _)).trans (buffering_ctrAdd _ _ (pBufPool_mod _) (i := 0))

theorem buffering_returnCredits (s : State) (p v k : Nat) : Buffering s (returnCredits s p v k) := by
  unfold returnCredits
  dsimp only
  refine .trans (buffering_modPort s p _) (.ite (.refl _) (.ite ?_ ?_))
  · exact ((buffering_modPort _ _ _).trans (buffering_ctrAdd _ _ (pBufPool_mod _) (i := 3))).trans (.ite (.refl _) (buffering_emit _ _))
  · exact (buffering_modPort _ _ _).trans (buffering_emit _ _)

theorem buffering_releaseCell (s : State) (c : Nat) : Buffering s (releaseCell s c) := by
  unfold releaseCell
  dsimp only
  refine .trans ?_ (Keeps.buffering (releaseDie_keeps _ _ _ _ (by decide) (Keeps.refl _ _)))
  have hfreed : ∀ (b : Bool) x w, Buffering s (if b = true then setCell s c x else
      wr (setCell s c x) (pBufPool (cellDie c) + 0x44 + 4 * cellPool c) w) := fun b x w =>
    .ite (buffering_setCell s c x) ((buffering_setCell s c x).trans (buffering_poolWord _ c w))
  split
  · exact (hfreed _ _ _).trans (buffering_returnCredits _ _ _ _)
  · exact hfreed _ _ _

theorem buffering_decCell (s : State) (c gen : Nat) : Buffering s (decCell s c gen) := by
  unfold decCell
  dsimp only
  exact .ite ((buffering_ctrAdd _ _ (pBufPool_mod _)).trans (buffering_report _ _))
    (.ite ((buffering_releaseCell _ _).trans (buffering_ctrAdd _ _ (pBufPool_mod _))) (buffering_setCell _ _ _))

/-! ## The scheduler -/

theorem buffering_settleAwake (s : State) (p : Nat) : Buffering s (settleAwake s p) :=
  (settleAwake_keeps _ s s p (by decide) (Keeps.refl _ s)).buffering

theorem buffering_pickQueue (s : State) (p : Nat) : Buffering s (pickQueue s p).2 :=
  (pickQueue_keeps _ s s p (by decide) (Keeps.refl _ s)).buffering

theorem buffering_setBucket (s : State) (p : Nat) (v : Int) : Buffering s (setBucket s p v) :=
  (buffering_wr_page s 0x4C _ (by simp only [pSched]; omega)).trans (buffering_modPort _ p _)

theorem buffering_startSend (s : State) (p q : Nat) (e : QEntry) : Buffering s (startSend s p q e) := by
  unfold startSend
  dsimp only
  refine .trans (.trans (.trans (.trans (.trans ?_ (buffering_cross _ _ _ _)) (buffering_modPort _ p _)) (buffering_modPort _ p _))
    (buffering_settleAwake _ p)) (buffering_atRest _)
  exact .ite (buffering_setBucket _ _ _) (.refl s)

theorem buffering_trailerFault (s : State) (p : Nat) : Buffering s (trailerFault s p) :=
  (buffering_ctrAdd s _ (pPort_mod p)).trans (buffering_report _ _)

theorem buffering_pumpFuel (n : Nat) (s : State) (p : Nat) : Buffering s (pumpFuel n s p) := by
  induction n generalizing s with
  | zero => exact .refl s
  | succ n ih =>
    have hawake := buffering_settleAwake s p
    have hpick := buffering_pickQueue (settleAwake s p) p
    unfold pumpFuel
    dsimp only
    refine .ite hawake ?_
    split
    · next t ht =>
      rw [ht] at hpick
      exact hawake.trans hpick
    · next q t ht =>
      rw [ht] at hpick
      split
      · exact hawake.trans hpick
      · next e rest _ =>
        have htaken : Buffering s (storedSub (setQueue t q rest) q (sizeOf' e.pkt)) :=
          (hawake.trans hpick).trans ((buffering_setQueue t q rest).trans (buffering_queueWord _ q _))
        refine .ite hawake (.ite (htaken.trans (buffering_startSend _ p q e)) ?_)
        exact ((htaken.trans (buffering_trailerFault _ p)).trans (buffering_decCell _ _ _)).trans (ih _)

/-! ## Packets stored -/

theorem buffering_markEcn (s : State) (p : Nat) (k : Pkt) : Buffering s (markEcn s p k).2 := by
  unfold markEcn
  split
  · exact .refl s
  · exact buffering_ctrAdd s _ (pPort_mod p)

theorem buffering_enqueue (s : State) (p c gen : Nat) (k : Pkt) (ing : Option Nat) : Buffering s (enqueue s p c gen k ing) := by
  have hcross := buffering_cross s (cellDie c) (dieOfPort p) chPacket
  unfold enqueue
  dsimp only
  refine .trans (.trans (.trans (.trans ?_ (buffering_ctrAdd _ 1 (pPort_mod p) (i := 14))) (buffering_atRest _))
    ((buffering_setQueue _ _ _).trans (buffering_queueWord _ _ _))) (buffering_pumpFuel _ _ p)
  split
  · exact hcross.trans (buffering_markEcn _ _ _)
  · exact hcross

theorem buffering_origStore (s : State) (w : OrigWait) : Buffering s (origStore s w) := by
  unfold origStore
  dsimp only
  split
  · exact .refl s
  · exact .trans (buffering_takeCell _ _ _ _ _ _ _) (.ite (buffering_deliver _ _) (.foldl (fun t _ => buffering_enqueue t _ _ _ _ _) _ _))

theorem buffering_serveOrig (n : Nat) (s : State) : Buffering s (serveOrig n s) := by
  induction n generalizing s with
  | zero => exact .refl s
  | succ n ih =>
    unfold serveOrig
    split
    · exact .refl s
    · refine .trans (.trans ?_ (buffering_origStore _ _)) (ih _)
      exact .of_eq rfl rfl

theorem buffering_setDeliv (s : State) (h : Nat) (x : Option Delivery) : Buffering s (setDeliv s h x) := .of_eq rfl rfl

theorem buffering_takeDelivery (s : State) (h : Nat) (d : Delivery) : Buffering s (takeDelivery s h d) :=
  ((buffering_setDeliv s h none).trans (buffering_decCell _ _ _)).trans (buffering_serveOrig _ _)

end Sys2Proof.Machine

/-! # Deliveries taken (R122, R224, Table 6.4) -/

namespace Sys2Proof.Machine

open Sys2Proof

/-! ## Once -/

/-- From `s` to `t` what only grows until a reset has grown. -/
abbrev GrowsFrom (s t : State) : Prop := Keeps 0x8000000000000000#64 s t

theorem GrowsFrom.nextHandle_le {s t : State} (hst : GrowsFrom s t) : s.nextHandle ≤ t.nextHandle := by
  obtain ⟨-, hnext, -⟩ := hst.grows (by decide)
  exact hnext

/-- What has been taken is not delivered again. -/
theorem GrowsFrom.taken {s t : State} {h : Nat} (hst : GrowsFrom s t) (hlt : h < s.nextHandle) (ht : Taken s h) : Taken t h := by
  obtain ⟨-, -, htaken, -⟩ := hst.grows (by decide)
  exact htaken h hlt ht

theorem taken_setDeliv (s : State) (h : Nat) : Taken (setDeliv s h none) h := (getDeliv_setDeliv s h h none).trans (if_pos rfl)

/-- Freeing the cell and serving what waits for one delivers under new handles only. -/
theorem takeDelivery_growsFrom (s : State) (h : Nat) (d : Delivery) :
    GrowsFrom (setDeliv s h none) (takeDelivery s h d) :=
  serveWaiters_keeps _ _ _ (by decide) (decCell_keeps _ _ _ _ _ (by decide) (Keeps.refl _ _))

/-- A delivery taken stays taken through whatever only grows. -/
theorem taken_of_takeDelivery {s t : State} {h : Nat} {d : Delivery} (hlt : h < s.nextHandle)
    (ht : GrowsFrom (takeDelivery s h d) t) : Taken t h := by
  have htake := takeDelivery_growsFrom s h d
  exact ht.taken (hlt.trans_le htake.nextHandle_le) (htake.taken hlt (taken_setDeliv s h))

theorem collectiveRx_of_other_type {s : State} {h : Nat} {d : Delivery} {ty : BitVec 6} (hd : getDeliv s h = some d)
    (hty : d.pkt.ty ≠ ty) (fault : Bool) : collectiveRx s h ty fault = s := by
  simp [collectiveRx, hd, hty]

/-- A packet of a collective has its effect once its delivery has been taken. -/
theorem collectiveRx_growsFrom {s : State} {h : Nat} {d : Delivery} {ty : BitVec 6} (hd : getDeliv s h = some d) (hty : d.pkt.ty = ty)
    (fault : Bool) : GrowsFrom (takeDelivery s h d) (collectiveRx s h ty fault) := by
  have hgo : (d.pkt.ty != ty) = false := by simp [hty]
  have hstart : GrowsFrom (takeDelivery s h d) (takeDelivery s h d) := Keeps.refl _ _
  have hdropped : ∀ page i, GrowsFrom (takeDelivery s h d) (ctrAdd (takeDelivery s h d) page i 1) := fun page i =>
    ctrAdd_keeps _ _ _ _ _ _ (by decide) hstart
  simp only [collectiveRx, hd, hgo, Bool.false_eq_true, if_false]
  split
  case h_1 t hagain => exact againOf_keeps _ _ _ _ _ t (by decide) hagain hstart
  split
  case h_1 => exact hdropped _ _
  split
  case h_1 => exact hdropped _ _
  refine keeps_ite (fun _ => hdropped _ _) fun _ => ?_
  split
  case h_1 => exact hdropped _ _
  split
  case h_1 => exact hstart
  refine keeps_ite (fun _ => ?_) fun _ =>
    keeps_ite (fun _ => settleCommit_keeps _ _ _ _ _ (by decide) (ownResult_keeps _ _ _ _ _ _ _ (by decide) ?_)) fun _ =>
      settleCommit_keeps _ _ _ _ _ (by decide) (byGeneration_keeps _ _ _ _ _ _ _ _ _ _ (by decide) ?_)
  all_goals
    refine streamAccept_keeps _ _ _ _ _ _ (by decide) ?_
    split
    · exact hstart
    · exact unplanned_keeps _ _ _ _ _ (by decide) hstart
    · exact hstart

/-- A packet of a collective is taken by the command of its type. -/
theorem taken_collectiveRx {s : State} {h : Nat} {d : Delivery} {ty : BitVec 6} (hd : getDeliv s h = some d) (hlt : h < s.nextHandle)
    (hty : d.pkt.ty = ty) (fault : Bool) : Taken (collectiveRx s h ty fault) h :=
  taken_of_takeDelivery hlt (collectiveRx_growsFrom hd hty fault)

theorem isNotice_of_getDeliv {s : State} {h : Nat} {d : Delivery} (hd : getDeliv s h = some d) :
    isNotice s h = (d.pkt.ty == tResult && d.pkt.offset == 0xFFFFFFFF) := by
  simp [isNotice, hd]

theorem resultRx_takes {s : State} {h : Nat} {d : Delivery} (hd : getDeliv s h = some d) (hlt : h < s.nextHandle)
    (hty : d.pkt.ty = tResult) (hoff : d.pkt.offset ≠ 0xFFFFFFFF) : Runs (.resultRx h) s fun t => Taken t h := by
  have hexec : exec (.resultRx h) s = execResultRx h s := rfl
  have hnotice : isNotice s h = false := by simpa [isNotice_of_getDeliv hd] using fun _ => hoff
  exact ⟨_, by rw [hexec, execResultRx, hnotice, if_neg Bool.false_ne_true], taken_collectiveRx hd hlt hty false⟩

theorem statusNoticeRx_takes {s : State} {h : Nat} {d : Delivery} (hd : getDeliv s h = some d) (hlt : h < s.nextHandle)
    (hty : d.pkt.ty = tResult) (hoff : d.pkt.offset = 0xFFFFFFFF) (cf : Bool) :
    Runs (.statusNoticeRx h cf) s fun t => Taken t h := by
  have hexec : exec (.statusNoticeRx h cf) s = execStatusNoticeRx h cf s := rfl
  have hnotice : isNotice s h = true := by simp [isNotice_of_getDeliv hd, hty, hoff]
  exact ⟨_, by rw [hexec, execStatusNoticeRx, hnotice, if_pos rfl], taken_collectiveRx hd hlt hty cf⟩

theorem ackRx_takes {s : State} {h : Nat} {d : Delivery} (hd : getDeliv s h = some d) (hlt : h < s.nextHandle)
    (hty : d.pkt.ty = tAck) : Runs (.ackRx h) s fun t => Taken t h := by
  have hexec : exec (.ackRx h) s = execAckRx h s := rfl
  have hstart : GrowsFrom (takeDelivery s h d) (takeDelivery s h d) := Keeps.refl _ _
  simp only [Runs, hexec, execAckRx, hd, hty, bne_self_eq_false, Bool.false_eq_true, if_false]
  split
  · exact ⟨_, rfl, taken_of_takeDelivery hlt hstart⟩
  · next x _ =>
    refine ⟨_, rfl, taken_of_takeDelivery (d := d) hlt (settle_keeps _ _ _ _ (by decide) ?_)⟩
    exact keeps_foldl _ _ _ (fun t u ht => slotAcked_keeps _ _ _ _ _ (by decide) ht) (takeAck_keeps _ _ _ _ _ _ (by decide) hstart)

/-! ## DATA -/

theorem contextOfPair_congr {s t : State} (h : t.streams = s.streams) (k : Pkt) : contextOfPair t k = contextOfPair s k := by
  simp only [contextOfPair, h]

theorem takeDelivery_streams (s : State) (h : Nat) (d : Delivery) : (takeDelivery s h d).streams = s.streams :=
  (takeDelivery_keeps 0x80000#64 s s h d (by decide) (Keeps.refl _ s)).same .streams (by decide)

/-- Whether a packet is a duplicate rests on the contexts alone. -/
theorem againOf_isSome_congr {s t : State} (h : t.streams = s.streams) (k : Pkt) (die : Nat) :
    (againOf t k die).isSome = (againOf s k die).isSome := by
  have hget : ∀ c, getStream t c = getStream s c := fun c => by simp only [getStream, h]
  simp only [againOf, contextOfPair_congr h, hget]
  split
  · rfl
  · split
    · rfl
    · split <;> rfl

/-- A DATA or TRANSIT packet has its effect once its delivery has been taken. -/
theorem dataRx_growsFrom {s : State} {h : Nat} {d : Delivery} (hd : getDeliv s h = some d)
    (hty : d.pkt.ty = tData ∨ d.pkt.ty = tTransit) : Runs (.dataRx h) s (GrowsFrom (takeDelivery s h d)) := by
  have hexec : exec (.dataRx h) s = execDataRx h s := rfl
  have hgo : (d.pkt.ty != tData && d.pkt.ty != tTransit) = false := by
    obtain hty | hty := hty <;> simp [hty]
  have hstart : GrowsFrom (takeDelivery s h d) (takeDelivery s h d) := Keeps.refl _ _
  have hdropped : ∀ page i, GrowsFrom (takeDelivery s h d) (ctrAdd (takeDelivery s h d) page i 1) := fun page i =>
    ctrAdd_keeps _ _ _ _ _ _ (by decide) hstart
  have haccept : ∀ c, GrowsFrom (takeDelivery s h d) (streamAccept (takeDelivery s h d) c d.pkt d.die).1 := fun c =>
    streamAccept_keeps _ _ _ _ _ _ (by decide) hstart
  simp only [Runs, hexec, execDataRx, hd, hgo, Bool.false_eq_true, if_false]
  split
  case isTrue hagain =>
    rw [← againOf_isSome_congr (takeDelivery_streams s h d), Option.isSome_iff_exists] at hagain
    obtain ⟨t, ht⟩ := hagain
    exact ⟨t, by rw [ht, Option.getD_some], againOf_keeps _ _ _ _ _ t (by decide) ht hstart⟩
  split
  case isTrue =>
    split
    · exact ⟨_, rfl, hdropped _ _⟩
    · exact ⟨_, rfl, hstart⟩
  split
  case isTrue => exact ⟨_, rfl, hstart⟩
  split
  case h_1 => exact ⟨_, rfl, hdropped _ _⟩
  split
  case h_1 => exact ⟨_, rfl, hdropped _ _⟩
  split
  case h_1 =>
    exact ⟨_, rfl, keeps_ite (fun _ => settle_keeps _ _ _ _ (by decide) (recvRx_keeps _ _ _ _ _ _ _ _ (by decide) (haccept _)))
      fun _ => haccept _⟩
  split
  case isTrue => exact ⟨_, rfl, hdropped _ _⟩
  split
  case h_1 => exact ⟨_, rfl, hdropped _ _⟩
  split
  case h_1 => exact ⟨_, rfl, hstart⟩
  exact ⟨_, rfl, keeps_ite (fun _ => settle_keeps _ _ _ _ (by decide) (moveRx_keeps _ _ _ _ _ _ _ _ _ _ (by decide) (haccept _)))
    fun _ => haccept _⟩

/-! ## A quire that the switch does not know (Table 6.4) -/

/-- The entries of the quire table are found by their first words. -/
theorem subOfQuire_congr {s t : State} (h : ∀ n, rd t (wQuire n) = rd s (wQuire n)) (q : Nat) : subOfQuire t q = subOfQuire s q := by
  simp only [subOfQuire, quireValid, quireId, bit, fget, h]

theorem Buffering.subOfQuire_eq {s t : State} (h : Buffering s t) (q : Nat) : subOfQuire t q = subOfQuire s q :=
  subOfQuire_congr (fun n => h.heads _ (by simp only [wQuire]; omega)) q

/-- A packet of an unknown quire is counted by the die of its arrival, and nothing else becomes of it. -/
theorem collectiveRx_of_unknown_quire {s : State} {h : Nat} {d : Delivery} {ty : BitVec 6} (hd : getDeliv s h = some d)
    (hty : d.pkt.ty = ty) (hquire : subOfQuire s d.pkt.quire.toNat = none) (hpair : contextOfPair s d.pkt = none) (fault : Bool) :
    collectiveRx s h ty fault = ctrAdd (takeDelivery s h d) (pReduce d.die) 7 1 := by
  have hnone : subOfQuire (takeDelivery s h d) d.pkt.quire.toNat = none :=
    ((buffering_takeDelivery s h d).subOfQuire_eq _).trans hquire
  have hnew : againOf (takeDelivery s h d) d.pkt d.die = none := by
    simp only [againOf, contextOfPair_congr (takeDelivery_streams s h d), hpair]
  simp [collectiveRx, hd, hty, hnew, hnone]

theorem takeDelivery_slots (s : State) (h : Nat) (d : Delivery) : (takeDelivery s h d).slots = s.slots :=
  (takeDelivery_keeps 0x800000#64 s s h d (by decide) (Keeps.refl _ s)).same .slots (by decide)

theorem takeDelivery_heldPkts (s : State) (h : Nat) (d : Delivery) : (takeDelivery s h d).heldPkts = s.heldPkts := by
  have hwaiting := (takeDelivery_keeps 0x1000000#64 s s h d (by decide) (Keeps.refl _ s)).same .waiting (by decide)
  simp only [Part.same, Prod.mk.injEq] at hwaiting
  exact hwaiting.1

/-- What the discard of a packet of an unknown quire leaves: one more in RED_NO_SLOT_DROP, and the slots as they were. -/
theorem collectiveRx_drops_unknown_quire {s : State} {h : Nat} {d : Delivery} {ty : BitVec 6} (hd : getDeliv s h = some d)
    (hty : d.pkt.ty = ty) (hquire : subOfQuire s d.pkt.quire.toNat = none) (hpair : contextOfPair s d.pkt = none) (fault : Bool) :
    ctrGet (collectiveRx s h ty fault) (pReduce d.die) 7 = ctrGet s (pReduce d.die) 7 + 1 ∧
      (collectiveRx s h ty fault).slots = s.slots ∧ (collectiveRx s h ty fault).heldPkts = s.heldPkts := by
  rw [collectiveRx_of_unknown_quire hd hty hquire hpair]
  refine ⟨?_, takeDelivery_slots s h d, takeDelivery_heldPkts s h d⟩
  rw [ctrGet_ctrAdd_same, (buffering_takeDelivery s h d).drops _ (by simp only [pReduce]; omega)]
  rfl

/-- Settles O20: the delivery is gone before the packet has any effect, and all that follows delivers under new handles; a packet of
an unknown quire is counted, and what its cell's freeing sets going writes neither its counter nor the quire table. -/
theorem deliveriesAreTakenOnce : Obligations.DeliveriesAreTakenOnce := by
  unfold Obligations.DeliveriesAreTakenOnce
  intro s h d hd hlt
  refine ⟨fun hty => ⟨_, rfl, taken_collectiveRx hd hlt hty false⟩, fun hty => ⟨_, rfl, taken_collectiveRx hd hlt hty false⟩,
    fun hty => ⟨_, rfl, taken_collectiveRx hd hlt hty false⟩, resultRx_takes hd hlt, statusNoticeRx_takes hd hlt, ackRx_takes hd hlt,
    fun hty => ?_, fun hty => ⟨_, rfl, collectiveRx_of_other_type hd hty false⟩,
    fun hty => ⟨_, rfl, collectiveRx_of_other_type hd hty false⟩, fun hty => ⟨_, rfl, collectiveRx_of_other_type hd hty false⟩,
    fun _ _ hquire hpair c hc hty => ?_⟩
  · obtain ⟨t, ht, hgrows⟩ := dataRx_growsFrom hd hty
    exact ⟨t, ht, taken_of_takeDelivery hlt hgrows⟩
  · simp only [List.mem_cons, List.not_mem_nil, or_false] at hc
    obtain rfl | rfl | rfl := hc
    · exact ⟨_, rfl, collectiveRx_drops_unknown_quire hd hty hquire hpair false⟩
    · exact ⟨_, rfl, collectiveRx_drops_unknown_quire hd hty hquire hpair false⟩
    · exact ⟨_, rfl, collectiveRx_drops_unknown_quire hd hty hquire hpair false⟩

end Sys2Proof.Machine

/-! # Posts, counters and triggers (R116, R149, R156 to R159) -/

namespace Sys2Proof.Machine

open Sys2Proof

/-! ## The hold queue -/

theorem mem_insertNat {k a : Nat} {xs : List Nat} : a ∈ insertNat k xs ↔ a = k ∨ a ∈ xs := by
  induction xs with
  | nil => simp [insertNat]
  | cons x xs ih =>
    rw [insertNat]
    split
    · exact List.mem_cons
    · split
      case isTrue h =>
        obtain rfl : k = x := beq_iff_eq.1 h
        simp
      case isFalse => rw [List.mem_cons, ih, List.mem_cons, or_left_comm]

theorem length_insertNat_le (k : Nat) (xs : List Nat) : (insertNat k xs).length ≤ xs.length + 1 := by
  induction xs with
  | nil => simp [insertNat]
  | cons x xs ih =>
    rw [insertNat]
    split
    · exact Nat.le_refl _
    · split
      · exact Nat.le_succ _
      · exact Nat.succ_le_succ ih

/-- A job whose least waiting post has entered the hold queue. -/
def enterHold (j : JobSt) (w : Nat) (ws : List Nat) : JobSt := { j with waitPosts := ws, hold := insertNat w j.hold }

theorem enterOne_nil {s : State} {n : Nat} {j : JobSt} (hpend : s.pendingPosts = []) (hw : j.waitPosts = []) : enterOne s n j = none := by
  simp [enterOne, pendingOf, hpend, hw]

theorem enterOne_cons {s : State} {n : Nat} {j : JobSt} {w : Nat} {ws : List Nat} (hpend : s.pendingPosts = [])
    (hw : j.waitPosts = w :: ws) : enterOne s n j = some (setJob s n (some (enterHold j w ws))) := by
  simp [enterOne, pendingOf, hpend, hw, enterHold]

/-- Where no trigger is PENDING the waiting posts enter until none is left or the hold queue is full, and none is lost. -/
theorem enterWaiting_moves_posts {s : State} {n : Nat} (hpend : s.pendingPosts = []) (fuel : Nat) {j : JobSt} (hj : getJob s n = some j)
    (hfuel : j.waitPosts.length ≤ fuel) :
    ∃ y, getJob (enterWaiting fuel s n) n = some y ∧ (y.waitPosts = [] ∨ 4096 ≤ y.hold.length) ∧
      ∀ k, k ∈ y.hold ∨ k ∈ y.waitPosts ↔ k ∈ j.hold ∨ k ∈ j.waitPosts := by
  induction fuel generalizing s j with
  | zero => exact ⟨j, hj, .inl (List.eq_nil_of_length_eq_zero (Nat.le_zero.1 hfuel)), fun _ => Iff.rfl⟩
  | succ fuel ih =>
    simp only [enterWaiting, hj]
    split
    case isTrue hfull => exact ⟨j, hj, .inr hfull, fun _ => Iff.rfl⟩
    case isFalse =>
      cases hw : j.waitPosts with
      | nil =>
        rw [enterOne_nil hpend hw]
        exact ⟨j, hj, .inl hw, fun k => by rw [hw]⟩
      | cons w ws =>
        rw [enterOne_cons hpend hw]
        rw [hw] at hfuel
        obtain ⟨y, hy, hend, hsame⟩ := ih (s := setJob s n (some (enterHold j w ws))) hpend
          ((getJob_setJob s n n _).trans (if_pos rfl)) (Nat.le_of_succ_le_succ hfuel)
        refine ⟨y, hy, hend, fun k => (hsame k).trans ?_⟩
        simp only [enterHold, mem_insertNat, List.mem_cons]
        tauto

/-! ## Posts of a trigger -/

/-- A post that nothing of lower number waits before enters the hold queue while it has space. -/
theorem getJob_postK {s : State} {n k : Nat} {j : JobSt} (hj : getJob s n = some j) (hroom : j.hold.length < 4096)
    (hwait : j.waitPosts = []) (hnext : nextPost s n j = some k) :
    getJob (postK s n k) n = some { notePosted j k with hold := insertNat k j.hold } := by
  have hlower : lowerWaits (ctrAdd s (pColl (descOf s n k).engine) 0 1) n j k = false := by
    have hnext' : nextPost (ctrAdd s (pColl (descOf s n k).engine) 0 1) n j = some k := hnext
    simp [lowerWaits, hwait, hnext']
  have hgo : (decide ((notePosted j k).hold.length < 4096) && !false) = true := by simpa [notePosted] using hroom
  simp only [postK, hj, hlower, hgo, if_true]
  exact (getJob_setJob _ _ _ _).trans (if_pos rfl)

/-- Posts that the hold queue has space for, with no post waiting, are all made. -/
theorem postSome_fst_eq_zero {s : State} {n fuel : Nat}
    (h : ∀ j, getJob s n = some j → j.hold.length + fuel ≤ 4096 ∧ j.waitPosts = []) : (postSome fuel s n).1 = 0 := by
  induction fuel generalizing s with
  | zero => rfl
  | succ fuel ih =>
    unfold postSome
    split
    · rfl
    · next j hj =>
      obtain ⟨hroom, hwait⟩ := h j hj
      have hspace : ¬4096 ≤ j.hold.length := by omega
      simp only [hspace, hwait, List.any_nil, Bool.false_eq_true, if_false]
      split
      · rfl
      · split
        · rfl
        · next k hk =>
          refine ih fun y hy => ?_
          rw [getJob_postK hj (Nat.not_le.1 hspace) hwait hk] at hy
          obtain rfl := Option.some.inj hy
          have hlen := length_insertNat_le k j.hold
          exact ⟨by dsimp only; omega, hwait⟩

/-! ## A trigger that goes on (R149, R158) -/

theorem trigAfter_of_not_rearm {s : State} {t : Nat} (h : trigRearm s t = false) : trigAfter s t = fset s (wTrig t) 30 28 3 := by
  simp [trigAfter, h]

theorem trigPosts_regs (s : State) (t count : Nat) : (trigPosts s t count).2.regs = s.regs := by
  unfold trigPosts
  split
  · rfl
  · exact (postSome_keeps 0x1#64 s count s (trigSub s t) (by decide) (Keeps.refl _ s)).same .registers (by decide)

/-- A POST of a trigger without REARM that finds space for all its posts: the trigger has FIRED, and none is left of them. -/
theorem trigPost_of_all_posted {s : State} {t count : Nat} (hall : (trigPosts s t count).1 = 0) (hrearm : trigRearm s t = false) :
    trigState (trigPost s t count) t = 3 ∧ Sparse.get (fun _ => 0) (trigPost s t count).pendingPosts t = 0 := by
  have hrearm' : ∀ p, trigRearm { (trigPosts s t count).2 with pendingPosts := p } t = false := fun p =>
    (bit_congr (trigPosts_regs s t count) _ _).trans hrearm
  rw [trigPost_eq]
  simp only [hall, BEq.rfl, if_true, trigAfter_of_not_rearm (hrearm' _)]
  exact ⟨fget_fset_same _ _ _ _ _ (by decide) (by decide) (by decide), (Sparse.get_erase _ _ _ _).trans (if_pos rfl)⟩

theorem resumePost_of_space {s : State} {t : Nat} (hleft : Sparse.get (fun _ => 0) s.pendingPosts t ≠ 0) (hst : trigState s t = 2)
    (hrearm : trigRearm s t = false)
    (hothers : (s.pendingPosts.all fun e => e.1 == t || e.2 == 0 || trigSub s e.1 != trigSub s t) = true)
    (hspace : ∀ j, getJob s (trigSub s t) = some j →
      j.hold.length + Sparse.get (fun _ => 0) s.pendingPosts t ≤ 4096 ∧ j.waitPosts = []) :
    trigState (resumePost s t) t = 3 ∧ Sparse.get (fun _ => 0) (resumePost s t).pendingPosts t = 0 := by
  have hnone : (s.pendingPosts.any fun e => e.1 != t && e.2 != 0 && trigSub s e.1 == trigSub s t) = false := by
    rw [← Bool.not_eq_true', List.not_any_eq_all_not, ← hothers]
    congr 1
    funext e
    simp only [bne, Bool.not_and, Bool.not_not]
  have hall : (trigPosts s t (Sparse.get (fun _ => 0) s.pendingPosts t)).1 = 0 := by
    rw [trigPosts, hnone, if_neg Bool.false_ne_true]
    exact postSome_fst_eq_zero hspace
  obtain ⟨hfired, hgone⟩ := trigPost_of_all_posted hall hrearm
  have hresume : resumePost s t = trigPost s t (Sparse.get (fun _ => 0) s.pendingPosts t) := by
    simp [resumePost, hleft, hst, hfired]
  rw [hresume]
  exact ⟨hfired, hgone⟩

theorem resumePost_of_not_pending {s : State} {t : Nat} (hst : trigState s t ≠ 2) : resumePost s t = s := by
  simp [resumePost, hst]

/-! ## Counters that no trigger watches (R156) -/

theorem Sparse.range_erase {α : Type} (m : Sparse α) {k lo hi : Nat} (h : k < lo ∨ hi ≤ k) :
    Sparse.range (Sparse.erase m k) lo hi = Sparse.range m lo hi := by
  induction m with
  | nil => rfl
  | cons e m ih =>
    obtain ⟨i, w⟩ := e
    simp only [Sparse.range, Sparse.erase, List.filter_cons] at ih ⊢
    split
    case isTrue heq =>
      have hkey : ¬(decide (lo ≤ i) && decide (i < hi)) = true := by
        rw [heq, Bool.and_eq_true, decide_eq_true_eq, decide_eq_true_eq]
        omega
      rw [ih, if_neg hkey]
    case isFalse => rw [List.filter_cons, ih]

theorem Sparse.range_insert {α : Type} (m : Sparse α) {k lo hi : Nat} (v : α) (h : k < lo ∨ hi ≤ k) :
    Sparse.range (Sparse.insert m k v) lo hi = Sparse.range m lo hi := by
  have hkey : ¬(decide (lo ≤ k) && decide (k < hi)) = true := by
    rw [Bool.and_eq_true, decide_eq_true_eq, decide_eq_true_eq]
    omega
  induction m with
  | nil => exact (List.filter_cons ..).trans (if_neg hkey)
  | cons e m ih =>
    simp only [Sparse.range, Sparse.insert] at ih ⊢
    split
    · exact (List.filter_cons ..).trans (if_neg hkey)
    · rw [List.filter_cons, List.filter_cons, ih]

/-- An update outside a range of keys leaves the range as it was. -/
theorem Sparse.range_set {α : Type} [DecidableEq α] (d : Nat → α) (m : Sparse α) {k lo hi : Nat} (v : α) (h : k < lo ∨ hi ≤ k) :
    Sparse.range (Sparse.set d m k v) lo hi = Sparse.range m lo hi := by
  unfold Sparse.set
  split
  · exact Sparse.range_erase m h
  · rw [Sparse.range_insert _ v h, Sparse.range_erase m h]

theorem triggersOf_congr {s t : State} (h : t.regs = s.regs) (c : Nat) : triggersOf t c = triggersOf s c := by
  simp only [triggersOf, h]

/-- The triggers of a counter are found in the trigger table alone. -/
theorem triggersOf_wr (s : State) {a : Nat} (w : Word) (c : Nat) (h : a < wTrig 0) : triggersOf (wr s a w) c = triggersOf s c := by
  simp only [triggersOf, wr, Sparse.range_set _ _ _ (Or.inl h)]

theorem advance_of_no_triggers {s : State} {c : Nat} (h : triggersOf s c = []) (fuel amt : Nat) :
    advance (fuel + 1) s c amt = setEvCtr s c (getEvCtr s c + BitVec.ofNat 64 amt) := by
  have hnone : triggersOf (setEvCtr s c (getEvCtr s c + BitVec.ofNat 64 amt)) c = [] := h
  simp only [advance, hnone, List.foldl_nil]

theorem advanceCounter_of_no_triggers {s : State} {c : Nat} (h : triggersOf s c = []) (amt : Nat) :
    advanceCounter s c amt = setEvCtr s c (getEvCtr s c + BitVec.ofNat 64 amt) :=
  advance_of_no_triggers h 16384 amt

/-- The row of page TRIGGER in the catalogue (Table 20.8). -/
def trigKind : PageKind := ⟨0x2F, 0xF00000, 8, false, false, 2⟩

theorem pageOf_trig {d off : Nat} (hd : d < 8) (h : off < 0x1000) : pageOf (pTrig d + off) = some (trigKind, pTrig d) := by
  have hdiv : 0x1000 * ((pTrig d + off) / 0x1000) = pTrig d := by simp only [pTrig]; omega
  rw [pageOf_of_mem (k := trigKind) (by decide) (by simp only [pTrig, trigKind]; omega) (by simp only [pTrig, trigKind]; omega), hdiv]

/-- An accepted write of TRIG_ADD_AMT advances the counter that the page selects, and no trigger where none watches it. -/
theorem getEvCtr_trigAdd {s : State} {who : Requester} {die : Nat} {amount : Word} (hd : die < 8)
    (hnone : triggersOf s (fget s (pTrig die + 0x40) 14 0) = []) :
    getEvCtr (acceptWrite s who none (pTrig die + 0x44) amount 0xFFFFFFFF) (fget s (pTrig die + 0x40) 14 0) =
      getEvCtr s (fget s (pTrig die + 0x40) 14 0) + BitVec.ofNat 64 amount.toNat := by
  rw [acceptWrite_page s who none amount 0xFFFFFFFF (pageOf_trig hd (by decide)) (by decide) (by decide) (by decide)]
  generalize hold : rd s (pTrig die + 0x44) = old
  generalize hnew : mergeWord (pTrig die + 0x44) old amount 0xFFFFFFFF = new
  generalize hrec : recordWrite s who (pTrig die + 0x44) amount 0xFFFFFFFF (changeOf s (pTrig die + 0x44) amount 0xFFFFFFFF) 0 = u
  have hregs : u.regs = s.regs := by rw [← hrec, recordWrite_regs]
  have hctrs : ∀ c, getEvCtr u c = getEvCtr s c := fun c => by
    rw [← hrec, recordWrite_frame]
    rfl
  have hsel : fget (wr u (pTrig die + 0x44) new) (pTrig die + 0x40) 14 0 = fget s (pTrig die + 0x40) 14 0 := by
    rw [fget_wr_ne _ _ _ _ _ _ (by omega), fget_congr hregs]
  have hamount : amount &&& 0xFFFFFFFF = amount := BitVec.and_allOnes
  have hacts : blockActs (wr u (pTrig die + 0x44) new) who none trigKind (pTrig die) 0x44 old new amount 0xFFFFFFFF =
      advanceCounter (wr u (pTrig die + 0x44) new) (fget (wr u (pTrig die + 0x44) new) (pTrig die + 0x40) 14 0)
        (amount &&& 0xFFFFFFFF).toNat := rfl
  have hnone' : triggersOf (wr u (pTrig die + 0x44) new) (fget s (pTrig die + 0x40) 14 0) = [] := by
    rw [triggersOf_wr _ _ _ (by simp only [pTrig, wTrig]; omega), triggersOf_congr hregs, hnone]
  rw [hacts, hsel, hamount, advanceCounter_of_no_triggers hnone', getEvCtr_setEvCtr, if_pos rfl]
  exact congrArg (· + _) (hctrs _)

/-! ## VALID of a trigger (R158, R159) -/

/-- The windows lie above the pages. -/
theorem pageOf_eq_none {addr : Nat} (h : 0x1000000 ≤ addr) : pageOf addr = none := by
  have hbelow : ∀ k ∈ pageKinds, k.base + 0x1000 * k.count ≤ 0x1000000 := by decide
  have hfind : pageKinds.find? (fun k => k.base ≤ addr && addr < k.base + 0x1000 * k.count) = none := by
    refine List.find?_eq_none.2 fun k hk => ?_
    have := hbelow k hk
    simp only [Bool.and_eq_true, decide_eq_true_eq]
    omega
  simp only [pageOf, hfind]

/-- An address within a window lies in that window. -/
theorem windowOf_of_mem {w : Nat × Nat × Nat} {addr : Nat} (hw : w ∈ windows) (hle : w.1 ≤ addr) (hlt : addr < w.1 + w.2.1 * w.2.2) :
    windowOf addr = some (w.1, (addr - w.1) / w.2.1, (addr - w.1) % w.2.1) := by
  have hsorted : windows.Pairwise fun a b => a.1 + a.2.1 * a.2.2 ≤ b.1 := by decide
  have hfind : windows.find? (fun w => w.1 ≤ addr && addr < w.1 + w.2.1 * w.2.2) = some w := by
    obtain ⟨as, bs, heq⟩ := List.append_of_mem hw
    rw [heq] at hsorted ⊢
    have hbefore := (List.pairwise_append.1 hsorted).2.2
    refine List.find?_eq_some_iff_append.2 ⟨by simp [hle, hlt], as, bs, rfl, fun a ha => ?_⟩
    have := hbefore a ha w List.mem_cons_self
    simp only [Bool.not_eq_true', Bool.and_eq_false_iff, decide_eq_false_iff_not]
    omega
  simp only [windowOf, hfind]

theorem pageOf_trigWord (r : Nat) : pageOf (wTrig r) = none := pageOf_eq_none (by simp only [wTrig]; omega)

theorem windowOf_trigWord {r : Nat} (hr : r < 32768) : windowOf (wTrig r) = some (0x1180000, r, 0) := by
  have hdiv : (wTrig r - 0x1180000) / 32 = r := by simp only [wTrig]; omega
  have hmod : (wTrig r - 0x1180000) % 32 = 0 := by simp only [wTrig]; omega
  rw [windowOf_of_mem (w := (0x1180000, 32, 32768)) (by decide) (by simp only [wTrig]; omega) (by simp only [wTrig]; omega), hdiv, hmod]

/-- VALID is the one field of a trigger's first word that a write reaches. -/
theorem mergeWord_trigWord {r : Nat} (hr : r < 32768) (old : Word) (on : Bool) :
    mergeWord (wTrig r) old (BitVec.ofNat 32 (b2n on * 2 ^ 31)) 0x80000000 = putBits old 31 31 (b2n on) := by
  have hfields : fieldsAt (wTrig r) = [fldO 31 31] := by
    simp only [fieldsAt, pageOf_trigWord, windowOf_trigWord hr]
    rfl
  have hrw : accMask [fldO 31 31] (fun a => a == .rw || a == .rwl) &&& 0x80000000 = maskOf 31 31 := by decide
  have hclear : accMask [fldO 31 31] (· == .w1c) = 0#32 := by decide
  have hrank : ¬(wRank ≤ wTrig r && wTrig r < wRank + 524288) = true := by
    simp only [Bool.and_eq_true, decide_eq_true_eq]
    simp only [wRank, wTrig]
    omega
  have hvalue : BitVec.ofNat 32 (b2n on * 2 ^ 31) &&& maskOf 31 31 = BitVec.ofNat 32 (b2n on <<< 31) &&& maskOf 31 31 := by
    cases on <;> decide
  simp only [mergeWord, hfields, if_neg hrank, hrw, hclear, BitVec.zero_and, BitVec.not_zero, BitVec.and_allOnes, hvalue]
  rfl

theorem changeOf_trigWord (s : State) {r : Nat} (hr : r < 32768) (on : Bool) :
    (changeOf s (wTrig r) (BitVec.ofNat 32 (b2n on * 2 ^ 31)) 0x80000000).home = wTrig r ∧
      (changeOf s (wTrig r) (BitVec.ofNat 32 (b2n on * 2 ^ 31)) 0x80000000).old = rd s (wTrig r) ∧
      (changeOf s (wTrig r) (BitVec.ofNat 32 (b2n on * 2 ^ 31)) 0x80000000).new = putBits (rd s (wTrig r)) 31 31 (b2n on) := by
  have hhome : homeOf (wTrig r) = wTrig r := by simp only [homeOf, pageOf_trigWord]
  refine ⟨hhome, ?_, ?_⟩
  · simp only [changeOf, hhome]
  · simp only [changeOf, hhome, BEq.rfl, if_true, mergeWord_trigWord hr]

/-- A write that changes VALID: its record, the bit, and what the trigger does. -/
theorem acceptWrite_valid {s : State} (who : Requester) {r : Nat} (hr : r < 32768) {on : Bool} (hchange : bit s (wTrig r) 31 = !on) :
    ∃ u, u.regs = s.regs ∧ u.evCtrs = s.evCtrs ∧
      acceptWrite s who none (wTrig r) (BitVec.ofNat 32 (b2n on * 2 ^ 31)) 0x80000000 = triggerActs (setBit u (wTrig r) 31 on) r on := by
  obtain ⟨hhome, hold, hnew⟩ := changeOf_trigWord s hr on
  refine ⟨recordWrite s who (wTrig r) (BitVec.ofNat 32 (b2n on * 2 ^ 31)) 0x80000000
    (changeOf s (wTrig r) (BitVec.ofNat 32 (b2n on * 2 ^ 31)) 0x80000000) 0, recordWrite_regs .., by rw [recordWrite_frame], ?_⟩
  have hsettle : ∀ t, settleBefore t (wTrig r) = t := fun t => by simp only [settleBefore, pageOf_trigWord]
  have hon : (putBits (rd s (wTrig r)) 31 31 (b2n on)).getLsbD 31 = on := by
    rw [putBits_bit _ _ _ _ _ (by decide) (by decide)]
    cases on <;> rfl
  have hdiffers : ((rd s (wTrig r)).getLsbD 31 != on) = true := by
    rw [bit] at hchange
    rw [hchange]
    cases on <;> rfl
  simp only [acceptWrite, pageOf_trigWord, windowOf_trigWord hr, hhome, hold, hnew, hsettle, windowActs, hon, hdiffers, if_true,
    setBit, fset, rd_congr (recordWrite_regs ..)]

theorem fireLoop_of_not_met {s : State} {t : Nat} (h : trigMet s t = false) (adv : State → Nat → Nat → State) (n : Nat) :
    fireLoop adv n s t = s := by
  cases n with
  | zero => rfl
  | succ n => simp [fireLoop, h]

/-- A trigger below its threshold is armed by VALID, and waits (R158). -/
theorem triggerActs_arms {s : State} {r : Nat} (hst : trigState s r = 0 ∨ trigState s r = 3)
    (hbelow : (getEvCtr s (trigCounter s r)).toNat < trigThreshold s r) :
    triggerActs s r true = fset s (wTrig r) 30 28 1 := by
  have hcounter : trigCounter (fset s (wTrig r) 30 28 1) r = trigCounter s r :=
    fget_fset_apart _ _ _ _ _ _ _ (by decide) (by decide) (by decide)
  have hthreshold : trigThreshold (fset s (wTrig r) 30 28 1) r = trigThreshold s r := by
    simp only [trigThreshold, rd_fset_ne _ _ _ _ _ _ (by omega : wTrig r + 4 ≠ wTrig r),
      rd_fset_ne _ _ _ _ _ _ (by omega : wTrig r + 8 ≠ wTrig r)]
  have hmet : trigMet (fset s (wTrig r) 30 28 1) r = false := by
    have hctr : getEvCtr (fset s (wTrig r) 30 28 1) (trigCounter s r) = getEvCtr s (trigCounter s r) := rfl
    simp only [trigMet, hcounter, hthreshold, hctr, decide_eq_false (Nat.not_le.2 hbelow), Bool.and_false]
  have hfresh : (trigState s r == 0 || trigState s r == 3) = true := by simpa using hst
  rw [triggerActs, if_pos rfl, if_pos hfresh, testTrigger, fireLoop_of_not_met hmet]

/-- Whether a trigger is armed and below its threshold rests on its words but for VALID, and on its counter. -/
theorem trig_setBit_valid {s u : State} (hregs : u.regs = s.regs) (hctrs : u.evCtrs = s.evCtrs) (r : Nat) (on : Bool) :
    trigState (setBit u (wTrig r) 31 on) r = trigState s r ∧ trigCounter (setBit u (wTrig r) 31 on) r = trigCounter s r ∧
      trigThreshold (setBit u (wTrig r) 31 on) r = trigThreshold s r ∧
      ∀ c, getEvCtr (setBit u (wTrig r) 31 on) c = getEvCtr s c := by
  refine ⟨?_, ?_, ?_, fun c => ?_⟩
  · exact (fget_fset_apart _ _ _ _ _ _ _ (by decide) (by decide) (by decide)).trans (fget_congr hregs _ _ _)
  · exact (fget_fset_apart _ _ _ _ _ _ _ (by decide) (by decide) (by decide)).trans (fget_congr hregs _ _ _)
  · simp only [trigThreshold, rd_setBit_ne _ _ _ _ _ (by omega : wTrig r + 4 ≠ wTrig r),
      rd_setBit_ne _ _ _ _ _ (by omega : wTrig r + 8 ≠ wTrig r), rd_congr hregs]
  · change Sparse.get _ u.evCtrs c = _
    rw [hctrs, getEvCtr]

/-- An accepted TRIGGER_VALID_WRITE that changes VALID. -/
theorem exec_triggerValidWrite {s : State} {who : Requester} {r : Nat} {on : Bool} {v : Word} (hr : r < 32768)
    (hv : BitVec.ofNat 32 (b2n on * 2 ^ 31) = v) (hacc : Accepts s who (wTrig r) v 0x80000000) (hchange : bit s (wTrig r) 31 = !on) :
    ∃ u, u.regs = s.regs ∧ u.evCtrs = s.evCtrs ∧
      exec (.triggerValidWrite who r on) s = .next (triggerActs (setBit u (wTrig r) 31 on) r on) := by
  obtain ⟨u, hregs, hctrs, hwrite⟩ := acceptWrite_valid who hr hchange
  have hexec : exec (.triggerValidWrite who r on) s =
      writeIf (decide (r < 32768)) who (wTrig r) (BitVec.ofNat 32 (b2n on * 2 ^ 31)) 0x80000000 s := rfl
  rw [hv] at hexec hwrite
  exact ⟨u, hregs, hctrs, by rw [hexec, writeIf, decide_eq_true hr, if_pos rfl, commandWrite_of_accepts hacc, hwrite]⟩

theorem triggerValidWrite_arms {s : State} {who : Requester} {r : Nat} (hr : r < 32768)
    (hacc : Accepts s who (wTrig r) 0x80000000 0x80000000) (hvalid : bit s (wTrig r) 31 = false)
    (hst : trigState s r = 0 ∨ trigState s r = 3) (hbelow : (getEvCtr s (trigCounter s r)).toNat < trigThreshold s r) :
    Runs (.triggerValidWrite who r true) s fun t => trigState t r = 1 ∧ bit t (wTrig r) 31 = true := by
  obtain ⟨u, hregs, hctrs, hexec⟩ := exec_triggerValidWrite (on := true) hr (by decide) hacc hvalid
  obtain ⟨hstate, hcounter, hthreshold, hev⟩ := trig_setBit_valid hregs hctrs r true
  rw [triggerActs_arms (by rwa [hstate]) (by rwa [hcounter, hthreshold, hev])] at hexec
  refine ⟨_, hexec, fget_fset_same _ _ _ _ _ (by decide) (by decide) (by decide), ?_⟩
  rw [bit_fset _ _ _ _ _ _ _ (by decide) (by decide), if_neg (by omega), bit_setBit_same _ _ _ _ (by decide)]

theorem triggerValidWrite_idles {s : State} {who : Requester} {r : Nat} (hr : r < 32768) (hacc : Accepts s who (wTrig r) 0 0x80000000)
    (hvalid : bit s (wTrig r) 31 = true) :
    Runs (.triggerValidWrite who r false) s fun t =>
      trigState t r = 0 ∧ bit t (wTrig r) 31 = false ∧ Sparse.get (fun _ => 0) t.pendingPosts r = 0 := by
  obtain ⟨u, -, -, hexec⟩ := exec_triggerValidWrite (on := false) hr (by decide) hacc hvalid
  rw [triggerActs, if_neg Bool.false_ne_true] at hexec
  refine ⟨_, hexec, fget_fset_same _ _ _ _ _ (by decide) (by decide) (by decide), ?_, (Sparse.get_erase _ _ _ _).trans (if_pos rfl)⟩
  exact (bit_fset _ _ _ _ _ _ _ (by decide) (by decide)).trans
    ((if_neg (by omega)).trans (bit_setBit_same _ _ _ _ (by decide)))

/-- Settles O22: each post that enters moves from one list of its job to the other; the posts of a trigger that find space leave none
behind; a counter that no trigger watches only grows; and VALID is the one bit that its write changes before the trigger acts. -/
theorem postsAndTriggersGoOn : Obligations.PostsAndTriggersGoOn := by
  unfold Obligations.PostsAndTriggersGoOn
  intro s
  refine ⟨fun n j hj _ hwait hpend => ⟨_, rfl, enterWaiting_moves_posts hpend 4096 hj hwait⟩,
    fun r hleft hst hrearm hothers hspace => ⟨_, rfl, resumePost_of_space hleft hst hrearm hothers hspace⟩,
    fun r hst => ⟨_, rfl, resumePost_of_not_pending hst⟩,
    fun who die amount hd hacc hnone => ⟨_, ?_, getEvCtr_trigAdd (who := who) hd hnone⟩,
    fun who r hr => ⟨triggerValidWrite_arms hr, triggerValidWrite_idles hr⟩⟩
  have hexec : exec (.trigAdd who die amount) s = writeIf (decide (die < 8)) who (pTrig die + 0x44) amount 0xFFFFFFFF s := rfl
  rw [hexec, writeIf, decide_eq_true hd, if_pos rfl, commandWrite_of_accepts hacc]

end Sys2Proof.Machine

/-! # Pairs of words read atomically (R163, R311)

A session that reads the first word of an event counter takes the second with it. Nothing that a counter does as it advances, its
triggers and their chains of ADD actions included, writes to the words that sessions have taken. -/

namespace Sys2Proof.Machine

open Sys2Proof

/-! ## The two words of an event counter -/

theorem windowOf_evCtr {c off : Nat} (hc : c < 32768) (hoff : off < 8) : windowOf (wEvCtr c + off) = some (0x1280000, c, off) := by
  have hdiv : (wEvCtr c + off - 0x1280000) / 8 = c := by simp only [wEvCtr]; omega
  have hmod : (wEvCtr c + off - 0x1280000) % 8 = off := by simp only [wEvCtr]; omega
  rw [windowOf_of_mem (w := (0x1280000, 8, 32768)) (by decide) (by simp only [wEvCtr]; omega) (by simp only [wEvCtr]; omega), hdiv, hmod]

theorem shown_evCtr (s : State) {c off : Nat} (hc : c < 32768) (hoff : off < 8) :
    shown s (wEvCtr c + off) = halfOf (getEvCtr s c).toNat (off == 0) := by
  simp only [shown, pageOf_eq_none (by simp only [wEvCtr]; omega : 0x1000000 ≤ wEvCtr c + off), windowOf_evCtr hc hoff]

theorem halfOf_high (v : Dword) : halfOf v.toNat true = v.extractLsb' 32 32 :=
  BitVec.eq_of_toNat_eq (by rw [BitVec.extractLsb'_toNat, Nat.shiftRight_eq_div_pow, halfOf, if_pos rfl, BitVec.toNat_ofNat])

theorem halfOf_low (v : Dword) : halfOf v.toNat false = v.extractLsb' 0 32 :=
  BitVec.eq_of_toNat_eq (by rw [BitVec.extractLsb'_toNat, Nat.shiftRight_zero, halfOf, if_neg Bool.false_ne_true, BitVec.toNat_ofNat])

theorem firstOfPair_evCtr {c off : Nat} (hc : c < 32768) (hoff : off < 8) : firstOfPair (wEvCtr c + off) = (off == 0) := by
  have htime : (wEvCtr c + off == pTime + 0x50) = false := by simp only [wEvCtr, pTime, beq_eq_false_iff_ne]; omega
  simp only [firstOfPair, htime, windowOf_evCtr hc hoff, Bool.false_or]

/-! ## Reads by a session -/

/-- A read of a window that is answered OK answers the word shown there. -/
theorem readWord_of_window {s : State} {sid : Nat} {x : Session} {a : Nat} (ha : 0x1000000 ≤ a) (hok : (readWord s sid x a).1 = 0) :
    readWord s sid x a = (0, shown s a) := by
  simp only [readWord, pageOf_eq_none ha] at hok ⊢
  split_ifs at hok ⊢
  rfl

/-- `s` with the word `v` taken for session `sid` at address `a`. -/
def takeWord (s : State) (sid a : Nat) (v : Word) : State :=
  { s with latches := Sparse.set (fun _ => none) s.latches (sid * 2 ^ 27 + a) (some v) }

/-- A READ32 of the first word of a pair takes the second. -/
theorem readOne_first {s : State} {sid : Nat} {x : Session} {a : Nat} (hfirst : firstOfPair a = true)
    (hok : (readWord s sid x a).1 = 0) : readOne s sid x a = (readWord s sid x a, takeWord s sid (a + 4) (shown s (a + 4))) := by
  simp only [readOne, hok, hfirst, bne_self_eq_false, Bool.false_eq_true, if_false, if_true, takeWord, Nat.add_assoc]

/-- A READ32 of a word that was taken answers what was taken. -/
theorem readOne_taken {s t : State} {sid : Nat} {y : Session} {a : Nat} {v : Word} (ht : t.latches = (takeWord s sid a v).latches)
    (hfirst : firstOfPair a = false) (hok : (readWord t sid y a).1 = 0) : (readOne t sid y a).1 = (0, v) := by
  have htaken : Sparse.get (fun _ => none) t.latches (sid * 2 ^ 27 + a) = some v := by
    rw [ht, takeWord, Sparse.get_set, if_pos rfl]
  simp only [readOne, hok, hfirst, htaken, bne_self_eq_false, Bool.false_eq_true, if_false]

/-! ## What an advancing counter leaves alone

The words taken belong to the part of the sessions, which a trigger event changes; only that event is followed here in full. -/

theorem Keeps.latches_eq {s t : State} (h : Keeps 0x8000000#64 s t) : t.latches = s.latches := by
  have hsessions : (t.sessions, t.nextSession, t.evtSeq, t.latches) = (s.sessions, s.nextSession, s.evtSeq, s.latches) :=
    h.same .sessions (by decide)
  simp only [Prod.mk.injEq] at hsessions
  obtain ⟨-, -, -, hlatches⟩ := hsessions
  exact hlatches

@[simp] theorem sendMsg_latches (s : State) (sid ty msgNum flags status : Nat) (body : List Byte) :
    (sendMsg s sid ty msgNum flags status body).latches = s.latches := by
  unfold sendMsg
  split
  · rfl
  · dsimp only
    split <;> simp

@[simp] theorem queueTrigEvent_latches (s : State) (sid t tag value : Nat) (x : Session) :
    (queueTrigEvent s sid t tag value x).latches = s.latches := by
  unfold queueTrigEvent
  split <;> simp

theorem foldl_latches {α : Type} {f : State → α → State} (hf : ∀ t x, (f t x).latches = t.latches) (l : List α) (s : State) :
    (l.foldl f s).latches = s.latches :=
  List.foldlRecOn l f (motive := fun t => t.latches = s.latches) rfl fun t ht x _ => (hf t x).trans ht

@[simp] theorem sendTrigEvent_latches (s : State) (t : Nat) : (sendTrigEvent s t).latches = s.latches := by
  refine foldl_latches (fun u sid => ?_) _ s
  split
  · split
    · exact queueTrigEvent_latches ..
    · rfl
  · rfl

@[simp] theorem trigAfter_latches (s : State) (t : Nat) : (trigAfter s t).latches = s.latches :=
  (trigAfter_keeps _ s s t (by decide) (Keeps.refl _ s)).latches_eq

@[simp] theorem trigPost_latches (s : State) (t count : Nat) : (trigPost s t count).latches = s.latches :=
  (trigPost_keeps _ s s t count (by decide) (Keeps.refl _ s)).latches_eq

/-- A firing leaves the words taken alone where the ADD that it may make does. -/
theorem fireOnce_latches {adv : State → Nat → Nat → State} (hadv : ∀ t c n, (adv t c n).latches = t.latches) (s : State) (t : Nat) :
    (fireOnce adv s t).latches = s.latches := by
  unfold fireOnce
  dsimp only
  split
  · split <;> simp
  · simp [hadv]
  · simp

theorem fireLoop_latches {adv : State → Nat → Nat → State} (hadv : ∀ t c n, (adv t c n).latches = t.latches) (n : Nat) (s : State)
    (t : Nat) : (fireLoop adv n s t).latches = s.latches := by
  induction n generalizing s with
  | zero => rfl
  | succ n ih =>
    unfold fireLoop
    split
    · rw [ih, fireOnce_latches hadv]
    · rfl

theorem advance_latches (fuel : Nat) (s : State) (c amt : Nat) : (advance fuel s c amt).latches = s.latches := by
  induction fuel generalizing s c amt with
  | zero => rfl
  | succ fuel ih => exact foldl_latches (fun t r => fireLoop_latches ih _ t r) _ _

theorem advanceCounter_latches (s : State) (c amt : Nat) : (advanceCounter s c amt).latches = s.latches := advance_latches _ s c amt

/-- Settles O53: the read of the first word takes the second, no advance writes to what was taken, and the read of the second word
answers it. -/
theorem pairsReadAtomically : Obligations.PairsReadAtomically := by
  unfold Obligations.PairsReadAtomically
  intro s sid x c amt hc hok
  have hfirst : firstOfPair (wEvCtr c) = true := firstOfPair_evCtr hc (off := 0) (by decide)
  have hsecond : firstOfPair (wEvCtr c + 4) = false := firstOfPair_evCtr hc (by decide)
  have hhigh : shown s (wEvCtr c) = (getEvCtr s c).extractLsb' 32 32 :=
    (shown_evCtr s hc (off := 0) (by decide)).trans (halfOf_high _)
  have hlow : shown s (wEvCtr c + 4) = (getEvCtr s c).extractLsb' 0 32 := (shown_evCtr s hc (by decide)).trans (halfOf_low _)
  rw [readOne_first hfirst hok, readWord_of_window (by simp only [wEvCtr]; omega) hok, hhigh, hlow]
  exact ⟨rfl, rfl, rfl, advanceCounter_latches _ c amt, fun _ _ ht hok' => readOne_taken ht hsecond hok'⟩

end Sys2Proof.Machine

/-! # Stages run for the earliest ready step (R184, R189, R190, R196, R218)

STAGE_EXECUTE does one of three things with a job's stage: nothing where no step is ready, a wait where a SEAL stage finds no room, and
the run of the stage for the earliest ready step otherwise. What a run reports stays reported: neither the end of the stage nor the
settling of its job takes a record back. -/

namespace Sys2Proof.Machine

open Sys2Proof

/-! ## Records on their way -/

/-- Records sent to the collector stay, in order (R354). -/
theorem Keeps.reported_prefix {s t : State} (h : Keeps 0x8000000000000000#64 s t) : s.faults.reported <+: t.faults.reported := by
  obtain ⟨-, -, -, hreported, -⟩ := h.grows (by decide)
  exact hreported

/-- A record sent between two stretches that take none back is reported. -/
theorem reports_of_report {s u t : State} {r : FaultRec} (hbefore : Keeps 0x8000000000000000#64 s u)
    (hafter : Keeps 0x8000000000000000#64 (report u r) t) : Reports s t r := by
  obtain ⟨before, hu⟩ := hbefore.reported_prefix
  obtain ⟨after, ht⟩ := hafter.reported_prefix
  refine ⟨before ++ r :: after, ?_, by simp⟩
  rw [← ht, report_reported, ← hu]
  simp

/-! ## The run of a stage -/

/-- A stage other than RECV whose input is sound ends with STAGE_RESIDUE where its check finds a residue. -/
theorem runStage_residue {s : State} {n g : Nat} {j : JobSt} {x : StepSt} {t : Stage} (tile element : Nat) (press : Bool)
    (hrecv : t.ty ≠ 1) (hlong : inputTooLong j g t (inputOf x g 0) (inputOf x g 1) = false)
    (hpoison : operandPoisoned (setJob s n (some j)) j t (inputOf x g 0) = false)
    (hform : malformedInput j t (inputOf x g 0) = false) :
    runStage s n g j x t (.residue tile element press) =
      finishStage (residueFound (setJob s n (some j)) n g tile element press) n x.s g ⟨0x22, 0, 0⟩ [] := by
  have hty : (t.ty == 1) = false := beq_eq_false_iff_ne.2 hrecv
  simp only [runStage, hty, hlong, hpoison, hform, Bool.false_and, Bool.and_false, Bool.or_false, Bool.false_eq_true, if_false]

/-- The record of a residue stays reported through the end of the stage and the settling of its job. -/
theorem settle_residue_reports (s : State) (n g : Nat) (j : JobSt) (st tile element : Nat) (press : Bool) (r : StageRes)
    (out : List Byte) :
    Reports s (settle (finishStage (residueFound (setJob s n (some j)) n g tile element press) n st g r out) n)
      (mkFault 0xF1 tile (if press then 2 else 1) 1 (g * 4294967296 + element) n 0) :=
  have hjob : Keeps 0x8000000000000000#64 s (setJob s n (some j)) := setJob_keeps _ _ _ _ _ (by decide) (Keeps.refl _ s)
  reports_of_report
    (keeps_ite (fun _ => ctrAdd_keeps _ _ _ _ _ _ (by decide) hjob) fun _ => ctrAdd_keeps _ _ _ _ _ _ (by decide) hjob)
    (settle_keeps _ _ _ _ (by decide) (finishStage_keeps _ _ _ _ _ _ _ _ (by decide) (Keeps.refl _ _)))

/-! ## A job whose seals wait for room -/

theorem Keeps.getJob_eq {s t : State} (h : Keeps 0x200000#64 s t) (n : Nat) : getJob t n = getJob s n := by
  have hjobs : t.jobs = s.jobs := h.same .jobs (by decide)
  rw [getJob, getJob, hjobs]

theorem getJob_raise (s : State) (page b n : Nat) : getJob (raise s page b) n = getJob s n :=
  (raise_keeps _ s s page b (by decide) (Keeps.refl _ s)).getJob_eq n

/-- A wait for seal space marks the job and dates the wait by its begin (R218). -/
theorem getJob_sealWait {s : State} {n : Nat} {j : JobSt} (hj : getJob s n = some j) :
    getJob (sealWait s n) n =
      some { j with sealWaiting := true, sealSince := if j.sealWaiting then j.sealSince else s.uptime } := by
  simp only [sealWait, hj]
  split
  · rw [getJob_raise, getJob_setJob, if_pos rfl]
  · rw [getJob_setJob, if_pos rfl]

/-! ## What STAGE_EXECUTE does -/

/-- The pieces of seal space that a SEAL stage needs for step `x` (R218). -/
def sealNeed (s : State) (n : Nat) (j : JobSt) (g : Nat) (t : Stage) (x : StepSt) : Nat :=
  Nat.max 1 (ceilDiv (sealBytesOf s n j g t (inputOf x g 0)).length 65536)

theorem execStageExecute_of_held {s : State} (hheld : s.faults.held = true) (n g : Nat) (check : StageCheck) :
    execStageExecute n g check s = .next s := if_pos hheld

theorem execStageExecute_of_none_ready {s : State} {n g : Nat} {j : JobSt} {t : Stage} (hj : getJob s n = some j)
    (ht : stageOf j g = some t) (hnone : ∀ x ∈ j.steps, stageReady s n j g t x = false) (check : StageCheck) :
    execStageExecute n g check s = .next s := by
  have hfind : (j.steps.find? fun x => stageReady s n j g t x) = none :=
    List.find?_eq_none.2 fun x hx => Bool.eq_false_iff.1 (hnone x hx)
  simp only [execStageExecute, hj, ht, hfind, ite_self]

section Ready
variable {s : State} {n g : Nat} {j : JobSt} {t : Stage} {x : StepSt}

/-- For the earliest ready step a SEAL stage without room waits, and any other stage runs. -/
theorem execStageExecute_of_ready (hj : getJob s n = some j) (hfree : s.faults.held = false) (ht : stageOf j g = some t)
    (hx : (j.steps.find? fun x => stageReady s n j g t x) = some x) (check : StageCheck) :
    execStageExecute n g check s =
      if t.ty == 0x12 && sealFull s (sealNeed s n j g t x) then .next (if j.sealWaiting then s else sealWait s n)
      else .next (settle (runStage s n g j x t check) n) := by
  simp only [execStageExecute, hfree, hj, ht, hx, sealNeed, Bool.false_eq_true, if_false] <;> rfl

theorem execStageExecute_runs (hj : getJob s n = some j) (hfree : s.faults.held = false) (ht : stageOf j g = some t)
    (hx : (j.steps.find? fun x => stageReady s n j g t x) = some x) (hseal : t.ty ≠ 0x12) (check : StageCheck) :
    execStageExecute n g check s = .next (settle (runStage s n g j x t check) n) := by
  rw [execStageExecute_of_ready hj hfree ht hx, beq_eq_false_iff_ne.2 hseal, Bool.false_and, if_neg Bool.false_ne_true]

/-- A SEAL stage without room leaves the job waiting, with its steps and staged bytes as they were. -/
theorem execStageExecute_waits (hj : getJob s n = some j) (hfree : s.faults.held = false) (ht : stageOf j g = some t)
    (hx : (j.steps.find? fun x => stageReady s n j g t x) = some x) (hseal : t.ty = 0x12)
    (hfull : sealFull s (sealNeed s n j g t x) = true) (check : StageCheck) :
    ∃ u, execStageExecute n g check s = .next u ∧
      ∃ y, getJob u n = some y ∧ y.sealWaiting = true ∧ y.steps = j.steps ∧ y.staging = j.staging := by
  refine ⟨_, by rw [execStageExecute_of_ready hj hfree ht hx, hseal, hfull]; rfl, ?_⟩
  split
  case isTrue hwaits => exact ⟨j, hj, hwaits, rfl, rfl⟩
  case isFalse => exact ⟨_, getJob_sealWait hj, rfl, rfl, rfl⟩

end Ready

/-! ## Steps that wait for a stash -/

/-- A job whose waiting steps go on, save those that still need a stash in use (R196). -/
def resumeSteps (j : JobSt) : JobSt := { j with steps := j.steps.map fun x => { x with waits := x.waits && mustWait j x.s } }

theorem execStepForwardResume_of_job {s : State} {n : Nat} {j : JobSt} (hj : getJob s n = some j) :
    execStepForwardResume n s = .next (setJob s n (some (resumeSteps j))) := by
  simp only [execStepForwardResume, hj, resumeSteps]

/-- A step that still waits after a resume must wait. -/
theorem mustWait_of_waits_resumeSteps {j : JobSt} {x : StepSt} (hx : x ∈ (resumeSteps j).steps) (hwaits : x.waits = true) :
    mustWait (resumeSteps j) x.s = true := by
  obtain ⟨y, -, rfl⟩ := List.mem_map.1 hx
  exact (Bool.and_eq_true_iff.1 hwaits).2

/-- Settles O24: each clause is one case of what STAGE_EXECUTE and STEP_FORWARD_RESUME do; the record of a residue outlives the end of
the stage. -/
theorem stagesRunForTheirStep : Obligations.StagesRunForTheirStep := by
  unfold Obligations.StagesRunForTheirStep
  intro s n g
  refine ⟨fun check hheld => ⟨s, execStageExecute_of_held hheld n g check, rfl⟩, fun j hj hfree => ⟨?ready, ?full, ?idle, ?resume⟩⟩
  case ready =>
    intro t x ht hx hseal
    refine ⟨fun check => ⟨_, execStageExecute_runs hj hfree ht hx hseal check, rfl⟩, ?_⟩
    intro tile element press hrecv hlong hpoison hform
    refine ⟨_, execStageExecute_runs hj hfree ht hx hseal _, ?_⟩
    rw [runStage_residue tile element press hrecv hlong hpoison hform]
    exact settle_residue_reports s n g j x.s tile element press ⟨0x22, 0, 0⟩ []
  case full => exact fun t x check ht hx hseal hfull => execStageExecute_waits hj hfree ht hx hseal hfull check
  case idle => exact fun t check ht hnone => ⟨s, execStageExecute_of_none_ready hj ht hnone check, rfl⟩
  case resume =>
    exact ⟨_, execStepForwardResume_of_job hj, resumeSteps j, by rw [getJob_setJob, if_pos rfl], List.length_map ..,
      fun x hx hwaits => mustWait_of_waits_resumeSteps hx hwaits⟩

end Sys2Proof.Machine

/-! # Jobs come and go (R188, R200, R201, R385, Tables 9.9 and 9.11)

A CMD write of the job words is recorded before the command acts, and STATE and REASON stand in one word that neither the record nor
the JOB event writes. -/

namespace Sys2Proof.Machine

open Sys2Proof

/-! ## STATE and REASON (Table 9.11) -/

/-- A field set to any number holds its low bits. -/
theorem fget_fset_mod (s : State) (a hi lo v : Nat) (hl : lo ≤ hi) (h : hi < 32) :
    fget (fset s a hi lo v) a hi lo = v % 2 ^ (hi + 1 - lo) := by
  refine Nat.eq_of_testBit_eq fun i => ?_
  rw [fget, fset, rd_wr_same, bitsOf_bit, putBits_bit _ _ _ _ _ hl h, Nat.testBit_mod_two_pow]
  by_cases hi' : i < hi + 1 - lo
  · have hin : lo ≤ lo + i ∧ lo + i ≤ hi := by omega
    simp [hi', hin]
  · simp [hi']

/-- The JOB event stands on a page, below the job words. -/
theorem fget_raiseJob (s : State) (n off hi lo : Nat) :
    fget (raiseJob s n) (wJob n + off) hi lo = fget s (wJob n + off) hi lo := by
  rw [fget, raiseJob, rd_raise_ne _ _ _ _ (by simp only [wJob, pJob]; omega), fget]

theorem jobState_raiseJob (s : State) (n : Nat) : jobState (raiseJob s n) n = jobState s n := fget_raiseJob s n 20 2 0

theorem jobState_setJobState (s : State) (n : Nat) {st : Nat} (hst : st < 8) : jobState (setJobState s n st) n = st := by
  unfold setJobState
  split
  case isTrue hsame => exact beq_iff_eq.1 hsame
  case isFalse =>
    rw [jobState_raiseJob]
    exact fget_fset_same _ _ _ _ _ (by decide) (by decide) hst

/-- A change of STATE leaves the fields above it. -/
theorem fget_setJobState (s : State) (n st hi : Nat) {lo : Nat} (hlo : 2 < lo) :
    fget (setJobState s n st) (wJob n + 20) hi lo = fget s (wJob n + 20) hi lo := by
  unfold setJobState
  split
  · rfl
  · rw [fget_raiseJob, fget_fset_apart _ _ _ _ _ _ _ (by decide) (by decide) (.inr hlo)]

/-- Of the word with STATE, a denial writes REASON and RESOURCE; NEED and AVAIL are words of their own. -/
theorem fget_setReason (s : State) (n hi lo : Nat) (d : Deny) :
    fget (setReason s n d) (wJob n + 20) hi lo =
      fget (fset (fset s (wJob n + 20) 15 8 d.1) (wJob n + 20) 23 16 d.2.1) (wJob n + 20) hi lo := by
  simp only [setReason]
  rw [fget_wr_ne _ _ _ _ _ _ (by omega), fget_wr_ne _ _ _ _ _ _ (by omega)]

theorem jobState_setReason (s : State) (n : Nat) (d : Deny) : jobState (setReason s n d) n = jobState s n := by
  rw [jobState, fget_setReason, fget_fset_apart _ _ _ _ _ _ _ (by decide) (by decide) (by decide),
    fget_fset_apart _ _ _ _ _ _ _ (by decide) (by decide) (by decide), jobState]

theorem reason_setReason (s : State) (n : Nat) (d : Deny) : fget (setReason s n d) (wJob n + 20) 15 8 = d.1 % 256 := by
  rw [fget_setReason, fget_fset_apart _ _ _ _ _ _ _ (by decide) (by decide) (by decide)]
  exact fget_fset_mod _ _ _ _ _ (by decide) (by decide)

theorem jobState_auditAdd (s : State) (kind role result subject session : Nat) (detail : List Byte) (sets : List Setting) (n : Nat) :
    jobState (auditAdd s kind role result subject session detail sets) n = jobState s n :=
  fget_congr (auditAdd_regs ..) _ _ _

/-! ## What stays -/

theorem Keeps.nextSeq_eq {s t : State} (h : Keeps 0x80000000#64 s t) : t.audit.nextSeq = s.audit.nextSeq :=
  congrArg Audit.nextSeq (h.same .audit (by decide))

/-- Loads under way, and unloads that wait for one. -/
theorem Keeps.loads_eq {s t : State} (h : Keeps 0x400000#64 s t) : t.loads = s.loads ∧ t.unloadHeld = s.unloadHeld :=
  Prod.mk.inj (h.same .loads (by decide))

theorem Keeps.jobs_eq {s t : State} (h : Keeps 0x200000#64 s t) : t.jobs = s.jobs := h.same .jobs (by decide)

/-! ## A CMD write of the job words -/

theorem pageOf_jobWord (n : Nat) : pageOf (wJob n) = none := pageOf_eq_none (by simp only [wJob]; omega)

theorem windowOf_jobWord {n : Nat} (hn : n < 256) : windowOf (wJob n) = some (0x1140000, n, 0) := by
  have hdiv : (wJob n - 0x1140000) / 128 = n := by simp only [wJob]; omega
  have hmod : (wJob n - 0x1140000) % 128 = 0 := by simp only [wJob]; omega
  rw [windowOf_of_mem (w := (0x1140000, 128, 256)) (by decide) (by simp only [wJob]; omega) (by simp only [wJob]; omega), hdiv, hmod]

/-- A write that R340 calls a record for advances SEQ. -/
theorem recordWrite_nextSeq {a : Nat} {v m : Word} (h : recorded a v m = true) (s : State) (who : Requester) (c : Change) (st : Nat) :
    s.audit.nextSeq < (recordWrite s who a v m c st).audit.nextSeq := by
  unfold recordWrite
  dsimp only
  split
  · exact auditAdd_nextSeq ..
  · rw [if_pos h]
    exact auditAdd_nextSeq ..

/-- What a CMD write leaves before the command acts: its record and the word written. -/
def cmdTaken (s : State) (n : Nat) (a : Audit) (w : Word) : State := wr { s with audit := a } (wJob n) w

theorem jobState_cmdTaken (s : State) (n : Nat) (a : Audit) (w : Word) : jobState (cmdTaken s n a w) n = jobState s n :=
  fget_wr_ne _ _ _ _ _ _ (by omega)

/-- A CMD is recorded whatever it is (R340, log 97), and then acts. -/
theorem acceptWrite_jobCmd (s : State) (who : Requester) {n : Nat} (hn : n < 256) {v m : Word} (hcmd : woVal v m 31 28 ≠ 0) :
    ∃ a w, s.audit.nextSeq < a.nextSeq ∧ ∃ old new,
      acceptWrite s who none (wJob n) v m = windowActs (cmdTaken s n a w) who 0x1140000 n 0 old new v m := by
  have hrec : recorded (wJob n) v m = true := by simp [recorded, cmdWritten, windowOf_jobWord hn, hcmd]
  have hhome : (changeOf s (wJob n) v m).home = wJob n := by simp only [changeOf, homeOf, pageOf_jobWord]
  refine ⟨_, (changeOf s (wJob n) v m).new, recordWrite_nextSeq hrec s who (changeOf s (wJob n) v m) 0,
    (changeOf s (wJob n) v m).old, (changeOf s (wJob n) v m).new, ?_⟩
  simp only [acceptWrite, pageOf_jobWord, windowOf_jobWord hn, settleBefore, hhome, cmdTaken]
  rw [← recordWrite_frame]

section Command
variable {s : State} {who : Requester} {n : Nat}

theorem exec_jobLoad (hn : n < 256) (hacc : Accepts s who (wJob n) 0x10000000 0xF0000000) :
    ∃ a w, s.audit.nextSeq < a.nextSeq ∧
      exec (.jobLoad who n) s = .next (jobLoadCmd (cmdTaken s n a w) n (whoRole s who) (whoSession who)) := by
  obtain ⟨a, w, hseq, old, new, hwrite⟩ := acceptWrite_jobCmd s who hn (v := 0x10000000) (m := 0xF0000000) (by decide)
  have hexec : exec (.jobLoad who n) s = writeIf (decide (n < 256)) who (wJob n) 0x10000000 0xF0000000 s := rfl
  refine ⟨a, w, hseq, ?_⟩
  rw [hexec, writeIf, decide_eq_true hn, if_pos rfl, commandWrite_of_accepts hacc, hwrite]
  rfl

theorem exec_jobUnload (hn : n < 256) (hacc : Accepts s who (wJob n) 0x20000000 0xF0000000) :
    ∃ a w, s.audit.nextSeq < a.nextSeq ∧
      exec (.jobUnload who n) s = .next (jobUnloadCmd (cmdTaken s n a w) n (whoRole s who) (whoSession who)) := by
  obtain ⟨a, w, hseq, old, new, hwrite⟩ := acceptWrite_jobCmd s who hn (v := 0x20000000) (m := 0xF0000000) (by decide)
  have hexec : exec (.jobUnload who n) s = writeIf (decide (n < 256)) who (wJob n) 0x20000000 0xF0000000 s := rfl
  refine ⟨a, w, hseq, ?_⟩
  rw [hexec, writeIf, decide_eq_true hn, if_pos rfl, commandWrite_of_accepts hacc, hwrite]
  rfl

end Command

/-! ## LOAD (R200, R201, R385) -/

section Load
variable {s : State} {n : Nat}

theorem serveLoad_begins (hst : jobState s n = 0 ∨ jobState s n = 4) (role session : Nat) :
    (serveLoad s n role session).loads = s.loads ++ [(n, role, session)] ∧ jobState (serveLoad s n role session) n = 1 ∧
      (serveLoad s n role session).audit.nextSeq = s.audit.nextSeq := by
  have heq : serveLoad s n role session = setJobState { s with loads := s.loads ++ [(n, role, session)] } n 1 := by
    rcases hst with hst | hst <;> simp [serveLoad, hst]
  rw [heq]
  exact ⟨(setJobState_keeps _ _ _ _ _ (by decide) (Keeps.refl _ _)).loads_eq.1, jobState_setJobState _ _ (by decide),
    (setJobState_keeps _ _ _ _ _ (by decide) (Keeps.refl _ _)).nextSeq_eq⟩

theorem serveLoad_eq_refuseLoad (hst : jobState s n = 1 ∨ jobState s n = 2 ∨ jobState s n = 3) (role session : Nat) :
    serveLoad s n role session = refuseLoad s n role session := by
  rcases hst with hst | hst | hst <;> simp [serveLoad, hst]

/-- A refusal is a denial, its record and the JOB event. -/
theorem refuseLoad_eq (s : State) (n role session : Nat) :
    ∃ d, refuseLoad s n role session =
      raiseJob (auditAdd (setReason s n d) 6 role d.1 n session (List.replicate 32 0) []) n := ⟨_, rfl⟩

theorem jobState_refuseLoad (s : State) (n role session : Nat) : jobState (refuseLoad s n role session) n = jobState s n := by
  obtain ⟨d, hd⟩ := refuseLoad_eq s n role session
  rw [hd, jobState_raiseJob, jobState_auditAdd, jobState_setReason]

theorem refuseLoad_nextSeq (s : State) (n role session : Nat) : s.audit.nextSeq < (refuseLoad s n role session).audit.nextSeq := by
  obtain ⟨d, hd⟩ := refuseLoad_eq s n role session
  rw [hd, (raiseJob_keeps _ _ _ _ (by decide) (Keeps.refl _ _)).nextSeq_eq,
    ← (setReason_keeps _ s _ n d (by decide) (Keeps.refl _ s)).nextSeq_eq]
  exact auditAdd_nextSeq ..

variable {who : Requester}

theorem jobLoad_held (hn : n < 256) (hacc : Accepts s who (wJob n) 0x10000000 0xF0000000) (hbist : s.bistRunning = true) :
    Runs (.jobLoad who n) s fun t => jobState t n = jobState s n ∧ t.loads = s.loads ∧
      t.heldReqs = s.heldReqs ++ [.load n (whoRole s who) (whoSession who)] ∧ s.audit.nextSeq < t.audit.nextSeq := by
  obtain ⟨a, w, hseq, hexec⟩ := exec_jobLoad hn hacc
  have hbist' : (cmdTaken s n a w).bistRunning = true := hbist
  rw [jobLoadCmd, if_pos hbist'] at hexec
  exact ⟨_, hexec, jobState_cmdTaken s n a w, rfl, rfl, hseq⟩

/-- Without BIST a LOAD is served, after the record of its write. -/
theorem exec_jobLoad_served (hn : n < 256) (hacc : Accepts s who (wJob n) 0x10000000 0xF0000000) (hbist : s.bistRunning = false) :
    ∃ a w, s.audit.nextSeq < a.nextSeq ∧
      exec (.jobLoad who n) s = .next (serveLoad (cmdTaken s n a w) n (whoRole s who) (whoSession who)) := by
  obtain ⟨a, w, hseq, hexec⟩ := exec_jobLoad hn hacc
  have hbist' : ¬(cmdTaken s n a w).bistRunning = true := ne_true_of_eq_false hbist
  rw [jobLoadCmd, if_neg hbist'] at hexec
  exact ⟨a, w, hseq, hexec⟩

theorem jobLoad_begins (hn : n < 256) (hacc : Accepts s who (wJob n) 0x10000000 0xF0000000) (hbist : s.bistRunning = false)
    (hst : jobState s n = 0 ∨ jobState s n = 4) :
    Runs (.jobLoad who n) s fun t =>
      t.loads = s.loads ++ [(n, whoRole s who, whoSession who)] ∧ jobState t n = 1 ∧ s.audit.nextSeq < t.audit.nextSeq := by
  obtain ⟨a, w, hseq, hexec⟩ := exec_jobLoad_served hn hacc hbist
  rw [← jobState_cmdTaken s n a w] at hst
  obtain ⟨hloads, hloading, hsame⟩ := serveLoad_begins hst (whoRole s who) (whoSession who)
  exact ⟨_, hexec, hloads, hloading, hsame.symm ▸ hseq⟩

theorem jobLoad_refused (hn : n < 256) (hacc : Accepts s who (wJob n) 0x10000000 0xF0000000) (hbist : s.bistRunning = false)
    (hst : jobState s n = 1 ∨ jobState s n = 2 ∨ jobState s n = 3) :
    Runs (.jobLoad who n) s fun t =>
      t.loads = s.loads ∧ jobState t n = jobState s n ∧ t.jobs = s.jobs ∧ s.audit.nextSeq < t.audit.nextSeq := by
  obtain ⟨a, w, hseq, hexec⟩ := exec_jobLoad_served hn hacc hbist
  rw [← jobState_cmdTaken s n a w] at hst
  rw [serveLoad_eq_refuseLoad hst] at hexec
  exact ⟨_, hexec, (refuseLoad_keeps _ _ _ _ _ _ (by decide) (Keeps.refl _ _)).loads_eq.1,
    (jobState_refuseLoad ..).trans (jobState_cmdTaken s n a w), (refuseLoad_keeps _ _ _ _ _ _ (by decide) (Keeps.refl _ _)).jobs_eq,
    hseq.trans (refuseLoad_nextSeq (cmdTaken s n a w) _ _ _)⟩

end Load

/-! ## UNLOAD (R201) -/

section Unload
variable {s : State} {n : Nat}

/-- An unload ends with the job's digests, its staged bytes and its members dropped. -/
theorem getJob_unloadJob {y : JobSt} (hy : getJob (unloadJob s n) n = some y) :
    y.digests = [] ∧ y.sealedLens = [] ∧ y.ended = [] ∧ y.members = [] := by
  unfold unloadJob at hy
  dsimp only at hy
  split at hy
  case h_1 hnone => rw [hnone] at hy; cases hy
  case h_2 =>
    split at hy
    case h_1 =>
      rw [getJob_setJob, if_pos rfl] at hy
      obtain rfl := Option.some.inj hy
      exact ⟨rfl, rfl, rfl, rfl⟩
    case h_2 hnone => rw [hnone] at hy; cases hy

theorem mem_addNat_self (xs : List Nat) (x : Nat) : x ∈ addNat xs x := by
  unfold addNat
  split
  case isTrue h => exact List.contains_iff_mem.1 h
  case isFalse => exact List.mem_append_right _ (List.mem_singleton_self x)

/-- An UNLOAD of a load under way waits until that has ended. -/
def holdUnload (s : State) (n : Nat) : State := { s with unloadHeld := addNat s.unloadHeld n }

theorem jobState_holdUnload (s : State) (m n : Nat) : jobState (holdUnload s m) n = jobState s n := rfl

/-! An UNLOAD is recorded with the colophon digest of the job, if there is one, and then does what STATE says. -/

theorem jobUnloadCmd_of_refused (hst : jobState s n = 4) (role session : Nat) : ∃ dig, jobUnloadCmd s n role session =
    setJobState (setReason (auditAdd s 7 role 0 n session dig []) n (0, 0, 0, 0)) n 0 := by
  unfold jobUnloadCmd
  simp only [jobState_auditAdd, hst]
  exact ⟨_, rfl⟩

theorem jobUnloadCmd_of_loading (hst : jobState s n = 1) (role session : Nat) :
    ∃ dig, jobUnloadCmd s n role session = holdUnload (auditAdd s 7 role 0 n session dig []) n := by
  unfold jobUnloadCmd
  simp only [jobState_auditAdd, hst]
  exact ⟨_, rfl⟩

theorem jobUnloadCmd_of_loaded (hst : jobState s n = 2) (role session : Nat) :
    ∃ dig, jobUnloadCmd s n role session = unloadJob (auditAdd s 7 role 0 n session dig []) n := by
  unfold jobUnloadCmd
  simp only [jobState_auditAdd, hst]
  exact ⟨_, rfl⟩

variable {who : Requester}

theorem jobUnload_refused (hn : n < 256) (hacc : Accepts s who (wJob n) 0x20000000 0xF0000000) (hst : jobState s n = 4) :
    Runs (.jobUnload who n) s fun t => jobState t n = 0 ∧ t.jobs = s.jobs := by
  obtain ⟨a, w, -, hexec⟩ := exec_jobUnload hn hacc
  obtain ⟨dig, hcmd⟩ := jobUnloadCmd_of_refused ((jobState_cmdTaken s n a w).trans hst) (whoRole s who) (whoSession who)
  rw [hcmd] at hexec
  refine ⟨_, hexec, jobState_setJobState _ _ (by decide), Keeps.jobs_eq (s := cmdTaken s n a w) ?_⟩
  exact setJobState_keeps _ _ _ _ _ (by decide) (setReason_keeps _ _ _ _ _ (by decide)
    (auditAdd_keeps _ _ _ _ _ _ _ _ _ _ (by decide) (Keeps.refl _ _)))

theorem jobUnload_loading (hn : n < 256) (hacc : Accepts s who (wJob n) 0x20000000 0xF0000000) (hst : jobState s n = 1) :
    Runs (.jobUnload who n) s fun t => jobState t n = 1 ∧ n ∈ t.unloadHeld := by
  obtain ⟨a, w, -, hexec⟩ := exec_jobUnload hn hacc
  have hst' : jobState (cmdTaken s n a w) n = 1 := (jobState_cmdTaken s n a w).trans hst
  obtain ⟨dig, hcmd⟩ := jobUnloadCmd_of_loading hst' (whoRole s who) (whoSession who)
  rw [hcmd] at hexec
  exact ⟨_, hexec, by rw [jobState_holdUnload, jobState_auditAdd, hst'], mem_addNat_self ..⟩

theorem jobUnload_loaded (hn : n < 256) (hacc : Accepts s who (wJob n) 0x20000000 0xF0000000) (hst : jobState s n = 2) :
    Runs (.jobUnload who n) s fun t => s.audit.nextSeq < t.audit.nextSeq ∧
      ∀ y, getJob t n = some y → y.digests = [] ∧ y.sealedLens = [] ∧ y.ended = [] ∧ y.members = [] := by
  obtain ⟨a, w, hseq, hexec⟩ := exec_jobUnload hn hacc
  obtain ⟨dig, hcmd⟩ := jobUnloadCmd_of_loaded ((jobState_cmdTaken s n a w).trans hst) (whoRole s who) (whoSession who)
  rw [hcmd] at hexec
  refine ⟨_, hexec, ?_, fun y hy => getJob_unloadJob hy⟩
  rw [(unloadJob_keeps _ _ _ _ (by decide) (Keeps.refl _ _)).nextSeq_eq]
  exact hseq.trans (auditAdd_nextSeq (cmdTaken s n a w) ..)

end Unload

/-! ## JOB_LOAD_DECIDED (R188, R201) -/

/-- The state in which the tests of Table 9.7 are made: the load no longer under way. -/
def loadTaken (s : State) (n : Nat) : State := { s with loads := s.loads.filter fun e => e.1 != n }

/-- A load that the tests deny: its record, REASON and REFUSED. -/
def loadDenied (s : State) (n role session : Nat) (d : Deny) : State :=
  setJobState (setReason (auditAdd s 6 role d.1 n session (List.replicate 32 0) []) n d) n 4

theorem loadDenied_keeps (m : BitVec 64) (s : State) (n role session : Nat) (d : Deny) (hm : m &&& 0x10088000003#64 = 0#64) :
    Keeps m s (loadDenied s n role session d) :=
  setJobState_keeps _ _ _ _ _ (maskSub hm (by decide)) (setReason_keeps _ _ _ _ _ (maskSub hm (by decide))
    (auditAdd_keeps _ _ _ _ _ _ _ _ _ _ (maskSub hm (by decide)) (Keeps.refl _ _)))

theorem loadDenied_nextSeq (s : State) (n role session : Nat) (d : Deny) :
    s.audit.nextSeq < (loadDenied s n role session d).audit.nextSeq := by
  have hrest : Keeps 0x80000000#64 (auditAdd s 6 role d.1 n session (List.replicate 32 0) []) (loadDenied s n role session d) :=
    setJobState_keeps _ _ _ _ _ (by decide) (setReason_keeps _ _ _ _ _ (by decide) (Keeps.refl _ _))
  rw [hrest.nextSeq_eq]
  exact auditAdd_nextSeq ..

section Decided
variable {s : State} {n : Nat} {perms : List (Nat × Nat)} {l : Nat × Nat × Nat}

theorem execJobLoadDecided_denied (hfind : (s.loads.find? fun l => l.1 == n) = some l) (hst : jobState s n = 1)
    (hwait : waitsForTest s n = false) (hheld : s.unloadHeld.contains n = false) {d : Deny}
    (htests : loadTests (writePerms (loadTaken s n) perms) n = .error d) :
    execJobLoadDecided n perms s = .next (loadDenied (loadTaken s n) n l.2.1 l.2.2 d) := by
  have hkeeps : Keeps 0x400000#64 (loadTaken s n) (loadDenied (loadTaken s n) n l.2.1 l.2.2 d) :=
    loadDenied_keeps _ _ _ _ _ _ (by decide)
  have hunload : (loadDenied (loadTaken s n) n l.2.1 l.2.2 d).unloadHeld.contains n = false := by
    rw [hkeeps.loads_eq.2]
    exact hheld
  unfold loadTaken at htests hunload
  unfold loadDenied at hunload
  simp only [execJobLoadDecided, loadDenied, loadTaken, hfind, hst, hwait, htests, hunload, bne_self_eq_false, Bool.or_self,
    Bool.false_eq_true, if_false]

theorem execJobLoadDecided_admitted (hfind : (s.loads.find? fun l => l.1 == n) = some l) (hst : jobState s n = 1)
    (hwait : waitsForTest s n = false) (hheld : s.unloadHeld.contains n = false) {i : Image} {g : Grant}
    (htests : loadTests (writePerms (loadTaken s n) perms) n = .ok (i, g)) :
    execJobLoadDecided n perms s = .next (admitJob (writePerms (loadTaken s n) perms) n l.2.1 l.2.2 i g) := by
  have hkeeps : Keeps 0x400000#64 (loadTaken s n) (admitJob (writePerms (loadTaken s n) perms) n l.2.1 l.2.2 i g) :=
    admitJob_keeps _ _ _ _ _ _ _ _ (by decide) (writePerms_keeps _ _ _ _ (by decide) (Keeps.refl _ _))
  have hunload : (admitJob (writePerms (loadTaken s n) perms) n l.2.1 l.2.2 i g).unloadHeld.contains n = false := by
    rw [hkeeps.loads_eq.2]
    exact hheld
  unfold loadTaken at htests hunload
  simp only [execJobLoadDecided, loadTaken, hfind, hst, hwait, htests, hunload, bne_self_eq_false, Bool.or_self,
    Bool.false_eq_true, if_false]

theorem jobLoadDecided_denied (hfind : (s.loads.find? fun l => l.1 == n) = some l) (hst : jobState s n = 1)
    (hwait : waitsForTest s n = false) (hheld : s.unloadHeld.contains n = false) {d : Deny}
    (htests : loadTests (writePerms (loadTaken s n) perms) n = .error d) :
    Runs (.jobLoadDecided n perms) s fun t => jobState t n = 4 ∧ fget t (wJob n + 20) 15 8 = d.1 % 256 ∧ getJob t n = getJob s n ∧
      s.audit.nextSeq < t.audit.nextSeq :=
  have hjobs : Keeps 0x200000#64 (loadTaken s n) (loadDenied (loadTaken s n) n l.2.1 l.2.2 d) :=
    loadDenied_keeps _ _ _ _ _ _ (by decide)
  ⟨_, execJobLoadDecided_denied hfind hst hwait hheld htests, jobState_setJobState _ _ (by decide),
    (fget_setJobState _ _ _ _ (by decide)).trans (reason_setReason ..), hjobs.getJob_eq n, loadDenied_nextSeq (loadTaken s n) ..⟩

/-- An admission without triggers ends LOADED. -/
theorem jobState_admitJob (s : State) (n role session : Nat) (i : Image) {g : Grant} (hg : g.triggers = []) :
    jobState (admitJob s n role session i g) n = 2 := by
  simp only [admitJob, hg, List.foldl_nil]
  exact jobState_setJobState _ _ (by decide)

/-- The job's entry is what it started with. -/
theorem getJob_admitJob (s : State) (n role session : Nat) (i : Image) {g : Grant} (hg : g.triggers = []) :
    getJob (admitJob s n role session i g) n = some (jobNew s i g) := by
  have hrest : Keeps 0x200000#64 (setJob (bindTables s n i g) n (some (jobNew s i g))) (admitJob s n role session i g) := by
    simp only [admitJob, hg, List.foldl_nil]
    exact setJobState_keeps _ _ _ _ _ (by decide) (auditAdd_keeps _ _ _ _ _ _ _ _ _ _ (by decide)
      (setReason_keeps _ _ _ _ _ (by decide) (fset_keeps _ _ _ _ _ _ _ (by decide) (showReserved_keeps _ _ _ (by decide)
        (setUpRegions_keeps _ _ _ _ _ (by decide) (Keeps.refl _ _))))))
  rw [hrest.getJob_eq, getJob_setJob, if_pos rfl]

theorem admitJob_nextSeq (s : State) (n role session : Nat) (i : Image) {g : Grant} (hg : g.triggers = []) :
    s.audit.nextSeq < (admitJob s n role session i g).audit.nextSeq := by
  simp only [admitJob, hg, List.foldl_nil]
  rw [(setJobState_keeps _ _ _ _ _ (by decide) (Keeps.refl _ _)).nextSeq_eq]
  refine lt_of_eq_of_lt (Keeps.nextSeq_eq (s := s) ?_).symm (auditAdd_nextSeq ..)
  exact setReason_keeps _ _ _ _ _ (by decide) (fset_keeps _ _ _ _ _ _ _ (by decide) (showReserved_keeps _ _ _ (by decide)
    (setUpRegions_keeps _ _ _ _ _ (by decide) (setJob_keeps _ _ _ _ _ (by decide) (bindTables_keeps _ _ _ _ _ _ (by decide)
      (Keeps.refl _ _))))))

theorem jobLoadDecided_admitted (hfind : (s.loads.find? fun l => l.1 == n) = some l) (hst : jobState s n = 1)
    (hwait : waitsForTest s n = false) (hheld : s.unloadHeld.contains n = false) {i : Image} {g : Grant}
    (htests : loadTests (writePerms (loadTaken s n) perms) n = .ok (i, g)) (hg : g.triggers = []) :
    Runs (.jobLoadDecided n perms) s fun t => jobState t n = 2 ∧ s.audit.nextSeq < t.audit.nextSeq ∧
      getJob t n = some (jobNew (writePerms (loadTaken s n) perms) i g) := by
  refine ⟨_, execJobLoadDecided_admitted hfind hst hwait hheld htests, jobState_admitJob _ _ _ _ _ hg, ?_, getJob_admitJob _ _ _ _ _ hg⟩
  have hperms : Keeps 0x80000000#64 (loadTaken s n) (writePerms (loadTaken s n) perms) :=
    writePerms_keeps _ _ _ _ (by decide) (Keeps.refl _ _)
  exact lt_of_eq_of_lt hperms.nextSeq_eq.symm (admitJob_nextSeq _ _ _ _ _ hg)

end Decided

/-! ## JOB_UNLOAD_DONE (R201) -/

theorem Sparse.mem_of_get {α : Type} {d : Nat → α} {m : Sparse α} {k : Nat} (h : Sparse.get d m k ≠ d k) :
    (k, Sparse.get d m k) ∈ m := by
  induction m with
  | nil => exact absurd rfl h
  | cons e m ih =>
    obtain ⟨j, v⟩ := e
    rw [Sparse.get] at h ⊢
    split
    case isTrue hk => subst hk; exact List.mem_cons_self
    case isFalse hk =>
      rw [if_neg hk] at h
      exact List.mem_cons_of_mem _ (ih h)

theorem getStream_foldl_setStream_none (l : List Nat) (s : State) (c : Nat) :
    getStream (l.foldl (fun s c => setStream s c none) s) c = if c ∈ l then none else getStream s c := by
  induction l generalizing s with
  | nil => simp
  | cons x l ih =>
    rw [List.foldl_cons, ih, getStream_setStream]
    by_cases hl : c ∈ l <;> simp [hl]

/-- A job that is ready to be gone has no slot. -/
theorem sub_ne_of_unloadReady {s : State} {n : Nat} {j : JobSt} (h : unloadReady s n j = true) {i : Nat} {x : SlotSt}
    (hx : getSlot s i = some x) : x.sub ≠ n := by
  intro hsub
  obtain ⟨hslots, -⟩ := Bool.and_eq_true_iff.1 h
  have hmem : (i, some x) ∈ s.slots := hx ▸ Sparse.mem_of_get (d := fun _ => none) (m := s.slots) (k := i) (by
    change getSlot s i ≠ none
    rw [hx]
    exact Option.some_ne_none x)
  rw [Bool.not_eq_true', List.any_eq_false] at hslots
  exact hslots _ hmem (beq_iff_eq.2 hsub)

section Done
variable {s : State} {n : Nat} {j : JobSt}

/-- The job's entry, its engines, triggers, queues and streams freed. -/
def bindingsFreed (s : State) (n : Nat) (j : JobSt) : State :=
  let s := releaseHeld (setJob s n none) j.frames
  let s := j.engines.foldl (fun s e => wr s (pColl e + 0x40) 0) s
  let s := j.triggers.foldl (fun s t => wrWords s (wTrig t) (List.replicate 8 0)) s
  let s := j.queues.foldl (fun s q => wrWords s (wQueue q) [0, 0]) s
  j.streams.foldl (fun s c => setStream s c none) s

/-- The job's open messages, its slot and descriptor words and its share of the reserve gone, and its role. -/
def wordsFreed (s : State) (n : Nat) (j : JobSt) : State :=
  let s := dropJobMsgs s j.streams
  let s := if j.descLen == 0 then s
    else forUp (fun s k => dropHeld (wrWords s (wSlot (slotBase s n + k)) (List.replicate 8 0)) (slotBase s n + k)) (slotQ s n) 0 s
  let s := (List.range j.descLen).foldl (fun s d => wrWords s (wDesc (j.descBase + d)) (List.replicate 16 0)) s
  fset (showReserved (wr s (wDescBind n) 0)) (wJob n + 20) 31 24 0xFF

theorem execJobUnloadDone_of_ready (hj : getJob s n = some j) (hst : jobState s n = 3) (hready : unloadReady s n j = true) :
    execJobUnloadDone n s = .next (setJobState (wordsFreed (bindingsFreed s n j) n j) n 0) := by
  simp only [execJobUnloadDone, hj, hst, hready, bne_self_eq_false, Bool.not_true, Bool.or_self, Bool.false_eq_true, if_false]
  rfl

theorem execJobUnloadDone_of_not_ready (hj : getJob s n = some j) (hready : unloadReady s n j = false) :
    execJobUnloadDone n s = .next s := by
  simp only [execJobUnloadDone, hj, hready, Bool.not_false, Bool.or_true, if_true]

/-- The words freed are registers; with them go messages and held packets, and the change of STATE raises its event. -/
theorem wordsFreed_keeps (m : BitVec 64) (s : State) (n : Nat) (j : JobSt) (hm : m &&& 0x10009100003#64 = 0#64) :
    Keeps m s (setJobState (wordsFreed s n j) n 0) := by
  have hmsgs : Keeps m s (dropJobMsgs s j.streams) := dropJobMsgs_keeps _ _ _ _ (maskSub hm (by decide)) (Keeps.refl _ _)
  have hwords : ∀ t a ws, Keeps m s t → Keeps m s (wrWords t a ws) := fun t a ws => wrWords_keeps _ _ _ _ _ (maskSub hm (by decide))
  unfold wordsFreed
  exact setJobState_keeps _ _ _ _ _ (maskSub hm (by decide)) (fset_keeps _ _ _ _ _ _ _ (maskSub hm (by decide))
    (showReserved_keeps _ _ _ (maskSub hm (by decide)) (wr_keeps _ _ _ _ _ (maskSub hm (by decide))
      (keeps_foldl _ _ _ (fun t _ ht => hwords t _ _ ht) (keeps_ite (fun _ => hmsgs) fun _ =>
        keeps_forUp _ _ _ _ (fun t _ ht => dropHeld_keeps _ _ _ _ (maskSub hm (by decide)) (hwords t _ _ ht)) hmsgs)))))

/-- The bindings freed are registers and streams. -/
theorem bindingsFreed_keeps (m : BitVec 64) (s : State) (n : Nat) (j : JobSt) (hm : m &&& 0x80001#64 = 0#64) :
    Keeps m (setJob s n none) (bindingsFreed s n j) := by
  have hwords : ∀ t a ws, Keeps m (setJob s n none) t → Keeps m (setJob s n none) (wrWords t a ws) :=
    fun t a ws => wrWords_keeps _ _ _ _ _ (maskSub hm (by decide))
  exact keeps_foldl _ _ _ (fun _ _ => setStream_keeps _ _ _ _ _ (maskSub hm (by decide)))
    (keeps_foldl _ _ _ (fun t _ => hwords t _ _) (keeps_foldl _ _ _ (fun t _ => hwords t _ _)
      (keeps_foldl _ _ _ (fun _ _ => wr_keeps _ _ _ _ _ (maskSub hm (by decide)))
        (releaseHeld_keeps _ _ _ _ (maskSub hm (by decide)) (Keeps.refl _ _)))))

theorem getStream_bindingsFreed {c : Nat} (hc : c ∈ j.streams) : getStream (bindingsFreed s n j) c = none :=
  (getStream_foldl_setStream_none ..).trans (if_pos hc)

theorem jobUnloadDone_ready (hj : getJob s n = some j) (hst : jobState s n = 3) (hready : unloadReady s n j = true) :
    Runs (.jobUnloadDone n) s fun t => getJob t n = none ∧ jobState t n = 0 ∧ (∀ c ∈ j.streams, getStream t c = none) ∧
      ∀ i x, getSlot t i = some x → x.sub ≠ n := by
  refine ⟨_, execJobUnloadDone_of_ready hj hst hready, ?job, jobState_setJobState _ _ (by decide), fun c hc => ?stream,
    fun i x hx => ?slot⟩
  case job =>
    rw [(wordsFreed_keeps _ _ _ _ (by decide)).getJob_eq, (bindingsFreed_keeps _ _ _ _ (by decide)).getJob_eq, getJob_setJob,
      if_pos rfl]
  case stream => rw [(wordsFreed_keeps _ _ _ _ (by decide)).getStream_eq, getStream_bindingsFreed hc]
  case slot =>
    rw [(wordsFreed_keeps _ _ _ _ (by decide)).getSlot_eq, (bindingsFreed_keeps _ _ _ _ (by decide)).getSlot_eq] at hx
    exact sub_ne_of_unloadReady hready hx

end Done

/-- Settles O23: an accepted CMD is recorded before it acts; what is done to the job words after STATE and REASON are set leaves both;
and an unload that has come to its end drops the job's entry and streams, while no slot names the job any more. -/
theorem jobsComeAndGo : Obligations.JobsComeAndGo := by
  unfold Obligations.JobsComeAndGo
  intro s n hn
  refine ⟨fun who hacc => ⟨jobLoad_held hn hacc, jobLoad_begins hn hacc, jobLoad_refused hn hacc⟩,
    fun who hacc => ⟨jobUnload_refused hn hacc, jobUnload_loading hn hacc, jobUnload_loaded hn hacc⟩,
    fun l perms hfind hst hwait hheld => ⟨fun d => jobLoadDecided_denied hfind hst hwait hheld,
      fun i g => jobLoadDecided_admitted hfind hst hwait hheld⟩,
    fun j hj hst => ⟨jobUnloadDone_ready hj hst, fun hready => ⟨s, execJobUnloadDone_of_not_ready hj hready, rfl⟩⟩⟩

end Sys2Proof.Machine

/-! # Seals are signed in batches (R214, R215, R218 to R220)

A CMD write of the seal words leaves every register as it was, so the command finds the range and the job that the write found. What
BATCH_STATE and the event BATCH_DONE write is neither a record nor a batch. -/

namespace Sys2Proof.Machine

open Sys2Proof

/-! ## Chunk digests (R214) -/

theorem execChunkDigest_of_store_full {s : State} (hfull : 8388608 ≤ digestsHeld s) (n p c : Nat) :
    execChunkDigest n p c s = .next s := by
  unfold execChunkDigest
  split
  · rfl
  · dsimp only
    split
    · rfl
    · exact if_pos hfull

/-- Bytes held in one piece are whole. -/
theorem assemble_singleton {bs : List Byte} (hpos : 0 < bs.length) : assemble [(0, bs)] 0 bs.length = some bs := by
  simp [assemble, coverFrom, hpos, List.ne_nil_of_length_pos hpos]

/-- Nothing of a piece stays outside the chunk that holds it. -/
theorem outsideOf_of_within {hi p st : Nat} {bs : List Byte} (hlen : bs.length ≤ hi) : outsideOf 0 hi (p, st, 0, bs) = [] := by
  simp [outsideOf, hlen]

/-- A sealing point of one chunk, staged in one piece: the digest takes the staging's place, and the step may seal. -/
theorem execChunkDigest_single {s : State} {n p st : Nat} {j : JobSt} {bs : List Byte} (hj : getJob s n = some j)
    (hnone : j.digests = []) (hpoint : j.sealedLens = [(p, st, bs.length)]) (hstaged : j.staging = [(p, st, 0, bs)])
    (hpos : 0 < bs.length) (hlen : bs.length ≤ 65536) (hroom : digestsHeld s < 8388608) :
    execChunkDigest n p 0 s =
      .next (trySeal (setJob s n (some { j with digests := [(p, st, 0, shake256 bs 32)], staging := [] })) n st) := by
  have hmin : Nat.min bs.length 65536 = bs.length := Nat.min_eq_left hlen
  have hwhole := assemble_singleton hpos
  simp [execChunkDigest, hj, hnone, hpoint, hstaged, hmin, hwhole, hpos, outsideOf_of_within hlen, Nat.not_le.2 hroom]

/-! ## Seal space (R218) -/

theorem execSealSpaceFreed_of_full {s : State} {n : Nat} {j : JobSt} (hj : getJob s n = some j) (hfull : sealFull s 1 = true) :
    execSealSpaceFreed n s = .next s := by
  simp only [execSealSpaceFreed, hj, hfull, Bool.or_true, if_true]

/-- A job that waits with no sealing point under way and no slot only goes on; the wait is counted in microseconds. -/
theorem execSealSpaceFreed_of_idle {s : State} {n : Nat} {j : JobSt} (hj : getJob s n = some j) (hwaits : j.sealWaiting = true)
    (hroom : sealFull s 1 = false) (hpoints : j.sealedLens = [])
    (hslots : (s.slots.all fun e => e.2.all fun x => x.sub != n) = true) :
    execSealSpaceFreed n s =
      .next (settle (ctrAdd (setJob s n (some { j with sealWaiting := false })) pSeal 2 ((s.uptime - j.sealSince) / 1000)) n) := by
  simp only [execSealSpaceFreed, hj, hwaits, hroom, hpoints, Bool.not_true, Bool.or_false, Bool.false_eq_true, if_false,
    List.map_nil, List.eraseDups_nil, List.foldl_nil]
  rw [List.filter_eq_nil_iff.2]
  · rfl
  · intro e he
    have hsub : (e.2.all fun x => x.sub != n) = true := List.all_eq_true.1 hslots e he
    cases h : e.2 with
    | none => simp
    | some x => simpa [h] using hsub

/-! ## Registers that read the same

Which steps a subscriber has still to seal depends on its job and on registers, and on these only by what they read. -/

section SameWords
variable {s t : State} (h : rd t = rd s)
include h

theorem fget_eq_of_rd : fget t = fget s := by unfold fget; rw [h]

theorem rdPair_eq_of_rd : rdPair t = rdPair s := by unfold rdPair; rw [h]

theorem parentOf_eq_of_rd : parentOf t = parentOf s := by
  unfold parentOf blockOff rootOff blockOrigin blockExtent axisSize torusX torusY torusZ
  rw [fget_eq_of_rd h]

theorem pathUp_eq_of_rd (n fuel : Nat) : pathUp t n fuel = pathUp s n fuel := by
  induction fuel with
  | zero => rfl
  | succ fuel ih => funext i; rw [pathUp, pathUp, parentOf_eq_of_rd h, ih]

theorem expectedAt_eq_of_rd : expectedAt t = expectedAt s := by
  unfold expectedAt memberBelow memberAddr below ranksM1 rankWord rankBase
  simp only [pathUp_eq_of_rd h]
  rw [fget_eq_of_rd h, h]

theorem sealPoints_eq_of_rd : sealPoints t = sealPoints s := by
  unfold sealPoints isRoot ownPlane ownIndex descWords descBase seqLen
  rw [expectedAt_eq_of_rd h, parentOf_eq_of_rd h, fget_eq_of_rd h, h]

theorem stepsIncomplete_eq_of_rd {n : Nat} (hjob : getJob t n = getJob s n) : stepsIncomplete t n = stepsIncomplete s n := by
  unfold stepsIncomplete seqLen
  rw [sealPoints_eq_of_rd h, fget_eq_of_rd h, hjob]

end SameWords

/-! ## A CMD write of the seal words -/

theorem pageOf_sealWord (n : Nat) : pageOf (wSeal n) = none := pageOf_eq_none (by simp only [wSeal]; omega)

theorem windowOf_sealWord {n : Nat} (hn : n < 256) : windowOf (wSeal n) = some (0x1C20000, n, 0) := by
  have hdiv : (wSeal n - 0x1C20000) / 64 = n := by simp only [wSeal]; omega
  have hmod : (wSeal n - 0x1C20000) % 64 = 0 := by simp only [wSeal]; omega
  rw [windowOf_of_mem (w := (0x1C20000, 64, 256)) (by decide) (by simp only [wSeal]; omega) (by simp only [wSeal]; omega), hdiv,
    hmod]

/-- CMD is WO: a write leaves the stored word. -/
theorem mergeWord_sealWord {n : Nat} (hn : n < 256) (old v m : Word) : mergeWord (wSeal n) old v m = old := by
  have hfields : fieldsAt (wSeal n) = [actO 31 28] := by
    simp only [fieldsAt, pageOf_sealWord, windowOf_sealWord hn]
    rfl
  have hrw : accMask [actO 31 28] (fun a => a == .rw || a == .rwl) = 0#32 := by decide
  have hclear : accMask [actO 31 28] (· == .w1c) = 0#32 := by decide
  have hrank : ¬(wRank ≤ wSeal n && wSeal n < wRank + 524288) = true := by
    simp only [Bool.and_eq_true, decide_eq_true_eq]
    simp only [wRank, wSeal]
    omega
  simp only [mergeWord, hfields, if_neg hrank, hrw, hclear, BitVec.and_zero, BitVec.zero_and, BitVec.not_zero, BitVec.or_zero,
    BitVec.and_allOnes]

/-- What a CMD write leaves before the command acts: its record, and the word as it was. -/
def sealCmdTaken (s : State) (n : Nat) (a : Audit) : State := wr { s with audit := a } (wSeal n) (rd s (wSeal n))

theorem rd_sealCmdTaken (s : State) (n : Nat) (a : Audit) : rd (sealCmdTaken s n a) = rd s := by
  funext b
  rw [sealCmdTaken, rd_wr]
  split
  · next h => rw [h]
  · rfl

theorem getJob_sealCmdTaken (s : State) (n : Nat) (a : Audit) (m : Nat) : getJob (sealCmdTaken s n a) m = getJob s m := rfl

theorem acceptWrite_sealCmd (s : State) (who : Requester) {n : Nat} (hn : n < 256) (v m : Word) :
    ∃ a old new, acceptWrite s who none (wSeal n) v m = windowActs (sealCmdTaken s n a) who 0x1C20000 n 0 old new v m := by
  have hhome : (changeOf s (wSeal n) v m).home = wSeal n := by simp only [changeOf, homeOf, pageOf_sealWord]
  have hnew : (changeOf s (wSeal n) v m).new = rd s (wSeal n) := by
    simp only [changeOf, homeOf, pageOf_sealWord, mergeWord_sealWord hn]
  refine ⟨(recordWrite s who (wSeal n) v m (changeOf s (wSeal n) v m) 0).audit, (changeOf s (wSeal n) v m).old,
    (changeOf s (wSeal n) v m).new, ?_⟩
  simp only [acceptWrite, pageOf_sealWord, windowOf_sealWord hn, settleBefore, hhome, hnew, sealCmdTaken]
  rw [← recordWrite_frame]

section Command
variable {s : State} {who : Requester} {n : Nat}

theorem exec_signBatch (hn : n < 256) (hacc : Accepts s who (wSeal n) 0x10000000 0xF0000000) :
    ∃ a, exec (.signBatch who n) s = .next (signBatchCmd (sealCmdTaken s n a) n) := by
  obtain ⟨a, old, new, hwrite⟩ := acceptWrite_sealCmd s who hn 0x10000000 0xF0000000
  have hexec : exec (.signBatch who n) s = writeIf (decide (n < 256)) who (wSeal n) 0x10000000 0xF0000000 s := rfl
  refine ⟨a, ?_⟩
  rw [hexec, writeIf, decide_eq_true hn, if_pos rfl, commandWrite_of_accepts hacc, hwrite]
  rfl

theorem exec_releaseBatch (hn : n < 256) (hacc : Accepts s who (wSeal n) 0x20000000 0xF0000000) :
    ∃ a, exec (.releaseBatch who n) s = .next (releaseBatchCmd (sealCmdTaken s n a) n) := by
  obtain ⟨a, old, new, hwrite⟩ := acceptWrite_sealCmd s who hn 0x20000000 0xF0000000
  have hexec : exec (.releaseBatch who n) s = writeIf (decide (n < 256)) who (wSeal n) 0x20000000 0xF0000000 s := rfl
  refine ⟨a, ?_⟩
  rw [hexec, writeIf, decide_eq_true hn, if_pos rfl, commandWrite_of_accepts hacc, hwrite]
  rfl

end Command

/-! ## BATCH_STATE and REASON (Table 10.7) -/

theorem Keeps.seals_eq {s t : State} (h : Keeps 0x2000000#64 s t) : t.seals = s.seals := h.same .seals (by decide)

theorem Keeps.batches_eq {s t : State} (h : Keeps 0x4000000#64 s t) : t.batch = s.batch ∧ t.lastBatch = s.lastBatch :=
  Prod.mk.inj (h.same .batches (by decide))

theorem Keeps.fuses_eq {s t : State} (h : Keeps 0x100000000#64 s t) : t.fuses = s.fuses := h.same .fuses (by decide)

section SetBatch
variable (s : State) (n st reason : Nat)

/-- The event of a batch stands on a page, below the seal words. -/
theorem fget_setBatch (hi lo : Nat) :
    fget (setBatch s n st reason) (wSeal n + 20) hi lo =
      fget (fset (fset s (wSeal n + 20) 2 0 st) (wSeal n + 20) 15 8 reason) (wSeal n + 20) hi lo := by
  simp only [setBatch]
  split
  · rw [fget, rd_raise_ne _ _ _ _ (by simp only [wSeal, pSeal]; omega), fget]
  · rfl

theorem batchState_setBatch {st : Nat} (hst : st < 8) : fget (setBatch s n st reason) (wSeal n + 20) 2 0 = st := by
  rw [fget_setBatch, fget_fset_apart _ _ _ _ _ _ _ (by decide) (by decide) (by decide)]
  exact fget_fset_same _ _ _ _ _ (by decide) (by decide) hst

theorem batchReason_setBatch {reason : Nat} (hreason : reason < 256) :
    fget (setBatch s n st reason) (wSeal n + 20) 15 8 = reason := by
  rw [fget_setBatch]
  exact fget_fset_same _ _ _ _ _ (by decide) (by decide) hreason

theorem setBatch_batches : (setBatch s n st reason).batch = s.batch ∧ (setBatch s n st reason).lastBatch = s.lastBatch :=
  (setBatch_keeps _ _ _ _ _ _ (by decide) (Keeps.refl _ s)).batches_eq

theorem setBatch_seals : (setBatch s n st reason).seals = s.seals :=
  (setBatch_keeps _ _ _ _ _ _ (by decide) (Keeps.refl _ s)).seals_eq

theorem setBatch_fuses : (setBatch s n st reason).fuses = s.fuses :=
  (setBatch_keeps _ _ _ _ _ _ (by decide) (Keeps.refl _ s)).fuses_eq

end SetBatch

/-! ## SIGN_BATCH (R219, R220) -/

/-- A record that lies in the range is marked with the batch that covers it. -/
def markSigned (n first last number : Nat) (r : SealRec) : SealRec :=
  if r.sub == n && first ≤ r.step && r.step ≤ last then { r with signed := some number } else r

/-- The batch of a subscriber over a range, still to be signed. -/
def newBatch (n number first last : Nat) (statement : List Byte) : Batch :=
  { sub := n, number := number, first := first, last := last, statement := statement, sig := [] }

/-- The batch over the range that the seal words name, begun; its number is used up. -/
def batchBegun (s : State) (n : Nat) (statement : List Byte) : State :=
  let first := rdPair s (wSeal n + 4)
  let last := rdPair s (wSeal n + 12)
  { s with seals := s.seals.map (markSigned n first last s.fuses.batches),
           batch := some (newBatch n s.fuses.batches first last statement),
           fuses := { s.fuses with batches := s.fuses.batches + 1 } }

theorem signBatchCmd_of_no_job {s : State} {n : Nat} (hjob : getJob s n = none) : signBatchCmd s n = setBatch s n 3 1 := by
  simp [signBatchCmd, hjob]

theorem signBatchCmd_of_passed {s : State} {n : Nat} (hjob : getJob s n ≠ none)
    (hrange : rdPair s (wSeal n + 4) ≤ rdPair s (wSeal n + 12)) (hcount : s.seals.length ≤ 65536)
    (hsound : ∀ r ∈ s.seals, r.poisoned = false)
    (hcomplete : stepsIncomplete s n (rdPair s (wSeal n + 4)) (rdPair s (wSeal n + 12)) = false) (hidle : s.batch = none) :
    ∃ statement, signBatchCmd s n = setBatch (batchBegun s n statement) n 1 0 := by
  have hsome : (getJob s n).isNone = false := Option.isNone_eq_false_iff.2 (Option.isSome_iff_ne_none.2 hjob)
  have hfew : ∀ p : SealRec → Bool, ¬ 65536 < (s.seals.filter p).length :=
    fun p => Nat.not_lt.2 ((List.length_filter_le p s.seals).trans hcount)
  have hclean : ∀ (p : SealRec → Bool) le, ((s.seals.filter p).mergeSort le).any (·.poisoned) = false := fun p le =>
    List.any_eq_false.2 fun r hr => Bool.eq_false_iff.1 (hsound r (List.mem_of_mem_filter (List.mem_mergeSort.1 hr)))
  simp only [signBatchCmd, hsome, Nat.not_lt.2 hrange, List.length_mergeSort, hfew, hcomplete, hclean, hidle, Option.isSome_none,
    Bool.or_self, Bool.false_eq_true, if_false, bne_self_eq_false]
  exact ⟨_, rfl⟩

/-- The mark changes neither the subscriber nor the step of a record. -/
theorem markSigned_sub_step (n first last number : Nat) (r : SealRec) :
    (markSigned n first last number r).sub = r.sub ∧ (markSigned n first last number r).step = r.step := by
  unfold markSigned
  split <;> exact ⟨rfl, rfl⟩

/-- A record of the subscriber in the range is covered by the batch. -/
theorem signed_of_mem_map_markSigned {l : List SealRec} {n first last number : Nat} {r : SealRec}
    (hr : r ∈ l.map (markSigned n first last number)) (hsub : r.sub = n) (hfirst : first ≤ r.step) (hlast : r.step ≤ last) :
    r.signed = some number := by
  obtain ⟨x, -, rfl⟩ := List.mem_map.1 hr
  obtain ⟨hxsub, hxstep⟩ := markSigned_sub_step n first last number x
  rw [hxsub] at hsub
  rw [hxstep] at hfirst hlast
  simp [markSigned, hsub, hfirst, hlast]

section Sign
variable {s : State} {who : Requester} {n : Nat}

theorem signBatch_no_job (hn : n < 256) (hacc : Accepts s who (wSeal n) 0x10000000 0xF0000000) (hjob : getJob s n = none) :
    Runs (.signBatch who n) s fun t =>
      fget t (wSeal n + 20) 2 0 = 3 ∧ fget t (wSeal n + 20) 15 8 = 1 ∧ t.batch = s.batch := by
  obtain ⟨a, hexec⟩ := exec_signBatch hn hacc
  rw [signBatchCmd_of_no_job ((getJob_sealCmdTaken s n a n).trans hjob)] at hexec
  obtain ⟨hbatch, -⟩ := setBatch_batches (sealCmdTaken s n a) n 3 1
  exact ⟨_, hexec, batchState_setBatch _ _ _ (by decide), batchReason_setBatch _ _ _ (by decide), hbatch⟩

theorem signBatch_begins (hn : n < 256) (hacc : Accepts s who (wSeal n) 0x10000000 0xF0000000) (hjob : getJob s n ≠ none)
    (hrange : rdPair s (wSeal n + 4) ≤ rdPair s (wSeal n + 12)) (hcount : s.seals.length ≤ 65536)
    (hsound : ∀ r ∈ s.seals, r.poisoned = false)
    (hcomplete : stepsIncomplete s n (rdPair s (wSeal n + 4)) (rdPair s (wSeal n + 12)) = false) (hidle : s.batch = none) :
    Runs (.signBatch who n) s fun t => ∃ b, t.batch = some b ∧ b.sub = n ∧ b.number = s.fuses.batches ∧
      b.first = rdPair s (wSeal n + 4) ∧ b.last = rdPair s (wSeal n + 12) ∧ t.fuses.batches = s.fuses.batches + 1 ∧
      fget t (wSeal n + 20) 2 0 = 1 ∧
      ∀ r ∈ t.seals, r.sub = n → b.first ≤ r.step → r.step ≤ b.last → r.signed = some b.number := by
  obtain ⟨a, hexec⟩ := exec_signBatch hn hacc
  have hrd := rd_sealCmdTaken s n a
  rw [← rdPair_eq_of_rd hrd] at hrange hcomplete ⊢
  rw [← stepsIncomplete_eq_of_rd hrd (getJob_sealCmdTaken s n a n)] at hcomplete
  obtain ⟨statement, hcmd⟩ := signBatchCmd_of_passed (s := sealCmdTaken s n a) hjob hrange hcount hsound hcomplete hidle
  rw [hcmd] at hexec
  obtain ⟨hbatch, -⟩ := setBatch_batches (batchBegun (sealCmdTaken s n a) n statement) n 1 0
  refine ⟨_, hexec, _, hbatch, rfl, rfl, rfl, rfl, ?fuses, batchState_setBatch _ _ _ (by decide),
    fun r hr => ?signed⟩
  case fuses =>
    rw [setBatch_fuses]
    rfl
  case signed =>
    rw [setBatch_seals] at hr
    exact signed_of_mem_map_markSigned hr

end Sign

/-! ## BATCH_SIGNED (R219) -/

/-- The batch `b` with its signature, kept as the subscriber's last one; none is being signed. -/
def batchDone (s : State) (b : Batch) (sig : List Byte) : State :=
  { (draw s).2 with batch := none, lastBatch := s.lastBatch.filter (fun x => x.sub != b.sub) ++ [{ b with sig := sig }] }

theorem execBatchSigned_of_batch {s : State} {b : Batch} (hb : s.batch = some b) :
    ∃ sig, execBatchSigned s =
      .next (setBatch (wr (ctrAdd (batchDone s b sig) pSeal 1 1) (wSeal b.sub + 36) (BitVec.ofNat 32 b.number)) b.sub 2 0) := by
  simp only [execBatchSigned, hb]
  exact ⟨_, rfl⟩

/-- Of a subscriber's batches only the one just signed is kept. -/
theorem find_lastBatch_batchDone (s : State) (b : Batch) (sig : List Byte) :
    ((batchDone s b sig).lastBatch.find? fun x => x.sub == b.sub) = some { b with sig := sig } := by
  have hothers : ((s.lastBatch.filter fun x => x.sub != b.sub).find? fun x => x.sub == b.sub) = none :=
    List.find?_eq_none.2 fun x hx => by simpa using List.of_mem_filter hx
  simp only [batchDone, List.find?_append, hothers, Option.none_or, List.find?_cons, BEq.rfl]

theorem batchSigned_done {s : State} {b : Batch} (hb : s.batch = some b) :
    Runs .batchSigned s fun t => t.batch = none ∧ fget t (wSeal b.sub + 20) 2 0 = 2 ∧
      ∃ c, (t.lastBatch.find? fun x => x.sub == b.sub) = some c ∧ c.number = b.number ∧ c.statement = b.statement := by
  obtain ⟨sig, hexec⟩ := execBatchSigned_of_batch hb
  obtain ⟨hbatch, hlast⟩ :=
    setBatch_batches (wr (ctrAdd (batchDone s b sig) pSeal 1 1) (wSeal b.sub + 36) (BitVec.ofNat 32 b.number)) b.sub 2 0
  refine ⟨_, hexec, hbatch, batchState_setBatch _ _ _ (by decide), { b with sig := sig }, ?_, rfl, rfl⟩
  rw [hlast]
  exact find_lastBatch_batchDone s b sig

/-! ## RELEASE (R218) -/

/-- The records that batch `number` of the subscriber covers gone, and the batch with them. -/
def recordsReleased (s : State) (n number : Nat) : State :=
  { s with seals := s.seals.filter fun r => !(r.sub == n && r.signed == some number),
           lastBatch := s.lastBatch.filter fun x => x.sub != n }

theorem releaseBatchCmd_of_done {s : State} {n : Nat} {b : Batch} (hb : (s.lastBatch.find? fun b => b.sub == n) = some b) :
    releaseBatchCmd s n = showSeals (recordsReleased s n b.number) n := by
  simp only [releaseBatchCmd, hb, recordsReleased]

theorem releaseBatchCmd_of_none {s : State} {n : Nat} (hb : (s.lastBatch.find? fun b => b.sub == n) = none) :
    releaseBatchCmd s n = s := by
  simp only [releaseBatchCmd, hb]

theorem mem_seals_recordsReleased {s : State} {n number : Nat} {r : SealRec} :
    r ∈ (recordsReleased s n number).seals ↔ r ∈ s.seals ∧ ¬(r.sub = n ∧ r.signed = some number) := by
  simp only [recordsReleased, List.mem_filter, Bool.not_eq_true', Bool.and_eq_false_iff, beq_eq_false_iff_ne, not_and_or, ne_eq]

theorem find_lastBatch_recordsReleased (s : State) (n number : Nat) :
    ((recordsReleased s n number).lastBatch.find? fun b => b.sub == n) = none :=
  List.find?_eq_none.2 fun x hx => by simpa using List.of_mem_filter hx

/-- SEALED_STEP and RECORDS are registers. -/
theorem showSeals_seals (s : State) (n : Nat) : (showSeals s n).seals = s.seals :=
  (showSeals_keeps _ _ _ _ (by decide) (Keeps.refl _ s)).seals_eq

theorem showSeals_lastBatch (s : State) (n : Nat) : (showSeals s n).lastBatch = s.lastBatch :=
  (showSeals_keeps _ _ _ _ (by decide) (Keeps.refl _ s)).batches_eq.2

section Release
variable {s : State} {who : Requester} {n : Nat}

theorem releaseBatch_releases (hn : n < 256) (hacc : Accepts s who (wSeal n) 0x20000000 0xF0000000) {b : Batch}
    (hb : (s.lastBatch.find? fun b => b.sub == n) = some b) :
    Runs (.releaseBatch who n) s fun t =>
      (∀ r, r ∈ t.seals ↔ r ∈ s.seals ∧ ¬(r.sub = n ∧ r.signed = some b.number)) ∧
      (t.lastBatch.find? fun b => b.sub == n) = none := by
  obtain ⟨a, hexec⟩ := exec_releaseBatch hn hacc
  rw [releaseBatchCmd_of_done (s := sealCmdTaken s n a) hb] at hexec
  refine ⟨_, hexec, ?_⟩
  dsimp only
  rw [showSeals_seals, showSeals_lastBatch]
  exact ⟨fun r => mem_seals_recordsReleased (s := sealCmdTaken s n a), find_lastBatch_recordsReleased _ n b.number⟩

theorem releaseBatch_nothing (hn : n < 256) (hacc : Accepts s who (wSeal n) 0x20000000 0xF0000000)
    (hb : (s.lastBatch.find? fun b => b.sub == n) = none) : Runs (.releaseBatch who n) s fun t => t.seals = s.seals := by
  obtain ⟨a, hexec⟩ := exec_releaseBatch hn hacc
  rw [releaseBatchCmd_of_none (s := sealCmdTaken s n a) hb] at hexec
  exact ⟨_, hexec, rfl⟩

end Release

/-- Settles O25: a chunk that is whole turns into its digest, and a wait for space ends when there is room. Of a batch's three
commands the first marks the records that it covers, the second keeps the signed batch, and the third drops what the mark names. -/
theorem sealsAreSignedInBatches : Obligations.SealsAreSignedInBatches := by
  unfold Obligations.SealsAreSignedInBatches
  intro s n
  refine ⟨fun p c hfull => ⟨s, execChunkDigest_of_store_full hfull n p c, rfl⟩, ?digest, fun j hj hwaits => ⟨?full, ?freed⟩,
    fun who hn hacc => ⟨signBatch_no_job hn hacc, signBatch_begins hn hacc⟩, fun b hb _ => batchSigned_done hb,
    fun who hn hacc => ⟨fun b => releaseBatch_releases hn hacc, releaseBatch_nothing hn hacc⟩⟩
  case digest =>
    intro j p st bs hj hnone hpoint hstaged hpos hlen hroom
    exact ⟨_, execChunkDigest_single hj hnone hpoint hstaged hpos hlen hroom, rfl⟩
  case full => exact fun hfull => ⟨s, execSealSpaceFreed_of_full hj hfull, rfl⟩
  case freed => exact fun hroom hpoints hslots => ⟨_, execSealSpaceFreed_of_idle hj hwaits hroom hpoints hslots, rfl⟩

end Sys2Proof.Machine

/-! # What happened stays (R224, R354, R358) -/

namespace Sys2Proof.Machine

open Sys2Proof

/-! ## Only RST_CMD resets

A register write may reset the device, but only the write of RST_CMD does (R378); every other write lets what only grows grow. -/

section Writes
variable {s0 s : State} {who : Requester} {kat : Option Bool}

theorem setLatched_growsFrom (b : Bool) (h : GrowsFrom s0 s) :
    GrowsFrom s0 { s with faults := { s.faults with latched := b } } := by
  obtain ⟨hpending, hcanonical, hfuses, -, hgrows⟩ := h
  exact ⟨hpending, hcanonical, hfuses, fun p hp => absurd hp (by cases p <;> decide), hgrows⟩

theorem chipActs_growsFrom {ty off : Nat} (hrst : ¬(ty = 0x0A ∧ off = 0x040)) (old value mask : Word) (h : GrowsFrom s0 s) :
    GrowsFrom s0 (chipActs s who kat ty off old value mask) := by
  unfold chipActs
  split
  case h_1 => exact moveOwnReach_keeps _ _ _ _ (by decide) h
  case h_2 => exact refreshCert_keeps _ _ _ (by decide) h
  case h_3 =>
    split
    · exact recommission_keeps _ _ _ _ _ (by decide) (katOf_keeps _ _ _ _ (by decide) h)
    · exact decommission_keeps _ _ _ _ (by decide) h
    · exact h
  case h_4 => exact keeps_ite (fun _ => refSelect_keeps _ _ _ _ (by decide) h) fun _ => h
  case h_5 => exact keeps_ite (fun _ => clkOn_keeps _ _ _ _ (by decide) h) fun _ => clkOff_keeps _ _ _ _ (by decide) h
  case h_6 => exact absurd ⟨rfl, rfl⟩ hrst
  case h_7 => exact keeps_ite (fun _ => showPin_keeps _ _ _ (by decide) (setLatched_growsFrom false h)) fun _ => h
  case h_8 => exact keeps_ite (fun _ => serve_keeps _ _ _ _ (by decide) h) fun _ => h
  case h_9 => exact launchSwath_keeps _ _ _ _ (by decide) h
  case h_10 => exact disciplineActs_keeps _ _ _ _ (by decide) h
  case h_11 => exact h

theorem blockActs_growsFrom {k : PageKind} {off : Nat} (hrst : ¬(k.ty = 0x0A ∧ off = 0x040)) (page : Nat)
    (old new value mask : Word) (h : GrowsFrom s0 s) : GrowsFrom s0 (blockActs s who kat k page off old new value mask) := by
  unfold blockActs
  dsimp only
  split
  case h_1 => exact portCfgActs_keeps _ _ _ _ _ _ (by decide) h
  case h_2 =>
    have hadopt := keeps_ite (c := (woVal value mask 0 0 == 1) = true)
      (fun _ => adoptPort_keeps _ _ _ who (k.inst page) (by decide) h) fun _ => h
    exact keeps_ite (fun _ => retrainPort_keeps _ _ _ _ (by decide) hadopt) fun _ => hadopt
  case h_3 => exact releaseBanked_keeps _ _ _ _ (by decide) h
  case h_4 => exact releaseBanked_keeps _ _ _ _ (by decide) h
  case h_5 =>
    have hclose := keeps_ite (c := (new.getLsbD 0 && !old.getLsbD 0) = true)
      (fun _ => closeNow_keeps _ _ _ (k.inst page) 3 (by decide) h) fun _ => h
    exact keeps_ite (fun _ => openStart_keeps _ _ _ _ (by decide)
      (setStitch_keeps _ _ _ _ _ (by decide) (fset_keeps _ _ _ _ _ _ _ (by decide) hclose))) fun _ => hclose
  case h_6 =>
    exact pump_keeps _ _ _ _ (by decide) (keeps_ite (fun _ => gateChangeNow_keeps _ _ _ _ (by decide) h) fun _ => h)
  case h_7 => exact fillMeter_keeps _ _ _ _ _ (by decide) h
  case h_8 => exact showPools_keeps _ _ _ _ (by decide) h
  case h_9 => exact keeps_ite (fun _ => clearRetired_keeps _ _ _ _ (by decide) h) fun _ => h
  case h_10 =>
    exact keeps_forUp _ 4 0 s (fun _ _ ht => keeps_ite (fun _ => clearRetired_keeps _ _ _ _ (by decide) ht) fun _ => ht) h
  case h_11 => exact keeps_ite (fun _ => ctrsReset_keeps _ _ _ _ (by decide) h) fun _ => h
  case h_12 => exact advanceCounter_keeps _ _ _ _ _ (by decide) h
  case h_13 => exact chipActs_growsFrom hrst old value mask h

/-- RST is the only page of its type (Table 20.8), so its word at 0x040 stands at one address. -/
theorem eq_rstCmd_of_pageOf {a page : Nat} {k : PageKind} (hpage : pageOf a = some (k, page)) (hty : k.ty = 0x0A)
    (hoff : a - page = 0x040) : a = pRst + 0x40 := by
  unfold pageOf at hpage
  split at hpage
  case h_2 => cases hpage
  case h_1 k' hfind =>
    cases hpage
    obtain ⟨hbase, hcount⟩ : k.base = 0x9000 ∧ k.count = 1 :=
      (by decide : ∀ k ∈ pageKinds, k.ty = 0x0A → k.base = 0x9000 ∧ k.count = 1) k (List.mem_of_find?_eq_some hfind) hty
    have hin := List.find?_some hfind
    simp only [hbase, hcount, Bool.and_eq_true, decide_eq_true_eq] at hin
    simp only [pRst]
    omega

theorem acceptWrite_growsFrom {a : Nat} (ha : a ≠ pRst + 0x40) (value mask : Word) (h : GrowsFrom s0 s) :
    GrowsFrom s0 (acceptWrite s who kat a value mask) := by
  have hset := wr_keeps _ _ _ (changeOf s a value mask).home (changeOf s a value mask).new (by decide)
    (settleBefore_keeps _ _ _ a (by decide) (recordWrite_keeps _ _ _ who a value mask (changeOf s a value mask) 0 (by decide) h))
  unfold acceptWrite
  dsimp only
  split
  case h_1 k page hpage =>
    exact keeps_ite (fun _ => headerActs_keeps _ _ _ _ _ _ _ _ _ _ (by decide) hset) fun _ =>
      blockActs_growsFrom (fun ⟨hty, hoff⟩ => ha (eq_rstCmd_of_pageOf hpage hty hoff)) page _ _ _ _ hset
  case h_2 =>
    split
    · exact windowActs_keeps _ _ _ _ _ _ _ _ _ _ _ (by decide) hset
    · exact hset

theorem commandWrite_growsFrom {a : Nat} (ha : a ≠ pRst + 0x40) (value mask : Word) :
    GrowsFrom s (commandWrite who kat a value mask s) := by
  have href : GrowsFrom s s := .refl _ s
  refine keeps_ite (fun _ => ?_) fun _ => href
  unfold writeWord
  refine keeps_ite_snd (fun _ => ?accepted) fun _ => keeps_ite_snd (fun _ => ?refused) fun _ => href
  case accepted => exact keeps_ite (fun _ => href) fun _ => acceptWrite_growsFrom ha value mask href
  case refused => exact refuseWrite_keeps _ _ _ _ _ _ _ _ (by decide) href

theorem writeIf_growsFrom {ok : Bool} {a : Nat} {value mask : Word} (ha : ok = true → a ≠ pRst + 0x40) :
    KeepsOut 0x8000000000000000#64 s (writeIf ok who a value mask s) :=
  keepsOut_next (keeps_ite (fun hok => commandWrite_growsFrom (ha hok) value mask) fun _ => .refl _ s)

/-- A word of a page's common header is not RST_CMD, which stands past it. -/
theorem headerWord_ne_rstCmd {page off : Nat} (hpage : isPage page = true) (hoff : off < 0x40) : page + off ≠ pRst + 0x40 := by
  simp only [isPage, Bool.and_eq_true, beq_iff_eq] at hpage
  simp only [pRst]
  omega

end Writes

/-! ## Commands -/

theorem execBlockReset_growsFrom (s : State) (who : Option Requester) (page : Nat) :
    KeepsOut 0x8000000000000000#64 s (execBlockReset who page s) := by
  cases who with
  | some w => exact writeIf_growsFrom fun hpage => headerWord_ne_rstCmd hpage (by decide)
  | none => exact keepsOut_next (keeps_ite (fun _ => resetBlock_keeps _ _ _ _ _ (by decide) (.refl _ s)) fun _ => .refl _ s)

theorem execRetireClear_growsFrom (s : State) (who : Requester) (unit : Nat) :
    KeepsOut 0x8000000000000000#64 s (execRetireClear who unit s) :=
  keepsOut_ite (fun _ => writeIf_growsFrom fun _ => by simp only [pStackMem, pRst]; omega)
    fun _ => writeIf_growsFrom fun _ => by decide

theorem execSecRecommission_growsFrom (s : State) (who : Requester) (katPass : Bool) :
    KeepsOut 0x8000000000000000#64 s (execSecRecommission who katPass s) :=
  keepsOut_next (commandWrite_growsFrom (by decide) 1 3)

/-- Of the commands that are no reset, those that write a register write another word than RST_CMD, and no other one touches what only
grows but by adding to it. -/
theorem exec_growsFrom (s : State) (c : Instr) (hc : mayReset c = false) : KeepsOut 0x8000000000000000#64 s (exec c s) := by
  cases c with
  | powerOn | resetNAssert | chipReset | faultRecord | reg | registerWrite => cases hc
  -- One register write each, of a word other than RST_CMD.
  | refSelectWrite | clkGateOn | clkGateOff | manualFallow | faultPinClear | fltAckWrite | secDecommission | glbCoordWrite
  | glbTorusWrite | fabricEpochWrite | swathLaunch => exact writeIf_growsFrom fun _ => by decide
  | blockEnable | blockDisable | eventStatusClear | pageLock => exact writeIf_growsFrom fun hpage => headerWord_ne_rstCmd hpage (by decide)
  | fltReactWrite => exact writeIf_growsFrom fun _ => by simp only [wReact, pRst]; omega
  | credentialWrite => exact writeIf_growsFrom fun _ => by simp only [wCred, pRst]; omega
  | portEnable | portDisable | portTestEnter | portRetrain | portAdopt => exact writeIf_growsFrom fun _ => by simp only [pPort, pRst]; omega
  | kstForceClose | kstHoldOpen | kstRetry => exact writeIf_growsFrom fun _ => by simp only [pStitch, pRst]; omega
  | patCtrlWrite => exact writeIf_growsFrom fun _ => by simp only [pPattern, pRst]; omega
  | bpCfgWrite => exact writeIf_growsFrom fun _ => by simp only [pBufPool, pRst]; omega
  | gateChange => exact writeIf_growsFrom fun _ => by simp only [pGate, pRst]; omega
  | meterWrite => exact writeIf_growsFrom fun _ => by simp only [meterAddr, pPolice, pRst]; omega
  | slotQuotaWrite => exact writeIf_growsFrom fun _ => by simp only [wSlotQuota, pRst]; omega
  | redSpillCfgWrite => exact writeIf_growsFrom fun _ => by simp only [pReduce, pRst]; omega
  | trigAdd => exact writeIf_growsFrom fun _ => by simp only [pTrig, pRst]; omega
  | triggerValidWrite => exact writeIf_growsFrom fun _ => by simp only [wTrig, pRst]; omega
  | quireTableWrite => exact writeIf_growsFrom fun _ => by simp only [wQuire, pRst]; omega
  | rankXlatWrite => exact writeIf_growsFrom fun _ => by simp only [wRank, pRst]; omega
  | jobLoad | jobUnload => exact writeIf_growsFrom fun _ => by simp only [wJob, pRst]; omega
  | signBatch | releaseBatch => exact writeIf_growsFrom fun _ => by simp only [wSeal, pRst]; omega
  -- Commands of which no part resets the device.
  | resetNRelease => exact execResetNRelease_keeps _ _ _ _ _ (by decide) (.refl _ s)
  | railPowerGoodTimeout => exact execRailPowerGoodTimeout_keeps _ _ _ _ (by decide) (.refl _ s)
  | supplyOutOfRange => exact execSupplyOutOfRange_keeps _ _ _ _ (by decide) (.refl _ s)
  | vioLoss => exact execVioLoss_keeps _ _ _ (by decide) (.refl _ s)
  | lpddrBistDone => exact execLpddrBistDone_keeps _ _ _ _ (by decide) (.refl _ s)
  | refClockLoss => exact execRefClockLoss_keeps _ _ _ _ (by decide) (.refl _ s)
  | clockFallback => exact execClockFallback_keeps _ _ _ _ (by decide) (.refl _ s)
  | paceSample => exact execPaceSample_keeps _ _ _ _ _ (by decide) (.refl _ s)
  | powerControlTick => exact execPowerControlTick_keeps _ _ _ _ _ _ (by decide) (.refl _ s)
  | pmbusAlert => exact execPmbusAlert_keeps _ _ _ (by decide) (.refl _ s)
  | thermalTrip => exact execThermalTrip_keeps _ _ _ _ (by decide) (.refl _ s)
  | blockStopDone => exact execBlockStopDone_keeps _ _ _ _ (by decide) (.refl _ s)
  | blockReset => exact execBlockReset_growsFrom s _ _
  | blockResetDone => exact execBlockResetDone_keeps _ _ _ _ (by decide) (.refl _ s)
  | extFallowReq => exact execExtFallowReq_keeps _ _ _ (by decide) (.refl _ s)
  | handshakeStall => exact execHandshakeStall_keeps _ _ _ _ _ _ (by decide) (.refl _ s)
  | registerSweep => exact execRegisterSweep_keeps _ _ _ _ (by decide) (.refl _ s)
  | mgmtLockstep => exact execMgmtLockstep_keeps _ _ _ (by decide) (.refl _ s)
  | mgmtWatchdog => exact execMgmtWatchdog_keeps _ _ _ (by decide) (.refl _ s)
  | tileSelfTest => exact execTileSelfTest_keeps _ _ _ _ (by decide) (.refl _ s)
  | tileSelfTestDone => exact execTileSelfTestDone_keeps _ _ _ _ _ (by decide) (.refl _ s)
  | fenceRx => exact execFenceRx_keeps _ _ _ _ (by decide) (.refl _ s)
  | crossingWordRx => exact execCrossingWordRx_keeps _ _ _ _ _ _ _ (by decide) (.refl _ s)
  | hostLinkUp => exact execHostLinkUp_keeps _ _ _ _ _ (by decide) (.refl _ s)
  | hostLinkLoss => exact execHostLinkLoss_keeps _ _ _ (by decide) (.refl _ s)
  | hostFrameRx => exact execHostFrameRx_keeps _ _ _ _ (by decide) (.refl _ s)
  | ptpMessageRx => exact execPtpMessageRx_keeps _ _ _ _ (by decide) (.refl _ s)
  | shafortSegmentRx => exact execShafortSegmentRx_keeps _ _ _ _ (by decide) (.refl _ s)
  | segmentTimeout => exact execSegmentTimeout_keeps _ _ _ _ _ (by decide) (.refl _ s)
  | hello => exact execHello_keeps _ _ _ _ _ _ _ (by decide) (.refl _ s)
  | proof => exact execProof_keeps _ _ _ _ _ (by decide) (.refl _ s)
  | proofTimeout => exact execProofTimeout_keeps _ _ _ _ (by decide) (.refl _ s)
  | close => exact execClose_keeps _ _ _ _ (by decide) (.refl _ s)
  | keepalive session => exact execKeepalive_keeps _ _ session _ (by decide) (.refl _ s)
  | sessionIdleTimeout => exact execSessionIdleTimeout_keeps _ _ _ _ (by decide) (.refl _ s)
  | subscribe => exact execSubscribe_keeps _ _ _ _ _ _ (by decide) (.refl _ s)
  | eventAck => exact execEventAck_keeps _ _ _ _ _ (by decide) (.refl _ s)
  | eventResendTimer => exact execEventResendTimer_keeps _ _ _ _ _ (by decide) (.refl _ s)
  | eventAckTimeout => exact execEventAckTimeout_keeps _ _ _ _ _ (by decide) (.refl _ s)
  | bulkOpen => exact execBulkOpen_keeps _ _ _ _ _ _ (by decide) (.refl _ s)
  | bulkOpenResume => exact execBulkOpenResume_keeps _ _ _ _ _ (by decide) (.refl _ s)
  | bulkData => exact execBulkData_keeps _ _ _ _ _ _ _ (by decide) (.refl _ s)
  | bulkAck => exact execBulkAck_keeps _ _ _ _ _ _ _ (by decide) (.refl _ s)
  | bulkAckTimer => exact execBulkAckTimer_keeps _ _ _ _ _ (by decide) (.refl _ s)
  | bulkResendTimer => exact execBulkResendTimer_keeps _ _ _ _ _ _ (by decide) (.refl _ s)
  | bulkCommit => exact execBulkCommit_keeps _ _ _ _ _ _ (by decide) (.refl _ s)
  | bulkIdleTimeout => exact execBulkIdleTimeout_keeps _ _ _ _ _ (by decide) (.refl _ s)
  | fwCheckDone => exact execFwCheckDone_keeps _ _ _ (by decide) (.refl _ s)
  | fwProgramDone => exact execFwProgramDone_keeps _ _ _ _ (by decide) (.refl _ s)
  | auditStart => exact execAuditStart_keeps _ _ _ _ _ (by decide) (.refl _ s)
  | auditAck => exact execAuditAck_keeps _ _ _ _ _ (by decide) (.refl _ s)
  | auditResendTimer => exact execAuditResendTimer_keeps _ _ _ _ (by decide) (.refl _ s)
  | auditRecordProgram => exact execAuditRecordProgram_keeps _ _ _ (by decide) (.refl _ s)
  | attestReq => exact execAttestReq_keeps _ _ _ _ _ _ (by decide) (.refl _ s)
  | attestSigned => exact execAttestSigned_keeps _ _ _ (by decide) (.refl _ s)
  | secRecommission => exact execSecRecommission_growsFrom s _ _
  | jtagExtest => exact execJtagExtest_keeps _ _ _ _ (by decide) (.refl _ s)
  | signalDetect => exact execSignalDetect_keeps _ _ _ _ _ (by decide) (.refl _ s)
  | trainingFrameRx => exact execTrainingFrameRx_keeps _ _ _ _ _ _ (by decide) (.refl _ s)
  | bringupStageTimeout => exact execBringupStageTimeout_keeps _ _ _ _ (by decide) (.refl _ s)
  | bringupRestart => exact execBringupRestart_keeps _ _ _ _ (by decide) (.refl _ s)
  | identTimer => exact execIdentTimer_keeps _ _ _ _ (by decide) (.refl _ s)
  | identRx => exact execIdentRx_keeps _ _ _ _ _ (by decide) (.refl _ s)
  | identAckRx => exact execIdentAckRx_keeps _ _ _ _ (by decide) (.refl _ s)
  | heldDownRetry => exact execHeldDownRetry_keeps _ _ _ _ (by decide) (.refl _ s)
  | laneUnhealthy => exact execLaneUnhealthy_keeps _ _ _ _ _ _ _ (by decide) (.refl _ s)
  | restripeDone => exact execRestripeDone_keeps _ _ _ _ _ (by decide) (.refl _ s)
  | laneRejoin => exact execLaneRejoin_keeps _ _ _ _ _ _ (by decide) (.refl _ s)
  | linkFrameRx => exact execLinkFrameRx_keeps _ _ _ _ _ (by decide) (.refl _ s)
  | llrRetryRx => exact execLlrRetryRx_keeps _ _ _ _ _ (by decide) (.refl _ s)
  | linkAckRx => exact execLinkAckRx_keeps _ _ _ _ _ (by decide) (.refl _ s)
  | creditReturnRx => exact execCreditReturnRx_keeps _ _ _ _ _ _ (by decide) (.refl _ s)
  | stitchOpenStart => exact execStitchOpenStart_keeps _ _ _ _ (by decide) (.refl _ s)
  | stitchSenseSample => exact execStitchSenseSample_keeps _ _ _ _ _ _ (by decide) (.refl _ s)
  | stitchAdmitTimeout => exact execStitchAdmitTimeout_keeps _ _ _ _ (by decide) (.refl _ s)
  | stitchRetryTimer => exact execStitchRetryTimer_keeps _ _ _ _ (by decide) (.refl _ s)
  | packetRx => exact execPacketRx_keeps _ _ _ _ _ _ (by decide) (.refl _ s)
  | packetTxDone => exact execPacketTxDone_keeps _ _ _ _ (by decide) (.refl _ s)
  | origCellWaitEnd => exact execOrigCellWaitEnd_keeps _ _ _ _ _ (by decide) (.refl _ s)
  | leakAuditPass => exact execLeakAuditPass_keeps _ _ _ _ (by decide) (.refl _ s)
  | gateEntryBoundary => exact execGateEntryBoundary_keeps _ _ _ _ (by decide) (.refl _ s)
  | gateListStart => exact execGateListStart_keeps _ _ _ _ (by decide) (.refl _ s)
  | transitBucketRecover => exact execTransitBucketRecover_keeps _ _ _ _ (by decide) (.refl _ s)
  | linkStateCtrlTimer => exact execLinkStateCtrlTimer_keeps _ _ _ (by decide) (.refl _ s)
  | linkStateCtrlRx => exact execLinkStateCtrlRx_keeps _ _ _ _ _ (by decide) (.refl _ s)
  | reachMapUpdate => exact execReachMapUpdate_keeps _ _ _ (by decide) (.refl _ s)
  | routeTableRecompute => exact execRouteTableRecompute_keeps _ _ _ (by decide) (.refl _ s)
  | timeSyncTimer => exact execTimeSyncTimer_keeps _ _ _ (by decide) (.refl _ s)
  | timePacketRx => exact execTimePacketRx_keeps _ _ _ _ _ _ (by decide) (.refl _ s)
  | timeRootTimeout => exact execTimeRootTimeout_keeps _ _ _ (by decide) (.refl _ s)
  | ppsInEdge => exact execPpsInEdge_keeps _ _ _ (by decide) (.refl _ s)
  | ppsOutPulse => exact execPpsOutPulse_keeps _ _ _ (by decide) (.refl _ s)
  | ackDelayExpiry => exact execAckDelayExpiry_keeps _ _ _ _ (by decide) (.refl _ s)
  | ackRx => exact execAckRx_keeps _ _ _ _ (by decide) (.refl _ s)
  | rtoExpiry => exact execRtoExpiry_keeps _ _ _ _ _ (by decide) (.refl _ s)
  | dataRx => exact execDataRx_keeps _ _ _ _ (by decide) (.refl _ s)
  | holdQueueFree => exact execHoldQueueFree_keeps _ _ _ _ (by decide) (.refl _ s)
  | postPendingResume => exact execPostPendingResume_keeps _ _ _ _ (by decide) (.refl _ s)
  | slotTake => exact execSlotTake_keeps _ _ _ _ (by decide) (.refl _ s)
  | contribRx => exact execContribRx_keeps _ _ _ _ (by decide) (.refl _ s)
  | partialRx => exact execPartialRx_keeps _ _ _ _ (by decide) (.refl _ s)
  | retentionFreed => exact execRetentionFreed_keeps _ _ _ _ _ (by decide) (.refl _ s)
  | chunkDigest => exact execChunkDigest_keeps _ _ _ _ _ _ (by decide) (.refl _ s)
  | resultRx => exact execResultRx_keeps _ _ _ _ (by decide) (.refl _ s)
  | statusNoticeRx => exact execStatusNoticeRx_keeps _ _ _ _ _ (by decide) (.refl _ s)
  | livenessExpiry => exact execLivenessExpiry_keeps _ _ _ _ (by decide) (.refl _ s)
  | settlingEnd => exact execSettlingEnd_keeps _ _ _ _ (by decide) (.refl _ s)
  | countRx => exact execCountRx_keeps _ _ _ _ (by decide) (.refl _ s)
  | jobUnloadDone => exact execJobUnloadDone_keeps _ _ _ _ (by decide) (.refl _ s)
  | stepForwardResume => exact execStepForwardResume_keeps _ _ _ _ (by decide) (.refl _ s)
  | stageExecute => exact execStageExecute_keeps _ _ _ _ _ _ (by decide) (.refl _ s)
  | sealSpaceFreed => exact execSealSpaceFreed_keeps _ _ _ _ (by decide) (.refl _ s)
  | batchSigned => exact execBatchSigned_keeps _ _ _ (by decide) (.refl _ s)
  | scrubStep => exact execScrubStep_keeps _ _ _ _ _ _ _ (by decide) (.refl _ s)
  | dramRefresh => exact execDramRefresh_keeps _ _ _ _ _ _ (by decide) (.refl _ s)
  | lpddrRetrain => exact execLpddrRetrain_keeps _ _ _ _ _ (by decide) (.refl _ s)
  | retireClear => exact execRetireClear_growsFrom s _ _
  | swathMarkerRx => exact execSwathMarkerRx_keeps _ _ _ _ _ (by decide) (.refl _ s)
  | jobLoadDecided => exact execJobLoadDecided_keeps _ _ _ _ _ (by decide) (.refl _ s)
  | startUpStepEnd => exact execStartUpStepEnd_keeps _ _ _ _ (by decide) (.refl _ s)
  | fallowBlocksHeld => exact execFallowBlocksHeld_keeps _ _ _ (by decide) (.refl _ s)
  | refClockReturn => exact execRefClockReturn_keeps _ _ _ _ (by decide) (.refl _ s)
  | fallowReqNHigh => exact execFallowReqNHigh_keeps _ _ _ (by decide) (.refl _ s)
  | faultNPulseEnd => exact execFaultNPulseEnd_keeps _ _ _ (by decide) (.refl _ s)
  | dividerRampEnd => exact execDividerRampEnd_keeps _ _ _ _ (by decide) (.refl _ s)
  | lpddrRefresh => exact execLpddrRefresh_keeps _ _ _ _ _ (by decide) (.refl _ s)
  | watchdogService => exact execWatchdogService_keeps _ _ _ (by decide) (.refl _ s)
  | trapReturn => exact execTrapReturn_keeps _ _ _ (by decide) (.refl _ s)

/-- Settles O47: what each command that is no reset keeps, from the lemmas of its operations and those of the register writes. -/
theorem whatHappenedStays : Obligations.WhatHappenedStays := by
  unfold Obligations.WhatHappenedStays
  intro s t c hc hexec
  exact (exec_growsFrom s c hc t hexec).grows (by decide)

end Sys2Proof.Machine

/-! # Every command (R376; log 1, 2, 4)

What holds of each of the 173 commands alike: it completes, it leaves the queue, the canonical tables and the one-time fuses as they
should be. -/

namespace Sys2Proof.Machine

open Sys2Proof

/-! ## The front of the queue -/

/-- Settles O41: both cases of `step`. -/
theorem stepRunsTheFrontCommand : Obligations.StepRunsTheFrontCommand := by
  unfold Obligations.StepRunsTheFrontCommand
  exact fun s c cs => ⟨rfl, rfl⟩

/-! ## What every command keeps -/

theorem zero_avoids (b : BitVec 64) : 0#64 &&& b = 0#64 := BitVec.zero_and

/-- No command reaches the queue, breaks a table's canonical form or lowers a fuse counter; the mask names no part to be left alone. -/
theorem exec_keeps (s : State) (c : Instr) : KeepsOut 0#64 s (exec c s) := by
  cases c with
  | powerOn => exact execPowerOn_keeps _ _ _ _ _ (zero_avoids _) (.refl _ s)
  | resetNAssert => exact execResetNAssert_keeps _ _ _ (zero_avoids _) (.refl _ s)
  | resetNRelease => exact execResetNRelease_keeps _ _ _ _ _ (zero_avoids _) (.refl _ s)
  | chipReset => exact execChipReset_keeps _ _ _ _ (zero_avoids _) (.refl _ s)
  | railPowerGoodTimeout => exact execRailPowerGoodTimeout_keeps _ _ _ _ (zero_avoids _) (.refl _ s)
  | supplyOutOfRange => exact execSupplyOutOfRange_keeps _ _ _ _ (zero_avoids _) (.refl _ s)
  | vioLoss => exact execVioLoss_keeps _ _ _ (zero_avoids _) (.refl _ s)
  | lpddrBistDone => exact execLpddrBistDone_keeps _ _ _ _ (zero_avoids _) (.refl _ s)
  | refClockLoss => exact execRefClockLoss_keeps _ _ _ _ (zero_avoids _) (.refl _ s)
  | refSelectWrite => exact execRefSelectWrite_keeps _ _ _ _ _ (zero_avoids _) (.refl _ s)
  | clockFallback => exact execClockFallback_keeps _ _ _ _ (zero_avoids _) (.refl _ s)
  | clkGateOn => exact execClkGateOn_keeps _ _ _ _ _ (zero_avoids _) (.refl _ s)
  | clkGateOff => exact execClkGateOff_keeps _ _ _ _ _ (zero_avoids _) (.refl _ s)
  | paceSample => exact execPaceSample_keeps _ _ _ _ _ (zero_avoids _) (.refl _ s)
  | powerControlTick => exact execPowerControlTick_keeps _ _ _ _ _ _ (zero_avoids _) (.refl _ s)
  | pmbusAlert => exact execPmbusAlert_keeps _ _ _ (zero_avoids _) (.refl _ s)
  | thermalTrip => exact execThermalTrip_keeps _ _ _ _ (zero_avoids _) (.refl _ s)
  | blockEnable => exact execBlockEnable_keeps _ _ _ _ _ (zero_avoids _) (.refl _ s)
  | blockDisable => exact execBlockDisable_keeps _ _ _ _ _ (zero_avoids _) (.refl _ s)
  | blockStopDone => exact execBlockStopDone_keeps _ _ _ _ (zero_avoids _) (.refl _ s)
  | blockReset => exact execBlockReset_keeps _ _ _ _ _ (zero_avoids _) (.refl _ s)
  | blockResetDone => exact execBlockResetDone_keeps _ _ _ _ (zero_avoids _) (.refl _ s)
  | faultRecord => exact execFaultRecord_keeps _ _ _ _ (zero_avoids _) (.refl _ s)
  | extFallowReq => exact execExtFallowReq_keeps _ _ _ (zero_avoids _) (.refl _ s)
  | manualFallow => exact execManualFallow_keeps _ _ _ _ (zero_avoids _) (.refl _ s)
  | faultPinClear => exact execFaultPinClear_keeps _ _ _ _ (zero_avoids _) (.refl _ s)
  | fltAckWrite => exact execFltAckWrite_keeps _ _ _ _ _ (zero_avoids _) (.refl _ s)
  | fltReactWrite => exact execFltReactWrite_keeps _ _ _ _ _ _ _ (zero_avoids _) (.refl _ s)
  | handshakeStall => exact execHandshakeStall_keeps _ _ _ _ _ _ (zero_avoids _) (.refl _ s)
  | registerSweep => exact execRegisterSweep_keeps _ _ _ _ (zero_avoids _) (.refl _ s)
  | mgmtLockstep => exact execMgmtLockstep_keeps _ _ _ (zero_avoids _) (.refl _ s)
  | mgmtWatchdog => exact execMgmtWatchdog_keeps _ _ _ (zero_avoids _) (.refl _ s)
  | tileSelfTest => exact execTileSelfTest_keeps _ _ _ _ (zero_avoids _) (.refl _ s)
  | tileSelfTestDone => exact execTileSelfTestDone_keeps _ _ _ _ _ (zero_avoids _) (.refl _ s)
  | fenceRx => exact execFenceRx_keeps _ _ _ _ (zero_avoids _) (.refl _ s)
  | crossingWordRx => exact execCrossingWordRx_keeps _ _ _ _ _ _ _ (zero_avoids _) (.refl _ s)
  | hostLinkUp => exact execHostLinkUp_keeps _ _ _ _ _ (zero_avoids _) (.refl _ s)
  | hostLinkLoss => exact execHostLinkLoss_keeps _ _ _ (zero_avoids _) (.refl _ s)
  | hostFrameRx => exact execHostFrameRx_keeps _ _ _ _ (zero_avoids _) (.refl _ s)
  | ptpMessageRx => exact execPtpMessageRx_keeps _ _ _ _ (zero_avoids _) (.refl _ s)
  | shafortSegmentRx => exact execShafortSegmentRx_keeps _ _ _ _ (zero_avoids _) (.refl _ s)
  | segmentTimeout => exact execSegmentTimeout_keeps _ _ _ _ _ (zero_avoids _) (.refl _ s)
  | hello => exact execHello_keeps _ _ _ _ _ _ _ (zero_avoids _) (.refl _ s)
  | proof => exact execProof_keeps _ _ _ _ _ (zero_avoids _) (.refl _ s)
  | proofTimeout => exact execProofTimeout_keeps _ _ _ _ (zero_avoids _) (.refl _ s)
  | close => exact execClose_keeps _ _ _ _ (zero_avoids _) (.refl _ s)
  | keepalive session => exact execKeepalive_keeps _ _ session _ (zero_avoids _) (.refl _ s)
  | sessionIdleTimeout => exact execSessionIdleTimeout_keeps _ _ _ _ (zero_avoids _) (.refl _ s)
  | reg => exact execReg_keeps _ _ _ _ _ _ _ (zero_avoids _) (.refl _ s)
  | registerWrite => exact execRegisterWrite_keeps _ _ _ _ _ _ _ (zero_avoids _) (.refl _ s)
  | eventStatusClear => exact execEventStatusClear_keeps _ _ _ _ _ _ (zero_avoids _) (.refl _ s)
  | pageLock => exact execPageLock_keeps _ _ _ _ _ (zero_avoids _) (.refl _ s)
  | subscribe => exact execSubscribe_keeps _ _ _ _ _ _ (zero_avoids _) (.refl _ s)
  | eventAck => exact execEventAck_keeps _ _ _ _ _ (zero_avoids _) (.refl _ s)
  | eventResendTimer => exact execEventResendTimer_keeps _ _ _ _ _ (zero_avoids _) (.refl _ s)
  | eventAckTimeout => exact execEventAckTimeout_keeps _ _ _ _ _ (zero_avoids _) (.refl _ s)
  | bulkOpen => exact execBulkOpen_keeps _ _ _ _ _ _ (zero_avoids _) (.refl _ s)
  | bulkOpenResume => exact execBulkOpenResume_keeps _ _ _ _ _ (zero_avoids _) (.refl _ s)
  | bulkData => exact execBulkData_keeps _ _ _ _ _ _ _ (zero_avoids _) (.refl _ s)
  | bulkAck => exact execBulkAck_keeps _ _ _ _ _ _ _ (zero_avoids _) (.refl _ s)
  | bulkAckTimer => exact execBulkAckTimer_keeps _ _ _ _ _ (zero_avoids _) (.refl _ s)
  | bulkResendTimer => exact execBulkResendTimer_keeps _ _ _ _ _ _ (zero_avoids _) (.refl _ s)
  | bulkCommit => exact execBulkCommit_keeps _ _ _ _ _ _ (zero_avoids _) (.refl _ s)
  | bulkIdleTimeout => exact execBulkIdleTimeout_keeps _ _ _ _ _ (zero_avoids _) (.refl _ s)
  | fwCheckDone => exact execFwCheckDone_keeps _ _ _ (zero_avoids _) (.refl _ s)
  | fwProgramDone => exact execFwProgramDone_keeps _ _ _ _ (zero_avoids _) (.refl _ s)
  | auditStart => exact execAuditStart_keeps _ _ _ _ _ (zero_avoids _) (.refl _ s)
  | auditAck => exact execAuditAck_keeps _ _ _ _ _ (zero_avoids _) (.refl _ s)
  | auditResendTimer => exact execAuditResendTimer_keeps _ _ _ _ (zero_avoids _) (.refl _ s)
  | auditRecordProgram => exact execAuditRecordProgram_keeps _ _ _ (zero_avoids _) (.refl _ s)
  | attestReq => exact execAttestReq_keeps _ _ _ _ _ _ (zero_avoids _) (.refl _ s)
  | attestSigned => exact execAttestSigned_keeps _ _ _ (zero_avoids _) (.refl _ s)
  | secRecommission => exact execSecRecommission_keeps _ _ _ _ _ (zero_avoids _) (.refl _ s)
  | secDecommission => exact execSecDecommission_keeps _ _ _ _ (zero_avoids _) (.refl _ s)
  | credentialWrite => exact execCredentialWrite_keeps _ _ _ _ _ _ _ _ (zero_avoids _) (.refl _ s)
  | jtagExtest => exact execJtagExtest_keeps _ _ _ _ (zero_avoids _) (.refl _ s)
  | portEnable => exact execPortEnable_keeps _ _ _ _ _ _ (zero_avoids _) (.refl _ s)
  | portDisable => exact execPortDisable_keeps _ _ _ _ _ (zero_avoids _) (.refl _ s)
  | portTestEnter => exact execPortTestEnter_keeps _ _ _ _ _ (zero_avoids _) (.refl _ s)
  | signalDetect => exact execSignalDetect_keeps _ _ _ _ _ (zero_avoids _) (.refl _ s)
  | trainingFrameRx => exact execTrainingFrameRx_keeps _ _ _ _ _ _ (zero_avoids _) (.refl _ s)
  | bringupStageTimeout => exact execBringupStageTimeout_keeps _ _ _ _ (zero_avoids _) (.refl _ s)
  | bringupRestart => exact execBringupRestart_keeps _ _ _ _ (zero_avoids _) (.refl _ s)
  | identTimer => exact execIdentTimer_keeps _ _ _ _ (zero_avoids _) (.refl _ s)
  | identRx => exact execIdentRx_keeps _ _ _ _ _ (zero_avoids _) (.refl _ s)
  | identAckRx => exact execIdentAckRx_keeps _ _ _ _ (zero_avoids _) (.refl _ s)
  | portRetrain => exact execPortRetrain_keeps _ _ _ _ _ (zero_avoids _) (.refl _ s)
  | portAdopt => exact execPortAdopt_keeps _ _ _ _ _ (zero_avoids _) (.refl _ s)
  | heldDownRetry => exact execHeldDownRetry_keeps _ _ _ _ (zero_avoids _) (.refl _ s)
  | laneUnhealthy => exact execLaneUnhealthy_keeps _ _ _ _ _ _ _ (zero_avoids _) (.refl _ s)
  | restripeDone => exact execRestripeDone_keeps _ _ _ _ _ (zero_avoids _) (.refl _ s)
  | laneRejoin => exact execLaneRejoin_keeps _ _ _ _ _ _ (zero_avoids _) (.refl _ s)
  | linkFrameRx => exact execLinkFrameRx_keeps _ _ _ _ _ (zero_avoids _) (.refl _ s)
  | llrRetryRx => exact execLlrRetryRx_keeps _ _ _ _ _ (zero_avoids _) (.refl _ s)
  | linkAckRx => exact execLinkAckRx_keeps _ _ _ _ _ (zero_avoids _) (.refl _ s)
  | creditReturnRx => exact execCreditReturnRx_keeps _ _ _ _ _ _ (zero_avoids _) (.refl _ s)
  | stitchOpenStart => exact execStitchOpenStart_keeps _ _ _ _ (zero_avoids _) (.refl _ s)
  | stitchSenseSample => exact execStitchSenseSample_keeps _ _ _ _ _ _ (zero_avoids _) (.refl _ s)
  | stitchAdmitTimeout => exact execStitchAdmitTimeout_keeps _ _ _ _ (zero_avoids _) (.refl _ s)
  | stitchRetryTimer => exact execStitchRetryTimer_keeps _ _ _ _ (zero_avoids _) (.refl _ s)
  | kstForceClose => exact execKstForceClose_keeps _ _ _ _ _ (zero_avoids _) (.refl _ s)
  | kstHoldOpen => exact execKstHoldOpen_keeps _ _ _ _ _ _ (zero_avoids _) (.refl _ s)
  | kstRetry => exact execKstRetry_keeps _ _ _ _ _ (zero_avoids _) (.refl _ s)
  | patCtrlWrite => exact execPatCtrlWrite_keeps _ _ _ _ _ _ _ (zero_avoids _) (.refl _ s)
  | packetRx => exact execPacketRx_keeps _ _ _ _ _ _ (zero_avoids _) (.refl _ s)
  | packetTxDone => exact execPacketTxDone_keeps _ _ _ _ (zero_avoids _) (.refl _ s)
  | origCellWaitEnd => exact execOrigCellWaitEnd_keeps _ _ _ _ _ (zero_avoids _) (.refl _ s)
  | leakAuditPass => exact execLeakAuditPass_keeps _ _ _ _ (zero_avoids _) (.refl _ s)
  | bpCfgWrite => exact execBpCfgWrite_keeps _ _ _ _ _ _ _ (zero_avoids _) (.refl _ s)
  | gateEntryBoundary => exact execGateEntryBoundary_keeps _ _ _ _ (zero_avoids _) (.refl _ s)
  | gateChange => exact execGateChange_keeps _ _ _ _ _ (zero_avoids _) (.refl _ s)
  | gateListStart => exact execGateListStart_keeps _ _ _ _ (zero_avoids _) (.refl _ s)
  | transitBucketRecover => exact execTransitBucketRecover_keeps _ _ _ _ (zero_avoids _) (.refl _ s)
  | meterWrite => exact execMeterWrite_keeps _ _ _ _ _ _ _ _ _ (zero_avoids _) (.refl _ s)
  | linkStateCtrlTimer => exact execLinkStateCtrlTimer_keeps _ _ _ (zero_avoids _) (.refl _ s)
  | linkStateCtrlRx => exact execLinkStateCtrlRx_keeps _ _ _ _ _ (zero_avoids _) (.refl _ s)
  | reachMapUpdate => exact execReachMapUpdate_keeps _ _ _ (zero_avoids _) (.refl _ s)
  | routeTableRecompute => exact execRouteTableRecompute_keeps _ _ _ (zero_avoids _) (.refl _ s)
  | timeSyncTimer => exact execTimeSyncTimer_keeps _ _ _ (zero_avoids _) (.refl _ s)
  | timePacketRx => exact execTimePacketRx_keeps _ _ _ _ _ _ (zero_avoids _) (.refl _ s)
  | timeRootTimeout => exact execTimeRootTimeout_keeps _ _ _ (zero_avoids _) (.refl _ s)
  | ppsInEdge => exact execPpsInEdge_keeps _ _ _ (zero_avoids _) (.refl _ s)
  | ppsOutPulse => exact execPpsOutPulse_keeps _ _ _ (zero_avoids _) (.refl _ s)
  | ackDelayExpiry => exact execAckDelayExpiry_keeps _ _ _ _ (zero_avoids _) (.refl _ s)
  | ackRx => exact execAckRx_keeps _ _ _ _ (zero_avoids _) (.refl _ s)
  | rtoExpiry => exact execRtoExpiry_keeps _ _ _ _ _ (zero_avoids _) (.refl _ s)
  | dataRx => exact execDataRx_keeps _ _ _ _ (zero_avoids _) (.refl _ s)
  | slotQuotaWrite => exact execSlotQuotaWrite_keeps _ _ _ _ _ _ _ (zero_avoids _) (.refl _ s)
  | redSpillCfgWrite => exact execRedSpillCfgWrite_keeps _ _ _ _ _ _ _ (zero_avoids _) (.refl _ s)
  | holdQueueFree => exact execHoldQueueFree_keeps _ _ _ _ (zero_avoids _) (.refl _ s)
  | postPendingResume => exact execPostPendingResume_keeps _ _ _ _ (zero_avoids _) (.refl _ s)
  | slotTake => exact execSlotTake_keeps _ _ _ _ (zero_avoids _) (.refl _ s)
  | contribRx => exact execContribRx_keeps _ _ _ _ (zero_avoids _) (.refl _ s)
  | partialRx => exact execPartialRx_keeps _ _ _ _ (zero_avoids _) (.refl _ s)
  | retentionFreed => exact execRetentionFreed_keeps _ _ _ _ _ (zero_avoids _) (.refl _ s)
  | chunkDigest => exact execChunkDigest_keeps _ _ _ _ _ _ (zero_avoids _) (.refl _ s)
  | resultRx => exact execResultRx_keeps _ _ _ _ (zero_avoids _) (.refl _ s)
  | statusNoticeRx => exact execStatusNoticeRx_keeps _ _ _ _ _ (zero_avoids _) (.refl _ s)
  | livenessExpiry => exact execLivenessExpiry_keeps _ _ _ _ (zero_avoids _) (.refl _ s)
  | settlingEnd => exact execSettlingEnd_keeps _ _ _ _ (zero_avoids _) (.refl _ s)
  | countRx => exact execCountRx_keeps _ _ _ _ (zero_avoids _) (.refl _ s)
  | trigAdd => exact execTrigAdd_keeps _ _ _ _ _ _ (zero_avoids _) (.refl _ s)
  | triggerValidWrite => exact execTriggerValidWrite_keeps _ _ _ _ _ _ (zero_avoids _) (.refl _ s)
  | glbCoordWrite => exact execGlbCoordWrite_keeps _ _ _ _ _ _ (zero_avoids _) (.refl _ s)
  | glbTorusWrite => exact execGlbTorusWrite_keeps _ _ _ _ _ _ (zero_avoids _) (.refl _ s)
  | fabricEpochWrite => exact execFabricEpochWrite_keeps _ _ _ _ _ (zero_avoids _) (.refl _ s)
  | quireTableWrite => exact execQuireTableWrite_keeps _ _ _ _ _ _ _ _ (zero_avoids _) (.refl _ s)
  | rankXlatWrite => exact execRankXlatWrite_keeps _ _ _ _ _ _ _ (zero_avoids _) (.refl _ s)
  | jobLoad => exact execJobLoad_keeps _ _ _ _ _ (zero_avoids _) (.refl _ s)
  | jobUnload => exact execJobUnload_keeps _ _ _ _ _ (zero_avoids _) (.refl _ s)
  | jobUnloadDone => exact execJobUnloadDone_keeps _ _ _ _ (zero_avoids _) (.refl _ s)
  | stepForwardResume => exact execStepForwardResume_keeps _ _ _ _ (zero_avoids _) (.refl _ s)
  | stageExecute => exact execStageExecute_keeps _ _ _ _ _ _ (zero_avoids _) (.refl _ s)
  | sealSpaceFreed => exact execSealSpaceFreed_keeps _ _ _ _ (zero_avoids _) (.refl _ s)
  | signBatch => exact execSignBatch_keeps _ _ _ _ _ (zero_avoids _) (.refl _ s)
  | batchSigned => exact execBatchSigned_keeps _ _ _ (zero_avoids _) (.refl _ s)
  | releaseBatch => exact execReleaseBatch_keeps _ _ _ _ _ (zero_avoids _) (.refl _ s)
  | scrubStep => exact execScrubStep_keeps _ _ _ _ _ _ _ (zero_avoids _) (.refl _ s)
  | dramRefresh => exact execDramRefresh_keeps _ _ _ _ _ _ (zero_avoids _) (.refl _ s)
  | lpddrRetrain => exact execLpddrRetrain_keeps _ _ _ _ _ (zero_avoids _) (.refl _ s)
  | retireClear => exact execRetireClear_keeps _ _ _ _ _ (zero_avoids _) (.refl _ s)
  | swathLaunch => exact execSwathLaunch_keeps _ _ _ _ _ (zero_avoids _) (.refl _ s)
  | swathMarkerRx => exact execSwathMarkerRx_keeps _ _ _ _ _ (zero_avoids _) (.refl _ s)
  | jobLoadDecided => exact execJobLoadDecided_keeps _ _ _ _ _ (zero_avoids _) (.refl _ s)
  | startUpStepEnd => exact execStartUpStepEnd_keeps _ _ _ _ (zero_avoids _) (.refl _ s)
  | fallowBlocksHeld => exact execFallowBlocksHeld_keeps _ _ _ (zero_avoids _) (.refl _ s)
  | refClockReturn => exact execRefClockReturn_keeps _ _ _ _ (zero_avoids _) (.refl _ s)
  | fallowReqNHigh => exact execFallowReqNHigh_keeps _ _ _ (zero_avoids _) (.refl _ s)
  | faultNPulseEnd => exact execFaultNPulseEnd_keeps _ _ _ (zero_avoids _) (.refl _ s)
  | dividerRampEnd => exact execDividerRampEnd_keeps _ _ _ _ (zero_avoids _) (.refl _ s)
  | lpddrRefresh => exact execLpddrRefresh_keeps _ _ _ _ _ (zero_avoids _) (.refl _ s)
  | watchdogService => exact execWatchdogService_keeps _ _ _ (zero_avoids _) (.refl _ s)
  | trapReturn => exact execTrapReturn_keeps _ _ _ (zero_avoids _) (.refl _ s)

theorem tick_keeps_zero (s : State) : Keeps 0#64 s (tick s) := tick_keeps _ _ _ (zero_avoids _) (.refl _ s)

/-- Settles O42. -/
theorem commandsLeaveTheQueue : Obligations.CommandsLeaveTheQueue := by
  unfold Obligations.CommandsLeaveTheQueue
  exact fun s t c hexec => (exec_keeps s c t hexec).pending

/-- A step is a cycle of the timebase, or a command over the queue's rest. -/
theorem step_cases {s t : State} (hstep : step s = .next t) :
    t = tick s ∨ ∃ c cs, exec c { s with pending := cs } = .next t := by
  unfold step at hstep
  split at hstep
  case h_1 => exact .inl (Host.Outcome.next.inj hstep).symm
  case h_2 c cs _ => exact .inr ⟨c, cs, hstep⟩

/-- Settles O44: the tables do not depend on the queue, and neither a cycle nor a command breaks their form. -/
theorem stepsKeepTheTablesCanonical : Obligations.StepsKeepTheTablesCanonical := by
  unfold Obligations.StepsKeepTheTablesCanonical
  intro s t hs hstep
  rcases step_cases hstep with rfl | ⟨c, cs, hexec⟩
  · exact (tick_keeps_zero s).canonical hs
  · exact (exec_keeps _ c t hexec).canonical hs

/-- Settles O45. -/
theorem resetIsCanonical : Obligations.ResetIsCanonical := by
  unfold Obligations.ResetIsCanonical
  exact ⟨⟨rfl, rfl, rfl, rfl, memory_wf_reset⟩, rfl⟩

/-- Settles O46: the fuses do not depend on the queue, and neither a cycle nor a command lowers a counter of them. -/
theorem fusesNeverFall : Obligations.FusesNeverFall := by
  unfold Obligations.FusesNeverFall
  intro s t hstep
  rcases step_cases hstep with rfl | ⟨c, cs, hexec⟩
  · exact (tick_keeps_zero s).fuses
  · exact (exec_keeps _ c t hexec).fuses

/-! ## Completion -/

def Completes (o : Out) : Prop := ∃ t, o = .next t

theorem completes_next (t : State) : Completes (.next t) := ⟨t, rfl⟩

/-- A command stops with a fault only where it names memory the device does not have; every branch of every meaning ends in a next
state otherwise. -/
theorem exec_completes (s : State) (c : Instr) (hmem : memoryHole c s = false) : Completes (exec c s) := by
  cases c with
  | scrubStep mem address found newerWrite =>
    cases mem
    all_goals
      simp only [memoryHole] at hmem
      simp only [exec, execScrubStep, hmem]
      exact completes_next _
  | dramRefresh stack vault hot =>
    simp only [memoryHole] at hmem
    simp only [exec, execDramRefresh, hmem]
    exact completes_next _
  | lpddrRetrain channel temp =>
    simp only [memoryHole, decide_eq_false_iff_not] at hmem
    simp only [exec, execLpddrRetrain, hmem, if_false]
    split
    all_goals exact completes_next _
  | lpddrRefresh channel temp =>
    simp only [memoryHole, decide_eq_false_iff_not] at hmem
    simp only [exec, execLpddrRefresh, hmem, if_false]
    split
    all_goals exact completes_next _
  -- The meaning is one next state.
  | vioLoss | refSelectWrite | clkGateOn | clkGateOff | blockEnable | blockDisable | manualFallow | faultPinClear
  | fltAckWrite | fltReactWrite | keepalive | sessionIdleTimeout | reg | registerWrite | eventStatusClear | pageLock
  | subscribe | bulkOpen | bulkData | bulkAck | attestReq | secRecommission | secDecommission | credentialWrite | portEnable
  | portDisable | portTestEnter | portRetrain | portAdopt | linkAckRx | kstForceClose | kstHoldOpen | kstRetry
  | patCtrlWrite | packetRx | packetTxDone | bpCfgWrite | gateChange | transitBucketRecover | meterWrite | reachMapUpdate
  | rtoExpiry | slotQuotaWrite | redSpillCfgWrite | holdQueueFree | postPendingResume | contribRx | partialRx | countRx
  | trigAdd | triggerValidWrite | glbCoordWrite | glbTorusWrite | fabricEpochWrite | quireTableWrite | rankXlatWrite
  | jobLoad | jobUnload | signBatch | releaseBatch | swathLaunch | fallowReqNHigh | faultNPulseEnd | powerOn | extFallowReq
  | leakAuditPass | routeTableRecompute =>
    exact completes_next _
  -- The meaning branches, and each of its branches is a next state.
  | resetNAssert | resetNRelease | chipReset | railPowerGoodTimeout | supplyOutOfRange | lpddrBistDone | refClockLoss
  | clockFallback | paceSample | powerControlTick | pmbusAlert | thermalTrip | blockStopDone | blockReset | blockResetDone
  | faultRecord | handshakeStall | registerSweep | mgmtLockstep | mgmtWatchdog | tileSelfTest | tileSelfTestDone | fenceRx
  | crossingWordRx | hostLinkUp | hostLinkLoss | hostFrameRx | ptpMessageRx | shafortSegmentRx | segmentTimeout | hello
  | proof | proofTimeout | close | eventAck | eventResendTimer | eventAckTimeout | bulkOpenResume | bulkAckTimer
  | bulkResendTimer | bulkCommit | bulkIdleTimeout | fwCheckDone | fwProgramDone | auditStart | auditAck | auditResendTimer
  | auditRecordProgram | attestSigned | jtagExtest | signalDetect | trainingFrameRx | bringupStageTimeout | bringupRestart
  | identTimer | identRx | identAckRx | heldDownRetry | laneUnhealthy | restripeDone | laneRejoin | linkFrameRx | llrRetryRx
  | creditReturnRx | stitchOpenStart | stitchSenseSample | stitchAdmitTimeout | stitchRetryTimer | origCellWaitEnd
  | gateEntryBoundary | gateListStart | linkStateCtrlTimer | linkStateCtrlRx | timeSyncTimer | timePacketRx
  | timeRootTimeout | ppsInEdge | ppsOutPulse | ackDelayExpiry | ackRx | dataRx | slotTake | retentionFreed | chunkDigest
  | resultRx | statusNoticeRx | livenessExpiry | settlingEnd | jobUnloadDone | stepForwardResume | stageExecute
  | sealSpaceFreed | batchSigned | retireClear | swathMarkerRx | jobLoadDecided | startUpStepEnd | fallowBlocksHeld
  | refClockReturn | dividerRampEnd | watchdogService | trapReturn =>
    dsimp only [exec, execResetNAssert, execResetNRelease, execChipReset, execRailPowerGoodTimeout, execSupplyOutOfRange,
      execLpddrBistDone, execRefClockLoss, execClockFallback, execPaceSample, execPowerControlTick, execPmbusAlert,
      execThermalTrip, execBlockStopDone, execBlockReset, execBlockResetDone, execFaultRecord, execHandshakeStall,
      execRegisterSweep, execMgmtLockstep, execMgmtWatchdog, execTileSelfTest, execTileSelfTestDone, execFenceRx,
      execCrossingWordRx, execHostLinkUp, execHostLinkLoss, execHostFrameRx, execPtpMessageRx, execShafortSegmentRx,
      execSegmentTimeout, execHello, execProof, execProofTimeout, execClose, execEventAck, execEventResendTimer,
      execEventAckTimeout, execBulkOpenResume, execBulkAckTimer, execBulkResendTimer, execBulkCommit, execBulkIdleTimeout,
      execFwCheckDone, execFwProgramDone, execAuditStart, execAuditAck, execAuditResendTimer, execAuditRecordProgram,
      execAttestSigned, execJtagExtest, execSignalDetect, execTrainingFrameRx, execBringupStageTimeout, execBringupRestart,
      execIdentTimer, execIdentRx, execIdentAckRx, execHeldDownRetry, execLaneUnhealthy, execRestripeDone, execLaneRejoin,
      execLinkFrameRx, execLlrRetryRx, execCreditReturnRx, execStitchOpenStart, execStitchSenseSample, execStitchAdmitTimeout,
      execStitchRetryTimer, execOrigCellWaitEnd, execGateEntryBoundary, execGateListStart, execLinkStateCtrlTimer,
      execLinkStateCtrlRx, execTimeSyncTimer, execTimePacketRx, execTimeRootTimeout, execPpsInEdge, execPpsOutPulse,
      execAckDelayExpiry, execAckRx, execDataRx, execSlotTake, execRetentionFreed, execChunkDigest, execResultRx,
      execStatusNoticeRx, execLivenessExpiry, execSettlingEnd, execJobUnloadDone, execStepForwardResume, execStageExecute,
      execSealSpaceFreed, execBatchSigned, execRetireClear, execSwathMarkerRx, execJobLoadDecided, execStartUpStepEnd,
      execFallowBlocksHeld, execRefClockReturn, execDividerRampEnd, execWatchdogService, execTrapReturn]
    repeat' split
    all_goals exact completes_next _

/-- The three memories and their refresh test for memory that is not there before anything else. -/
theorem exec_of_memoryHole (s : State) (c : Instr) (hmem : memoryHole c s = true) : exec c s = .fault .memoryHole := by
  cases c with
  | scrubStep mem address found newerWrite =>
    cases mem <;> simp only [memoryHole] at hmem <;> simp only [exec, execScrubStep, hmem, if_true]
  | dramRefresh stack vault hot => simp only [memoryHole] at hmem; simp only [exec, execDramRefresh, hmem, if_true]
  | lpddrRetrain channel temp => simp only [memoryHole, decide_eq_true_eq] at hmem; simp only [exec, execLpddrRetrain, hmem, if_true]
  | lpddrRefresh channel temp => simp only [memoryHole, decide_eq_true_eq] at hmem; simp only [exec, execLpddrRefresh, hmem, if_true]
  | _ => cases hmem

/-- Settles O43. -/
theorem commandsComplete : Obligations.CommandsComplete := by
  unfold Obligations.CommandsComplete
  exact fun s c => ⟨exec_completes s c, exec_of_memoryHole s c⟩

/-! ## The frame that PAGE_LOCK breaks -/

/-- The device after start-up, with nothing placed in it. -/
def startedUp : State := { State.reset with phase := .ready }

/-- What PAGE_LOCK of GLB leaves of it. -/
def glbLocked : State := commandWrite .mgmt none (pGlb + 0x20) 1 1 startedUp

theorem exec_pageLock_glb : exec (.pageLock .mgmt pGlb) startedUp = .next glbLocked := rfl

/-- The device notes in the host part that the page's LOCK has been written (R405; log 103). -/
theorem lockWritten_glbLocked : glbLocked.hostSt.lockWritten = [pGlb] := by decide +kernel

/-- Refutes O48: `touches` does not list the host part for PAGE_LOCK, and an accepted PAGE_LOCK notes its page there: of the device after
start-up, whose note is empty, PAGE_LOCK of GLB leaves the note of GLB. -/
theorem not_commandsTouchOnlyTheirParts : ¬ Obligations.CommandsTouchOnlyTheirParts := by
  unfold Obligations.CommandsTouchOnlyTheirParts
  intro h
  have hsame : glbLocked.hostSt = startedUp.hostSt := h _ _ _ exec_pageLock_glb .host (by decide)
  have hnote := congrArg HostSt.lockWritten hsame
  rw [lockWritten_glbLocked] at hnote
  exact absurd hnote (by decide)

end Sys2Proof.Machine

/-! # Register writes, once (R312, R400 to R405, Table 20.3) -/

namespace Sys2Proof.Machine

open Sys2Proof

/-! ## Access types, bit by bit -/

/-- The mask of an access type is the union of its fields. -/
theorem accMask_getLsbD (fs : List Fld) (p : Acc → Bool) (b : Nat) :
    (accMask fs p).getLsbD b = fs.any fun f => p f.acc && f.mask.getLsbD b := by
  have hfold : ∀ m : Word, (fs.foldl (fun m f => if p f.acc then m ||| f.mask else m) m).getLsbD b =
      (m.getLsbD b || fs.any fun f => p f.acc && f.mask.getLsbD b) := by
    induction fs with
    | nil => simp
    | cons f fs ih =>
      intro m
      rw [List.foldl_cons, ih, List.any_cons]
      cases p f.acc <;> simp [Bool.or_assoc]
  simp [accMask, hfold]

/-- The RW and RWL fields of a word. -/
abbrev isWritten (a : Acc) : Bool := a == .rw || a == .rwl

theorem mergeWord_getLsbD {a b : Nat} (old v m : Word) (hb : b < 32) (ha : a < wRank ∨ wRank + 524288 ≤ a) :
    (mergeWord a old v m).getLsbD b =
      ((if (accMask (fieldsAt a) isWritten).getLsbD b && m.getLsbD b then v.getLsbD b else old.getLsbD b) &&
        !((accMask (fieldsAt a) (· == .w1c)).getLsbD b && m.getLsbD b && v.getLsbD b)) := by
  have hrank : (wRank ≤ a && a < wRank + 524288) = false := by
    simp only [Bool.and_eq_false_iff, decide_eq_false_iff_not]
    omega
  simp only [mergeWord, hrank, Bool.false_eq_true, if_false, BitVec.getLsbD_and, BitVec.getLsbD_or, BitVec.getLsbD_not, hb,
    decide_true, Bool.true_and]
  cases (accMask (fieldsAt a) isWritten).getLsbD b <;> cases m.getLsbD b <;> simp

/-- A bit that a write does not mask stays. -/
theorem mergeWord_getLsbD_of_unmasked {a b : Nat} (old v : Word) {m : Word} (hb : b < 32) (ha : a < wRank ∨ wRank + 524288 ≤ a)
    (hm : m.getLsbD b = false) : (mergeWord a old v m).getLsbD b = old.getLsbD b := by
  simp [mergeWord_getLsbD old v m hb ha, hm]

section Fields

variable {a b : Nat} (hone : ∀ f ∈ fieldsAt a, f.mask.getLsbD b = true → ∀ g ∈ fieldsAt a, g.mask.getLsbD b = true → g = f)

include hone in
/-- Where one field holds a bit, an access type reaches the bit exactly where it is that field's. -/
theorem accMask_of_field {f : Fld} (hf : f ∈ fieldsAt a) (hbit : f.mask.getLsbD b = true) (p : Acc → Bool) :
    (accMask (fieldsAt a) p).getLsbD b = p f.acc := by
  rw [accMask_getLsbD, Bool.eq_iff_iff, List.any_eq_true]
  refine ⟨fun ⟨g, hg, h⟩ => ?_, fun h => ⟨f, hf, by simp [h, hbit]⟩⟩
  obtain ⟨hacc, hgbit⟩ := Bool.and_eq_true_iff.1 h
  rwa [hone f hf hbit g hg hgbit] at hacc

end Fields

theorem accMask_of_no_field {a b : Nat} (hnone : ∀ f ∈ fieldsAt a, f.mask.getLsbD b = false) (p : Acc → Bool) :
    (accMask (fieldsAt a) p).getLsbD b = false := by
  rw [accMask_getLsbD, List.any_eq_false]
  intro f hf
  simp [hnone f hf]

/-- Settles O31: the masks of the access types at a bit follow from the field that holds it, and the merge takes the bit by them. -/
theorem accessTypesBehave : Obligations.AccessTypesBehave := by
  unfold Obligations.AccessTypesBehave
  intro a old v m b hb ha hone
  refine ⟨fun f hf hbit hacc => ?_, fun f hf hbit hacc => ?_, fun f hf hbit hacc => ?_, fun hnone => ?_⟩
  · rw [mergeWord_getLsbD old v m hb ha, accMask_of_field hone hf hbit, accMask_of_field hone hf hbit]
    rcases hacc with hacc | hacc <;> simp [isWritten, hacc]
  · rw [mergeWord_getLsbD old v m hb ha, accMask_of_field hone hf hbit, accMask_of_field hone hf hbit]
    simp [isWritten, hacc]
  · rw [mergeWord_getLsbD old v m hb ha, accMask_of_field hone hf hbit, accMask_of_field hone hf hbit]
    simp [isWritten, hacc]
  · rw [mergeWord_getLsbD old v m hb ha, accMask_of_no_field hnone, accMask_of_no_field hnone]
    simp

/-! ## Words of pages and windows -/

theorem of_pageOf {addr page : Nat} {k : PageKind} (h : pageOf addr = some (k, page)) :
    k ∈ pageKinds ∧ k.base ≤ addr ∧ addr < k.base + 0x1000 * k.count ∧ page = 0x1000 * (addr / 0x1000) := by
  unfold pageOf at h
  split at h
  case h_2 => cases h
  case h_1 k' hfind =>
    cases h
    have hin := List.find?_some hfind
    simp only [Bool.and_eq_true, decide_eq_true_eq] at hin
    exact ⟨List.mem_of_find?_eq_some hfind, hin.1, hin.2, rfl⟩

theorem pageKinds_aligned {k : PageKind} (hk : k ∈ pageKinds) : k.base % 0x1000 = 0 := by
  revert k
  decide

/-- Every address of a page lies on it. -/
theorem pageOf_within {addr page off : Nat} {k : PageKind} (h : pageOf addr = some (k, page)) (hoff : off < 0x1000) :
    pageOf (page + off) = some (k, page) := by
  obtain ⟨hk, hle, hlt, rfl⟩ := of_pageOf h
  have hbase := pageKinds_aligned hk
  have hdiv : 0x1000 * ((0x1000 * (addr / 0x1000) + off) / 0x1000) = 0x1000 * (addr / 0x1000) := by omega
  rw [pageOf_of_mem hk (by omega) (by omega), hdiv]

/-- A page lies below the windows. -/
theorem page_lt {addr page : Nat} {k : PageKind} (h : pageOf addr = some (k, page)) : page < 0x1000000 := by
  by_contra hge
  rw [pageOf_eq_none (by obtain ⟨-, -, -, rfl⟩ := of_pageOf h; omega)] at h
  cases h

theorem pageOf_of_isPage {page : Nat} (h : isPage page = true) : ∃ k, pageOf page = some (k, page) := by
  simp only [isPage, Bool.and_eq_true, beq_iff_eq] at h
  obtain ⟨⟨k, p⟩, hp⟩ := Option.isSome_iff_exists.1 h.2
  obtain ⟨-, -, -, hpage⟩ := of_pageOf hp
  obtain rfl : p = page := by omega
  exact ⟨k, hp⟩

theorem isPage_of_pageOf {page : Nat} {k : PageKind} (h : pageOf page = some (k, page)) : isPage page = true := by
  obtain ⟨-, -, -, hpage⟩ := of_pageOf h
  have hmod : page % 0x1000 = 0 := by omega
  simp [isPage, h, hmod]

/-- Instance `i` of a row of the catalogue. -/
theorem pageOf_instance {k : PageKind} (hk : k ∈ pageKinds) {i off : Nat} (hi : i < k.count) (hoff : off < 0x1000) :
    pageOf (k.base + 0x1000 * i + off) = some (k, k.base + 0x1000 * i) := by
  have hbase := pageKinds_aligned hk
  have hdiv : 0x1000 * ((k.base + 0x1000 * i + off) / 0x1000) = k.base + 0x1000 * i := by omega
  rw [pageOf_of_mem hk (by omega) (by omega), hdiv]

theorem inst_instance (k : PageKind) (i : Nat) : k.inst (k.base + 0x1000 * i) = i := by
  simp only [PageKind.inst]
  omega

/-! ## The state a write leaves before its actions -/

/-- An accepted write of a word that is its own home, before it acts: its record, then the word. -/
def written (s : State) (who : Requester) (a : Nat) (v m : Word) : State :=
  wr (recordWrite s who a v m (changeOf s a v m) 0) a (mergeWord a (rd s a) v m)

theorem rd_written (s : State) (who : Requester) (a : Nat) (v m : Word) (b : Nat) :
    rd (written s who a v m) b = if b = a then mergeWord a (rd s a) v m else rd s b := by
  rw [written, rd_wr, rd_congr (recordWrite_regs ..)]

@[simp] theorem rd_written_same (s : State) (who : Requester) (a : Nat) (v m : Word) :
    rd (written s who a v m) a = mergeWord a (rd s a) v m := by rw [rd_written, if_pos rfl]

theorem rd_written_ne (s : State) (who : Requester) {a b : Nat} (v m : Word) (h : b ≠ a) : rd (written s who a v m) b = rd s b := by
  rw [rd_written, if_neg h]

/-- A write touches nothing but its word and the audit state before it acts. -/
theorem written_frame (s : State) (who : Requester) (a : Nat) (v m : Word) :
    ∃ regs audit, written s who a v m = { s with regs := regs, audit := audit } := by
  rw [written, recordWrite_frame]
  exact ⟨_, _, rfl⟩

theorem written_keeps (k : BitVec 64) (s : State) (who : Requester) (a : Nat) (v m : Word) (hk : k &&& 0x80000001#64 = 0#64) :
    Keeps k s (written s who a v m) :=
  wr_keeps _ _ _ _ _ (maskSub hk (by decide)) (recordWrite_keeps _ _ _ _ _ _ _ _ _ (maskSub hk (by decide)) (.refl _ s))

section Written

variable {s : State} {who : Requester} {v m : Word}

/-- A write of a block page's own word, SCHED's first word excepted. -/
theorem acceptWrite_block {k : PageKind} {page off : Nat} (kat : Option Bool) (hpage : pageOf (page + off) = some (k, page))
    (hport : k.ty ≠ 0x20) (hsched : k.ty ≠ 0x23) (h40 : 0x40 ≤ off) :
    acceptWrite s who kat (page + off) v m = blockActs (written s who (page + off) v m) who kat k page off (rd s (page + off))
      (mergeWord (page + off) (rd s (page + off)) v m) v m :=
  acceptWrite_page s who kat v m hpage hport hsched h40

/-- A write of a word of the common header other than a port's ENABLE. -/
theorem acceptWrite_header {k : PageKind} {page off : Nat} (kat : Option Bool) (hpage : pageOf (page + off) = some (k, page))
    (hown : k.ty ≠ 0x20 ∨ off ≠ 0x08) (h40 : off < 0x40) :
    acceptWrite s who kat (page + off) v m = headerActs (written s who (page + off) v m) k page off (rd s (page + off))
      (mergeWord (page + off) (rd s (page + off)) v m) v m := by
  have hoff : page + off - page = off := Nat.add_sub_cancel_left ..
  have hhome : homeOf (page + off) = page + off := by
    rcases hown with h | h <;> simp [homeOf, hpage, hoff, h]
  have hsettle : ∀ t, settleBefore t (page + off) = t := fun t => by
    have h : off ≠ 0x40 := by omega
    simp [settleBefore, hpage, hoff, h]
  have hchange : (changeOf s (page + off) v m).home = page + off ∧ (changeOf s (page + off) v m).old = rd s (page + off) ∧
      (changeOf s (page + off) v m).new = mergeWord (page + off) (rd s (page + off)) v m := by
    refine ⟨hhome, ?_, ?_⟩ <;> simp [changeOf, hhome]
  obtain ⟨hhome', hold, hnew⟩ := hchange
  simp only [acceptWrite, hpage, hoff, h40, if_true, hhome', hold, hnew, hsettle]
  rfl

/-- A word of a window is its own home. -/
theorem changeOf_window {a : Nat} (s : State) (v m : Word) (hpage : pageOf a = none) :
    (changeOf s a v m).home = a ∧ (changeOf s a v m).old = rd s a ∧ (changeOf s a v m).new = mergeWord a (rd s a) v m := by
  have hhome : homeOf a = a := by simp [homeOf, hpage]
  refine ⟨hhome, ?_, ?_⟩ <;> simp [changeOf, hhome]

theorem acceptWrite_window {a b e off : Nat} (kat : Option Bool) (hpage : pageOf a = none) (hwin : windowOf a = some (b, e, off)) :
    acceptWrite s who kat a v m = windowActs (written s who a v m) who b e off (rd s a) (mergeWord a (rd s a) v m) v m := by
  obtain ⟨hhome, hold, hnew⟩ := changeOf_window s v m hpage
  have hsettle : ∀ t, settleBefore t a = t := fun t => by simp [settleBefore, hpage]
  simp only [acceptWrite, hpage, hwin, hhome, hold, hnew, hsettle]
  rfl

/-! ## What a register write can do -/

/-- A register write does nothing, is accepted, or is refused with status 1 or 2. -/
theorem commandWrite_cases (s : State) (who : Requester) (kat : Option Bool) (a : Nat) (v m : Word) :
    commandWrite who kat a v m s = s ∨ commandWrite who kat a v m s = acceptWrite s who kat a v m ∨
      ∃ st, commandWrite who kat a v m s = refuseWrite s who a v m st := by
  unfold commandWrite writeWord
  dsimp only
  split
  · split
    · split
      · exact .inl rfl
      · exact .inr (.inl rfl)
    · split
      · exact .inr (.inr ⟨_, rfl⟩)
      · exact .inl rfl
  · exact .inl rfl

/-- A refused write raises CFG_REFUSED where its status is 2, and changes no register but EVT_STATUS of a page. -/
theorem rd_refuseWrite (s : State) (who : Requester) (a : Nat) (v m : Word) (st : Nat) {b : Nat} (hb : b % 4096 ≠ 16) :
    rd (refuseWrite s who a v m st) b = rd s b := by
  have hrecord : ∀ c : Prop, [Decidable c] →
      rd (if c then s else recordWrite s who a v m (changeOf s a v m) st) b = rd s b := fun c _ => by
    split
    · rfl
    · rw [rd_congr (recordWrite_regs ..)]
  unfold refuseWrite
  dsimp only
  split
  · unfold cfgRefused
    split
    case h_1 k page hpage =>
      obtain ⟨-, -, -, hmod⟩ := of_pageOf hpage
      have hown : b ≠ page + 0x10 := by omega
      have hglb : b ≠ pGlb + 0x10 := by simp only [pGlb]; omega
      rw [rd_raise_ne _ _ _ _ (by split <;> assumption)]
      exact hrecord _
    case h_2 =>
      rw [rd_raise_ne _ _ _ _ (by simp only [pGlb]; omega)]
      exact hrecord _
  · exact hrecord _

theorem refuseWrite_regs {st : Nat} (hst : st ≠ 2) (s : State) (who : Requester) (a : Nat) (v m : Word) :
    (refuseWrite s who a v m st).regs = s.regs := by
  have hne : (st == 2) = false := by simpa using hst
  simp only [refuseWrite, hne, Bool.false_eq_true, if_false]
  split
  · rfl
  · exact recordWrite_regs ..

/-- The masks a test of R312 leaves a word's status by. -/
theorem writeStatus_of_rightsFail {a : Nat} (ha : a ≤ 0x03FFFFFF) (h4 : a % 4 = 0) (hmapped : mapped a = true)
    (hrights : rightsFail s who a m = true) : writeStatus s who a v m = 1 := by
  have hword : (decide (0x03FFFFFF < a) || a % 4 != 0) = false := by simp [h4, ha]
  simp [writeStatus, hword, hmapped, hrights]

/-- A write that a lock, a job in transition or a rule meets is refused with CFG_REFUSED. -/
theorem writeStatus_of_refused {a : Nat} (ha : a ≤ 0x03FFFFFF) (h4 : a % 4 = 0) (hmapped : mapped a = true)
    (hrights : rightsFail s who a m = false)
    (hrefuse : lockRefuses s who a m = true ∨ busyRefuses s a m = true ∨
      touched a m ≠ [] ∧ rulesRefuse s who a (changeOf s a v m) v m = true) : writeStatus s who a v m = 2 := by
  have hword : (decide (0x03FFFFFF < a) || a % 4 != 0) = false := by simp [h4, ha]
  have hany : (recordBlocked s who a v m || lockRefuses s who a m || busyRefuses s a m ||
      (!(touched a m).isEmpty && rulesRefuse s who a (changeOf s a v m) v m)) = true := by
    rcases hrefuse with h | h | ⟨hne, h⟩
    · simp [h]
    · simp [h]
    · simp [h, List.isEmpty_eq_false_iff.2 hne]
  simp only [writeStatus, hword, hmapped, hrights, hany]
  rfl

/-- An accepted write meets no rule. -/
theorem rulesRefuse_of_accepts {a : Nat} (h : Accepts s who a v m) : rulesRefuse s who a (changeOf s a v m) v m = false := by
  obtain ⟨-, hstatus, htouched⟩ := h
  have hempty : (touched a m).isEmpty = false := List.isEmpty_eq_false_iff.2 htouched
  by_contra hrefused
  rw [Bool.not_eq_false] at hrefused
  simp only [writeStatus, hrefused, hempty, Bool.not_false, Bool.and_self, Bool.or_true, if_true] at hstatus
  split at hstatus <;> (try split at hstatus) <;> (try split at hstatus) <;> omega

theorem exec_registerWrite (who : Requester) (a v m : Word) (s : State) :
    exec (.registerWrite who a v m) s = .next (commandWrite who none a.toNat v m s) := rfl

end Written

/-! ## Refused writes -/

theorem commandWrite_of_not_mayWrite {s : State} {who : Requester} (h : mayWrite s who = false) (kat : Option Bool) (a : Nat) (v m : Word) :
    commandWrite who kat a v m s = s := by
  simp [commandWrite, h]

theorem commandWrite_of_status {s : State} {who : Requester} {a st : Nat} {v m : Word} (hmay : mayWrite s who = true)
    (hst : writeStatus s who a v m = st) (hne : st ≠ 0) (kat : Option Bool) :
    commandWrite who kat a v m s = if st ≤ 2 then refuseWrite s who a v m st else s := by
  subst hst
  have hbeq : (writeStatus s who a v m == 0) = false := by simpa using hne
  simp only [commandWrite, writeWord, hmay, hbeq, Bool.false_eq_true, if_true, if_false]
  split <;> rfl

theorem Keeps.regs_eq {s t : State} (h : Keeps 0x1#64 s t) : t.regs = s.regs := h.same .registers (by decide)

/-- A refused write leaves jobs, memory, fuses and ports. -/
theorem refuseWrite_frame (s : State) (who : Requester) (a : Nat) (v m : Word) (st : Nat) :
    (refuseWrite s who a v m st).jobs = s.jobs ∧ (refuseWrite s who a v m st).mem = s.mem ∧
      (refuseWrite s who a v m st).fuses = s.fuses ∧ (refuseWrite s who a v m st).ports = s.ports := by
  have h := refuseWrite_keeps 0x100200408#64 s s who a v m st (by decide) (.refl _ s)
  exact ⟨h.same .jobs (by decide), h.same .memory (by decide), h.same .fuses (by decide), h.same .ports (by decide)⟩

/-- Settles O30: a write that cannot be made does nothing, and one that fails is `refuseWrite` or nothing by its status. -/
theorem refusedWritesChangeNothing : Obligations.RefusedWritesChangeNothing := by
  unfold Obligations.RefusedWritesChangeNothing
  intro s who a v m
  refine ⟨fun hmay => ?_, fun hmay hst => ?_, fun _ hrights ha h4 hmapped => writeStatus_of_rightsFail ha h4 hmapped hrights⟩
  · exact ⟨_, exec_registerWrite .., commandWrite_of_not_mayWrite hmay ..⟩
  · refine ⟨_, exec_registerWrite .., ?_⟩
    rw [commandWrite_of_status hmay rfl hst]
    split
    case isTrue hle =>
      obtain ⟨hjobs, hmem, hfuses, hports⟩ := refuseWrite_frame s who a.toNat v m (writeStatus s who a.toNat v m)
      exact ⟨fun b hb => rd_refuseWrite _ _ _ _ _ _ hb, hjobs, hmem, hfuses, hports, fun hne => refuseWrite_regs hne .., fun hlt => by omega⟩
    case isFalse => exact ⟨fun _ _ => rfl, rfl, rfl, rfl, rfl, fun _ => rfl, fun _ => rfl⟩

end Sys2Proof.Machine

/-! # Rows that are register writes (R312, R400, R404, R405) -/

namespace Sys2Proof.Machine

open Sys2Proof

/-! ## The pages of Table 20.8 -/

/-- The rows of ports, stitches, meters, reduction engines and pattern checkers. -/
def stitchKind : PageKind := ⟨0x22, 0x300000, 12, false, false, 3⟩
def patternKind : PageKind := ⟨0x2E, 0xE00000, 193, false, true, 8⟩
def reduceKind : PageKind := ⟨0x29, 0x900000, 8, true, true, 36⟩
def policeKind : PageKind := ⟨0x25, 0x600000, 161, false, true, 3⟩
def portKind : PageKind := ⟨0x20, 0x100000, 161, true, true, 16⟩

theorem pageOf_stitch {i off : Nat} (hi : i < 12) (h : off < 0x1000) : pageOf (pStitch i + off) = some (stitchKind, pStitch i) :=
  pageOf_instance (k := stitchKind) (by decide) hi h

theorem pageOf_pattern {i off : Nat} (hi : i < 193) (h : off < 0x1000) : pageOf (pPattern i + off) = some (patternKind, pPattern i) :=
  pageOf_instance (k := patternKind) (by decide) hi h

theorem pageOf_reduce {i off : Nat} (hi : i < 8) (h : off < 0x1000) : pageOf (pReduce i + off) = some (reduceKind, pReduce i) :=
  pageOf_instance (k := reduceKind) (by decide) hi h

theorem pageOf_police {i off : Nat} (hi : i < 161) (h : off < 0x1000) : pageOf (pPolice i + off) = some (policeKind, pPolice i) :=
  pageOf_instance (k := policeKind) (by decide) hi h

theorem pageOf_port {i off : Nat} (hi : i < 161) (h : off < 0x1000) : pageOf (pPort i + off) = some (portKind, pPort i) :=
  pageOf_instance (k := portKind) (by decide) hi h

/-! ## The word of each row -/

theorem writeIf_pos {ok : Bool} (h : ok = true) (who : Requester) (a : Nat) (v m : Word) (s : State) :
    writeIf ok who a v m s = .next (commandWrite who none a v m s) := by
  simp only [writeIf, h, if_true]

/-- A row that is a register write is the write of its word, which lies in the register space. -/
theorem exec_of_writeOf {c : Instr} {who : Requester} {a : Nat} {v m : Word} (h : writeOf c = some (who, a, v, m)) (s : State) :
    a < 2 ^ 32 ∧ exec c s = .next (commandWrite who none a v m s) := by
  cases c with
  | refSelectWrite | manualFallow | faultPinClear | fltAckWrite | secDecommission | swathLaunch | glbCoordWrite | glbTorusWrite
  | fabricEpochWrite =>
    cases h
    exact ⟨by decide, rfl⟩
  | blockEnable | blockDisable | eventStatusClear | pageLock =>
    obtain ⟨hpage, h⟩ := Option.ite_none_right_eq_some.1 h
    obtain ⟨k, hk⟩ := pageOf_of_isPage hpage
    have hlt := page_lt hk
    cases h
    exact ⟨by omega, writeIf_pos hpage ..⟩
  | clkGateOn | clkGateOff =>
    obtain ⟨hin, h⟩ := Option.ite_none_right_eq_some.1 h
    cases h
    exact ⟨by decide, writeIf_pos (decide_eq_true hin) ..⟩
  | fltReactWrite | portEnable | portDisable | portTestEnter | portRetrain | portAdopt | kstForceClose | kstHoldOpen | kstRetry
  | patCtrlWrite | bpCfgWrite | gateChange | slotQuotaWrite | redSpillCfgWrite | trigAdd | triggerValidWrite | rankXlatWrite
  | jobLoad | jobUnload | signBatch | releaseBatch =>
    obtain ⟨hin, h⟩ := Option.ite_none_right_eq_some.1 h
    cases h
    refine ⟨?_, writeIf_pos (decide_eq_true hin) ..⟩
    simp only [wReact, pPort, pStitch, pPattern, pBufPool, pGate, wSlotQuota, pReduce, pTrig, wTrig, wRank, wJob, wSeal]
    omega
  | quireTableWrite | credentialWrite =>
    obtain ⟨hin, h⟩ := Option.ite_none_right_eq_some.1 h
    cases h
    refine ⟨?_, writeIf_pos (by simp [hin]) ..⟩
    simp only [wQuire, wCred]
    omega
  | meterWrite =>
    obtain ⟨hin, h⟩ := Option.ite_none_right_eq_some.1 h
    cases h
    refine ⟨?_, writeIf_pos (by simp [hin]) ..⟩
    simp only [meterAddr, pPolice]
    omega
  | _ => cases h

/-- Settles O28: the row and REGISTER_WRITE make the same write of the same word. -/
theorem rowsAreRegisterWrites : Obligations.RowsAreRegisterWrites := by
  unfold Obligations.RowsAreRegisterWrites
  intro s c who a v m h
  obtain ⟨hlt, hexec⟩ := exec_of_writeOf h s
  rw [hexec, exec_registerWrite, BitVec.toNat_ofNat, Nat.mod_eq_of_lt hlt]

/-! ## What plain writes do -/

theorem setHost_keeps (k : BitVec 64) (s0 s : State) (x : HostSt) (hk : k &&& 0x4000000000#64 = 0#64) (h : Keeps k s0 s) :
    Keeps k s0 { s with hostSt := x } := by
  obtain ⟨hpending, hcanonical, hfuses, hsame, hgrows⟩ := h
  refine ⟨hpending, hcanonical, hfuses, fun p hp => Part.same_trans p (hsame p hp) ?_, hgrows⟩
  cases p
  case host => exact absurd hp (maskOff hk (by decide))
  all_goals rfl

/-- The parts that a plain write may change besides its word: counters, meters, jobs, sessions with what they wait for, the audit state
and the output; and the host part, where PAGE_LOCK notes its page. -/
abbrev plainAvoids (k : BitVec 64) (c : Instr) : Prop :=
  k &&& 0x100B8220002#64 = 0#64 ∧ ((∃ w page, c = .pageLock w page) → k &&& 0x4000000000#64 = 0#64)

/-- HOLD_OPEN leaves FORCE_CLOSE and asks for no retry. -/
theorem kstHoldOpen_acts {t : State} {who : Requester} {n : Nat} (hn : n < 12) (old v : Word) (hv : v = 0 ∨ v = 2) :
    blockActs t who none stitchKind (pStitch n) 0x40 old (mergeWord (pStitch n + 0x40) old v 2) v 2 = t := by
  have hbit : (mergeWord (pStitch n + 0x40) old v 2).getLsbD 0 = old.getLsbD 0 :=
    mergeWord_getLsbD_of_unmasked old v (by decide) (.inl (by simp only [pStitch, wRank]; omega)) rfl
  have hretry : (woVal v 2 2 2 == 1) = false := by rcases hv with rfl | rfl <;> decide
  have hforce : ((mergeWord (pStitch n + 0x40) old v 2).getLsbD 0 && !old.getLsbD 0) = false := by rw [hbit, Bool.and_not_self]
  simp only [blockActs, stitchKind, hforce, hretry, Bool.false_eq_true, if_false]

/-- A plain write acts on nothing but the parts of `plainAvoids`. -/
theorem plain_acts_keeps {c : Instr} {who : Requester} {a : Nat} {v m : Word} (h : writeOf c = some (who, a, v, m))
    (hplain : plainWrite c = true) {k : BitVec 64} {s0 : State} (hk : plainAvoids k c) (s : State)
    (hw : Keeps k s0 (written s who a v m)) : Keeps k s0 (acceptWrite s who none a v m) := by
  obtain ⟨hparts, hlock⟩ := hk
  cases c with
  | fltAckWrite =>
    cases h
    rw [acceptWrite_block none (k := ⟨0x0C, 0xB000, 1, false, false, 1⟩) (by decide) (by decide) (by decide) (by decide)]
    exact hw
  | glbTorusWrite | fabricEpochWrite =>
    cases h
    rw [acceptWrite_block none (pageOf_glb (by decide)) (by decide) (by decide) (by decide)]
    exact hw
  | eventStatusClear who page bits =>
    obtain ⟨hpage, h⟩ := Option.ite_none_right_eq_some.1 h
    obtain ⟨kind, hkind⟩ := pageOf_of_isPage hpage
    cases h
    rw [acceptWrite_header none (pageOf_within hkind (by decide)) (.inr (by decide)) (by decide)]
    exact notify_keeps _ _ _ _ (maskSub hparts (by decide)) hw
  | pageLock who page =>
    obtain ⟨hpage, h⟩ := Option.ite_none_right_eq_some.1 h
    obtain ⟨kind, hkind⟩ := pageOf_of_isPage hpage
    cases h
    rw [acceptWrite_header none (pageOf_within hkind (by decide)) (.inr (by decide)) (by decide)]
    exact setHost_keeps _ _ _ _ (hlock ⟨_, _, rfl⟩) hw
  | fltReactWrite who kind value mask =>
    obtain ⟨hin, h⟩ := Option.ite_none_right_eq_some.1 h
    cases h
    rw [acceptWrite_window none (pageOf_eq_none (by simp only [wReact]; omega))
      (windowOf_of_mem (w := (0x1E00000, 4, 256)) (by decide) (by simp only [wReact]; omega) (by simp only [wReact]; omega))]
    exact hw
  | slotQuotaWrite who sub value mask =>
    obtain ⟨hin, h⟩ := Option.ite_none_right_eq_some.1 h
    cases h
    rw [acceptWrite_window none (pageOf_eq_none (by simp only [wSlotQuota]; omega))
      (windowOf_of_mem (w := (0x1120000, 4, 256)) (by decide) (by simp only [wSlotQuota]; omega) (by simp only [wSlotQuota]; omega))]
    exact hw
  | rankXlatWrite who entry value mask =>
    obtain ⟨hin, h⟩ := Option.ite_none_right_eq_some.1 h
    cases h
    rw [acceptWrite_window none (pageOf_eq_none (by simp only [wRank]; omega))
      (windowOf_of_mem (w := (0x1010000, 4, 131072)) (by decide) (by simp only [wRank]; omega) (by simp only [wRank]; omega))]
    exact hw
  | quireTableWrite who entry word value mask =>
    obtain ⟨hin, h⟩ := Option.ite_none_right_eq_some.1 h
    cases h
    rw [acceptWrite_window none (pageOf_eq_none (by simp only [wQuire]; omega))
      (windowOf_of_mem (w := (0x1310000, 32, 256)) (by decide) (by simp only [wQuire]; omega) (by simp only [wQuire]; omega))]
    exact hw
  | credentialWrite who entry word value mask =>
    obtain ⟨hin, h⟩ := Option.ite_none_right_eq_some.1 h
    cases h
    rw [acceptWrite_window none (pageOf_eq_none (by simp only [wCred]; omega))
      (windowOf_of_mem (w := (0x1D00000, 64, 64)) (by decide) (by simp only [wCred]; omega) (by simp only [wCred]; omega))]
    simp only [windowActs]
    exact keeps_ite (fun _ => credCleared_keeps _ _ _ _ (maskSub hparts (by decide)) hw) fun _ => hw
  | kstHoldOpen who stitch hold =>
    obtain ⟨hin, h⟩ := Option.ite_none_right_eq_some.1 h
    cases h
    rw [acceptWrite_block none (pageOf_stitch hin (by decide)) (by decide)
      (by decide) (by decide)]
    rw [kstHoldOpen_acts hin _ _ (by cases hold <;> decide)]
    exact hw
  | patCtrlWrite who group value mask =>
    obtain ⟨hin, h⟩ := Option.ite_none_right_eq_some.1 h
    cases h
    rw [acceptWrite_block none (pageOf_pattern (Nat.lt_succ_of_le hin) (by decide)) (by decide) (by decide) (by decide)]
    exact keeps_ite (fun _ => ctrsReset_keeps _ _ _ _ (maskSub hparts (by decide)) hw) fun _ => hw
  | redSpillCfgWrite who die value mask =>
    obtain ⟨hin, h⟩ := Option.ite_none_right_eq_some.1 h
    cases h
    rw [acceptWrite_block none (pageOf_reduce hin (by decide)) (by decide)
      (by decide) (by decide)]
    exact hw
  | meterWrite who port cls word value mask =>
    obtain ⟨hin, h⟩ := Option.ite_none_right_eq_some.1 h
    cases h
    obtain ⟨hport, hcls, hword⟩ := hin
    rw [show meterAddr port cls word = pPolice port + (0x40 + 16 * cls + 4 * word) by simp only [meterAddr]; omega] at hw ⊢
    rw [acceptWrite_block none (pageOf_police (Nat.lt_succ_of_le hport) (by omega)) (by decide) (by decide) (by omega)]
    exact fillMeter_keeps _ _ _ _ _ (maskSub hparts (by decide)) hw
  | _ => cases hplain

/-- A plain write, accepted or not, leaves every part alone but the registers and those of `plainAvoids`. -/
theorem plain_keeps {c : Instr} {who : Requester} {a : Nat} {v m : Word} (h : writeOf c = some (who, a, v, m))
    (hplain : plainWrite c = true) {k : BitVec 64} (hregs : k &&& 0x1#64 = 0#64) (hk : plainAvoids k c) (s : State) :
    KeepsOut k s (exec c s) := by
  obtain ⟨-, hexec⟩ := exec_of_writeOf h s
  have hwrite : k &&& 0x10088000003#64 = 0#64 := by
    have hor := congrArg₂ (· ||| ·) hregs (maskSub (a := 0x10088000002#64) hk.1 (by decide))
    simpa [← BitVec.and_or_distrib_left] using hor
  rw [hexec]
  rcases commandWrite_cases s who none a v m with hc | hc | ⟨st, hc⟩ <;> rw [hc]
  · exact keepsOut_next (.refl _ s)
  · exact keepsOut_next (plain_acts_keeps h hplain hk s (written_keeps _ _ _ _ _ _ (maskSub hwrite (by decide))))
  · exact keepsOut_next (refuseWrite_keeps _ _ _ _ _ _ _ _ (maskSub hwrite (by decide)) (.refl _ s))

/-! ## The note of a LOCK -/

theorem acceptWrite_lock {page : Nat} {k : PageKind} (hpage : pageOf page = some (k, page)) (s : State) (who : Requester) (v m : Word) :
    acceptWrite s who none (page + 0x20) v m = { written s who (page + 0x20) v m with
      hostSt := { s.hostSt with lockWritten := addNat s.hostSt.lockWritten page } } := by
  obtain ⟨regs, audit, hwritten⟩ := written_frame s who (page + 0x20) v m
  rw [acceptWrite_header none (pageOf_within hpage (by decide)) (.inr (by decide)) (by decide)]
  simp only [headerActs, hwritten]

/-- Of the host part PAGE_LOCK changes no more than the note. -/
theorem pageLock_hostSt {s t : State} {who : Requester} {page : Nat} (hexec : exec (.pageLock who page) s = .next t) :
    t.hostSt = { s.hostSt with lockWritten := t.hostSt.lockWritten } := by
  have hwrite : t = (if isPage page = true then commandWrite who none (page + 0x20) 1 1 s else s) := (Host.Outcome.next.inj hexec).symm
  subst hwrite
  split
  case isFalse => rfl
  case isTrue hpage =>
    obtain ⟨k, hk⟩ := pageOf_of_isPage hpage
    rcases commandWrite_cases s who none (page + 0x20) 1 1 with hc | hc | ⟨st, hc⟩ <;> rw [hc]
    · rw [acceptWrite_lock hk]
    · have hsame : (refuseWrite s who (page + 0x20) 1 1 st).hostSt = s.hostSt :=
        (refuseWrite_keeps 0x4000000000#64 s s _ _ _ _ _ (by decide) (.refl _ s)).same .host (by decide)
      rw [hsame]

/-- Settles O29: an accepted plain write acts on no register, a refused one raises CFG_REFUSED, and both leave the parts that
`plain_keeps` names. -/
theorem plainWritesMergeTheirFields : Obligations.PlainWritesMergeTheirFields := by
  unfold Obligations.PlainWritesMergeTheirFields
  intro s c who a v m h hplain
  obtain ⟨hlt, hexec⟩ := exec_of_writeOf h s
  refine ⟨fun hacc => ?_, fun hmay hst hne => ?_, fun t ht p hp => ?_, fun t ht => ⟨?_, fun hlock => ?_⟩⟩
  · have hacts : (acceptWrite s who none a v m).regs = (written s who a v m).regs :=
      (plain_acts_keeps h hplain ⟨by decide, fun _ => by decide⟩ s (Keeps.refl 0x1#64 _)).regs_eq
    have hword : rd (acceptWrite s who none a v m) a = mergeWord a (rd s a) v m ∧
        ∀ b, b ≠ a → rd (acceptWrite s who none a v m) b = rd s b :=
      ⟨by rw [rd_congr hacts, rd_written_same], fun b hb => by rw [rd_congr hacts, rd_written_ne _ _ _ _ hb]⟩
    rw [← commandWrite_of_accepts hacc none] at hword
    refine ⟨⟨_, hexec, hword⟩, _, exec_registerWrite .., ?_⟩
    rwa [BitVec.toNat_ofNat, Nat.mod_eq_of_lt hlt]
  · refine ⟨_, hexec, ?_⟩
    rw [commandWrite_of_refused hmay hst]
    exact rd_refuseWrite _ _ _ _ _ _ hne
  · have hk := plain_keeps h hplain (k := 0xBD428CFCA8#64) (by decide) ⟨by decide, fun _ => by decide⟩ s t ht
    exact hk.same p ((by decide : ∀ p ∈ [Part.memory, .clock, .phase, .ports, .lanes, .stitches, .cells, .queues, .deliveries, .gates,
      .streams, .slots, .seals, .flash, .fuses, .faults, .swaths, .timeSync, .reach, .firmware],
      (0xBD428CFCA8#64).getLsbD p.idx = true) p hp)
  · by_cases hlock : ∃ w page, c = .pageLock w page
    · obtain ⟨w, page, rfl⟩ := hlock
      exact pageLock_hostSt ht
    · have hsame : t.hostSt = s.hostSt :=
        (plain_keeps h hplain (k := 0x4000000000#64) (by decide) ⟨by decide, fun e => absurd e hlock⟩ s t ht).same .host (by decide)
      rw [hsame]
  · exact (plain_keeps h hplain (k := 0x4000000000#64) (by decide) ⟨by decide, fun ⟨w, page, e⟩ => absurd e (hlock w page)⟩ s t
      ht).same .host (by decide)

/-! ## Locks -/

theorem fieldsAt_header {page off : Nat} {k : PageKind} (hpage : pageOf page = some (k, page)) (h40 : off < 0x40) :
    fieldsAt (page + off) = headerFields off := by
  have hoff : page + off - page = off := Nat.add_sub_cancel_left ..
  simp only [fieldsAt, pageOf_within hpage (Nat.lt_trans h40 (by decide)), hoff, pageFields, h40, if_true]

theorem pageWord_lt {page off : Nat} {k : PageKind} (hpage : pageOf page = some (k, page)) (hoff : off < 0x1000) :
    page + off ≤ 0x03FFFFFF ∧ (BitVec.ofNat 32 (page + off)).toNat = page + off ∧ mapped (page + off) = true := by
  have hlt := page_lt hpage
  refine ⟨by omega, ?_, ?_⟩
  · rw [BitVec.toNat_ofNat, Nat.mod_eq_of_lt (by omega)]
  · simp [mapped, pageOf_within hpage hoff]

/-- The field of BLK_LOCK is written by PAGE_LOCK (R405). -/
theorem mergeWord_lock {page : Nat} {k : PageKind} (hpage : pageOf page = some (k, page)) (old : Word) :
    (mergeWord (page + 0x20) old 1 1).getLsbD 0 = true := by
  have hlt := page_lt hpage
  rw [mergeWord_getLsbD _ _ _ (by decide) (.inl (by simp only [wRank]; omega)), fieldsAt_header hpage (by decide)]
  obtain ⟨hrwl, hw1c⟩ : (accMask (headerFields 0x20) isWritten).getLsbD 0 = true ∧
      (accMask (headerFields 0x20) (· == .w1c)).getLsbD 0 = false := by decide
  rw [hrwl, hw1c]
  rfl

theorem touched_lock {page : Nat} {k : PageKind} (hpage : pageOf page = some (k, page)) {m : Word} (hm : m.getLsbD 0 = true) :
    touched (page + 0x20) m ≠ [] := by
  have hne : maskOf 0 0 &&& m ≠ 0 := by
    intro h0
    have hbit := congrArg (fun w : Word => w.getLsbD 0) h0
    rw [BitVec.getLsbD_and, hm, maskOf_bit 0 0 0 (by decide) (by decide)] at hbit
    exact absurd hbit (by decide)
  simp [touched, fieldsAt_header hpage (by decide : 0x20 < 0x40), headerFields, Fld.mask]
  exact hne

/-- A LOCK that has been written is refused from then on, or was not the requester's to write. -/
theorem writeStatus_lock {s : State} {who : Requester} {page : Nat} {k : PageKind} {v m : Word} (hpage : pageOf page = some (k, page))
    (hnoted : page ∈ s.hostSt.lockWritten) (hm : m.getLsbD 0 = true) :
    writeStatus s who (page + 0x20) v m = 1 ∨ writeStatus s who (page + 0x20) v m = 2 := by
  obtain ⟨hword, -, hmapped⟩ := pageWord_lt (off := 0x20) hpage (by decide)
  obtain ⟨-, -, -, hmod⟩ := of_pageOf hpage
  cases hrights : rightsFail s who (page + 0x20) m with
  | true => exact .inl (writeStatus_of_rightsFail hword (by omega) hmapped hrights)
  | false =>
    refine .inr (writeStatus_of_refused hword (by omega) hmapped hrights (.inr (.inr ⟨touched_lock hpage hm, ?_⟩)))
    have hoff : page + 0x20 - page = 0x20 := Nat.add_sub_cancel_left ..
    simp only [rulesRefuse, pageOf_within hpage (by decide : 0x20 < 0x1000), hoff]
    simp [headerRefused, hm, hnoted]

/-- A write that meets a lock: no field of EVT_STATUS is the installer's alone. -/
theorem locked_not_evtStatus {a page : Nat} {k : PageKind} {m : Word} (hpage : pageOf a = some (k, page))
    (hfield : ∃ f ∈ touched a m, f.i = true ∧ f.o = false) : a % 4096 ≠ 16 := by
  intro hmod
  obtain ⟨f, hf, -, ho⟩ := hfield
  obtain ⟨-, -, -, hp⟩ := of_pageOf hpage
  have hoff : a - page = 0x10 := by omega
  have hmem : f ∈ headerFields 0x10 := by
    have := (List.mem_filter.1 hf).1
    simpa only [fieldsAt, hpage, pageFields, hoff, (by decide : 0x10 < 0x40), if_true] using this
  have hall : ∀ g ∈ headerFields 0x10, g.o = true := by decide
  rw [hall f hmem] at ho
  cases ho

theorem bit_refuseWrite_page {a page : Nat} {k : PageKind} (s : State) (who : Requester) (v m : Word)
    (hpage : pageOf a = some (k, page)) (hjob : k.ty ≠ 0x12) : bit (refuseWrite s who a v m 2) (page + 0x10) 0 = true := by
  have hne : (k.ty == 0x12) = false := by simpa using hjob
  simp [refuseWrite, cfgRefused, hpage, hne, bit_raise]

/-- Settles O55: PAGE_LOCK sets the bit and the note; a second write of LOCK meets the rule of the header, and a write of the
installer's fields the lock. -/
theorem locksHold : Obligations.LocksHold := by
  unfold Obligations.LocksHold
  intro s who page k hpage
  refine ⟨fun hacc => ?_, fun hmay hnoted v m hm => ?_, fun i a v m hmay hlocked ha h4 hrights hfield => ?_⟩
  · refine ⟨_, writeIf_pos (isPage_of_pageOf hpage) .., ?_⟩
    rw [commandWrite_of_accepts hacc, acceptWrite_lock hpage]
    refine ⟨?_, mem_addNat_self _ _⟩
    show (rd (written s who (page + 0x20) 1 1) (page + 0x20)).getLsbD 0 = true
    rw [rd_written_same, mergeWord_lock hpage]
  · obtain ⟨-, hnat, -⟩ := pageWord_lt (off := 0x20) hpage (by decide)
    obtain ⟨-, -, -, hmod⟩ := of_pageOf hpage
    refine ⟨_, exec_registerWrite .., ?_⟩
    rw [hnat]
    rcases writeStatus_lock (v := v) hpage hnoted hm with hst | hst <;>
      (rw [commandWrite_of_status hmay hst (by decide), if_pos (by decide), rd_refuseWrite]; omega)
  · have hstatus : writeStatus s (.session i) a v m = 2 := by
      have hlt := page_lt hpage
      obtain ⟨-, -, -, hp⟩ := of_pageOf ha
      refine writeStatus_of_refused (by omega) h4 (by simp [mapped, ha]) hrights (.inl ?_)
      obtain ⟨f, hf, hi, ho⟩ := hfield
      simp only [lockRefuses, ha, hlocked, Bool.true_and, List.any_eq_true]
      exact ⟨f, hf, by simp [hi, ho]⟩
    have hnat : (BitVec.ofNat 32 a).toNat = a := by
      have hlt := page_lt hpage
      obtain ⟨-, -, -, hp⟩ := of_pageOf ha
      rw [BitVec.toNat_ofNat, Nat.mod_eq_of_lt (by omega)]
    refine ⟨_, exec_registerWrite .., ?_⟩
    rw [hnat, commandWrite_of_refused hmay hstatus]
    exact ⟨rd_refuseWrite _ _ _ _ _ _ (locked_not_evtStatus ha hfield), fun hjob => bit_refuseWrite_page _ _ _ _ ha hjob⟩

end Sys2Proof.Machine

/-! # Lane contacts (R411, R424, R425) -/

namespace Sys2Proof.Machine

open Sys2Proof

/-- The lane in a slot of a die. -/
def laneInSlot (d s : Nat) : Nat :=
  if s < 64 then 64 * d + s
  else if s < 88 then 512 + 64 * ((s - 64) / 8) + 8 * d + (s - 64) % 8
  else if s < 96 then 704 + 8 * d + (s - 88)
  else 768 + d

theorem dieOfLane_eq {l : Nat} (hl : l < 772) : dieOfLane l =
    if l < 512 then l / 64 else if l < 704 then (l - 512) / 8 % 8 else if l < 768 then (l - 704) / 8 else l - 768 := by
  by_cases h768 : 768 ≤ l
  · rw [dieOfLane, if_pos h768, if_neg (by omega), if_neg (by omega), if_neg (by omega)]
  · rw [dieOfLane, if_neg h768, if_pos (by omega : l < 768), portOfGroup, dieOfPort]
    split_ifs <;> omega

/-- Every lane has a die and a slot of its own (R425). -/
theorem laneInSlot_die_slot {l : Nat} (hl : l < 772) :
    dieOfLane l < 8 ∧ slotOfLane l < 97 ∧ laneInSlot (dieOfLane l) (slotOfLane l) = l := by
  rw [dieOfLane_eq hl, slotOfLane]
  by_cases h512 : l < 512
  · simp only [h512, if_true, laneInSlot]
    split_ifs <;> omega
  by_cases h704 : l < 704
  · simp only [h512, h704, if_true, if_false, laneInSlot]
    split_ifs <;> omega
  by_cases h768 : l < 768
  · simp only [h512, h704, h768, if_true, if_false, laneInSlot]
    split_ifs <;> omega
  · simp only [h512, h704, h768, if_false, laneInSlot]
    split_ifs <;> omega

/-- Row and column of a slot's contacts before dies 4 to 7 mirror them. -/
def slotRow (s : Nat) (x : LaneContact) : Nat :=
  2 * (s / 10) + 1 + (match x with
    | .txp => 0
    | .txn => 0
    | .rxp => 1
    | .rxn => 1)
def slotCol (d s : Nat) (x : LaneContact) : Nat :=
  9 + 21 * (d % 4) + 2 * (s % 10) + (match x with
    | .txp => 0
    | .rxp => 0
    | .txn => 1
    | .rxn => 1)

theorem laneContact_eq (l : Nat) (x : LaneContact) : laneContact l x =
    if dieOfLane l < 4 then ⟨slotRow (slotOfLane l) x, slotCol (dieOfLane l) (slotOfLane l) x⟩
    else ⟨101 - slotRow (slotOfLane l) x, 101 - slotCol (dieOfLane l) (slotOfLane l) x⟩ := rfl

/-- The slots of a die stand in its upper 20 rows, clear of the columns of the corners and of the keying positions. -/
theorem slot_bounds {s : Nat} (d : Nat) (hs : s < 97) (x : LaneContact) :
    1 ≤ slotRow s x ∧ slotRow s x ≤ 20 ∧ 9 ≤ slotCol d s x ∧ slotCol d s x ≤ 91 ∧ slotCol d s x ≠ 50 := by
  cases x <;> simp only [slotRow, slotCol] <;> omega

/-- Row and column name the column of dies, the slot and the signal. -/
theorem slot_injective {d e s t : Nat} {x y : LaneContact} (hrow : slotRow s x = slotRow t y) (hcol : slotCol d s x = slotCol e t y) :
    d % 4 = e % 4 ∧ s = t ∧ x = y := by
  cases x <;> cases y <;> simp only [slotRow, slotCol, reduceCtorEq, and_true, and_false] at * <;> omega

theorem laneContact_populated {l : Nat} (hl : l < 772) (x : LaneContact) : populated (laneContact l x) = true := by
  obtain ⟨-, hs, -⟩ := laneInSlot_die_slot hl
  obtain ⟨hr1, hr20, hc9, hc91, hc50⟩ := slot_bounds (dieOfLane l) hs x
  rw [laneContact_eq]
  split <;>
    (simp only [populated, Bool.and_eq_true, Bool.not_eq_true', Bool.and_eq_false_iff, Bool.or_eq_false_iff, decide_eq_true_eq,
      decide_eq_false_iff_not, List.contains_eq_mem, List.mem_cons, Prod.mk.injEq, List.not_mem_nil, or_false]
     omega)

/-- Settles O54: a contact lies in the region of its die, where the row and the column name the slot and the signal; each lane has a
die and a slot of its own. -/
theorem laneContactsAreDistinct : Obligations.LaneContactsAreDistinct := by
  unfold Obligations.LaneContactsAreDistinct
  refine ⟨fun l x hl => laneContact_populated hl x, fun l m x y hl hm heq => ?_⟩
  obtain ⟨hdl, hsl, hl'⟩ := laneInSlot_die_slot hl
  obtain ⟨hdm, hsm, hm'⟩ := laneInSlot_die_slot hm
  obtain ⟨hr1, hr20, hc9, hc91, -⟩ := slot_bounds (dieOfLane l) hsl x
  obtain ⟨hr1', hr20', hc9', hc91', -⟩ := slot_bounds (dieOfLane m) hsm y
  have hrow : (dieOfLane l < 4 ↔ dieOfLane m < 4) ∧ slotRow (slotOfLane l) x = slotRow (slotOfLane m) y ∧
      slotCol (dieOfLane l) (slotOfLane l) x = slotCol (dieOfLane m) (slotOfLane m) y := by
    rw [laneContact_eq, laneContact_eq] at heq
    split at heq <;> split at heq <;> simp only [Contact.mk.injEq] at heq <;> omega
  obtain ⟨hside, hrow, hcol⟩ := hrow
  obtain ⟨hdie, hslot, hsignal⟩ := slot_injective hrow hcol
  have hd : dieOfLane l = dieOfLane m := by omega
  exact ⟨by rw [← hl', ← hm', hd, hslot], hsignal⟩

end Sys2Proof.Machine

/-! # Swaths and the parts of counters (R387, R390 to R395) -/

namespace Sys2Proof.Machine

open Sys2Proof

/-! ## Fields of a word after another write -/

/-- A part of a field, after the field is set. -/
theorem bitsOf_putBits_within (w : Word) {hi lo hi' lo' : Nat} (v : Nat) (hl : lo ≤ lo') (hl' : lo' ≤ hi') (hh : hi' ≤ hi) (h : hi < 32) :
    bitsOf (putBits w hi lo v) hi' lo' = v / 2 ^ (lo' - lo) % 2 ^ (hi' + 1 - lo') := by
  apply Nat.eq_of_testBit_eq
  intro i
  rw [bitsOf_bit, putBits_bit _ _ _ _ _ (by omega) h, Nat.testBit_mod_two_pow, ← Nat.shiftRight_eq_div_pow, Nat.testBit_shiftRight]
  by_cases hi' : i < hi' + 1 - lo'
  · have hin : lo ≤ lo' + i ∧ lo' + i ≤ hi := by omega
    have hidx : lo' + i - lo = lo' - lo + i := by omega
    simp [hi', hin, hidx]
  · simp [hi']

theorem fget_fset_within (s : State) (a : Nat) {hi lo hi' lo' : Nat} (v : Nat) (hl : lo ≤ lo') (hl' : lo' ≤ hi') (hh : hi' ≤ hi)
    (h : hi < 32) : fget (fset s a hi lo v) a hi' lo' = v / 2 ^ (lo' - lo) % 2 ^ (hi' + 1 - lo') := by
  simp only [fget, fset, rd_wr_same, bitsOf_putBits_within _ v hl hl' hh h]

theorem fget_fset_ne (s : State) {a b : Nat} (hi lo v hi' lo' : Nat) (h : b ≠ a) : fget (fset s a hi lo v) b hi' lo' = fget s b hi' lo' :=
  fget_wr_ne _ _ _ _ _ _ h

theorem fget_wr_same (s : State) (a hi lo : Nat) (w : Word) : fget (wr s a w) a hi lo = bitsOf w hi lo := by
  simp [fget]

theorem fget_raise_ne (s : State) {page b a : Nat} (hi lo : Nat) (h : a ≠ page + 0x10) : fget (raise s page b) a hi lo = fget s a hi lo := by
  simp [fget, rd_raise_ne _ _ _ _ h]

theorem bit_raise_same (s : State) (page : Nat) {b : Nat} (h : b < 32) : bit (raise s page b) (page + 0x10) b = true := by
  simp [bit_raise _ _ _ _ _ h]

/-! ## Counters and their parts (R387, R392) -/

theorem partsAdd_of_rest {s : State} (h : s.hand = none) (page a n : Nat) : partsAdd s page a n = s.parts := by
  simp only [partsAdd, h]

theorem partsAdd_of_other_unit {s : State} {u c page : Nat} (h : s.hand = some (u, c)) (hu : unitOfPage page ≠ u) (a n : Nat) :
    partsAdd s page a n = s.parts := by
  have hne : (unitOfPage page == u) = false := by simpa using hu
  simp only [partsAdd, h, hne, Bool.false_eq_true, if_false]

/-- The part of the input channel in hand takes the advance. -/
theorem partsAdd_of_unit {s : State} {u c page : Nat} (h : s.hand = some (u, c)) (hu : unitOfPage page = u) (a n p : Nat) :
    Sparse.get (fun _ => 0) (partsAdd s page a n) p =
      Sparse.get (fun _ => 0) s.parts p + (if p = 64 * a + c then BitVec.ofNat 64 n else 0) := by
  have heq : (unitOfPage page == u) = true := by simpa using hu
  simp only [partsAdd, h, heq, if_true, Sparse.get_set]
  split
  case isTrue hp => rw [hp]
  case isFalse => rw [add_zero]

/-! ## The pages of a unit -/

theorem mem_pagesOf {u a : Nat} (h : a ∈ pagesOf u) : a % 0x1000 = 0 ∧ a + 0x1000 ≤ wRoute := by
  refine ⟨?_, pagesOf_lt h⟩
  simp only [pagesOf, swathPages, List.mem_map, List.mem_filter, List.mem_flatten] at h
  obtain ⟨e, ⟨⟨l, ⟨k, ⟨hk, -⟩, rfl⟩, he⟩, -⟩, rfl⟩ := h
  obtain ⟨i, -, rfl⟩ := List.mem_map.1 he
  have := pageKinds_aligned hk
  omega

/-- No page is listed twice: a row's instances follow one another, and the rows of the catalogue are apart. -/
theorem swathPages_nodup : (swathPages.map (·.2)).Nodup := by
  have hrow : ∀ k : PageKind, ((List.range k.count).map fun i => k.base + 0x1000 * i).Nodup := fun k =>
    List.nodup_range.map fun i j h => by omega
  have hlist : swathPages.map (·.2) =
      ((pageKinds.filter fun k => k.ty != 0x12).map fun k => (List.range k.count).map fun i => k.base + 0x1000 * i).flatten := by
    simp [swathPages, List.map_flatten, Function.comp_def]
  have hkinds : pageKinds.Pairwise fun a b => a.base + 0x1000 * a.count ≤ b.base := by decide
  rw [hlist, List.nodup_flatten]
  refine ⟨fun l hl => ?_, ?_⟩
  · obtain ⟨k, -, rfl⟩ := List.mem_map.1 hl
    exact hrow k
  · rw [List.pairwise_map]
    refine (hkinds.filter _).imp fun {a b} hab => ?_
    rw [List.disjoint_left]
    intro x hx hy
    obtain ⟨i, hi, rfl⟩ := List.mem_map.1 hx
    obtain ⟨j, -, hj⟩ := List.mem_map.1 hy
    have := List.mem_range.1 hi
    omega

theorem pagesOf_nodup (u : Nat) : (pagesOf u).Nodup :=
  swathPages_nodup.sublist (List.filter_sublist.map _)

/-! ## The copy of an input channel (R392) -/

theorem get_cutAdd (m : Sparse Dword) (a b : Nat) (n : Dword) :
    Sparse.get (fun _ => 0) (cutAdd m a n) b = Sparse.get (fun _ => 0) m b + (if b = a then n else 0) := by
  rw [cutAdd, Sparse.get_set]
  split
  case isTrue h => rw [h]
  case isFalse => rw [add_zero]

/-- The parts of channel `c` among entries of the table of parts, added to the copies of their counters. -/
def copyEntries (c : Nat) (es m : Sparse Dword) : Sparse Dword :=
  es.foldl (fun m e => if e.1 % 64 == c then cutAdd m (e.1 / 64) e.2 else m) m

theorem copyChannel_eq (s : State) (m : Sparse Dword) (u c : Nat) : copyChannel s m u c =
    (pagesOf u).foldl (fun m a => copyEntries c (Sparse.range s.parts (64 * (a + 0x800)) (64 * (a + 0xC00))) m) m := rfl

/-- Entries that are not of a counter and a channel leave the counter's copy of that channel alone. -/
theorem get_copyEntries_of_absent {c A : Nat} {es : Sparse Dword} (h : ∀ e ∈ es, e.1 ≠ 64 * A + c) (m : Sparse Dword) :
    Sparse.get (fun _ => 0) (copyEntries c es m) A = Sparse.get (fun _ => 0) m A := by
  induction es generalizing m with
  | nil => rfl
  | cons e es ih =>
    obtain ⟨he, hes⟩ := List.forall_mem_cons.1 h
    rw [copyEntries, List.foldl_cons]
    refine (ih hes _).trans ?_
    split
    case isTrue hch =>
      have hch' : e.1 % 64 = c := by simpa using hch
      rw [get_cutAdd, if_neg (by omega), add_zero]
    case isFalse => rfl

/-- Of a sorted table the one entry of the counter and the channel joins the copy. -/
theorem get_copyEntries {c A : Nat} (hc : c < 64) {es : Sparse Dword} (hsorted : es.Pairwise fun e f => e.1 < f.1) (m : Sparse Dword) :
    Sparse.get (fun _ => 0) (copyEntries c es m) A =
      Sparse.get (fun _ => 0) m A + Sparse.get (fun _ => 0) es (64 * A + c) := by
  induction es generalizing m with
  | nil => simp [copyEntries]
  | cons e es ih =>
    obtain ⟨hlt, hes⟩ := List.pairwise_cons.1 hsorted
    rw [copyEntries, List.foldl_cons]
    by_cases hkey : e.1 = 64 * A + c
    · have hch : (e.1 % 64 == c) = true := by simp only [beq_iff_eq]; omega
      have habsent : ∀ f ∈ es, f.1 ≠ 64 * A + c := fun f hf => by have := hlt f hf; omega
      have hhead : Sparse.get (fun _ => 0) (e :: es) (64 * A + c) = e.2 := by simp [Sparse.get, hkey]
      rw [if_pos hch, hhead]
      refine (get_copyEntries_of_absent habsent _).trans ?_
      rw [get_cutAdd, if_pos (by omega)]
    · have htail : Sparse.get (fun _ => 0) (e :: es) (64 * A + c) = Sparse.get (fun _ => 0) es (64 * A + c) := by simp [Sparse.get, hkey]
      refine (ih hes _).trans ?_
      rw [htail]
      split
      case isTrue hch =>
        have hch' : e.1 % 64 = c := by simpa using hch
        rw [get_cutAdd, if_neg (by omega), add_zero]
      case isFalse => rfl

/-- A key in a range reads from the entries of the range as from the table. -/
theorem get_range {α : Type} (d : Nat → α) (m : Sparse α) {lo hi k : Nat} (hlo : lo ≤ k) (hhi : k < hi) :
    Sparse.get d (Sparse.range m lo hi) k = Sparse.get d m k := by
  induction m with
  | nil => rfl
  | cons e m ih =>
    obtain ⟨j, v⟩ := e
    by_cases hj : j = k
    · subst hj
      simp [Sparse.range, Sparse.get, hlo, hhi]
    · rw [Sparse.range] at ih ⊢
      rw [List.filter_cons]
      split <;> simp [Sparse.get, hj, ih]

/-- The copy of a channel takes each counter's part of that channel, once (R392). -/
theorem get_copyChannel {s : State} {u c page i : Nat} (hc : c < 64) (hparts : Sparse.wf (fun _ => 0) s.parts = true)
    (hpage : page ∈ pagesOf u) (hi : i < 128) (m : Sparse Dword) :
    Sparse.get (fun _ => 0) (copyChannel s m u c) (page + 0x800 + 8 * i) =
      Sparse.get (fun _ => 0) m (page + 0x800 + 8 * i) + Sparse.get (fun _ => 0) s.parts (64 * (page + 0x800 + 8 * i) + c) := by
  have hsorted := ((Sparse.wf_iff _ _).1 hparts).1
  obtain ⟨hmod, -⟩ := mem_pagesOf hpage
  have hother : ∀ a, a % 0x1000 = 0 → a ≠ page → ∀ e ∈ Sparse.range s.parts (64 * (a + 0x800)) (64 * (a + 0xC00)),
      e.1 ≠ 64 * (page + 0x800 + 8 * i) + c := fun a ha hne e he => by
    have hin := (List.mem_filter.1 he).2
    simp only [Bool.and_eq_true, decide_eq_true_eq] at hin
    omega
  have hrest : ∀ ps : List Nat, (∀ a ∈ ps, a % 0x1000 = 0 ∧ a ≠ page) → ∀ m,
      Sparse.get (fun _ => 0) (ps.foldl (fun m a => copyEntries c (Sparse.range s.parts (64 * (a + 0x800)) (64 * (a + 0xC00))) m) m)
        (page + 0x800 + 8 * i) = Sparse.get (fun _ => 0) m (page + 0x800 + 8 * i) := by
    intro ps hps
    induction ps with
    | nil => exact fun _ => rfl
    | cons a ps ih =>
      obtain ⟨⟨ha, hne⟩, hps⟩ := List.forall_mem_cons.1 hps
      exact fun m => (ih hps _).trans (get_copyEntries_of_absent (hother a ha hne) m)
  obtain ⟨before, after, hsplit⟩ := List.append_of_mem hpage
  have hnodup := pagesOf_nodup u
  have hmods : ∀ a ∈ pagesOf u, a % 0x1000 = 0 := fun a ha => (mem_pagesOf ha).1
  rw [hsplit] at hnodup hmods
  rw [copyChannel_eq, hsplit, List.foldl_append, List.foldl_cons]
  obtain ⟨-, hafter, hdisjoint⟩ := List.nodup_append.1 hnodup
  have hbefore' : ∀ a ∈ before, a % 0x1000 = 0 ∧ a ≠ page := fun a ha =>
    ⟨hmods a (by simp [ha]), hdisjoint a ha page (by simp)⟩
  have hafter' : ∀ a ∈ after, a % 0x1000 = 0 ∧ a ≠ page := fun a ha =>
    ⟨hmods a (by simp [ha]), fun e => (List.nodup_cons.1 hafter).1 (e ▸ ha)⟩
  have hrange : (Sparse.range s.parts (64 * (page + 0x800)) (64 * (page + 0xC00))).Pairwise fun e f => e.1 < f.1 := hsorted.filter _
  rw [hrest after hafter', get_copyEntries hc hrange, get_range _ _ (by omega) (by omega), hrest before hbefore']

/-! ## Markers (R391, R394) -/

/-- The swath after a unit has taken the marker of one of its input channels. -/
def marked (s : State) (x : SwathSt) (u c : Nat) : SwathSt :=
  { x with cut := copyChannel s (if x.started.contains u then x.cut else copyInternal s x.cut u) u c,
           left := x.left.filter (· != (u, c)), started := addNat x.started u }

/-- The unit's pages, the swath and PAGES_LEFT after it. -/
def markTaken (s : State) (x : SwathSt) (u c : Nat) : State :=
  fset { (if (marked s x u c).left.any fun e => e.1 == u then s else completeUnit s (marked s x u c) u) with
    swath := some (marked s x u c) } (pSwath + 0x44) 11 3 (unitsLeft (marked s x u c))

theorem takeMarker_eq (s : State) (x : SwathSt) (u c : Nat) :
    takeMarker s x u c = if (marked s x u c).left.isEmpty then endSwath (markTaken s x u c) 2 8 else markTaken s x u c := rfl

theorem mem_marked_left {s : State} {x : SwathSt} {u c : Nat} {e : Nat × Nat} :
    e ∈ (marked s x u c).left ↔ e ∈ x.left ∧ e ≠ (u, c) := by
  simp [marked]

theorem takeMarker_of_more {s : State} {x : SwathSt} {u c : Nat} (h : ∃ e ∈ x.left, e ≠ (u, c)) :
    takeMarker s x u c = markTaken s x u c := by
  obtain ⟨e, he⟩ := h
  have hne : (marked s x u c).left.isEmpty = false := by
    rw [List.isEmpty_eq_false_iff]
    exact List.ne_nil_of_mem (mem_marked_left.2 he)
  rw [takeMarker_eq, hne]
  rfl

theorem takeMarker_of_last {s : State} {x : SwathSt} {u c : Nat} (h : ∀ e ∈ x.left, e = (u, c)) :
    takeMarker s x u c = endSwath (markTaken s x u c) 2 8 := by
  have hempty : (marked s x u c).left.isEmpty = true := by
    rw [List.isEmpty_iff, List.eq_nil_iff_forall_not_mem]
    intro e he
    exact (mem_marked_left.1 he).2 (h e (mem_marked_left.1 he).1)
  rw [takeMarker_eq, hempty]
  rfl

theorem markTaken_swath (s : State) (x : SwathSt) (u c : Nat) : (markTaken s x u c).swath = some (marked s x u c) := by
  simp [markTaken]

theorem Keeps.swath_eq {s t : State} (h : Keeps 0x800000000#64 s t) : t.swath = s.swath := by
  have hsame := h.same .swaths (by decide)
  simp only [Prod.mk.injEq] at hsame
  exact hsame.1

theorem endSwath_swath (s : State) (st ev : Nat) : (endSwath s st ev).swath = none :=
  (raise_keeps 0x800000000#64 _ _ pSwath ev (by decide) (.refl _ _)).swath_eq

theorem fget_endSwath_state (s : State) (st ev : Nat) : fget (endSwath s st ev) (pSwath + 0x44) 2 0 = st % 8 := by
  rw [endSwath, fget_raise_ne _ _ _ (by decide)]
  show fget (wr (wr (fset s (pSwath + 0x44) 11 0 st) (pSwath + 0x50) _) (pSwath + 0x54) _) (pSwath + 0x44) 2 0 = st % 8
  rw [fget_wr_ne _ _ _ _ _ _ (by decide), fget_wr_ne _ _ _ _ _ _ (by decide),
    fget_fset_within _ _ _ (by decide) (by decide) (by decide) (by decide)]
  simp

/-- The words of SWATH that the end of a swath writes. -/
theorem rd_endSwath_ne (s : State) (st ev : Nat) {a : Nat} (h44 : a ≠ pSwath + 0x44) (h50 : a ≠ pSwath + 0x50) (h54 : a ≠ pSwath + 0x54)
    (h10 : a ≠ pSwath + 0x10) : rd (endSwath s st ev) a = rd s a := by
  rw [endSwath, rd_raise_ne _ _ _ _ h10]
  show rd (wr (wr (fset s (pSwath + 0x44) 11 0 st) (pSwath + 0x50) _) (pSwath + 0x54) _) a = rd s a
  rw [rd_wr_ne _ _ _ _ h54, rd_wr_ne _ _ _ _ h50, rd_fset_ne _ _ _ _ _ _ h44]

/-- A complete unit stamps each of its pages with the swath's number. -/
theorem rd_completeUnit_stamp (s : State) (x : SwathSt) {u a : Nat} (h : a ∈ pagesOf u) :
    rd (completeUnit s x u) (a + 0x24) = BitVec.ofNat 32 (b2n (x.broken.contains a) * 2147483648 + x.seq) := by
  have hfold : ∀ (ps : List Nat) (f : State → Nat → State),
      (∀ t p, rd (f t p) (a + 0x24) = if a = p then BitVec.ofNat 32 (b2n (x.broken.contains a) * 2147483648 + x.seq) else rd t (a + 0x24)) →
      ∀ t, rd (ps.foldl f t) (a + 0x24) =
        if a ∈ ps then BitVec.ofNat 32 (b2n (x.broken.contains a) * 2147483648 + x.seq) else rd t (a + 0x24) := by
    intro ps f hf
    induction ps with
    | nil => simp
    | cons p ps ih =>
      intro t
      rw [List.foldl_cons, ih, hf]
      by_cases hp : a = p <;> by_cases hps : a ∈ ps <;> simp [hp, hps]
  rw [completeUnit, hfold, if_pos h]
  intro t p
  rw [rd_wr]
  by_cases hp : a = p
  · rw [if_pos (by omega), if_pos hp, hp]
  · rw [if_neg (by omega), if_neg hp]
    rfl

theorem exec_swathMarkerRx (u c : Nat) (s : State) : exec (.swathMarkerRx u c) s = execSwathMarkerRx u c s := rfl

theorem runs_swathMarkerRx {s : State} {x : SwathSt} {u c : Nat} {P : State → Prop} (hx : s.swath = some x) (hleft : (u, c) ∈ x.left)
    (hstarted : channelSource u c ∈ x.started) (h : P (takeMarker s x u c)) : Runs (.swathMarkerRx u c) s P := by
  refine ⟨_, ?_, h⟩
  rw [exec_swathMarkerRx, execSwathMarkerRx]
  simp only [hx, List.contains_iff_mem.2 hleft, List.contains_iff_mem.2 hstarted, Bool.and_self, if_true]

/-- Settles O27: a marker is `takeMarker` once its sender has started, which ends the swath with its last marker and completes a
unit with the unit's last. -/
theorem swathMarkersComplete : Obligations.SwathMarkersComplete := by
  unfold Obligations.SwathMarkersComplete
  intro s u c
  refine ⟨fun hnone => ?_, fun x hx hleft hstarted hall => ?_, fun x hx hleft hstarted hmore => ?_, fun x a hx hleft hstarted hunit ha => ?_,
    fun x hx hstarted => ?_⟩
  · exact ⟨s, by rw [exec_swathMarkerRx, execSwathMarkerRx]; simp only [hnone], rfl⟩
  · refine runs_swathMarkerRx hx hleft hstarted ?_
    rw [takeMarker_of_last hall]
    exact ⟨endSwath_swath .., fget_endSwath_state .., bit_raise_same _ _ (by decide)⟩
  · refine runs_swathMarkerRx hx hleft hstarted ?_
    rw [takeMarker_of_more hmore]
    exact ⟨_, markTaken_swath .., rfl, fun h => (mem_marked_left.1 h).2 rfl, mem_addNat_self _ _, fun e => mem_marked_left⟩
  · refine runs_swathMarkerRx hx hleft hstarted ?_
    obtain ⟨hmod, -⟩ := mem_pagesOf ha
    have hdone : ((marked s x u c).left.any fun e => e.1 == u) = false := by
      rw [List.any_eq_false]
      intro e he hu
      exact (mem_marked_left.1 he).2 (hunit e (mem_marked_left.1 he).1 (by simpa using hu))
    have hstamp : rd (markTaken s x u c) (a + 0x24) = BitVec.ofNat 32 ((if x.broken.contains a then 2147483648 else 0) + x.seq) := by
      rw [markTaken, hdone, rd_fset_ne _ _ _ _ _ _ (by simp only [pSwath]; omega)]
      refine (rd_completeUnit_stamp s (marked s x u c) ha).trans ?_
      show BitVec.ofNat 32 (b2n (x.broken.contains a) * 2147483648 + x.seq) = _
      cases x.broken.contains a <;> rfl
    rw [takeMarker_eq]
    split
    · rw [rd_endSwath_ne _ _ _ (by simp only [pSwath]; omega) (by simp only [pSwath]; omega) (by simp only [pSwath]; omega)
        (by simp only [pSwath]; omega), hstamp]
    · exact hstamp
  · refine ⟨s, ?_, rfl⟩
    have hnot : x.started.contains (channelSource u c) = false := by simpa using hstarted
    rw [exec_swathMarkerRx, execSwathMarkerRx]
    simp only [hx, hnot, Bool.and_false, Bool.false_eq_true, if_false]

/-- Settles O51: an advance is one entry of the counters and one of their parts by the hand; the copy of a channel adds the parts of
the channel, each of them once. -/
theorem countersKeepTheirParts : Obligations.CountersKeepTheirParts := by
  unfold Obligations.CountersKeepTheirParts
  intro s page i n
  refine ⟨ctrGet_ctrAdd_same .., fun q j hne => ?_, fun hrest => partsAdd_of_rest hrest .., fun u c hhand hu => partsAdd_of_other_unit hhand hu ..,
    fun u c hhand hu p => partsAdd_of_unit hhand hu _ _ p, fun x u c hc hparts hstarted hpage hi hmore => ?_⟩
  · rw [ctrGet_ctrAdd, if_neg (by omega)]
  · refine ⟨_, by rw [takeMarker_of_more hmore, markTaken_swath], fun h => (mem_marked_left.1 h).2 rfl, ?_⟩
    simp only [marked, hstarted, if_true]
    exact get_copyChannel hc hparts hpage hi x.cut

/-! ## SWATH_CMD (R390) -/

/-- The row of page SWATH in the catalogue (Table 20.8). -/
def swathKind : PageKind := ⟨0x0D, 0xC000, 1, false, false, 2⟩

theorem pageOf_swath {off : Nat} (h : off < 0x1000) : pageOf (pSwath + off) = some (swathKind, pSwath) :=
  pageOf_instance (k := swathKind) (i := 0) (by decide) (by decide) h

theorem blockActs_swath (s : State) (who : Requester) (old new v m : Word) :
    blockActs s who none swathKind pSwath 0x40 old new v m = launchSwath s (woVal v m 15 0) := rfl

theorem swathRefused_of_running {s : State} (h : s.swath ≠ none) (seq : Nat) : swathRefused s seq = true := by
  simp [swathRefused, Option.isSome_iff_ne_none.2 h]

/-- SEQ is what the write names. -/
theorem woVal_swathSeq (seq : BitVec 16) : woVal (BitVec.ofNat 32 seq.toNat) 0xFFFF 15 0 = seq.toNat := by
  have hlt := seq.isLt
  apply Nat.eq_of_testBit_eq
  intro i
  rw [woVal, bitsOf_bit, BitVec.getLsbD_and, BitVec.getLsbD_ofNat]
  by_cases hi : i < 16
  · have hmask : (0xFFFF : Word).getLsbD (0 + i) = true := by
      rw [Nat.zero_add]
      revert i
      decide
    rw [hmask]
    simp [hi, (by omega : i < 32)]
  · simp [hi, Nat.testBit_lt_two_pow (Nat.lt_of_lt_of_le hlt (Nat.pow_le_pow_right (by decide) (by omega : 16 ≤ i)))]

theorem rulesRefuse_swath (s : State) (who : Requester) (seq : BitVec 16) (c : Change) :
    rulesRefuse s who (pSwath + 0x40) c (BitVec.ofNat 32 seq.toNat) 0xFFFF = swathRefused s seq.toNat := by
  have hrule : rulesRefuse s who (pSwath + 0x40) c (BitVec.ofNat 32 seq.toNat) 0xFFFF =
      swathRefused s (woVal (BitVec.ofNat 32 seq.toNat) 0xFFFF 15 0) := by
    simp only [rulesRefuse, pageOf_swath (by decide : 0x40 < 0x1000)]
    rfl
  rw [hrule, woVal_swathSeq]

theorem touched_swathCmd : touched (pSwath + 0x40) 0xFFFF ≠ [] := by decide

theorem exec_swathLaunch (who : Requester) (seq : BitVec 16) (s : State) :
    exec (.swathLaunch who seq) s = .next (commandWrite who none (pSwath + 0x40) (BitVec.ofNat 32 seq.toNat) 0xFFFF s) := rfl

/-- A launch that R390 refuses raises CFG_REFUSED and leaves the swath. -/
theorem swathLaunch_refused {s : State} {who : Requester} {seq : BitVec 16} (hmay : mayWrite s who = true)
    (hrights : rightsFail s who (pSwath + 0x40) 0xFFFF = false) (hrefused : swathRefused s seq.toNat = true) :
    Runs (.swathLaunch who seq) s fun t =>
      t.swath = s.swath ∧ bit t (pSwath + 0x10) 0 = true ∧ rd t (pSwath + 0x44) = rd s (pSwath + 0x44) := by
  have hstatus : writeStatus s who (pSwath + 0x40) (BitVec.ofNat 32 seq.toNat) 0xFFFF = 2 :=
    writeStatus_of_refused (by decide) (by decide) (by decide) hrights
      (.inr (.inr ⟨touched_swathCmd, by rw [rulesRefuse_swath, hrefused]⟩))
  refine ⟨_, exec_swathLaunch .., ?_⟩
  rw [commandWrite_of_refused hmay hstatus]
  exact ⟨(refuseWrite_keeps 0x800000000#64 _ _ _ _ _ _ _ (by decide) (.refl _ s)).swath_eq,
    bit_refuseWrite_page _ _ _ _ (pageOf_swath (by decide)) (by decide), rd_refuseWrite _ _ _ _ _ _ (by decide)⟩

/-- A launch that no test refuses is accepted. -/
theorem accepts_swathLaunch {s : State} {who : Requester} {seq : BitVec 16} (hmay : mayWrite s who = true)
    (hrights : rightsFail s who (pSwath + 0x40) 0xFFFF = false)
    (hrecord : recordBlocked s who (pSwath + 0x40) (BitVec.ofNat 32 seq.toNat) 0xFFFF = false)
    (hlock : lockRefuses s who (pSwath + 0x40) 0xFFFF = false) (hrefused : swathRefused s seq.toNat = false) :
    Accepts s who (pSwath + 0x40) (BitVec.ofNat 32 seq.toNat) 0xFFFF := by
  have hbusy : busyRefuses s (pSwath + 0x40) 0xFFFF = false := by
    have hwin : windowOf (pSwath + 0x40) = none := by decide
    simp [busyRefuses, hwin]
  refine ⟨hmay, ?_, touched_swathCmd⟩
  have hword : (decide (0x03FFFFFF < pSwath + 0x40) || (pSwath + 0x40) % 4 != 0) = false := by decide
  have hmapped : mapped (pSwath + 0x40) = true := by decide
  simp only [writeStatus, hword, hmapped, hrights, hrecord, hlock, hbusy, rulesRefuse_swath, hrefused]
  rfl

theorem acceptWrite_swath (s : State) (who : Requester) (seq : BitVec 16) :
    acceptWrite s who none (pSwath + 0x40) (BitVec.ofNat 32 seq.toNat) 0xFFFF =
      launchSwath (written s who (pSwath + 0x40) (BitVec.ofNat 32 seq.toNat) 0xFFFF) seq.toNat := by
  rw [acceptWrite_block none (pageOf_swath (by decide)) (by decide) (by decide) (by decide), blockActs_swath, woVal_swathSeq]

/-- What a launch begins while the device is neither fallow nor held: the island has started, SWATH_STATUS shows the number and
RUNNING, and the launch is counted. -/
theorem launchSwath_begins {s : State} (hfallow : fallow s = false) (hheld : s.faults.held = false) {seq : Nat} (hseq : seq < 65536) :
    (∃ x, (launchSwath s seq).swath = some x ∧ x.seq = seq ∧ x.started = [0]) ∧
      fget (launchSwath s seq) (pSwath + 0x44) 31 16 = seq ∧ fget (launchSwath s seq) (pSwath + 0x44) 2 0 = 1 ∧
      ctrGet (launchSwath s seq) pSwath 0 = ctrGet s pSwath 0 + 1 := by
  have hrun : launchSwath s seq = runSwath s seq := by simp [launchSwath, hfallow]
  have hregs : ∃ cut, runSwath s seq = { (wr (wr (wr (ctrAdd s pSwath 0 1) (pSwath + 0x48) (BitVec.ofNat 32 (s.time / 2 ^ 32)))
      (pSwath + 0x4C) (BitVec.ofNat 32 s.time)) (pSwath + 0x44) (BitVec.ofNat 32 (seq * 65536 + 9 * 8 + 1))) with
      swath := some { seq := seq, cut := cut, left := allChannels, started := [0], broken := [] } } := by
    unfold runSwath
    dsimp only
    rw [if_neg (by simp [hheld])]
    exact ⟨_, rfl⟩
  obtain ⟨cut, hregs⟩ := hregs
  have hword : rd (runSwath s seq) (pSwath + 0x44) = BitVec.ofNat 32 (seq * 65536 + 9 * 8 + 1) := by
    rw [hregs]
    exact rd_wr_same ..
  rw [hrun]
  refine ⟨⟨_, by rw [hregs], rfl, rfl⟩, ?_, ?_, ?_⟩
  · rw [fget, hword, bitsOf, BitVec.toNat_ofNat, Nat.shiftRight_eq_div_pow]
    omega
  · rw [fget, hword, bitsOf, BitVec.toNat_ofNat, Nat.shiftRight_eq_div_pow]
    omega
  · rw [hregs]
    exact ctrGet_ctrAdd_same s pSwath 0 1

/-- Settles O33: `swathRefused` is R390's test, and a launch that passes it leaves a swath in progress, which the test then meets. -/
theorem swathsLaunchOneAtATime : Obligations.SwathsLaunchOneAtATime := by
  unfold Obligations.SwathsLaunchOneAtATime
  intro s who seq hmay hrights
  refine ⟨fun hrefused => swathLaunch_refused hmay hrights ?_, fun hzero hlast hnone hwait hfallow hheld hrecord hlock => ?_⟩
  · rcases hrefused with rfl | hlast | hrunning
    · simp [swathRefused]
    · simp [swathRefused, hlast]
    · exact swathRefused_of_running hrunning _
  · have hpasses : swathRefused s seq.toNat = false := by
      have hne : seq.toNat ≠ 0 := fun h => hzero (BitVec.eq_of_toNat_eq h)
      simp [swathRefused, hne, hlast, hnone, hwait]
    have haccepts := accepts_swathLaunch hmay hrights hrecord hlock hpasses
    obtain ⟨regs, audit, hwritten⟩ := written_frame s who (pSwath + 0x40) (BitVec.ofNat 32 seq.toNat) 0xFFFF
    have hfallow' : fallow (written s who (pSwath + 0x40) (BitVec.ofNat 32 seq.toNat) 0xFFFF) = false := by
      rw [fallow, bit, rd_written_ne _ _ _ _ (by decide)]
      exact hfallow
    obtain ⟨hswath, hseq, hstate, hctr⟩ := launchSwath_begins hfallow' (by rw [hwritten]; exact hheld) seq.isLt
    rw [← acceptWrite_swath, ← commandWrite_of_accepts haccepts none] at hswath hseq hstate hctr
    refine ⟨_, exec_swathLaunch .., hswath, hseq, hstate, ?_, fun who' seq' hmay' hrights' => ?_⟩
    · rw [hctr, hwritten]
      rfl
    · obtain ⟨x, hx, -⟩ := hswath
      obtain ⟨t, ht, hsame, hbit, -⟩ := swathLaunch_refused (seq := seq') hmay' hrights'
        (swathRefused_of_running (by rw [hx]; exact Option.some_ne_none x) _)
      exact ⟨t, ht, hsame, hbit⟩

end Sys2Proof.Machine

/-! # Fatal causes -/
namespace Sys2Proof.Machine

open Sys2Proof

/-! ## Fallow and mute outlast what follows them -/

theorem railsOff_stays {s0 s : State} (h : FallowStays s0 s) : FallowStays s0 (railsOff s) := by
  have hfold : FallowStays s0 (([8, 7, 6, 5, 4, 3, 1, 2].filter fun r => s.rails.contains r).foldl
      (fun s r => setBit (emit s (.pmbus r 1 0)) (pPwr + 0xC0 + 4 * r) 31 false) s) := by
    refine List.foldlRecOn _ _ h fun t ht r hr => setBit_stays _ _ _ _ _ ?_ (emit_stays _ _ _ ht)
    have hbound : r < 9 := by
      have hmem := (List.mem_filter.1 hr).1
      simp only [List.mem_cons, List.not_mem_nil, or_false] at hmem
      omega
    simp only [pPwr, pFlt]
    omega
  exact ⟨fun hs => hfold.get hs⟩

/-- A device once mute is mute after what leaves the outputs, handles and reports to grow (R358). -/
theorem Keeps.mute {m : BitVec 64} {s t : State} (h : Keeps m s t) (hm : m.getLsbD 63 = true) (hs : s.faults.mute = true) :
    t.faults.mute = true :=
  (h.grows hm).2.2.2.2 hs

theorem serve_mute {s : State} (r : FaultRec) (hs : s.faults.mute = true) : (serve s r).faults.mute = true :=
  (serve_keeps 0x8000000000000000#64 s s r (by decide) (Keeps.refl _ _)).mute (by decide) hs

/-- The firmware part of the state is no part of fallow entry. -/
theorem enterFallow_fw (s : State) (kind : Nat) (record : BitVec 128) (hw : Bool) : (enterFallow s kind record hw).fw = s.fw :=
  (enterFallow_keeps 0x8000000000#64 s s kind record hw (by decide) (Keeps.refl _ _)).same .firmware (by decide)

/-! ## The causes -/

/-- A fatal kind of Table 17.2, which is neither of the residue kinds, takes the device fallow. -/
theorem serve_mkFault_fallow (s : State) {kind : Nat} (ty inst cls addr sub detail : Nat)
    (hk : (kindOf kind).any (fun k => k.cls == 2) = true) (hkind : 2 < kind ∧ kind < 256) :
    fallow (serve s (mkFault ty inst kind cls addr sub detail)) = true := by
  have hnum : (mkFault ty inst kind cls addr sub detail).kind.toNat = kind := by
    simp only [mkFault, BitVec.toNat_ofNat]
    omega
  obtain ⟨k, hrow, hcls⟩ := Option.any_eq_true .. |>.1 hk
  have hclass : classOf (mkFault ty inst kind cls addr sub detail) = 2 := by
    have : k.cls = 2 := by simpa using hcls
    simp [classOf, hnum, hrow, this]
  exact serve_fatal_fallow _ _ (by rw [hnum, hrow]; rfl) hclass (by omega) (by omega)

theorem supplyFault_fallow (s : State) (rail : Nat) : fallow (supplyFault s rail) = true := by
  have hserved : ∀ t : State, fallow (serve t (mkFault 0x08 0 0x49 2 rail 0xFF 0)) = true :=
    fun t => serve_mkFault_fallow t _ _ _ _ _ _ (by decide) (by omega)
  unfold supplyFault
  dsimp only
  split
  · exact (railsOff_stays ⟨id⟩).get (hserved _)
  · exact hserved _

/-- A rail that fails to come up in step 1 is a supply fault of the state in which the rails before it are on (R373). -/
theorem exec_railPowerGoodTimeout {s : State} {rail : Nat} (hphase : s.phase = .starting 1) (hrails : s.rails = [])
    (hrail : rail ∈ railOrder) : ∃ t, exec (.railPowerGoodTimeout rail) s = .next (supplyFault t rail) := by
  show ∃ t, execRailPowerGoodTimeout rail s = _
  simp only [execRailPowerGoodTimeout, hphase, hrails, List.isEmpty_nil, List.contains_iff_mem.2 hrail]
  exact ⟨_, rfl⟩

/-- FLT_FORCE is a register of the chip page FLT (Table 17.6). -/
theorem exec_manualFallow (who : Requester) (s : State) :
    exec (.manualFallow who) s = .next (commandWrite who none (pFlt + 0x48) 1 1 s) := rfl

/-- The row of page FLT (Table 20.2). -/
def fltKind : PageKind := ⟨0x0B, 0xA000, 1, false, false, 5⟩

theorem pageOf_flt {off : Nat} (h : off < 0x1000) : pageOf (pFlt + off) = some (fltKind, pFlt) :=
  pageOf_instance (k := fltKind) (i := 0) (by decide) (by decide) h

theorem blockActs_fltForce (s : State) (who : Requester) (old new v m : Word) :
    blockActs s who none fltKind pFlt 0x48 old new v m =
      if woVal v m 0 0 == 1 then serve s (mkFault 0x0B 0 0x4B 2 0 0xFF 0) else s := rfl

theorem manualFallow_fallow {s : State} {who : Requester} (hacc : Accepts s who (pFlt + 0x48) 1 1) :
    Runs (.manualFallow who) s fun t => fallow t = true := by
  refine ⟨_, exec_manualFallow .., ?_⟩
  show fallow _ = true
  rw [commandWrite_of_accepts hacc, acceptWrite_block none (pageOf_flt (by decide)) (by decide) (by decide) (by decide),
    blockActs_fltForce, if_pos (by decide)]
  exact serve_mkFault_fallow _ _ _ _ _ _ _ (by decide) (by omega)

/-- Settles O1: each cause is served as a fatal record, or enters fallow itself, and no later step of its command clears FALLOW. -/
theorem fatalCausesEnterFallow : Obligations.FatalCausesEnterFallow := by
  unfold Obligations.FatalCausesEnterFallow
  intro s
  refine ⟨fun hlive => ⟨fun sensor => ?_, ?_, ?_, ?_, fun rail hrail => ?_, fun instruction => ?_⟩, fun harmed => ?_,
    fun rail hphase hrails hrail => ?_, fun who hacc => manualFallow_fallow hacc⟩
  · exact ⟨_, (show exec (.thermalTrip sensor) s = _ from if_neg (by simp [hlive])),
      serve_mkFault_fallow _ _ _ _ _ _ _ (by decide) (by omega)⟩
  · exact ⟨_, (show exec .mgmtLockstep s = _ from if_neg (by simp [hlive])),
      serve_mkFault_fallow _ _ _ _ _ _ _ (by decide) (by omega), serve_mute _ rfl⟩
  · exact ⟨_, (show exec .mgmtWatchdog s = _ from if_neg (by simp [hlive])),
      serve_mkFault_fallow _ _ _ _ _ _ _ (by decide) (by omega), serve_mute _ rfl⟩
  · exact ⟨_, (show exec (.clockFallback false) s = _ from (if_neg (by simp [hlive])).trans (if_pos rfl)),
      serve_mkFault_fallow _ _ _ _ _ _ _ (by decide) (by omega), serve_mute _ rfl⟩
  · exact ⟨_, (show exec (.supplyOutOfRange rail) s = _ from if_neg (by simp [hlive, hrail])), supplyFault_fallow _ _⟩
  · refine ⟨_, (show exec (.jtagExtest instruction) s = _ from if_neg (by simp [hlive])),
      enterFallow_fallow _ _ _ _ (by omega), ?_⟩
    rw [enterFallow_fw]
  · exact ⟨_, congrArg Host.Outcome.next (if_pos harmed), serve_mkFault_fallow _ _ _ _ _ _ _ (by decide) (by omega)⟩
  · obtain ⟨t, ht⟩ := exec_railPowerGoodTimeout hphase hrails hrail
    exact ⟨_, ht, supplyFault_fallow t rail⟩

end Sys2Proof.Machine

/-! # What resets leave -/
namespace Sys2Proof.Machine

open Sys2Proof

variable {s : State}

/-- What holds at the start and is kept by each of the indices' steps holds at the end. -/
theorem forUp_induction {P : State → Prop} {f : State → Nat → State} (hf : ∀ t i, P t → P (f t i)) :
    ∀ (n i : Nat) (s : State), P s → P (forUp f n i s)
  | 0, _, _, h => h
  | n + 1, i, _, h => forUp_induction hf n (i + 1) _ (hf _ i h)

/-! ## The state after a reset -/

/-- What Table 18.5 keeps, with the rest at reset. -/
def resetBase (s : State) : State :=
  { State.reset with
    flash := s.flash, audit := s.audit, alwaysOn := s.alwaysOn, fuses := s.fuses, rails := s.rails,
    faults := { faultInit with requestHeld := s.faults.requestHeld }, out := s.out, freeCtr := s.freeCtr + 1, align := some s.freeCtr,
    pending := s.pending }

/-- After a reset `t` the state is `resetBase`, RST_STATUS holds the straps and the kind, and FALLOW is clear. -/
structure StartedOver (s : State) (kind : Nat) (straps : Word) (t : State) : Prop where
  frame : ∃ regs audit out phase, t = { resetBase s with regs := regs, audit := audit, out := out, phase := phase }
  status : rd t (pRst + 0x44) = BitVec.ofNat 32 (bitsOf straps 9 8 * 256 + kind)
  awake : fallow t = false

theorem afterReset_startedOver (s : State) (kind : Nat) (straps : Word) : StartedOver s kind straps (afterReset s kind straps) := by
  unfold afterReset
  dsimp only
  refine forUp_induction (fun t n h => ?_) 12 0 _ ⟨⟨_, _, _, _, rfl⟩, ?_, ?_⟩
  · split
    · exact h
    · obtain ⟨⟨regs, audit, out, phase, hframe⟩, hstatus, hawake⟩ := h
      have hne : ∀ page, page ≤ 0xA000 → page + 0x44 ≠ pStitch n + 0x44 := by
        intro page hpage
        simp only [pStitch]
        omega
      refine ⟨⟨_, audit, out, phase, by rw [hframe]; rfl⟩, ?_, ?_⟩
      · rw [fset, rd_wr_ne _ _ _ _ (hne pRst (by decide)), hstatus]
      · rw [fallow, bit, fset, rd_wr_ne _ _ _ _ (hne pFlt (by decide))]
        exact hawake
  · rw [setBit, fset, rd_wr_ne _ _ _ _ (by decide)]
    exact rd_wr_same ..
  · rw [fallow, bit_setBit _ _ _ _ _ _ (by decide), if_neg (by omega), bit, rd_wr_ne _ _ _ _ (by decide)]
    show (Sparse.get resetWord [] (pFlt + 0x44)).getLsbD 31 = false
    decide

theorem StartedOver.withPhase {kind : Nat} {straps : Word} {t : State} (h : StartedOver s kind straps t) (ph : Phase) :
    StartedOver s kind straps { t with phase := ph } := by
  obtain ⟨⟨regs, audit, out, phase, hframe⟩, hstatus, hawake⟩ := h
  exact ⟨⟨regs, audit, out, ph, by rw [hframe]⟩, hstatus, hawake⟩

theorem StartedOver.releasePin {kind : Nat} {straps : Word} {t : State} (h : StartedOver s kind straps t) (u : State) :
    StartedOver s kind straps (releasePin u t) := by
  unfold Machine.releasePin
  split
  · obtain ⟨⟨regs, audit, out, phase, hframe⟩, hstatus, hawake⟩ := h
    exact ⟨⟨regs, audit, _, phase, by rw [hframe]; rfl⟩, hstatus, hawake⟩
  · exact h

/-- Ending the sessions writes records of it and nothing else (R310). -/
theorem resetSessions_frame (s : State) : ∃ audit, resetSessions s = { s with audit := audit } := by
  unfold resetSessions
  refine List.foldlRecOn (motive := fun t => ∃ audit, t = { s with audit := audit }) _ _ ⟨s.audit, rfl⟩ fun t ht e _ => ?_
  obtain ⟨audit, rfl⟩ := ht
  exact ⟨_, auditAdd_frame ..⟩

theorem resetTo_startedOver (s : State) (kind : Nat) (straps : Word) (ph : Phase) :
    StartedOver s kind straps (resetTo s kind straps ph) ∧ (resetTo s kind straps ph).phase = ph := by
  refine ⟨?_, rfl⟩
  obtain ⟨audit, haudit⟩ := resetSessions_frame s
  obtain ⟨⟨regs, audit', out, phase, hframe⟩, hstatus, hawake⟩ :=
    ((afterReset_startedOver (resetSessions s) kind straps).releasePin s).withPhase ph
  exact ⟨⟨regs, audit', out, phase, by rw [resetTo, hframe, haudit]; rfl⟩, hstatus, hawake⟩

/-! ## RST_STATUS -/

section
variable {kind : Nat} {straps : Word} {t : State}

theorem StartedOver.kind_eq (h : StartedOver s kind straps t) (hkind : kind < 8) : fget t (pRst + 0x44) 2 0 = kind := by
  rw [fget, h.status, bitsOf, BitVec.toNat_ofNat]
  omega

/-- The straps of RST_STATUS are those the reset was given. -/
theorem StartedOver.strap_eq (h : StartedOver s kind straps t) (hkind : kind < 8) {i : Nat} (hi : i = 8 ∨ i = 9) :
    bit t (pRst + 0x44) i = straps.getLsbD i := by
  rw [bit, h.status, BitVec.getLsbD_ofNat, BitVec.getLsbD, Nat.testBit_eq_decide_div_mod_eq, Nat.testBit_eq_decide_div_mod_eq,
    bitsOf, Nat.shiftRight_eq_div_pow]
  rcases hi with rfl | rfl
  · simp
    omega
  · simp
    omega

theorem StartedOver.lost (h : StartedOver s kind straps t) : t.sessions = [] ∧ t.jobs = [] ∧ t.queues = [] := by
  obtain ⟨regs, audit, out, phase, hframe⟩ := h.frame
  rw [hframe]
  exact ⟨rfl, rfl, rfl⟩

theorem StartedOver.kept (h : StartedOver s kind straps t) :
    t.flash = s.flash ∧ t.fuses = s.fuses ∧ t.alwaysOn = s.alwaysOn ∧ t.rails = s.rails := by
  obtain ⟨regs, audit, out, phase, hframe⟩ := h.frame
  rw [hframe]
  exact ⟨rfl, rfl, rfl, rfl⟩

end

theorem bit_strapWord (m b : Bool) : (strapWord m b).getLsbD 9 = m ∧ (strapWord m b).getLsbD 8 = b := by
  cases m <;> cases b <;> decide

/-- RST_STATUS as a release of RESET_N leaves it. -/
theorem releaseStatus_fields (m b : Bool) (kept : Bool) :
    let w := strapWord m b ||| BitVec.ofNat 32 (b2n kept)
    w.getLsbD 9 = m ∧ w.getLsbD 8 = b ∧ bitsOf w 2 0 = b2n kept := by
  cases m <;> cases b <;> cases kept <;> decide

/-! ## The commands -/

theorem rd_wr_withPhase (s : State) (a : Nat) (w : Word) (ph : Phase) : rd { wr s a w with phase := ph } a = w := rd_wr_same s a w

theorem exec_resetNAssert (s : State) : exec .resetNAssert s = execResetNAssert s := rfl
theorem exec_resetNRelease (m b : Bool) (s : State) : exec (.resetNRelease m b) s = execResetNRelease m b s := rfl
theorem exec_chipReset_reaction (s : State) : exec (.chipReset none) s = .next (chipResetReaction s) := rfl
theorem exec_chipReset_write (who : Requester) (s : State) :
    exec (.chipReset (some who)) s = .next (commandWrite who none (pRst + 0x40) 1 1 s) := rfl

/-- The row of page RST (Table 20.2). -/
def rstKind : PageKind := ⟨0x0A, 0x9000, 1, false, false, 0⟩

theorem pageOf_rst {off : Nat} (h : off < 0x1000) : pageOf (pRst + off) = some (rstKind, pRst) :=
  pageOf_instance (k := rstKind) (i := 0) (by decide) (by decide) h

theorem blockActs_rst (s : State) (who : Requester) (old new v m : Word) :
    blockActs s who none rstKind pRst 0x40 old new v m = if woVal v m 0 0 == 1 then chipResetNow s 2 else s := rfl

/-- A CHIP_RESET write that is accepted resets the device from the state that the write leaves. -/
theorem commandWrite_chipReset {who : Requester} (hacc : Accepts s who (pRst + 0x40) 1 1) :
    commandWrite who none (pRst + 0x40) 1 1 s = chipResetNow (written s who (pRst + 0x40) 1 1) 2 := by
  rw [commandWrite_of_accepts hacc, acceptWrite_block none (pageOf_rst (by decide)) (by decide) (by decide) (by decide),
    blockActs_rst, if_pos (by decide)]

/-- Settles O2: every reset leaves a state `StartedOver`. -/
theorem resetsStartOver : Obligations.ResetsStartOver := by
  unfold Obligations.ResetsStartOver
  intro s
  refine ⟨fun m b => ?_, fun hpower hlow => ?_, fun hphase m b => ?_, fun howed hclosed hjtag => ?_, fun who hacc hjtag => ?_,
    ⟨_, rfl, rfl⟩⟩
  · have hstart := (afterReset_startedOver (recomputeAudit { s with rails := [], alwaysOn := { record := 0, time := 0 } }) 0
      (strapWord m b)).withPhase (.starting 1)
    obtain ⟨hflash, hfuses, halways, hrails⟩ := hstart.kept
    obtain ⟨hsessions, hjobs, -⟩ := hstart.lost
    exact ⟨_, exec_powerOn .., rfl, hrails, halways, hsessions, hjobs, hstart.kind_eq (by decide),
      (hstart.strap_eq (by decide) (.inr rfl)).trans (bit_strapWord m b).1,
      (hstart.strap_eq (by decide) (.inl rfl)).trans (bit_strapWord m b).2, hflash, hfuses⟩
  · obtain ⟨hstart, hphase⟩ := resetTo_startedOver s (fget s (pRst + 0x44) 2 0) (rd s (pRst + 0x44)) .inReset
    obtain ⟨hflash, hfuses, halways, hrails⟩ := hstart.kept
    obtain ⟨hsessions, hjobs, hqueues⟩ := hstart.lost
    exact ⟨_, (exec_resetNAssert s).trans (if_neg (by simp [hpower, hlow])), hphase, hsessions, hjobs, hqueues, hstart.awake, hflash,
      hfuses, halways, hrails⟩
  · obtain ⟨hmaker, hbist, hkind⟩ := releaseStatus_fields m b (!s.rails.isEmpty)
    refine ⟨_, (exec_resetNRelease m b s).trans (if_neg (by simp [hphase])), rfl, ?_, ?_, ?_, fun a ha => rd_wr_ne _ _ _ _ ha⟩
    · rw [bit, rd_wr_withPhase, hmaker]
    · rw [bit, rd_wr_withPhase, hbist]
    · rw [fget, rd_wr_withPhase, hkind]
      cases s.rails <;> rfl
  · obtain ⟨hstart, hphase⟩ := resetTo_startedOver s 3 (rd s (pRst + 0x44)) (.starting 1)
    have hreset : chipResetReaction s = resetTo s 3 (rd s (pRst + 0x44)) (.starting 1) := by
      simp [chipResetReaction, howed, hclosed, chipResetNow, hjtag]
    obtain ⟨-, hfuses, -, -⟩ := hstart.kept
    obtain ⟨hsessions, hjobs, -⟩ := hstart.lost
    rw [← hreset] at hstart hphase hfuses hsessions hjobs
    exact ⟨_, exec_chipReset_reaction s, hphase, hstart.kind_eq (by decide), hstart.strap_eq (by decide) (.inr rfl),
      hstart.strap_eq (by decide) (.inl rfl), hstart.awake, hsessions, hjobs, hfuses⟩
  · obtain ⟨regs, audit, hwritten⟩ := written_frame s who (pRst + 0x40) 1 1
    obtain ⟨hstart, hphase⟩ := resetTo_startedOver (written s who (pRst + 0x40) 1 1) 2
      (rd (written s who (pRst + 0x40) 1 1) (pRst + 0x44)) (.starting 1)
    have hreset : commandWrite who none (pRst + 0x40) 1 1 s = resetTo (written s who (pRst + 0x40) 1 1) 2
        (rd (written s who (pRst + 0x40) 1 1) (pRst + 0x44)) (.starting 1) := by
      rw [commandWrite_chipReset hacc, chipResetNow, if_neg]
      rw [hwritten]
      simp [hjtag]
    obtain ⟨hflash, hfuses, halways, -⟩ := hstart.kept
    obtain ⟨hsessions, hjobs, -⟩ := hstart.lost
    rw [← hreset] at hstart hphase hflash hfuses halways hsessions hjobs
    rw [hwritten] at hflash hfuses halways
    exact ⟨_, exec_chipReset_write who s, hphase, hstart.kind_eq (by decide), hstart.awake, hsessions, hjobs, hflash, hfuses, halways⟩

end Sys2Proof.Machine

/-! # The end of a start-up step -/
namespace Sys2Proof.Machine

open Sys2Proof

/-! ## What a step's end leaves -/

theorem exec_startUpStepEnd (s : State) (r : StepReport) : exec (.startUpStepEnd r) s = execStartUpStepEnd r s := rfl

theorem exec_startUpStepEnd_starting {s : State} {k : Nat} (hphase : s.phase = .starting k) (r : StepReport) :
    exec (.startUpStepEnd r) s = .next (endStartStep s k r) := by
  rw [exec_startUpStepEnd, execStartUpStepEnd, hphase]

theorem nextStep_phase (s : State) (k : Nat) : (nextStep s k).phase = .starting (k + 1) := rfl

theorem nextStep_kept (s : State) (k : Nat) :
    (nextStep s k).rails = s.rails ∧ (nextStep s k).fw = s.fw ∧ (nextStep s k).fuses = s.fuses := ⟨rfl, rfl, rfl⟩

theorem fget_nextStep (s : State) (k : Nat) (hk : k < 16) : fget (nextStep s k) (pRst + 0x44) 19 16 = k :=
  fget_fset_same _ _ _ _ _ (by decide) (by decide) hk

theorem bootFails_bootRom (s : State) (code : Nat) : (bootFails s code).phase = .bootRom ∧ fallow (bootFails s code) = true :=
  ⟨rfl, enterFallow_fallow (fset s (pBoot + 0x40) 7 0 code) 0 0 false (by decide)⟩

/-- The rails that step 1 commands on are those of R373. -/
theorem stepRails_rails {s : State} (h : s.rails = []) : (stepRails s).rails = railOrder := by
  have hkept : Keeps 0x100#64 (commandRails s railOrder) (stepRails s) := by
    unfold stepRails
    rw [h, List.isEmpty_nil]
    exact keeps_forUp _ _ _ _ (fun t r ht => setBit_keeps _ _ _ _ _ _ (by decide) ht) (Keeps.refl _ _)
  exact congrArg Prod.fst (hkept.same .power (by decide))

theorem bootImage_accepted {s : State} (hphase : s.phase = .starting 4) (hcode : fwCode s s.flash.image = 0) (r : StepReport) :
    exec (.startUpStepEnd r) s = .next (nextStep (runImage s) 4) := by
  rw [exec_startUpStepEnd_starting hphase, endStartStep, if_neg (by simp [hcode])]

/-- The rollback fuses rise to the image's level, and no further (R329). -/
theorem blowRollback_rollback (s : State) : (blowRollback s).fuses.rollback = Nat.max s.fuses.rollback (fwRollback s.flash.image) := by
  unfold blowRollback
  dsimp only
  split
  · next hlt =>
    rw [(auditDevice_keeps 0x100000000#64 _ _ _ _ _ _ (by decide) (Keeps.refl _ _)).fuses_eq]
    exact (Nat.max_eq_right (Nat.le_of_lt hlt)).symm
  · next hge => exact (Nat.max_eq_left (Nat.le_of_not_lt hge)).symm

/-- A good known-answer test of step 6 blows the rollback fuses and nothing else of the fuses (R329, R384). -/
theorem stepKat_rollback {s : State} {r : StepReport} (hok : r.ok = true) :
    (stepKat s r).fuses.rollback = Nat.max s.fuses.rollback (fwRollback s.flash.image) := by
  unfold stepKat
  dsimp only
  rw [if_pos hok]
  generalize hfold : r.badCheckers.foldl _ s = t
  have hkept : Keeps 0x140000000#64 s t := by
    rw [← hfold]
    exact keeps_foldl _ _ _ (fun u g hu => report_keeps _ _ _ _ (by decide) (portFault_keeps _ _ _ _ (by decide) hu)) (Keeps.refl _ _)
  rw [(refreshCert_keeps 0x100000000#64 _ _ (by decide) (Keeps.refl _ _)).fuses_eq, blowRollback_rollback,
    (hkept.same .fuses (by decide) : t.fuses = s.fuses),
    (hkept.same .flash (by decide) : t.flash = s.flash)]

theorem stepFabric_ready (s : State) : (stepFabric s).phase = .ready ∧ bit (stepFabric s) (pRst + 0x44) 25 = true ∧
    bit (stepFabric s) (pRst + 0x10) 8 = true := by
  refine ⟨?_, ?_, ?_⟩
  · exact congrArg Prod.fst ((raise_keeps 0x80#64 _ _ pRst 8 (by decide) (Keeps.refl _ _)).same .phase (by decide))
  · rw [stepFabric, bit_raise _ _ _ _ _ (by decide), if_neg (by decide), bit_setBit_same _ _ _ _ (by decide)]
  · rw [stepFabric, bit_raise _ _ _ _ _ (by decide), if_pos ⟨rfl, rfl⟩]

/-- What the end of the LPDDR6 part of step 7 leaves where no request was held. -/
theorem lpddrBistDone_ends {s : State} (bad : List (Nat × Nat)) (hrun : s.bistRunning = true) (hheld : s.heldReqs = []) :
    Runs (.lpddrBistDone bad) s fun t =>
      t.bistRunning = false ∧ bit t (pRst + 0x44) 26 = true ∧ bit t (pRst + 0x10) 10 = true := by
  refine ⟨raise (setBit (retireBad { s with bistRunning := false, heldReqs := [] } bad) (pRst + 0x44) 26 true) pRst 10, ?_, ?_, ?_, ?_⟩
  · show execLpddrBistDone bad s = _
    simp only [execLpddrBistDone, hrun, hheld, Bool.not_true, Bool.false_eq_true, if_false, List.foldl_nil]
  · have hkept := raise_keeps 0x80#64 _ _ pRst 10 (by decide) (setBit_keeps _ _ _ (pRst + 0x44) 26 true (by decide)
      (retireBad_keeps _ _ { s with bistRunning := false, heldReqs := [] } bad (by decide) (Keeps.refl _ _)))
    exact congrArg Prod.snd (hkept.same .phase (by decide))
  · rw [bit_raise _ _ _ _ _ (by decide), if_neg (by decide), bit_setBit_same _ _ _ _ (by decide)]
  · rw [bit_raise _ _ _ _ _ (by decide), if_pos ⟨rfl, rfl⟩]

/-- Settles O3: a step's end is `endStartStep` of its phase. -/
theorem startUpAdvances : Obligations.StartUpAdvances := by
  unfold Obligations.StartUpAdvances
  intro s r
  refine ⟨fun hphase hok hrails => ?_, fun hphase hbad => ?_, fun hphase hpresent hgood hok => ?_, fun hphase hcode => ?_,
    fun hphase hcode => ?_, fun hphase hok => ?_, fun hphase hbist hsettled => ?_, fun bad hrun hheld => lpddrBistDone_ends bad hrun hheld⟩
  · refine ⟨nextStep (stepRails s) 1, ?_, nextStep_phase _ _, (nextStep_kept _ _).1.trans (stepRails_rails hrails), fget_nextStep _ _ (by decide)⟩
    rw [exec_startUpStepEnd_starting hphase, endStartStep, if_pos hok]
  · refine ⟨bootFails s 1, ?_, bootFails_bootRom s 1⟩
    rw [exec_startUpStepEnd_starting hphase, endStartStep, if_pos (by rcases hbad with h | h <;> simp [h])]
  · refine ⟨nextStep s 3, ?_, nextStep_phase _ _, fget_nextStep _ _ (by decide)⟩
    rw [exec_startUpStepEnd_starting hphase, endStartStep, if_neg (by simp [hpresent, hok]), if_neg (by simp [hgood])]
  · refine ⟨bootFails s (fwCode s s.flash.image), ?_, bootFails_bootRom s _⟩
    rw [exec_startUpStepEnd_starting hphase, endStartStep, if_pos (by simp [hcode])]
  · exact ⟨_, bootImage_accepted hphase hcode r, nextStep_phase _ _, congrArg FwSt.runningDigest (nextStep_kept _ _).2.1⟩
  · exact ⟨nextStep (stepKat s r) 6, exec_startUpStepEnd_starting hphase r, nextStep_phase _ _,
      (congrArg Fuses.rollback (nextStep_kept _ _).2.2).trans (stepKat_rollback hok)⟩
  · refine ⟨stepFabric s, ?_, stepFabric_ready s⟩
    rw [exec_startUpStepEnd_starting hphase, endStartStep, if_neg]
    · simpa [hbist] using hsettled
    all_goals decide

end Sys2Proof.Machine

/-! # References and the gating tree -/
namespace Sys2Proof.Machine

open Sys2Proof

variable {s : State}

/-! ## Reports seen over a command -/

theorem Reports.trans_prefix {t u : State} {r : FaultRec} (h : Reports s t r) (hu : t.faults.reported <+: u.faults.reported) :
    Reports s u r := by
  obtain ⟨l, hl, hr⟩ := h
  obtain ⟨l', hl'⟩ := hu
  exact ⟨l ++ l', by rw [← hl', hl, List.append_assoc], List.mem_append_left _ hr⟩

theorem Reports.of_prefix {t u : State} {r : FaultRec} (hs : s.faults.reported <+: t.faults.reported) (h : Reports t u r) :
    Reports s u r := by
  obtain ⟨l, hl, hr⟩ := h
  obtain ⟨l', hl'⟩ := hs
  exact ⟨l' ++ l, by rw [hl, ← hl', List.append_assoc], List.mem_append_right _ hr⟩

theorem reports_report (s : State) (r : FaultRec) : Reports s (report s r) r :=
  ⟨[r], report_reported s r, List.mem_singleton_self r⟩

/-- A report shows its kind in FLT_ROUTE of its source's page and changes no other word (R354). -/
theorem rd_report {r : FaultRec} {a : Nat}
    (ha : ∀ p, pageOfSource r.sourceType.toNat r.sourceInst.toNat = some p → a ≠ p + 0x18) : rd (report s r) a = rd s a := by
  unfold report
  cases hp : pageOfSource r.sourceType.toNat r.sourceInst.toNat with
  | none => rfl
  | some p => exact rd_fset_ne _ _ _ _ _ _ (ha p hp)

/-! ## Counters besides that of the datagrams sent -/

section
variable {a : Nat} (ha : a ≠ pHostIf + 0x800 + 8 * 1)
include ha

theorem ctrAt_sendMsg_ne (s : State) (sid ty msgNum flags status : Nat) (body : List Byte) :
    ctrAt (sendMsg s sid ty msgNum flags status body) a = ctrAt s a := by
  unfold sendMsg
  split
  · rfl
  · dsimp only
    rw [ctrAt_emit, ctrAt_ctrAdd_ne _ _ ha]
    split <;> rfl

theorem ctrAt_notifySession_ne (s : State) (page sid : Nat) : ctrAt (notifySession s page sid) a = ctrAt s a := by
  unfold notifySession
  split
  · rfl
  · dsimp only
    split
    · rfl
    · split
      · rfl
      · split
        · exact ctrAt_sendMsg_ne ha ..
        · rfl

/-- Raising an event sends messages, and so counts at most those (R315). -/
theorem ctrAt_raise_ne (s : State) (page b : Nat) : ctrAt (raise s page b) a = ctrAt s a :=
  ctrAt_foldl (fun t sid => ctrAt_notifySession_ne ha t page sid) _ _

end

theorem ctrGet_raise (s : State) (page b p i : Nat) (h : p + 0x800 + 8 * i ≠ pHostIf + 0x800 + 8 * 1) :
    ctrGet (raise s page b) p i = ctrGet s p i :=
  ctrAt_raise_ne h s page b

/-! ## The gating tree -/

/-- The pages below the tree that show their clock lie above the chip pages. -/
theorem rd_showClock (s : State) (n : Nat) (on : Bool) {a : Nat} (ha : a < 0x100000) : rd (showClock s n on) a = rd s a := by
  unfold showClock
  dsimp only
  refine List.foldlRecOn (motive := fun t => rd t a = rd s a) _ _ rfl fun t ht page hpage => ?_
  have hne : a ≠ page + 0x0C := by
    split at hpage
    · obtain ⟨l, hl, hal⟩ := List.mem_flatten.1 hpage
      obtain ⟨g, -, rfl⟩ := List.mem_map.1 hl
      obtain rfl | rfl : page = pLaneGrp g ∨ page = pPattern g := by simpa using hal
      · simp only [pLaneGrp]; omega
      · simp only [pPattern]; omega
    · split at hpage
      · obtain ⟨i, -, rfl⟩ := List.mem_map.1 hpage
        simp only [pLpddr]
        omega
      · exact absurd hpage List.not_mem_nil
  split
  · split
    · rw [rd_fset_ne _ _ _ _ _ _ hne, ht]
    · exact ht
  · rw [rd_fset_ne _ _ _ _ _ _ hne, rd_fset_ne _ _ _ _ _ _ hne, ht]

theorem nodeOn_congr {t : State} {n : Nat} (h : rd t (pClk + 0x50 + 4 * (n / 32)) = rd s (pClk + 0x50 + 4 * (n / 32))) :
    nodeOn t n = nodeOn s n := by
  rw [nodeOn, nodeOn, bit, bit, h]

theorem nodeOn_showClock (s : State) (n : Nat) (on : Bool) {m : Nat} (hm : m < 128) : nodeOn (showClock s n on) m = nodeOn s m :=
  nodeOn_congr (rd_showClock _ _ _ (by simp only [pClk]; omega))

theorem nodeOn_setNode (s : State) (n m : Nat) (v : Bool) : nodeOn (setNode s n v) m = if m = n then v else nodeOn s m := by
  rw [nodeOn, setNode, bit_setBit _ _ _ _ _ _ (Nat.mod_lt _ (by decide))]
  refine if_congr ?_ rfl rfl
  omega

theorem nodeOn_turnOn (s : State) (n : Nat) {m : Nat} (hm : m < 128) : nodeOn (turnOn s n) m = (decide (m = n) || nodeOn s m) := by
  unfold turnOn
  dsimp only
  split
  · next h =>
    by_cases hmn : m = n
    · subst hmn
      simpa using h
    · simp only [hmn, decide_false, Bool.false_or]
      rfl
  · rw [nodeOn_showClock _ _ _ hm, nodeOn_setNode]
    by_cases hmn : m = n
    · simp [hmn]
    · simp only [hmn, if_false, decide_false, Bool.false_or]
      rfl

/-- A node turned on is on, and so is its parent (R369). -/
theorem nodeOn_turnOnChain (s : State) {n m : Nat} (hm : m = n ∨ parentNode n = some m) (hlt : m < 113) :
    nodeOn (turnOnChain s n) m = true := by
  have hm' : m < 128 := by omega
  unfold turnOnChain
  split
  · next hnone =>
    rw [hnone] at hm
    obtain rfl | h := hm
    · simp [nodeOn_turnOn _ _ hm']
    · contradiction
  · next a ha =>
    have hma : m = n ∨ m = a := by
      rw [ha] at hm
      simpa [eq_comm] using hm
    split <;> rcases hma with rfl | rfl <;> simp [nodeOn_turnOn _ _ hm']

theorem nodeOn_gateResult (s : State) (r c n m : Nat) : nodeOn (gateResult s r c n) m = nodeOn s m :=
  nodeOn_congr (rd_wr_ne _ _ _ _ (by omega))

theorem ctrGet_gateResult (s : State) (r c n p i : Nat) : ctrGet (gateResult s r c n) p i = ctrGet s p i :=
  ctrAt_wr s _ _ _
theorem nodeOn_ctrAdd (s : State) (p i k n : Nat) : nodeOn (ctrAdd s p i k) n = nodeOn s n := nodeOn_congr rfl

/-- CLK_GATE_RESULT as a command writes it (Table 18.10). -/
theorem gateResult_fields (s : State) {r c n : Nat} (hr : r < 4) (hc : c < 65536) (hn : n < 256) :
    fget (gateResult s r c n) (pClk + 0x4C) 31 30 = r ∧ fget (gateResult s r c n) (pClk + 0x4C) 23 8 = c := by
  have hword : rd (gateResult s r c n) (pClk + 0x4C) = BitVec.ofNat 32 (r * 2 ^ 30 + c * 256 + n) := rd_wr_same ..
  rw [fget, fget, hword, bitsOf, bitsOf, BitVec.toNat_ofNat, Nat.shiftRight_eq_div_pow, Nat.shiftRight_eq_div_pow]
  omega

theorem clkOn_turnsOn (s : State) {n m : Nat} (hm : m = n ∨ parentNode n = some m) (hlt : m < 113) : nodeOn (clkOn s n) m = true := by
  unfold clkOn
  dsimp only
  rw [nodeOn_gateResult]
  exact nodeOn_turnOnChain s hm hlt

/-- A refused OFF is counted and raises its event; CLK_GATE_RESULT says why, and no node changes (R369). -/
theorem refusedOff_fields (s : State) {r c n : Nat} (hr : r < 4) (hc : c < 65536) (hn : n < 256) :
    let t := raise (gateResult (ctrAdd s pClk 1 1) r c n) pClk 8
    fget t (pClk + 0x4C) 31 30 = r ∧ fget t (pClk + 0x4C) 23 8 = c ∧ ctrGet t pClk 1 = ctrGet s pClk 1 + 1 ∧
      bit t (pClk + 0x10) 8 = true ∧ ∀ m, nodeOn t m = nodeOn s m := by
  intro t
  have hres : rd t (pClk + 0x4C) = rd (gateResult (ctrAdd s pClk 1 1) r c n) (pClk + 0x4C) := rd_raise_ne _ _ _ _ (by decide)
  obtain ⟨hresult, hchild⟩ := gateResult_fields (ctrAdd s pClk 1 1) hr hc hn
  refine ⟨?_, ?_, ?_, ?_, fun m => ?_⟩
  · rw [fget, hres, ← fget, hresult]
  · rw [fget, hres, ← fget, hchild]
  · rw [ctrGet_raise _ _ _ _ _ (by decide), ctrGet_gateResult, ctrGet_ctrAdd_same]
    rfl
  · rw [bit_raise _ _ _ _ _ (by decide), if_pos ⟨rfl, rfl⟩]
  · rw [nodeOn_congr (rd_raise_ne _ _ _ _ (by omega)), nodeOn_gateResult, nodeOn_ctrAdd]

/-! ## The references -/

theorem refInUse_congr {t : State} (h : bit t (pClk + 0x44) 29 = bit s (pClk + 0x44) 29) : refInUse t = refInUse s := h

theorem refOk_setRefOk (s : State) (r r' v : Bool) : refOk (setRefOk s r v) r' = if r' = r then v else refOk s r' := by
  rw [refOk, setRefOk, bit_setBit _ _ _ _ _ _ (by split <;> omega)]
  cases r <;> cases r' <;> simp [refOk]

theorem refInUse_setRefOk (s : State) (r v : Bool) : refInUse (setRefOk s r v) = refInUse s := by
  rw [refInUse, setRefOk, bit_setBit _ _ _ _ _ _ (by split <;> omega), if_neg (by split <;> omega)]
  rfl

theorem refInUse_setCoast (s : State) (n : Nat) (v : Bool) (hn : n < 113) : refInUse (setCoast s n v) = refInUse s := by
  unfold setCoast
  dsimp only
  rw [refInUse, bit_setBit _ _ _ _ _ _ (by decide), if_neg (by omega)]
  have hmap : bit (setBit s (pClk + 0x60 + 4 * (n / 32)) (n % 32) v) (pClk + 0x44) 29 = refInUse s := by
    rw [bit_setBit _ _ _ _ _ _ (Nat.mod_lt _ (by decide)), if_neg (by omega)]
    rfl
  split
  · rw [bit, rd_showClock _ _ _ (by decide)]
    exact hmap
  · exact hmap

theorem loopNodes_lt {n : Nat} (h : n ∈ loopNodes) : n < 113 := by
  have hall : ∀ m ∈ loopNodes, m < 113 := by decide
  exact hall n h

/-- The loops that move run from the reference they moved to (R365). -/
theorem refInUse_moveLoops (s : State) (ref : Bool) : refInUse (moveLoops s ref) = ref := by
  unfold moveLoops
  dsimp only
  generalize hr : (_ ++ _ : List (Nat × Bool)) = ramps
  have hset : refInUse (setBit s (pClk + 0x44) 29 ref) = ref := bit_setBit_same _ _ _ _ (by decide)
  have hcoast : ∀ u : State, refInUse u = ref → refInUse (loopNodes.foldl (fun s n =>
      if bit s (pClk + 0x60 + 4 * (n / 32)) (n % 32) then setCoast s n false else s) u) = ref := by
    intro u hu
    refine List.foldlRecOn (motive := fun t => refInUse t = ref) _ _ hu fun t ht n hn => ?_
    split
    · rw [refInUse_setCoast _ _ _ (loopNodes_lt hn), ht]
    · exact ht
  have hloops := hcoast { setBit s (pClk + 0x44) 29 ref with ramps := ramps } hset
  split
  · exact hloops
  · refine forUp_induction (P := fun t => refInUse t = ref) (fun t c ht => ?_) _ _ _ hloops
    split
    · exact ht
    · exact ht

/-- A select of a good reference that is not in use moves the loops to it (R365). -/
theorem refSelect_good {sel : Bool} (hok : refOk s sel = true) (hne : refInUse s ≠ sel) : refSelect s sel = moveLoops s sel := by
  unfold refSelect
  dsimp only
  rw [if_pos hok, if_pos (by simp [hne])]

end Sys2Proof.Machine

/-! # The commands of page CLK -/
namespace Sys2Proof.Machine

open Sys2Proof

variable {s : State} {who : Requester}

/-- The row of page CLK (Table 20.2). -/
def clkKind : PageKind := ⟨0x07, 0x6000, 1, false, false, 2⟩

theorem pageOf_clk {off : Nat} (h : off < 0x1000) : pageOf (pClk + off) = some (clkKind, pClk) :=
  pageOf_instance (k := clkKind) (i := 0) (by decide) (by decide) h

theorem blockActs_clkCfg (s : State) (who : Requester) (old new v m : Word) :
    blockActs s who none clkKind pClk 0x40 old new v m = if m.getLsbD 0 then refSelect s (v.getLsbD 0) else s := rfl

theorem blockActs_clkGate (s : State) (who : Requester) (old new v m : Word) :
    blockActs s who none clkKind pClk 0x48 old new v m =
      if woVal v m 31 31 == 1 then clkOn s (woVal v m 7 0) else clkOff s (woVal v m 7 0) := rfl

/-- The fields of a word written that the mask covers are those of the value. -/
theorem woVal_of_masked {v m : Word} {hi lo : Nat} (h : ∀ i < hi + 1 - lo, m.getLsbD (lo + i) = true) : woVal v m hi lo = bitsOf v hi lo := by
  apply Nat.eq_of_testBit_eq
  intro i
  rw [woVal, bitsOf_bit, bitsOf_bit, BitVec.getLsbD_and]
  by_cases hi' : i < hi + 1 - lo
  · rw [h i hi', Bool.and_true]
  · simp [hi']

/-- What CLK_GATE says of ON and of the node. -/
theorem woVal_clkGate (on : Bool) {node : Nat} (h : node < 256) :
    woVal (BitVec.ofNat 32 (2147483648 * b2n on + node)) 0x800000FF 31 31 = b2n on ∧
      woVal (BitVec.ofNat 32 (2147483648 * b2n on + node)) 0x800000FF 7 0 = node := by
  rw [woVal_of_masked (by decide), woVal_of_masked (by decide), bitsOf, bitsOf, BitVec.toNat_ofNat, Nat.shiftRight_eq_div_pow,
    Nat.shiftRight_eq_div_pow]
  have hon : b2n on < 2 := by cases on <;> decide
  omega

theorem childInUse_congr {t : State} (h : ∀ a, a ≠ pClk + 0x48 → rd t a = rd s a) (n : Nat) : childInUse t n = childInUse s n := by
  have hport : ∀ g, bit t (pPort (portOfGroup g) + 0x40) 31 = bit s (pPort (portOfGroup g) + 0x40) 31 := fun g => by
    rw [bit, bit, h _ (by simp only [pPort, pClk]; omega)]
  have hnode : ∀ m, nodeOn t m = nodeOn s m := fun m => nodeOn_congr (h _ (by omega))
  have hgroup : ∀ j, bit t (pLpddr 32 + 0x44) j = bit s (pLpddr 32 + 0x44) j := fun j => by rw [bit, bit, h _ (by decide)]
  simp only [childInUse, hport, hnode, hgroup]

theorem exec_refSelectWrite (sel : Bool) (s : State) :
    exec (.refSelectWrite who sel) s = .next (commandWrite who none (pClk + 0x40) (BitVec.ofNat 32 (b2n sel)) 1 s) := rfl

theorem exec_clkGateOn {node : Nat} (h : node < 256) (s : State) : exec (.clkGateOn who node) s =
    .next (commandWrite who none (pClk + 0x48) (BitVec.ofNat 32 (2147483648 + node)) 0x800000FF s) :=
  writeIf_pos (by simpa using h) ..

theorem exec_clkGateOff {node : Nat} (h : node < 256) (s : State) : exec (.clkGateOff who node) s =
    .next (commandWrite who none (pClk + 0x48) (BitVec.ofNat 32 node) 0x800000FF s) :=
  writeIf_pos (by simpa using h) ..

/-- An accepted CLK_GATE command runs `clkOn` or `clkOff` of the state that the write leaves. -/
theorem commandWrite_clkGate {node : Nat} (on : Bool) (hnode : node < 256)
    (hacc : Accepts s who (pClk + 0x48) (BitVec.ofNat 32 (2147483648 * b2n on + node)) 0x800000FF) :
    ∃ regs audit, (∀ a, a ≠ pClk + 0x48 → rd { s with regs := regs, audit := audit } a = rd s a) ∧
      commandWrite who none (pClk + 0x48) (BitVec.ofNat 32 (2147483648 * b2n on + node)) 0x800000FF s =
        if on then clkOn { s with regs := regs, audit := audit } node else clkOff { s with regs := regs, audit := audit } node := by
  obtain ⟨regs, audit, hwritten⟩ :=
    written_frame s who (pClk + 0x48) (BitVec.ofNat 32 (2147483648 * b2n on + node)) 0x800000FF
  obtain ⟨hon, hwoNode⟩ := woVal_clkGate on hnode
  refine ⟨regs, audit, fun a ha => by rw [← hwritten, rd_written_ne _ _ _ _ ha], ?_⟩
  rw [commandWrite_of_accepts hacc, acceptWrite_block none (pageOf_clk (by decide)) (by decide) (by decide) (by decide),
    blockActs_clkGate, hon, hwoNode, hwritten]
  cases on <;> rfl

/-! ## A lost reference -/

theorem linksLost_reported (s : State) : s.faults.reported <+: (linksLost (coastAll s)).faults.reported :=
  (linksLost_keeps 0x8000000000000000#64 _ _ (by decide) (coastAll_keeps _ _ _ (by decide) (Keeps.refl _ _))).reported_prefix

/-- What REF_CLOCK_LOSS reports, and the state it reports it from. -/
def refReported (s : State) (ref : Bool) : State :=
  report (ctrAdd (setRefOk s ref false) pClk 0 1) (mkFault 0x07 0 0x30 1 (b2n ref) 0xFF 0)

/-- Every loop coasts and the links are lost, before the loops move (Table 18.1). -/
def refLost (s : State) (ref : Bool) : State := linksLost (coastAll (refReported s ref))

/-- The loops after the loss of the reference in use (Table 18.1). -/
def refFallen (s : State) (ref : Bool) : State :=
  if refOk (refLost s ref) (!ref) && bit (refLost s ref) (pClk + 0x40) 1 then moveLoops (refLost s ref) (!ref) else refLost s ref

theorem exec_refClockLoss (hlive : live s = true) (ref : Bool) :
    exec (.refClockLoss ref) s = .next (if refInUse s = ref then refFallen s ref else refReported s ref) := by
  show execRefClockLoss ref s = _
  unfold execRefClockLoss
  rw [if_neg (by simp [hlive])]
  dsimp only
  by_cases huse : refInUse s = ref
  · rw [if_neg (by simp [huse]), if_pos huse]
    unfold refFallen refLost refReported
    rfl
  · rw [if_pos (by simp [huse]), if_neg huse, refReported]

theorem refReported_reports (s : State) (ref : Bool) :
    Reports s (refReported s ref) (mkFault 0x07 0 0x30 1 (b2n ref) 0xFF 0) := by
  have hkept : Keeps 0x8000000000000000#64 s (ctrAdd (setRefOk s ref false) pClk 0 1) :=
    ctrAdd_keeps _ _ _ _ _ _ (by decide) (setBit_keeps _ s s _ _ _ (by decide) (Keeps.refl _ _))
  rw [refReported]
  exact .of_prefix hkept.reported_prefix (reports_report _ _)

theorem refFallen_reported (s : State) (ref : Bool) :
    (refReported s ref).faults.reported <+: (refFallen s ref).faults.reported := by
  have hlost : (refReported s ref).faults.reported <+: (refLost s ref).faults.reported := linksLost_reported _
  have hmoved := (moveLoops_keeps 0x8000000000000000#64 _ _ (!ref) (by decide) (Keeps.refl _ (refLost s ref))).reported_prefix
  unfold refFallen
  split
  · exact hlost.trans hmoved
  · exact hlost

theorem rd_refReported {a : Nat} (s : State) (ref : Bool) (ha : a ≠ pClk + 0x18) :
    rd (refReported s ref) a = rd (setRefOk s ref false) a := by
  refine rd_report fun p hp => ?_
  have hpage : p = pClk := by
    have hsource : pageOfSource 0x07 0 = some p := hp
    exact (Option.some.inj (hsource.symm.trans (by decide)))
  rw [hpage]
  exact ha

theorem refReported_fields (s : State) (ref : Bool) :
    refOk (refReported s ref) ref = false ∧ ctrGet (refReported s ref) pClk 0 = ctrGet s pClk 0 + 1 ∧
      (refReported s ref).ports = s.ports := by
  refine ⟨?_, ?_, ?_⟩
  · have hok : refOk (setRefOk s ref false) ref = false := by rw [refOk_setRefOk, if_pos rfl]
    rw [refOk, bit, rd_refReported _ _ (by decide)]
    exact hok
  · rw [ctrGet_eq_ctrAt, refReported, ctrAt_report, ← ctrGet_eq_ctrAt, ctrGet_ctrAdd_same]
    rfl
  · exact (report_keeps 0x400#64 _ _ _ (by decide) (ctrAdd_keeps _ _ _ _ _ _ (by decide)
      (setBit_keeps _ s s _ _ _ (by decide) (Keeps.refl _ _)))).same .ports (by decide)

theorem exec_refClockReturn (hlive : live s = true) (ref : Bool) :
    exec (.refClockReturn ref) s = .next (setRefOk s ref true) := if_neg (by simp [hlive])

/-- A good reserve oscillator takes both clocks; TIME is unlocked and the fallback reported (R366). -/
theorem exec_clockFallback (hlive : live s = true) (hnot : bit s (pClk + 0x44) 28 = false) : exec (.clockFallback true) s =
    .next (report (unlockTime (setBit s (pClk + 0x44) 28 true)) (mkFault 0x07 0 0x32 1 0 0xFF 0)) := by
  show execClockFallback true s = _
  rw [execClockFallback, if_neg (by simp [hlive]), if_neg (by decide), if_neg (by simp [hnot])]

theorem clockFallback_fields (s : State) :
    let t := report (unlockTime (setBit s (pClk + 0x44) 28 true)) (mkFault 0x07 0 0x32 1 0 0xFF 0)
    bit t (pClk + 0x44) 28 = true ∧ Reports s t (mkFault 0x07 0 0x32 1 0 0xFF 0) := by
  refine ⟨?_, ?_⟩
  · rw [bit, rd_report, unlockTime, rd_raise_ne _ _ _ _ (by decide), rd_wr_ne _ _ _ _ (by decide), ← bit,
      bit_setBit_same _ _ _ _ (by decide)]
    intro p hp
    have hsource : pageOfSource 0x07 0 = some p := hp
    rw [← Option.some.inj ((show pageOfSource 0x07 0 = some pClk by decide).symm.trans hsource)]
    decide
  · refine Reports.of_prefix ?_ (reports_report _ _)
    exact (unlockTime_keeps 0x8000000000000000#64 _ _ (by decide) (setBit_keeps _ s s _ _ _ (by decide) (Keeps.refl _ _))).reported_prefix

/-! ## The end of a ramp -/

/-- The state at the end of a ramp, before CLK_GATE_RESULT is settled (R367). -/
def rampEnded (s : State) (node : Nat) (on : Bool) : State :=
  let s := { s with ramps := s.ramps.filter fun x => x.1 != node }
  if on then s else showClock (setNode s node false) node false

theorem exec_dividerRampEnd {node : Nat} {on : Bool} (h : (s.ramps.find? fun r => r.1 == node) = some (node, on)) :
    ∃ b : Bool, exec (.dividerRampEnd node) s =
      .next (if b then fset (rampEnded s node on) (pClk + 0x4C) 31 30 0 else rampEnded s node on) := by
  show ∃ b : Bool, execDividerRampEnd node s = _
  rw [execDividerRampEnd, h]
  exact ⟨_, rfl⟩

theorem rampEnded_fields (s : State) {node : Nat} (on : Bool) (hnode : node < 128) :
    (∀ r ∈ (rampEnded s node on).ramps, r.1 ≠ node) ∧ (on = false → nodeOn (rampEnded s node on) node = false) := by
  cases on with
  | true =>
    refine ⟨fun r hr => ?_, fun h => by contradiction⟩
    have hmem : r ∈ s.ramps.filter fun x => x.1 != node := hr
    simpa using (List.mem_filter.1 hmem).2
  | false =>
    refine ⟨fun r hr => ?_, fun _ => ?_⟩
    · have hkept : (rampEnded s node false).ramps = s.ramps.filter fun x => x.1 != node :=
        (showClock_keeps 0x200#64 _ _ node false (by decide) (Keeps.refl _ _)).same .ramps (by decide)
      rw [hkept] at hr
      simpa using (List.mem_filter.1 hr).2
    · show nodeOn (showClock _ node false) node = false
      rw [nodeOn_showClock _ _ _ hnode, nodeOn_setNode, if_pos rfl]

/-- Settles O4: `refSelect`, `clkOn` and `clkOff` run from the state that the write leaves, which differs from `s` in one word
only; a lost reference is reported before anything else happens. -/
theorem clocksFollowTheirRules : Obligations.ClocksFollowTheirRules := by
  unfold Obligations.ClocksFollowTheirRules
  intro s
  refine ⟨fun hlive ref => ⟨?_, fun huse => ?_, ?_⟩, fun hlive hnot => ?_, fun who sel hacc hok huse => ?_,
    fun who node hnode hacc n hn hlt => ?_, fun who node hnode hacc => ?_, fun node on hnode hfind => ?_⟩
  · refine ⟨_, exec_refClockLoss hlive ref, ?_⟩
    show Reports _ (if _ then _ else _) _
    split
    · exact (refReported_reports s ref).trans_prefix (refFallen_reported s ref)
    · exact refReported_reports s ref
  · exact ⟨_, (exec_refClockLoss hlive ref).trans (congrArg Host.Outcome.next (if_neg huse)), refReported_fields s ref⟩
  · refine ⟨_, exec_refClockReturn hlive ref, ?_, refInUse_setRefOk ..⟩
    rw [refOk_setRefOk, if_pos rfl]
  · exact ⟨_, exec_clockFallback hlive hnot, clockFallback_fields s⟩
  · obtain ⟨regs, audit, hwritten⟩ := written_frame s who (pClk + 0x40) (BitVec.ofNat 32 (b2n sel)) 1
    have hne : ∀ b, bit (written s who (pClk + 0x40) (BitVec.ofNat 32 (b2n sel)) 1) (pClk + 0x44) b = bit s (pClk + 0x44) b :=
      fun b => by rw [bit, rd_written_ne _ _ _ _ (by decide)]; rfl
    have hvalue : (BitVec.ofNat 32 (b2n sel)).getLsbD 0 = sel := by cases sel <;> decide
    have hmoves : commandWrite who none (pClk + 0x40) (BitVec.ofNat 32 (b2n sel)) 1 s =
        moveLoops (written s who (pClk + 0x40) (BitVec.ofNat 32 (b2n sel)) 1) sel := by
      rw [commandWrite_of_accepts hacc, acceptWrite_block none (pageOf_clk (by decide)) (by decide) (by decide) (by decide),
        blockActs_clkCfg, if_pos (by decide), hvalue]
      exact refSelect_good ((hne _).trans hok) (by rw [refInUse, hne]; exact huse)
    refine ⟨_, exec_refSelectWrite sel s, ?_⟩
    rw [hmoves]
    refine ⟨refInUse_moveLoops _ _, ?_⟩
    rw [show (moveLoops _ sel).phase = _ from congrArg Prod.fst
      ((moveLoops_keeps 0x80#64 _ _ sel (by decide) (Keeps.refl _ _)).same .phase (by decide)), hwritten]
  · obtain ⟨regs, audit, -, hwrite⟩ := commandWrite_clkGate true hnode hacc
    refine ⟨_, exec_clkGateOn hnode s, ?_⟩
    exact (congrArg (nodeOn · n) hwrite).trans (clkOn_turnsOn _ hn hlt)
  · have hacc' : Accepts s who (pClk + 0x48) (BitVec.ofNat 32 (2147483648 * b2n false + node)) 0x800000FF := by
      simpa [b2n] using hacc
    obtain ⟨regs, audit, hrd, hwrite⟩ := commandWrite_clkGate false hnode hacc'
    have hexec : exec (.clkGateOff who node) s = .next (clkOff { s with regs := regs, audit := audit } node) := by
      have hvalue : 2147483648 * b2n false + node = node := by simp [b2n]
      rw [hvalue] at hwrite
      rw [exec_clkGateOff hnode, hwrite, if_neg (by decide)]
    refine ⟨fun hnever => ?_, fun hnever c hchild hc => ?_, fun hnever hchild hon => ?_⟩
    · obtain ⟨hresult, -, hctr, hevent, -⟩ :=
        refusedOff_fields { s with regs := regs, audit := audit } (r := 2) (c := 0) (by decide) (by decide) hnode
      rw [clkOff, if_pos hnever] at hexec
      exact ⟨_, hexec, hresult, hctr, hevent⟩
    · obtain ⟨hresult, hcause, -, -, hnodes⟩ :=
        refusedOff_fields { s with regs := regs, audit := audit } (r := 1) (c := c) (by decide) hc hnode
      rw [clkOff, if_neg (by simp [hnever]), childInUse_congr hrd, hchild] at hexec
      exact ⟨_, hexec, hresult, hcause, (hnodes node).trans (nodeOn_congr (hrd _ (by omega)))⟩
    · have hnodeOn : nodeOn { s with regs := regs, audit := audit } node = true :=
        (nodeOn_congr (s := s) (hrd _ (by omega))).trans hon
      rw [clkOff, if_neg (by simp [hnever]), childInUse_congr hrd, hchild] at hexec
      dsimp only at hexec
      rw [if_pos hnodeOn] at hexec
      exact ⟨_, hexec, (gateResult_fields _ (by decide) (by decide) hnode).1, List.mem_append_right _ (List.mem_singleton_self _)⟩
  · obtain ⟨b, hexec⟩ := exec_dividerRampEnd hfind
    obtain ⟨hramps, hnodeOff⟩ := rampEnded_fields s on hnode
    refine ⟨_, hexec, ?_, fun hoff => ?_⟩
    · cases b <;> exact hramps
    · cases b with
      | false => exact hnodeOff hoff
      | true => exact (nodeOn_congr (rd_fset_ne _ _ _ _ _ _ (by omega))).trans (hnodeOff hoff)

end Sys2Proof.Machine

/-! # Pace, power and temperature -/
namespace Sys2Proof.Machine

open Sys2Proof

variable {s : State}

/-! ## What a register write leaves, for any address -/

theorem ctrGet_wr (s : State) (a : Nat) (w : Word) (p i : Nat) : ctrGet (wr s a w) p i = ctrGet s p i := rfl
theorem ctrGet_fset (s : State) (a hi lo v p i : Nat) : ctrGet (fset s a hi lo v) p i = ctrGet s p i := rfl
theorem ctrGet_setBit (s : State) (a b : Nat) (v : Bool) (p i : Nat) : ctrGet (setBit s a b v) p i = ctrGet s p i := rfl
theorem rd_ctrAdd (s : State) (p i n a : Nat) : rd (ctrAdd s p i n) a = rd s a := rfl
theorem rd_emit (s : State) (o : Output) (a : Nat) : rd (emit s o) a = rd s a := rfl
theorem wr_pace (s : State) (a : Nat) (w : Word) : (wr s a w).pace = s.pace := rfl

/-! ## The lowest pace (R370) -/

/-- The lower of the best rate so far and a monitor's. -/
def paceLower (best : Option (Nat × Nat)) (e : Nat × Option Nat) : Option (Nat × Nat) :=
  match e.2, best with
  | none, _ => best
  | some r, none => some (e.1, r)
  | some r, some b => if r < b.2 then some (e.1, r) else best

theorem lowestPace_eq (s : State) : lowestPace s = s.pace.foldl paceLower none := rfl

/-- At most `r`: a rate has been reported, and the lowest does not exceed `r`. -/
def PaceAtMost (best : Option (Nat × Nat)) (r : Nat) : Prop := ∃ b, best = some b ∧ b.2 ≤ r

theorem paceLower_keeps {best : Option (Nat × Nat)} {r : Nat} (h : PaceAtMost best r) (e : Nat × Option Nat) :
    PaceAtMost (paceLower best e) r := by
  obtain ⟨b, rfl, hb⟩ := h
  obtain ⟨m, x⟩ := e
  cases x with
  | none => exact ⟨b, rfl, hb⟩
  | some x =>
    by_cases hx : x < b.2
    · exact ⟨(m, x), if_pos hx, Nat.le_trans (Nat.le_of_lt hx) hb⟩
    · exact ⟨b, if_neg hx, hb⟩

theorem paceLower_takes (best : Option (Nat × Nat)) (m r : Nat) : PaceAtMost (paceLower best (m, some r)) r := by
  cases best with
  | none => exact ⟨(m, r), rfl, Nat.le_refl _⟩
  | some b =>
    by_cases hx : r < b.2
    · exact ⟨(m, r), if_pos hx, Nat.le_refl _⟩
    · exact ⟨b, if_neg hx, Nat.le_of_not_lt hx⟩

theorem foldl_paceLower_keeps {r : Nat} (l : List (Nat × Option Nat)) {best : Option (Nat × Nat)} (h : PaceAtMost best r) :
    PaceAtMost (l.foldl paceLower best) r :=
  List.foldlRecOn (motive := fun b => PaceAtMost b r) _ _ h fun _ hb e _ => paceLower_keeps hb e

theorem foldl_paceLower_le {m r : Nat} : ∀ (l : List (Nat × Option Nat)) (best : Option (Nat × Nat)), (m, some r) ∈ l →
    PaceAtMost (l.foldl paceLower best) r
  | e :: l, best, h => by
    rcases List.mem_cons.1 h with rfl | h
    · exact foldl_paceLower_keeps l (paceLower_takes best m r)
    · exact foldl_paceLower_le l _ h

/-- The state with a monitor's rate noted, before PWR_PACE_MIN is written. -/
def paceNoted (s : State) (monitor rate : Nat) : State :=
  let s := { s with pace := Sparse.set (fun _ => none) s.pace monitor (some (Nat.min rate 65535)) }
  if 16 ≤ monitor && monitor < 25 then s else fset s (pPwr + 0x80 + 4 * monitor) 15 0 (Nat.min rate 65535)

theorem paceNoted_pace (s : State) (monitor rate : Nat) :
    (paceNoted s monitor rate).pace = Sparse.set (fun _ => none) s.pace monitor (some (Nat.min rate 65535)) := by
  unfold paceNoted
  dsimp only
  split <;> rfl

theorem paceSample_lowest (hlive : live s = true) {monitor : Nat} (hmonitor : monitor < 40) (rate : Nat) :
    Runs (.paceSample monitor rate) s fun t => Sparse.get (fun _ => none) t.pace monitor = some (Nat.min rate 65535) ∧
      ∃ b, lowestPace t = some b ∧ rd t (pPwr + 0x48) = BitVec.ofNat 32 (b.1 * 16777216 + b.2) ∧
        ∀ m r, (m, some r) ∈ t.pace → b.2 ≤ r := by
  have hget : Sparse.get (fun _ => none) (paceNoted s monitor rate).pace monitor = some (Nat.min rate 65535) := by
    rw [paceNoted_pace, Sparse.get_set, if_pos rfl]
  have hlisted := Sparse.mem_of_get (hget.trans_ne (Option.some_ne_none _))
  rw [hget] at hlisted
  obtain ⟨b, hb, -⟩ := foldl_paceLower_le _ none hlisted
  have hlow : lowestPace (paceNoted s monitor rate) = some b := hb
  refine ⟨wr (paceNoted s monitor rate) (pPwr + 0x48) (BitVec.ofNat 32 (b.1 * 2 ^ 24 + b.2)), ?_, ?_, b, ?_, rd_wr_same ..,
    fun m r hmem => ?_⟩
  · show execPaceSample monitor rate s = _
    have hexec : execPaceSample monitor rate s = match lowestPace (paceNoted s monitor rate) with
        | none => .next (wr (paceNoted s monitor rate) (pPwr + 0x48) 0)
        | some b => .next (wr (paceNoted s monitor rate) (pPwr + 0x48) (BitVec.ofNat 32 (b.1 * 2 ^ 24 + b.2))) := by
      rw [execPaceSample, if_neg (by simp [hlive, hmonitor])]
      rfl
    rw [hexec, hlow]
  · rw [wr_pace, hget]
  · rw [lowestPace_eq, wr_pace, ← lowestPace_eq, hlow]
  · rw [wr_pace] at hmem
    obtain ⟨b', hb', hle⟩ := foldl_paceLower_le _ none hmem
    have hsame : some b' = some b := hb'.symm.trans hlow
    rw [← Option.some.inj hsame]
    exact hle

/-! ## The hottest sensor -/

/-- The index of the larger of two values; the first on a tie. -/
def hotter (f : Nat → Nat) (b i : Nat) : Nat := if f b < f i then i else b

theorem foldl_hotter (f : Nat → Nat) : ∀ (l : List Nat) (b : Nat), (l.foldl (hotter f) b = b ∨ l.foldl (hotter f) b ∈ l) ∧
    f b ≤ f (l.foldl (hotter f) b) ∧ ∀ i ∈ l, f i ≤ f (l.foldl (hotter f) b)
  | [], b => ⟨.inl rfl, Nat.le_refl _, fun _ h => absurd h List.not_mem_nil⟩
  | i :: l, b => by
    obtain ⟨hmem, hstart, hall⟩ := foldl_hotter f l (hotter f b i)
    have hb : f b ≤ f (hotter f b i) ∧ f i ≤ f (hotter f b i) := by
      unfold hotter
      split <;> omega
    refine ⟨?_, Nat.le_trans hb.1 hstart, fun j hj => ?_⟩
    · rcases hmem with h | h
      · rw [List.foldl_cons, h]
        unfold hotter
        split
        · exact .inr List.mem_cons_self
        · exact .inl rfl
      · exact .inr (List.mem_cons_of_mem _ h)
    · rcases List.mem_cons.1 hj with rfl | hj
      · exact Nat.le_trans hb.2 hstart
      · exact hall j hj

/-- The hottest of the 17 sensors (R371). -/
def hottest (tj : List Nat) : Nat := (List.range 17).foldl (hotter fun i => tj.getD i 0) 0

theorem hottest_over {tj : List Nat} {limit : Nat} : limit < tj.getD (hottest tj) 0 ↔ ∃ i, i < 17 ∧ limit < tj.getD i 0 := by
  obtain ⟨hmem, -, hall⟩ := foldl_hotter (fun i => tj.getD i 0) (List.range 17) 0
  refine ⟨fun h => ⟨hottest tj, ?_, h⟩, fun ⟨i, hi, h⟩ => Nat.lt_of_lt_of_le h (hall i (List.mem_range.2 hi))⟩
  rcases hmem with h0 | hmem
  · rw [hottest, h0]
    decide
  · exact List.mem_range.1 hmem

/-! ## The power control tick (R371) -/

/-- PWR_RAIL and THERM_SENSOR show what was read. -/
def tickSensed (s : State) (railDw railMv tj : List Nat) : State :=
  let s := forUp (fun s r =>
    fset (fset s (pPwr + 0xC0 + 4 * r) 30 16 (railDw.getD r 0)) (pPwr + 0xC0 + 4 * r) 15 0 (railMv.getD r 0)) 9 0 s
  forUp (fun s i => fset s (pTherm + 0x80 + 4 * i) 7 0 (tj.getD i 0)) 17 0 s

/-- THERM_STATUS shows the hottest sensor and OVER. -/
def tempShown (s : State) (hot tmax : Nat) : State :=
  let s := fset (fset s (pTherm + 0x44) 31 24 tmax) (pTherm + 0x44) 23 16 hot
  let isOver := decide (105 < tmax)
  let wasOver := bit s (pTherm + 0x44) 0
  let s := setBit s (pTherm + 0x44) 0 isOver
  if isOver && !wasOver then raise s pTherm 8 else s

/-- PWR_STATUS shows the power, which is added to the energy counter. -/
def wattsShown (s : State) (watts : Nat) : State := ctrAdd (fset s (pPwr + 0x44) 15 0 watts) pPwr 1 watts

/-- THROTTLE and CAP_UNMET, with the event of the second. -/
def throttleBits (s : State) (down unmet : Bool) : State :=
  let wasUnmet := bit s (pPwr + 0x44) 22
  let s := setBit (setBit s (pPwr + 0x44) 23 down) (pPwr + 0x44) 22 unmet
  if unmet && !wasUnmet then raise s pPwr 8 else s

/-- THROTTLE and CAP_UNMET shown, and the time under THROTTLE counted. -/
def throttleShown (s : State) (down unmet : Bool) : State :=
  if down then ctrAdd (throttleBits s down unmet) pPwr 0 1000 else throttleBits s down unmet

/-- The next VCORE: ten steps down, one step up, or as it is, within VMAX. -/
def nextVcore (v vmax : Nat) (down up : Bool) : Nat :=
  if down then Nat.min (v - 10) vmax else if up then Nat.min (v + 1) vmax else Nat.min v vmax

def totalWatts (railDw : List Nat) : Nat := ((List.range 9).map fun r => railDw.getD r 0).sum / 10

/-- The state of the tick once power and temperature are shown. -/
def tickShown (s : State) (railDw railMv tj : List Nat) : State :=
  wattsShown (tempShown (tickSensed s railDw railMv tj) (hottest tj) (tj.getD (hottest tj) 0)) (totalWatts railDw)

theorem exec_powerControlTick (hlive : live s = true) (railDw railMv tj : List Nat) :
    let u := tickShown s railDw railMv tj
    let cap := fdef u (pPwr + 0x40) 15 0 1700
    let down := decide (cap < totalWatts railDw) || decide (fdef u (pTherm + 0x40) 7 0 100 < tj.getD (hottest tj) 0)
    ∃ unmet up, exec (.powerControlTick railDw railMv tj) s = .next (setVcore (throttleShown u down unmet)
      (nextVcore (fget u (pPwr + 0x44) 31 24) (fdef u (pPwr + 0x40) 23 16 30) down up)) := by
  show ∃ unmet up, execPowerControlTick railDw railMv tj s = _
  unfold execPowerControlTick
  rw [if_neg (by simp [hlive])]
  exact ⟨_, _, rfl⟩

theorem tickSensed_kept (s : State) (railDw railMv tj : List Nat) :
    rd (tickSensed s railDw railMv tj) (pPwr + 0x40) = rd s (pPwr + 0x40) ∧ (tickSensed s railDw railMv tj).ctrs = s.ctrs := by
  unfold tickSensed
  dsimp only
  have hfset : ∀ (t : State) (a hi lo v : Nat), a ≠ pPwr + 0x40 → (rd t (pPwr + 0x40) = rd s (pPwr + 0x40) ∧ t.ctrs = s.ctrs) →
      rd (fset t a hi lo v) (pPwr + 0x40) = rd s (pPwr + 0x40) ∧ (fset t a hi lo v).ctrs = s.ctrs :=
    fun t a hi lo v ha ht => ⟨(rd_fset_ne _ _ _ _ _ _ ha.symm).trans ht.1, ht.2⟩
  refine forUp_induction (P := fun t => rd t (pPwr + 0x40) = rd s (pPwr + 0x40) ∧ t.ctrs = s.ctrs) (fun t i ht => ?_) _ _ _
    (forUp_induction (P := fun t => rd t (pPwr + 0x40) = rd s (pPwr + 0x40) ∧ t.ctrs = s.ctrs) (fun t r ht => ?_) _ _ _ ⟨rfl, rfl⟩)
  · exact hfset _ _ _ _ _ (by simp only [pTherm, pPwr]; omega) ht
  · exact hfset _ _ _ _ _ (by omega) (hfset _ _ _ _ _ (by omega) ht)

theorem rd_tempShown (s : State) (hot tmax : Nat) {a : Nat} (ha : a ≠ pTherm + 0x44 ∧ a ≠ pTherm + 0x10) :
    rd (tempShown s hot tmax) a = rd s a := by
  unfold tempShown
  dsimp only
  split
  · rw [rd_raise_ne _ _ _ _ ha.2, rd_setBit_ne _ _ _ _ _ ha.1, rd_fset_ne _ _ _ _ _ _ ha.1, rd_fset_ne _ _ _ _ _ _ ha.1]
  · rw [rd_setBit_ne _ _ _ _ _ ha.1, rd_fset_ne _ _ _ _ _ _ ha.1, rd_fset_ne _ _ _ _ _ _ ha.1]

theorem over_tempShown (s : State) (hot tmax : Nat) : bit (tempShown s hot tmax) (pTherm + 0x44) 0 = decide (105 < tmax) := by
  unfold tempShown
  dsimp only
  split
  · rw [bit_raise _ _ _ _ _ (by decide), if_neg (by decide), bit_setBit_same _ _ _ _ (by decide)]
  · exact bit_setBit_same _ _ _ _ (by decide)

theorem ctrGet_tempShown (s : State) (hot tmax : Nat) : ctrGet (tempShown s hot tmax) pPwr 0 = ctrGet s pPwr 0 := by
  unfold tempShown
  dsimp only
  split
  · rw [ctrGet_raise _ _ _ _ _ (by decide), ctrGet_setBit, ctrGet_fset, ctrGet_fset]
  · rw [ctrGet_setBit, ctrGet_fset, ctrGet_fset]

theorem rd_wattsShown (s : State) (watts : Nat) {a : Nat} (ha : a ≠ pPwr + 0x44) : rd (wattsShown s watts) a = rd s a :=
  rd_fset_ne _ _ _ _ _ _ ha

theorem ctrGet_wattsShown (s : State) (watts : Nat) : ctrGet (wattsShown s watts) pPwr 0 = ctrGet s pPwr 0 :=
  (ctrAt_ctrAdd_ne _ _ (by decide)).trans (ctrAt_wr _ _ _ _)

/-- What the tick has shown before VCORE is settled: OVER, and the limits and the throttle time as they were. -/
theorem tickShown_fields (s : State) (railDw railMv tj : List Nat) :
    bit (tickShown s railDw railMv tj) (pTherm + 0x44) 0 = decide (105 < tj.getD (hottest tj) 0) ∧
      rd (tickShown s railDw railMv tj) (pPwr + 0x40) = rd s (pPwr + 0x40) ∧
      ctrGet (tickShown s railDw railMv tj) pPwr 0 = ctrGet s pPwr 0 := by
  obtain ⟨hrd, hctrs⟩ := tickSensed_kept s railDw railMv tj
  refine ⟨?_, ?_, ?_⟩
  · rw [tickShown, bit, rd_wattsShown _ _ (by decide), ← bit, over_tempShown]
  · rw [tickShown, rd_wattsShown _ _ (by decide), rd_tempShown _ _ _ (by decide), hrd]
  · rw [tickShown, ctrGet_wattsShown, ctrGet_tempShown, ctrGet_congr hctrs]

theorem rd_throttleBits (s : State) (down unmet : Bool) {a : Nat} (ha : a ≠ pPwr + 0x44 ∧ a ≠ pPwr + 0x10) :
    rd (throttleBits s down unmet) a = rd s a := by
  unfold throttleBits
  dsimp only
  split
  · rw [rd_raise_ne _ _ _ _ ha.2, rd_setBit_ne _ _ _ _ _ ha.1, rd_setBit_ne _ _ _ _ _ ha.1]
  · rw [rd_setBit_ne _ _ _ _ _ ha.1, rd_setBit_ne _ _ _ _ _ ha.1]

theorem throttleBits_fields (s : State) (down unmet : Bool) : bit (throttleBits s down unmet) (pPwr + 0x44) 23 = down ∧
    ctrGet (throttleBits s down unmet) pPwr 0 = ctrGet s pPwr 0 := by
  have hset : bit (setBit (setBit s (pPwr + 0x44) 23 down) (pPwr + 0x44) 22 unmet) (pPwr + 0x44) 23 = down := by
    rw [bit_setBit _ _ _ _ _ _ (by decide), if_neg (by decide), bit_setBit_same _ _ _ _ (by decide)]
  unfold throttleBits
  dsimp only
  split
  · rw [bit_raise _ _ _ _ _ (by decide), if_neg (by decide), hset, ctrGet_raise _ _ _ _ _ (by decide), ctrGet_setBit, ctrGet_setBit]
    exact ⟨rfl, rfl⟩
  · rw [hset, ctrGet_setBit, ctrGet_setBit]
    exact ⟨rfl, rfl⟩

theorem rd_throttleShown (s : State) (down unmet : Bool) {a : Nat} (ha : a ≠ pPwr + 0x44 ∧ a ≠ pPwr + 0x10) :
    rd (throttleShown s down unmet) a = rd s a := by
  unfold throttleShown
  split
  · rw [rd_ctrAdd, rd_throttleBits _ _ _ ha]
  · exact rd_throttleBits _ _ _ ha

theorem throttleShown_down (s : State) (unmet : Bool) : bit (throttleShown s true unmet) (pPwr + 0x44) 23 = true ∧
    ctrGet (throttleShown s true unmet) pPwr 0 = ctrGet s pPwr 0 + 1000 := by
  obtain ⟨hbit, hctr⟩ := throttleBits_fields s true unmet
  rw [throttleShown, if_pos rfl, bit, rd_ctrAdd, ← bit, hbit, ctrGet_ctrAdd_same, hctr]
  exact ⟨rfl, rfl⟩

theorem rd_setVcore (s : State) (v : Nat) {a : Nat} (ha : a ≠ pPwr + 0x44) : rd (setVcore s v) a = rd s a := by
  unfold setVcore
  split
  · rfl
  · exact rd_fset_ne _ _ _ _ _ _ ha

/-- VCORE is what it is set to, as far as its field holds it; nothing else of the page or the counters changes. -/
theorem setVcore_fields (s : State) (v : Nat) : fget (setVcore s v) (pPwr + 0x44) 31 24 ≤ v ∧
    bit (setVcore s v) (pPwr + 0x44) 23 = bit s (pPwr + 0x44) 23 ∧ (setVcore s v).ctrs = s.ctrs := by
  unfold setVcore
  split
  · next h => exact ⟨Nat.le_of_eq (by simpa using h), rfl, rfl⟩
  · refine ⟨?_, ?_, rfl⟩
    · show fget (fset s (pPwr + 0x44) 31 24 v) (pPwr + 0x44) 31 24 ≤ v
      rw [fget_fset_mod _ _ _ _ _ (by decide) (by decide)]
      exact Nat.mod_le _ _
    · show bit (fset s (pPwr + 0x44) 31 24 v) (pPwr + 0x44) 23 = _
      rw [bit_fset _ _ _ _ _ _ _ (by decide) (by decide), if_neg (by decide)]

theorem nextVcore_le (v vmax : Nat) (down up : Bool) : nextVcore v vmax down up ≤ vmax := by
  unfold nextVcore
  split
  · exact Nat.min_le_right _ _
  · split
    · exact Nat.min_le_right _ _
    · exact Nat.min_le_right _ _

/-! ## Alerts -/

theorem forUp_out {f : State → Nat → State} {o : Nat → Output} (hf : ∀ t i, f t i = emit t (o i)) (n first : Nat) (s : State) :
    s.out <+: (forUp f n first s).out :=
  forUp_induction (P := fun t => s.out <+: t.out) (fun t i ht => by
    rw [hf]
    exact ht.trans (List.prefix_append _ _)) _ _ _ List.prefix_rfl

theorem forUp_emits {f : State → Nat → State} {o : Nat → Output} (hf : ∀ t i, f t i = emit t (o i)) {n first r : Nat} {s : State}
    (hle : first ≤ r) (hlt : r < first + n) : Emits s (forUp f n first s) (o r) := by
  induction n generalizing first s with
  | zero => omega
  | succ n ih =>
    have hfirst : Emits s (f s first) (o first) := by
      rw [hf]
      exact emits_emit _ _
    by_cases hr : r = first
    · rw [hr]
      exact hfirst.later (forUp_out hf n (first + 1) (f s first))
    · refine Emits.before ?_ (ih (first := first + 1) (s := f s first) (by omega) (by omega))
      rw [hf]
      exact List.prefix_append _ _

/-- Settles O5: the tick shows what was sensed, then THROTTLE, then settles VCORE, and no later stage undoes an earlier one. -/
theorem powerIsWatched : Obligations.PowerIsWatched := by
  unfold Obligations.PowerIsWatched
  intro s hlive
  refine ⟨fun monitor rate hmonitor => paceSample_lowest hlive hmonitor rate, fun railDw railMv tj => ?_, ?_⟩
  · obtain ⟨unmet, up, hexec⟩ := exec_powerControlTick hlive railDw railMv tj
    obtain ⟨hover, hlimits, hctr⟩ := tickShown_fields s railDw railMv tj
    have hfdef : ∀ hi lo d, fdef (tickShown s railDw railMv tj) (pPwr + 0x40) hi lo d = fdef s (pPwr + 0x40) hi lo d :=
      fun hi lo d => by rw [fdef, fdef, fget, fget, hlimits]
    rw [hfdef, hfdef] at hexec
    refine ⟨_, hexec, ?_, ?_, fun hcap => ?_⟩
    · rw [bit, rd_setVcore _ _ (by decide), rd_throttleShown _ _ _ (by decide), ← bit, hover, decide_eq_true_iff]
      exact hottest_over
    · exact Nat.le_trans (setVcore_fields _ _).1 (nextVcore_le _ _ _ _)
    · have hdown : decide (fdef s (pPwr + 0x40) 15 0 1700 < totalWatts railDw) = true := decide_eq_true hcap
      rw [hdown, Bool.true_or]
      obtain ⟨hbit, htime⟩ := throttleShown_down (tickShown s railDw railMv tj) unmet
      obtain ⟨-, hsame, hctrs⟩ := setVcore_fields (throttleShown (tickShown s railDw railMv tj) true unmet)
        (nextVcore (fget (tickShown s railDw railMv tj) (pPwr + 0x44) 31 24) (fdef s (pPwr + 0x40) 23 16 30) true up)
      exact ⟨hsame.trans hbit, (ctrGet_congr hctrs _ _).trans (htime.trans (by rw [hctr]))⟩
  · exact ⟨_, (show exec .pmbusAlert s = _ from if_neg (by simp [hlive])), fun r h1 h8 =>
      forUp_emits (o := fun r => .pmbus r 0x79 0) (fun _ _ => rfl) h1 (by omega)⟩

end Sys2Proof.Machine

/-! # What the sending of packets leaves of training and of the stitches (R72, R75, R264, R274)

Whatever is stored, queued, sent or dropped, the words of the ports and of the stitches stay, but for events, reports, swath numbers
and widths; no port's training moves, and no stitch counts an opening. -/
namespace Sys2Proof.Machine

open Sys2Proof

/-! ## The relation -/

/-- A word of a chip page, a port, a lane group or a stitch, or the ENABLE word of a page, that is neither EVT_STATUS, FLT_ROUTE, a
swath number nor a link's width, and not of page SWATH. -/
def CalmWord (a : Nat) : Prop :=
  a < 0x1000000 ∧ (a < 0x400000 ∨ a % 4096 = 0x08) ∧ a % 4096 ≠ 0x10 ∧ a % 4096 ≠ 0x18 ∧ a % 4096 ≠ 0x24 ∧ a % 4096 ≠ 0x60 ∧
    (a < pSwath ∨ pSwath + 4096 ≤ a)

/-- What a port keeps of its training and of its partner's identity. -/
structure SameTraining (x y : PortSt) : Prop where
  signal : y.signal = x.signal
  halfReq : y.halfReq = x.halfReq
  waitRestart : y.waitRestart = x.waitRestart
  identGot : y.identGot = x.identGot
  identAcked : y.identAcked = x.identAcked
  identMajor : y.identMajor = x.identMajor
  inner : y.inner = x.inner

theorem SameTraining.refl (x : PortSt) : SameTraining x x := ⟨rfl, rfl, rfl, rfl, rfl, rfl, rfl⟩

theorem SameTraining.trans {x y z : PortSt} (h : SameTraining x y) (h' : SameTraining y z) : SameTraining x z :=
  ⟨h'.signal.trans h.signal, h'.halfReq.trans h.halfReq, h'.waitRestart.trans h.waitRestart, h'.identGot.trans h.identGot,
    h'.identAcked.trans h.identAcked, h'.identMajor.trans h.identMajor, h'.inner.trans h.inner⟩

/-- From `s` to `t` the calm words and the ports' training are as they were, and no stitch counts an opening. -/
structure Calm (s t : State) : Prop where
  word : ∀ a, CalmWord a → rd t a = rd s a
  train : ∀ q, SameTraining (getPort s q) (getPort t q)
  opened : ∀ n < 12, ctrGet t (pStitch n) 0 = ctrGet s (pStitch n) 0

theorem Calm.refl (s : State) : Calm s s := ⟨fun _ _ => rfl, fun _ => .refl _, fun _ _ => rfl⟩

theorem Calm.trans {s t u : State} (h : Calm s t) (h' : Calm t u) : Calm s u :=
  ⟨fun a ha => (h'.word a ha).trans (h.word a ha), fun q => (h.train q).trans (h'.train q),
    fun n hn => (h'.opened n hn).trans (h.opened n hn)⟩

/-- Counters, registers and ports are as they were. -/
theorem Calm.of_eq {s t : State} (hctrs : t.ctrs = s.ctrs) (hregs : t.regs = s.regs) (hports : t.ports = s.ports) : Calm s t :=
  ⟨fun _ _ => rd_congr hregs _, fun q => by rw [getPort, getPort, hports]; exact .refl _, fun _ _ => ctrGet_congr hctrs _ _⟩

theorem Calm.ite {s t u : State} {c : Prop} [Decidable c] (ht : c → Calm s t) (hu : ¬c → Calm s u) :
    Calm s (if c then t else u) := by
  split
  · exact ht ‹_›
  · exact hu ‹_›

theorem Calm.foldl_mem {α : Type} {f : State → α → State} {l : List α} (hf : ∀ t, ∀ x ∈ l, Calm t (f t x)) (s : State) :
    Calm s (l.foldl f s) := by
  induction l generalizing s with
  | nil => exact .refl s
  | cons x l ih =>
    exact (hf s x List.mem_cons_self).trans (ih (fun t y hy => hf t y (List.mem_cons_of_mem x hy)) _)

theorem Calm.foldl {α : Type} {f : State → α → State} (hf : ∀ t x, Calm t (f t x)) (l : List α) (s : State) :
    Calm s (l.foldl f s) :=
  .foldl_mem (fun t x _ => hf t x) s

/-! ## The basic updates -/

theorem calm_wr (s : State) {a : Nat} (w : Word) (h : ¬CalmWord a) : Calm s (wr s a w) :=
  ⟨fun b hb => rd_wr_ne s a b w fun e => h (e ▸ hb), fun _ => .refl _, fun _ _ => rfl⟩

/-- The words of a page that are not calm, whatever the page. -/
theorem not_calmWord {page off : Nat} (hpage : page % 4096 = 0)
    (hoff : off = 0x10 ∨ off = 0x18 ∨ off = 0x24 ∨ off = 0x60) : ¬CalmWord (page + off) := by
  rintro ⟨-, -, h10, h18, h24, h60, -⟩
  omega

theorem calm_wr_page (s : State) {page : Nat} (off : Nat) (w : Word) (hpage : page % 4096 = 0)
    (hoff : off = 0x10 ∨ off = 0x18 ∨ off = 0x24 ∨ off = 0x60 := by decide) : Calm s (wr s (page + off) w) :=
  calm_wr s w (not_calmWord hpage hoff)

theorem calm_fset_page (s : State) {page : Nat} (off h l v : Nat) (hpage : page % 4096 = 0)
    (hoff : off = 0x10 ∨ off = 0x18 ∨ off = 0x24 ∨ off = 0x60 := by decide) : Calm s (fset s (page + off) h l v) :=
  calm_wr_page s off _ hpage hoff

/-- A counter that is no stitch's count of openings. -/
theorem calm_ctrAdd (s : State) {page i : Nat} (n : Nat) (h : ∀ m < 12, page + 0x800 + 8 * i ≠ pStitch m + 0x800 + 8 * 0) :
    Calm s (ctrAdd s page i n) :=
  ⟨fun _ _ => rfl, fun _ => .refl _, fun m hm => ctrAt_ctrAdd_ne s n (h m hm).symm⟩

theorem calm_ctrAdd_port (s : State) (p n : Nat) {i : Nat} (hi : i < 256) (h0 : i ≠ 0) : Calm s (ctrAdd s (pPort p) i n) :=
  calm_ctrAdd s n fun m _ => by simp only [pPort, pStitch]; omega

theorem calm_ctrAdd_bufPool (s : State) (d i n : Nat) : Calm s (ctrAdd s (pBufPool d) i n) :=
  calm_ctrAdd s n fun m hm => by simp only [pStitch, pBufPool]; omega

theorem calm_modPort (s : State) (p : Nat) {f : PortSt → PortSt} (h : SameTraining (getPort s p) (f (getPort s p))) :
    Calm s (modPort s p f) :=
  ⟨fun _ _ => rfl, fun q => by
    rw [modPort, getPort_setPort]
    split
    · next e => rw [e]; exact h
    · exact .refl _, fun _ _ => rfl⟩

theorem calm_emit (s : State) (o : Output) : Calm s (emit s o) := .of_eq rfl rfl rfl
theorem calm_setCell (s : State) (c : Nat) (x : Cell) : Calm s (setCell s c x) := .of_eq rfl rfl rfl
theorem calm_setQueue (s : State) (q : Nat) (x : List QEntry) : Calm s (setQueue s q x) := .of_eq rfl rfl rfl
theorem calm_setSession (s : State) (i : Nat) (x : Option Session) : Calm s (setSession s i x) := .of_eq rfl rfl rfl
theorem calm_deliver (s : State) (d : Delivery) : Calm s (deliver s d) := .of_eq rfl rfl rfl
theorem calm_atRest (s : State) : Calm s (atRest s) := .of_eq rfl rfl rfl

theorem calm_queueWord (s : State) (q : Nat) (w : Word) : Calm s (wr s (wQueue q + 4) w) :=
  calm_wr s w fun h => by
    have := h.1
    simp only [wQueue] at this
    omega

/-! ## Messages, reports and crossings -/

theorem calm_sendMsg (s : State) (sid ty msgNum flags status : Nat) (body : List Byte) :
    Calm s (sendMsg s sid ty msgNum flags status body) := by
  have hcount : ∀ t n, Calm t (ctrAdd t pHostIf 1 n) := fun t n => calm_ctrAdd t n fun m _ => by
    simp only [pStitch, pHostIf]
    omega
  unfold sendMsg
  refine .ite (fun _ => .refl s) fun _ => ?_
  dsimp only
  refine .trans (.trans ?_ (hcount _ _)) (calm_emit _ _)
  split
  · exact calm_setSession _ _ _
  · exact .refl s

theorem calm_sendPageEvent (s : State) (sid : Nat) (x : Session) (page : Nat) (v : Word) : Calm s (sendPageEvent s sid x page v) :=
  Calm.trans (t := setSession { s with evtSeq := (s.evtSeq + 1) % 2 ^ 32 } sid _) (.of_eq rfl rfl rfl) (calm_sendMsg _ _ _ _ _ _ _)

theorem calm_notifySession (s : State) (page sid : Nat) : Calm s (notifySession s page sid) := by
  unfold notifySession
  split
  · exact .refl s
  · dsimp only
    exact .ite (fun _ => .refl s) fun _ => .ite (fun _ => calm_setSession _ _ _) fun _ =>
      .ite (fun _ => calm_sendPageEvent _ _ _ _ _) fun _ => calm_setSession _ _ _

theorem calm_raise (s : State) {page : Nat} (b : Nat) (hpage : page % 4096 = 0) : Calm s (raise s page b) :=
  (calm_wr_page s 0x10 _ hpage).trans (.foldl (fun t sid => calm_notifySession t page sid) _ _)

theorem calm_queueReport (s : State) (r : FaultRec) : Calm s (queueReport s r) := .of_eq rfl rfl rfl

theorem calm_report (s : State) (r : FaultRec) : Calm s (report s r) := by
  unfold report
  split
  · next p hp => exact (calm_fset_page s 0x18 7 0 r.kind.toNat (pageOfSource_mod hp)).trans (calm_queueReport _ r)
  · exact calm_queueReport s r

theorem calm_completeUnit (s : State) (x : SwathSt) (u : Nat) : Calm s (completeUnit s x u) := by
  refine .foldl_mem (fun t p hp => ?_) s
  dsimp only
  refine .trans ?_ (calm_wr_page _ 0x24 _ (pagesOf_mod u p hp))
  exact .of_eq rfl rfl rfl

theorem calm_swath (s : State) (x : Option SwathSt) : Calm s { s with swath := x } := .of_eq rfl rfl rfl

theorem calm_wr_swath (s : State) (off : Nat) (w : Word) (hoff : off < 4096) : Calm s (wr s (pSwath + off) w) :=
  calm_wr s w fun h => by
    have := h.2.2.2.2.2.2
    omega

theorem calm_endSwath (s : State) (st ev : Nat) : Calm s (endSwath s st ev) := by
  unfold endSwath
  refine .trans ?_ (calm_raise _ ev (by decide))
  refine .trans ?_ (calm_swath _ none)
  exact ((calm_wr_swath s 0x44 _ (by decide)).trans (calm_wr_swath _ 0x50 _ (by decide))).trans
    (calm_wr_swath _ 0x54 _ (by decide))

theorem calm_takeMarker (s : State) (x : SwathSt) (u c : Nat) : Calm s (takeMarker s x u c) := by
  have hleft : ∀ t y v, Calm t (fset { t with swath := y } (pSwath + 0x44) 11 3 v) := fun t y v =>
    (calm_swath t y).trans (calm_wr_swath _ 0x44 _ (by decide))
  have hunit : ∀ (b : Bool) y, Calm s (if b = true then s else completeUnit s y u) := fun b y =>
    .ite (fun _ => .refl s) fun _ => calm_completeUnit s y u
  unfold takeMarker
  dsimp only
  split
  · exact ((hunit _ _).trans (hleft _ _ _)).trans (calm_endSwath _ 2 8)
  · exact (hunit _ _).trans (hleft _ _ _)

theorem calm_hop (s : State) (u v ch : Nat) : Calm s (hop s u v ch) := by
  have hserve : ∀ t, Calm t { serveCross t u v ch with hand := some (v, inChannel u v ch) } := fun t => by
    unfold serveCross
    dsimp only
    split <;> exact .of_eq rfl rfl rfl
  unfold hop
  dsimp only
  refine .trans ?_ (hserve _)
  split
  · exact .ite (fun _ => calm_takeMarker _ _ _ _) fun _ => .refl s
  · exact .refl s

theorem calm_cross (s : State) (d e ch : Nat) : Calm s (cross s d e ch) :=
  Calm.trans (t := { s with hand := none }) (.of_eq rfl rfl rfl) (.foldl (fun t _ => calm_hop t _ _ ch) _ _)

/-! ## Cells -/

theorem calm_poolWord (s : State) (c : Nat) (w : Word) : Calm s (wr s (pBufPool (cellDie c) + 0x44 + 4 * cellPool c) w) :=
  calm_wr s w fun h => by
    have hpool : cellPool c < 4 := Nat.mod_lt _ (by decide)
    have := h.2.1
    simp only [pBufPool] at this
    omega

theorem calm_takeCell (s : State) (c refs : Nat) (ch : Charge) (acct : Option Nat) (ing : Option (Nat × Nat)) (credits : Nat) :
    Calm s (takeCell s c refs ch acct ing credits) :=
  ((calm_setCell s c _).trans (calm_poolWord _ c _)).trans (calm_ctrAdd_bufPool _ _ _ _)

/-- What a port grants and banks is no credit of its own. -/
theorem calm_modPort_grants (s : State) (p : Nat) (f : PortSt → PortSt)
    (h : ∀ x, ∃ held granted banked next, f x = { x with held := held, granted := granted, banked := banked, bankNext := next }) :
    Calm s (modPort s p f) := by
  obtain ⟨held, granted, banked, next, heq⟩ := h (getPort s p)
  exact calm_modPort s p (by rw [heq]; exact ⟨rfl, rfl, rfl, rfl, rfl, rfl, rfl⟩)

theorem calm_unbank (n : Nat) (s : State) (p : Nat) : Calm s (unbank n s p) := by
  induction n generalizing s with
  | zero => exact .refl s
  | succ n ih =>
    unfold unbank
    refine .ite (fun _ => .refl s) fun _ => ?_
    split
    · exact .refl s
    · exact ((calm_modPort_grants s p _ fun _ => ⟨_, _, _, _, rfl⟩).trans (calm_emit _ _)).trans (ih _)

theorem calm_releaseDie (s : State) (d : Nat) : Calm s (releaseDie s d) := .foldl (fun t p => calm_unbank _ t p) _ s

theorem calm_returnCredits (s : State) (p v k : Nat) : Calm s (returnCredits s p v k) := by
  have hheld : ∀ t (f g : PortSt → List (Nat × Nat)), Calm t (modPort t p fun x => { x with held := f x, granted := g x }) :=
    fun t f g => calm_modPort_grants t p _ fun _ => ⟨_, _, _, _, rfl⟩
  have hgranted : ∀ t (f : PortSt → List (Nat × Nat)), Calm t (modPort t p fun x => { x with granted := f x }) :=
    fun t f => calm_modPort_grants t p _ fun _ => ⟨_, _, _, _, rfl⟩
  have hbanked : ∀ t (f : PortSt → List (Nat × Nat)), Calm t (modPort t p fun x => { x with banked := f x }) :=
    fun t f => calm_modPort_grants t p _ fun _ => ⟨_, _, _, _, rfl⟩
  unfold returnCredits
  dsimp only
  refine .trans (hheld s _ _) (.ite (fun _ => .refl _) fun _ => .ite (fun _ => ?_) fun _ => ?_)
  · exact ((hbanked _ _).trans (calm_ctrAdd_bufPool _ _ 3 _)).trans (.ite (fun _ => .refl _) fun _ => calm_emit _ _)
  · exact (hgranted _ _).trans (calm_emit _ _)

theorem calm_releaseCell (s : State) (c : Nat) : Calm s (releaseCell s c) := by
  unfold releaseCell
  dsimp only
  refine .trans ?_ (calm_releaseDie _ _)
  have hfreed : ∀ (b : Bool) x w, Calm s (if b = true then setCell s c x else
      wr (setCell s c x) (pBufPool (cellDie c) + 0x44 + 4 * cellPool c) w) := fun b x w =>
    .ite (fun _ => calm_setCell s c x) fun _ => (calm_setCell s c x).trans (calm_poolWord _ c w)
  split
  · exact (hfreed _ _ _).trans (calm_returnCredits _ _ _ _)
  · exact hfreed _ _ _

theorem calm_decCell (s : State) (c gen : Nat) : Calm s (decCell s c gen) := by
  unfold decCell
  dsimp only
  exact .ite (fun _ => (calm_ctrAdd_bufPool _ _ _ _).trans (calm_report _ _)) fun _ =>
    .ite (fun _ => (calm_releaseCell _ _).trans (calm_ctrAdd_bufPool _ _ _ _)) fun _ => calm_setCell _ _ _

/-! ## The scheduler -/

theorem calm_wakeAll (s : State) (p : Nat) (el : List (Nat × Nat × Nat)) : Calm s (wakeAll s p el) := by
  obtain ⟨nodes, queues, awake, heq⟩ := getPort_wakeAll s p el
  rw [wakeAll, getPort_modPort_same] at heq
  exact calm_modPort s p (by rw [heq]; exact ⟨rfl, rfl, rfl, rfl, rfl, rfl, rfl⟩)

theorem calm_settleAwake (s : State) (p : Nat) : Calm s (settleAwake s p) := calm_wakeAll s p _

theorem calm_pickQueue (s : State) (p : Nat) : Calm s (pickQueue s p).2 := by
  unfold pickQueue
  dsimp only
  split
  · exact calm_wakeAll s p _
  · split
    · exact calm_wakeAll s p _
    · split
      · exact calm_wakeAll s p _
      · dsimp only
        exact (calm_wakeAll s p _).trans (calm_modPort _ p (⟨rfl, rfl, rfl, rfl, rfl, rfl, rfl⟩))

theorem calm_setBucket (s : State) (p : Nat) (v : Int) : Calm s (setBucket s p v) :=
  (calm_wr s _ fun h => by
    have := h.2.1
    simp only [pSched] at this
    omega).trans (calm_modPort _ p ⟨rfl, rfl, rfl, rfl, rfl, rfl, rfl⟩)

theorem calm_keepFrame (s : State) (p : Nat) (k : Pkt) : Calm s (keepFrame s p k) :=
  calm_modPort s p ⟨rfl, rfl, rfl, rfl, rfl, rfl, rfl⟩

theorem calm_startSend (s : State) (p q : Nat) (e : QEntry) : Calm s (startSend s p q e) := by
  unfold startSend
  dsimp only
  refine .trans (.trans ?_ (calm_settleAwake _ p)) (calm_atRest _)
  have hbucket : ∀ v, Calm s (if isTransit e.pkt then setBucket s p v else s) := fun v =>
    .ite (fun _ => calm_setBucket s p v) fun _ => .refl s
  have hcross := (hbucket (bucketNow s p - 2048 * (sizeOf' e.pkt : Int))).trans (calm_cross _ (cellDie e.cell) (dieOfPort p) chPacket)
  exact (hcross.trans (calm_keepFrame _ p e.pkt)).trans (calm_modPort _ p ⟨rfl, rfl, rfl, rfl, rfl, rfl, rfl⟩)

theorem calm_trailerFault (s : State) (p : Nat) : Calm s (trailerFault s p) :=
  (calm_ctrAdd_port s p _ (by decide) (by decide)).trans (calm_report _ _)

theorem calm_pumpFuel (n : Nat) (s : State) (p : Nat) : Calm s (pumpFuel n s p) := by
  induction n generalizing s with
  | zero => exact .refl s
  | succ n ih =>
    have hawake := calm_settleAwake s p
    have hpick := calm_pickQueue (settleAwake s p) p
    unfold pumpFuel
    dsimp only
    refine .ite (fun _ => hawake) fun _ => ?_
    split
    · next t ht =>
      rw [ht] at hpick
      exact hawake.trans hpick
    · next q t ht =>
      rw [ht] at hpick
      split
      · exact hawake.trans hpick
      · next e rest _ =>
        have htaken : Calm s (storedSub (setQueue t q rest) q (sizeOf' e.pkt)) :=
          (hawake.trans hpick).trans ((calm_setQueue t q rest).trans (calm_queueWord _ q _))
        refine .ite (fun _ => hawake) fun _ => .ite (fun _ => htaken.trans (calm_startSend _ p q e)) fun _ => ?_
        exact ((htaken.trans (calm_trailerFault _ p)).trans (calm_decCell _ _ _)).trans (ih _)

theorem calm_pump (s : State) (p : Nat) : Calm s (pump s p) := calm_pumpFuel _ s p

/-! ## Packets stored -/

theorem calm_markEcn (s : State) (p : Nat) (k : Pkt) : Calm s (markEcn s p k).2 := by
  unfold markEcn
  split
  · exact .refl s
  · exact calm_ctrAdd_port s p _ (by decide) (by decide)

theorem calm_enqueue (s : State) (p c gen : Nat) (k : Pkt) (ing : Option Nat) : Calm s (enqueue s p c gen k ing) := by
  have hcross := calm_cross s (cellDie c) (dieOfPort p) chPacket
  unfold enqueue
  dsimp only
  refine .trans (.trans (.trans (.trans ?_ (calm_ctrAdd_port _ p 1 (i := 14) (by decide) (by decide))) (calm_atRest _))
    ((calm_setQueue _ _ _).trans (calm_queueWord _ _ _))) (calm_pump _ p)
  split
  · exact hcross.trans (calm_markEcn _ _ _)
  · exact hcross

theorem calm_origStore (s : State) (w : OrigWait) : Calm s (origStore s w) := by
  unfold origStore
  dsimp only
  split
  · exact .refl s
  · exact .trans (calm_takeCell _ _ _ _ _ _ _) (.ite (fun _ => calm_deliver _ _) fun _ => .foldl (fun t _ => calm_enqueue t _ _ _ _ _) _ _)

theorem calm_serveOrig (n : Nat) (s : State) : Calm s (serveOrig n s) := by
  induction n generalizing s with
  | zero => exact .refl s
  | succ n ih =>
    unfold serveOrig
    split
    · exact .refl s
    · refine .trans (.trans ?_ (calm_origStore _ _)) (ih _)
      exact .of_eq rfl rfl rfl

theorem calm_serveWaiters (s : State) : Calm s (serveWaiters s) := calm_serveOrig _ s

/-! ## The fall of a link -/

theorem calm_wr_width (s : State) (p : Nat) (w : Word) : Calm s (wr s (wAddr p) w) :=
  calm_wr_page s 0x60 w (by simp only [pPort]; omega)

theorem calm_settleBucket (s : State) (p : Nat) : Calm s (settleBucket s p) := calm_setBucket s p _

theorem calm_storedSub (s : State) (q n : Nat) : Calm s (storedSub s q n) := calm_queueWord s q _

theorem calm_dropQueues (s : State) (p : Nat) : Calm s (dropQueues s p) := by
  unfold dropQueues
  dsimp only
  refine .trans ?_ (.foldl (fun t q => ?_) _ _)
  · split
    · exact (calm_modPort s p (⟨rfl, rfl, rfl, rfl, rfl, rfl, rfl⟩)).trans (calm_decCell _ _ _)
    · exact .refl s
  · exact ((calm_setQueue t _ _).trans (calm_storedSub _ _ _)).trans (.foldl (fun u e => calm_decCell u _ _) _ _)

theorem calm_forgetHeld (s : State) (p : Nat) : Calm s (forgetHeld s p) := by
  unfold forgetHeld
  dsimp only
  refine .trans (.foldl (fun t e => ?_) s.cells s) (calm_modPort_grants _ p _ fun _ => ⟨_, _, _, _, rfl⟩)
  split
  · exact .ite (fun _ => calm_setCell t _ _) fun _ => .refl t
  · exact .refl t

theorem calm_forgetTime (s : State) (p : Nat) : Calm s (forgetTime s p) := .of_eq rfl rfl rfl


/-- What a fall leaves of the port's training. -/
structure FallenTraining (x y : PortSt) : Prop where
  signal : y.signal = []
  halfReq : y.halfReq = false
  identGot : y.identGot = false
  waitRestart : y.waitRestart = x.waitRestart
  inner : y.inner = x.inner

/-- A fall of one port's link. -/
structure Falls (p : Nat) (s t : State) : Prop where
  word : ∀ a, CalmWord a → rd t a = rd s a
  port : FallenTraining (getPort s p) (getPort t p)
  train : ∀ q, q ≠ p → SameTraining (getPort s q) (getPort t q)
  opened : ∀ n < 12, ctrGet t (pStitch n) 0 = ctrGet s (pStitch n) 0

theorem FallenTraining.of_same {x y z : PortSt} (h : FallenTraining x y) (h' : SameTraining y z) : FallenTraining x z :=
  ⟨h'.signal.trans h.signal, h'.halfReq.trans h.halfReq, h'.identGot.trans h.identGot, h'.waitRestart.trans h.waitRestart,
    h'.inner.trans h.inner⟩

theorem linkDown_falls (s : State) (p : Nat) : Falls p s (linkDown s p) := by
  obtain ⟨t, hbefore, hafter⟩ : ∃ t, Calm s t ∧ Calm (modPort t p fallen) (linkDown s p) := by
    refine ⟨forgetHeld (if committed s p == 0 then dropQueues (settleBucket s p) p
      else ctrAdd (dropQueues (settleBucket s p) p) (pPort p) 10 (committed s p)) p, ?_, ?_⟩
    · have hdropped := (calm_settleBucket s p).trans (calm_dropQueues _ p)
      refine .trans (.ite (fun _ => hdropped) fun _ => ?_) (calm_forgetHeld _ p)
      exact hdropped.trans (calm_ctrAdd_port _ p _ (by decide) (by decide))
    · exact ((calm_forgetTime _ p).trans (calm_wr_width _ p _)).trans (calm_serveWaiters _)
  refine ⟨fun a ha => (hafter.word a ha).trans (hbefore.word a ha), ?_, fun q hq => ?_,
    fun n hn => (hafter.opened n hn).trans (hbefore.opened n hn)⟩
  · have hport := hafter.train p
    rw [getPort_modPort_same] at hport
    have hstart := hbefore.train p
    have hfallen : FallenTraining (getPort s p) (fallen (getPort t p)) := ⟨rfl, rfl, rfl, hstart.waitRestart, hstart.inner⟩
    exact hfallen.of_same hport
  · have hother := hafter.train q
    rw [modPort, getPort_setPort, if_neg hq] at hother
    exact (hbefore.train q).trans hother

end Sys2Proof.Machine

/-! # Blocks stop, start and reset (R379, R381) -/
namespace Sys2Proof.Machine

open Sys2Proof

variable {s : State} {page : Nat} {k : PageKind}

/-! ## BLK_STATE -/

theorem blkState_congr {t : State} (h : rd t (page + 0x0C) = rd s (page + 0x0C)) : blkState t page = blkState s page := by
  rw [blkState, blkState, fget, fget, h]

theorem blkState_setBlk (s : State) (page : Nat) {v : Nat} (hv : v < 8) : blkState (setBlk s page v) page = v :=
  fget_fset_same _ _ _ _ _ (by decide) (by decide) hv

theorem blkState_setPend (s : State) (page : Nat) (v : Bool) : blkState (setPend s page v) page = blkState s page :=
  fget_fset_apart _ _ _ _ _ _ _ (by decide) (by decide) (.inl (by decide))

theorem blkState_setCause (s : State) (page v : Nat) : blkState (setCause s page v) page = blkState s page :=
  fget_fset_apart _ _ _ _ _ _ _ (by decide) (by decide) (.inl (by decide))

theorem pendOn_setPend (s : State) (page : Nat) (v : Bool) : pendOn (setPend s page v) page = v :=
  bit_setBit_same _ _ _ _ (by decide)

theorem pendOn_setBlk (s : State) (page v : Nat) : pendOn (setBlk s page v) page = pendOn s page := by
  rw [pendOn, setBlk, bit_fset _ _ _ _ _ _ _ (by decide) (by decide), if_neg (by omega)]
  rfl

theorem stopCause_setCause (s : State) (page : Nat) {v : Nat} (hv : v < 256) : fget (setCause s page v) (page + 0x0C) 15 8 = v :=
  fget_fset_same _ _ _ _ _ (by decide) (by decide) hv

theorem frozen_congr {t : State} (hheld : t.faults.held = s.faults.held) (h : rd t (page + 0x0C) = rd s (page + 0x0C)) :
    frozen t page = frozen s page := by
  rw [frozen, frozen, hheld, blkState_congr h]

/-! ## The write of BLK_CTRL -/

/-- What the header acts on at BLK_CTRL, for a block other than a port. -/
theorem headerActs_blkCtrl (s : State) (hport : k.ty ≠ 0x20) (old new v m : Word) :
    headerActs s k page 0x008 old new v m =
      (fun u => if woVal v m 1 1 == 1 then resetBlock u page 2 else u)
        (if !m.getLsbD 0 then s else enableBlock s page (v.getLsbD 0)) := by
  have hty : (k.ty == 0x20) = false := by simpa using hport
  rw [headerActs, hty]
  rfl

theorem commandWrite_blkCtrl {who : Requester} {v m : Word} (hpage : pageOf page = some (k, page)) (hport : k.ty ≠ 0x20)
    (hacc : Accepts s who (page + 0x08) v m) : commandWrite who none (page + 0x08) v m s =
      (fun u => if woVal v m 1 1 == 1 then resetBlock u page 2 else u)
        (if !m.getLsbD 0 then written s who (page + 0x08) v m else enableBlock (written s who (page + 0x08) v m) page (v.getLsbD 0)) := by
  rw [commandWrite_of_accepts hacc, acceptWrite_header none (pageOf_within hpage (by decide)) (.inl hport) (by decide),
    headerActs_blkCtrl _ hport]

/-- The write of BLK_CTRL leaves the state of the block, and whether blocks are held. -/
theorem written_blkCtrl (s : State) (who : Requester) (page : Nat) (v m : Word) :
    rd (written s who (page + 0x08) v m) (page + 0x0C) = rd s (page + 0x0C) ∧
      (written s who (page + 0x08) v m).faults = s.faults := by
  obtain ⟨regs, audit, hframe⟩ := written_frame s who (page + 0x08) v m
  exact ⟨rd_written_ne _ _ _ _ (by omega), by rw [hframe]⟩

/-! ## Enabling and disabling -/

theorem enableBlock_starts (hfrozen : frozen s page = false) (hstate : blkState s page = 0) :
    blkState (enableBlock s page true) page = 2 := by
  rw [enableBlock, if_neg (by simp [hfrozen]), if_pos rfl, if_neg (by simp [hstate]), if_pos (by simp [hstate]), startBlock,
    blkState_setBlk _ _ (by decide)]

theorem enableBlock_remembers (hfrozen : frozen s page = false) (hstate : blkState s page = 3) (on : Bool) :
    blkState (enableBlock s page on) page = 3 ∧ pendOn (enableBlock s page on) page = on := by
  have hset : enableBlock s page on = setPend s page on := by
    cases on <;> simp [enableBlock, hfrozen, hstate]
  rw [hset, blkState_setPend, pendOn_setPend]
  exact ⟨hstate, rfl⟩

theorem enableBlock_stops (hfrozen : frozen s page = false) (hstate : blkState s page = 1 ∨ blkState s page = 2) :
    blkState (enableBlock s page false) page = 3 ∧ fget (enableBlock s page false) (page + 0x0C) 15 8 = 1 := by
  have hset : enableBlock s page false = setCause (setBlk s page 3) page 1 := by
    rcases hstate with h | h <;> simp [enableBlock, hfrozen, h]
  rw [hset, blkState_setCause, blkState_setBlk _ _ (by decide), stopCause_setCause _ _ (by decide)]
  exact ⟨rfl, rfl⟩

/-! ## The end of a stop -/

theorem exec_blockStopDone (page : Nat) (s : State) : exec (.blockStopDone page) s = execBlockStopDone page s := rfl

/-- The block off, without a start remembered. -/
def blockStopped (s : State) (page : Nat) : State := setPend (setBlk s page 0) page false

theorem blockStopped_starts (s : State) (page : Nat) (b : Bool) :
    blkState (if b then startBlock (blockStopped s page) page else blockStopped s page) page = (if b then 2 else 0) ∧
      pendOn (if b then startBlock (blockStopped s page) page else blockStopped s page) page = false := by
  cases b with
  | false =>
    refine ⟨?_, pendOn_setPend _ _ _⟩
    show blkState (blockStopped s page) page = 0
    rw [blockStopped, blkState_setPend, blkState_setBlk _ _ (by decide)]
  | true =>
    refine ⟨blkState_setBlk _ _ (by decide), ?_⟩
    show pendOn (setBlk (blockStopped s page) page 2) page = false
    rw [pendOn_setBlk, blockStopped, pendOn_setPend]

theorem execBlockStopDone_next (hpage : pageOf page = some (k, page)) (hport : k.ty ≠ 0x20) (hstate : blkState s page = 3)
    (hreset : resetting s page = false) : execBlockStopDone page s =
      .next (if pendOn s page then startBlock (blockStopped s page) page else blockStopped s page) := by
  have hty : (k.ty == 0x20) = false := by simpa using hport
  simp only [execBlockStopDone, hpage, hstate, hreset, hty, blockStopped, bne_self_eq_false, Bool.or_self, Bool.false_and,
    Bool.false_eq_true, if_false]

/-! ## Block resets -/

theorem markBroken_kept (s : State) (page : Nat) : (markBroken s page).regs = s.regs ∧ (markBroken s page).faults = s.faults := by
  unfold markBroken
  split
  · split
    · exact ⟨rfl, rfl⟩
    · exact ⟨rfl, rfl⟩
  · exact ⟨rfl, rfl⟩

theorem resetEffects_of_no_jobs (s : State) {ty : Nat} (i : Nat) (h : ty ∉ [0x29, 0x2A, 0x2B]) : resetEffects s ty i = s := by
  simp only [List.mem_cons, List.not_mem_nil, or_false, not_or] at h
  obtain ⟨h29, h2A, h2B⟩ := h
  unfold resetEffects
  split
  · contradiction
  · contradiction
  · contradiction
  · rfl

/-- A reset of a block without jobs of its own stops it, with the reset as the cause (R379). -/
theorem resetBlock_resetting {cause : Nat} (hpage : pageOf page = some (k, page)) (hport : k.ty ≠ 0x20) (hreset : k.hasReset = true)
    (hjobs : k.ty ∉ [0x29, 0x2A, 0x2B]) (hfrozen : frozen s page = false) (hstate : blkState s page ≠ 3)
    (hcause : cause = 2 ∨ cause = 3) :
    resetting (resetBlock s page cause) page = true ∧ fget (resetBlock s page cause) (page + 0x0C) 15 8 = cause := by
  have heffects : ∀ t i, resetEffects t k.ty i = t := fun t i => resetEffects_of_no_jobs t i hjobs
  have hset : resetBlock s page cause = setCause (setBlk (markBroken s page) page 3) page cause := by
    have hty : (k.ty == 0x20) = false := by simpa using hport
    have hne : (blkState s page == 3) = false := by simpa using hstate
    simp only [resetBlock, hpage, hreset, hfrozen, hty, hne, heffects, Bool.not_true, Bool.or_self, Bool.false_eq_true, if_false]
  have hcauseOf : fget (resetBlock s page cause) (page + 0x0C) 15 8 = cause := by
    rw [hset, stopCause_setCause _ _ (by rcases hcause with rfl | rfl <;> decide)]
  refine ⟨?_, hcauseOf⟩
  rw [resetting, hcauseOf, hset, blkState_setCause, blkState_setBlk _ _ (by decide)]
  rcases hcause with rfl | rfl <;> rfl

/-- A BLK_RESET that is accepted is of a page that has one. -/
theorem hasReset_of_accepts {who : Requester} (hpage : pageOf page = some (k, page)) (hacc : Accepts s who (page + 0x08) 2 2) :
    k.hasReset = true := by
  have hrules := rulesRefuse_of_accepts hacc
  have hoff : page + 0x08 - page = 0x08 := Nat.add_sub_cancel_left ..
  simp only [rulesRefuse, pageOf_within hpage (by decide : 0x08 < 0x1000), hoff, headerRefused] at hrules
  have hwo : woVal (2#32) (2#32) 1 1 = 1 := by decide
  simpa [hwo] using hrules

/-! ## The end of a reset -/

theorem rd_resetPageRegs (s : State) (page : Nat) {a : Nat} (ha : a < page + 0x40) : rd (resetPageRegs s page) a = rd s a := by
  unfold resetPageRegs
  refine List.foldlRecOn (motive := fun t => rd t a = rd s a) _ _ rfl fun t ht b hb => ?_
  have hrange := (List.mem_filter.1 hb).2
  simp only [Bool.and_eq_true, decide_eq_true_eq] at hrange
  rw [rd_wr_ne _ _ _ _ (by omega), ht]

theorem rd_ctrsReset (s : State) (page a : Nat) : rd (ctrsReset s page) a = rd s a := rfl

theorem rd_showReserved (s : State) {a : Nat} (ha : ∀ d, a ≠ pReduce d + 0x48) : rd (showReserved s) a = rd s a := by
  unfold showReserved
  exact forUp_induction (P := fun t => rd t a = rd s a) (fun t d ht => (rd_fset_ne _ _ _ _ _ _ (ha d)).trans ht) _ _ _ rfl

/-- A reset leaves the header of its page (R379). -/
theorem rd_resetBlockRegs (s : State) (hport : k.ty ≠ 0x20) (halign : page % 4096 = 0) :
    rd (resetBlockRegs s k page) (page + 0x08) = rd s (page + 0x08) := by
  have hregs : rd (ctrsReset (resetPageRegs s page) page) (page + 0x08) = rd s (page + 0x08) := by
    rw [rd_ctrsReset, rd_resetPageRegs _ _ (by omega)]
  have hshown : rd (if k.ty == 0x29 then showReserved (ctrsReset (resetPageRegs s page) page) else
      ctrsReset (resetPageRegs s page) page) (page + 0x08) = rd s (page + 0x08) := by
    split
    · rw [rd_showReserved _ fun d => by simp only [pReduce]; omega, hregs]
    · exact hregs
  unfold resetBlockRegs
  dsimp only
  rw [if_neg (by simpa using hport)]
  split
  · rw [rd_wr_ne _ _ _ _ (by omega), hshown]
  · exact hshown

/-- The rows of the pages of gates lie above the ports and below the windows. -/
theorem calmWord_of_gate (hpage : pageOf page = some (k, page)) (hty : k.ty = 0x24) : CalmWord (page + 0x08) := by
  obtain ⟨hk, hle, hlt, hmod⟩ := of_pageOf hpage
  have hrow : ∀ k ∈ pageKinds, k.ty = 0x24 → k.base = 0x500000 := by decide
  have hbase := hrow k hk hty
  have htop := page_lt hpage
  refine ⟨by omega, by omega, by omega, by omega, by omega, by omega, ?_⟩
  simp only [pSwath]
  omega

theorem rd_fillMeter (s : State) (p c a : Nat) : rd (fillMeter s p c) a = rd s a := rfl

/-- SCHED, GATE and POLICE after a reset keep the header of their page (R407). -/
theorem rd_resetPortPart (s : State) (hpage : pageOf page = some (k, page)) (p : Nat) :
    rd (resetPortPart s k.ty p) (page + 0x08) = rd s (page + 0x08) := by
  have halign : page % 4096 = 0 := by
    obtain ⟨-, -, -, h⟩ := of_pageOf hpage
    omega
  unfold resetPortPart
  split
  · rfl
  · next hty =>
    dsimp only
    rw [(calm_pump _ p).word _ (calmWord_of_gate hpage hty), rd_wr_ne _ _ _ _ (by simp only [pGate]; omega)]
    exact rd_fset_ne _ _ _ _ _ _ (by simp only [pGate]; omega)
  · exact forUp_induction (P := fun t => rd t (page + 0x08) = rd s (page + 0x08)) (fun t c ht => (rd_fillMeter t p c _).trans ht)
      _ _ _ rfl
  · rfl

theorem exec_blockResetDone (hpage : pageOf page = some (k, page)) (hport : k.ty ≠ 0x20) (hreset : resetting s page = true) :
    ∃ t, rd t (page + 0x08) = rd s (page + 0x08) ∧ exec (.blockResetDone page) s =
      .next (if bit (blockStopped t page) (page + 0x08) 0 then startBlock (blockStopped t page) page else blockStopped t page) := by
  have hty : (k.ty == 0x20) = false := by simpa using hport
  have halign : page % 4096 = 0 := by
    obtain ⟨-, -, -, h⟩ := of_pageOf hpage
    omega
  refine ⟨resetPortPart (if k.ty == 0x24 then s else resetBlockRegs s k page) k.ty (k.inst page), ?_, ?_⟩
  · rw [rd_resetPortPart _ hpage]
    split
    · rfl
    · exact rd_resetBlockRegs s hport halign
  · show execBlockResetDone page s = _
    simp only [execBlockResetDone, hpage, hreset, hty, blockStopped, Bool.not_true, Bool.false_eq_true, if_false] <;> rfl

/-- Settles O6: ENABLE acts through `enableBlock`, a stop and a reset both end with the block off and perhaps on again. -/
theorem blocksStopAndStart : Obligations.BlocksStopAndStart := by
  unfold Obligations.BlocksStopAndStart
  intro s k page hpage hport hfrozen
  have hpageOk := isPage_of_pageOf hpage
  have hwritten : ∀ who v m, blkState (written s who (page + 0x08) v m) page = blkState s page ∧
      frozen (written s who (page + 0x08) v m) page = false := fun who v m => by
    obtain ⟨hblk, hfaults⟩ := written_blkCtrl s who page v m
    exact ⟨blkState_congr hblk, (frozen_congr (by rw [hfaults]) hblk).trans hfrozen⟩
  refine ⟨fun who hacc => ?_, fun who hacc => ?_, fun hstate hreset => ?_, fun hlive hhas hstate hjobs => ?_,
    fun who hacc hstate hjobs => ?_, fun hreset => ?_⟩
  · obtain ⟨hblk, hfrozen'⟩ := hwritten who 1 1
    have hexec : exec (.blockEnable who page) s = .next (enableBlock (written s who (page + 0x08) 1 1) page true) :=
      (writeIf_pos hpageOk ..).trans (congrArg Host.Outcome.next (commandWrite_blkCtrl hpage hport hacc))
    exact ⟨fun hstate => ⟨_, hexec, enableBlock_starts hfrozen' (hblk.trans hstate)⟩,
      fun hstate => ⟨_, hexec, enableBlock_remembers hfrozen' (hblk.trans hstate) true⟩⟩
  · obtain ⟨hblk, hfrozen'⟩ := hwritten who 0 1
    have hexec : exec (.blockDisable who page) s = .next (enableBlock (written s who (page + 0x08) 0 1) page false) :=
      (writeIf_pos hpageOk ..).trans (congrArg Host.Outcome.next (commandWrite_blkCtrl hpage hport hacc))
    exact ⟨fun hstate => ⟨_, hexec, enableBlock_stops hfrozen' (by rw [hblk]; exact hstate)⟩,
      fun hstate => ⟨_, hexec, enableBlock_remembers hfrozen' (hblk.trans hstate) false⟩⟩
  · refine ⟨_, (exec_blockStopDone page s).trans (execBlockStopDone_next hpage hport hstate hreset), ?_⟩
    exact blockStopped_starts s page (pendOn s page)
  · refine ⟨_, (show exec (.blockReset none page) s = _ from congrArg Host.Outcome.next (if_pos hlive)), ?_⟩
    exact resetBlock_resetting hpage hport hhas hjobs hfrozen hstate (.inr rfl)
  · obtain ⟨hblk, hfrozen'⟩ := hwritten who 2 2
    have hexec : exec (.blockReset (some who) page) s = .next (resetBlock (written s who (page + 0x08) 2 2) page 2) :=
      (writeIf_pos hpageOk ..).trans (congrArg Host.Outcome.next (commandWrite_blkCtrl hpage hport hacc))
    refine ⟨_, hexec, ?_⟩
    exact resetBlock_resetting hpage hport (hasReset_of_accepts hpage hacc) hjobs hfrozen' (by rw [hblk]; exact hstate) (.inl rfl)
  · obtain ⟨t, hrd, hexec⟩ := exec_blockResetDone hpage hport hreset
    have hen : bit (blockStopped t page) (page + 0x08) 0 = bit s (page + 0x08) 0 := by
      rw [bit, blockStopped, setPend, rd_setBit_ne _ _ _ _ _ (by omega), setBlk, rd_fset_ne _ _ _ _ _ _ (by omega), hrd]
      rfl
    rw [hen] at hexec
    exact ⟨_, hexec, blockStopped_starts t page _⟩

end Sys2Proof.Machine

/-! # The words and the training of a port (R261, R264, R275) -/
namespace Sys2Proof.Machine

open Sys2Proof

variable {s : State}

/-! ## PORT_STATE and PORT_CFG -/

/-- `t` has the words of PORT_STATE and PORT_CFG of a port that `s` has. -/
theorem pState_congr {t : State} {p : Nat} (h : rd t (pPort p + 0x44) = rd s (pPort p + 0x44)) :
    pState t p = pState s p ∧ pStage t p = pStage s p := by
  rw [pState, pState, pStage, pStage, fget, fget, fget, fget, h]
  exact ⟨rfl, rfl⟩

theorem portEn_congr {t : State} {p : Nat} (h : rd t (pPort p + 0x40) = rd s (pPort p + 0x40)) :
    portEn t p = portEn s p ∧ portTest t p = portTest s p := by
  rw [portEn, portEn, portTest, portTest, bit, bit, bit, bit, h]
  exact ⟨rfl, rfl⟩

theorem rd_setPState_ne (s : State) (p v : Nat) {a : Nat} (ha : a ≠ pPort p + 0x44 ∧ a ≠ pPort p + 0x48) :
    rd (setPState s p v) a = rd s a := by
  rw [setPState, rd_setBit_ne _ _ _ _ _ ha.2, rd_fset_ne _ _ _ _ _ _ ha.1]

theorem rd_setStage_ne (s : State) (p v : Nat) {a : Nat} (ha : a ≠ pPort p + 0x44) : rd (setStage s p v) a = rd s a :=
  rd_fset_ne _ _ _ _ _ _ ha

theorem pState_setPState (s : State) (p : Nat) {v : Nat} (hv : v < 16) : pState (setPState s p v) p = v := by
  rw [pState, setPState, fget, rd_setBit_ne _ _ _ _ _ (by omega)]
  exact fget_fset_same _ _ _ _ _ (by decide) (by decide) hv

theorem pStage_setPState (s : State) (p v : Nat) : pStage (setPState s p v) p = pStage s p := by
  rw [pStage, setPState, fget, rd_setBit_ne _ _ _ _ _ (by omega)]
  exact fget_fset_apart _ _ _ _ _ _ _ (by decide) (by decide) (.inr (by decide))

theorem pStage_setStage (s : State) (p : Nat) {v : Nat} (hv : v < 16) : pStage (setStage s p v) p = v :=
  fget_fset_same _ _ _ _ _ (by decide) (by decide) hv

theorem pState_setStage (s : State) (p v : Nat) : pState (setStage s p v) p = pState s p :=
  fget_fset_apart _ _ _ _ _ _ _ (by decide) (by decide) (.inl (by decide))

/-- A port taken to a state and a stage. -/
theorem placed_fields (s : State) (p : Nat) {v st : Nat} (hv : v < 16) (hst : st < 16) :
    pState (setStage (setPState s p v) p st) p = v ∧ pStage (setStage (setPState s p v) p st) p = st :=
  ⟨(pState_setStage _ _ _).trans (pState_setPState _ _ hv), pStage_setStage _ _ hst⟩

theorem pStage_lt (s : State) (p : Nat) : pStage s p < 16 := Nat.mod_lt _ (by decide)

/-! ## The clocks -/

/-- A clock that starts or stops shows in a BLK_STATE above the ports, and in no other word. -/
theorem rd_showClock_of (s : State) (n : Nat) (on : Bool) {a : Nat} (ha : a < 0x200000 ∨ a % 4096 ≠ 0x0C) :
    rd (showClock s n on) a = rd s a := by
  unfold showClock
  dsimp only
  refine List.foldlRecOn (motive := fun t => rd t a = rd s a) _ _ rfl fun t ht page hpage => ?_
  have hne : a ≠ page + 0x0C := by
    split at hpage
    · obtain ⟨l, hl, hal⟩ := List.mem_flatten.1 hpage
      obtain ⟨g, -, rfl⟩ := List.mem_map.1 hl
      obtain rfl | rfl : page = pLaneGrp g ∨ page = pPattern g := by simpa using hal
      · simp only [pLaneGrp]; omega
      · simp only [pPattern]; omega
    · split at hpage
      · obtain ⟨i, -, rfl⟩ := List.mem_map.1 hpage
        simp only [pLpddr]
        omega
      · exact absurd hpage List.not_mem_nil
  split
  · split
    · rw [rd_fset_ne _ _ _ _ _ _ hne, ht]
    · exact ht
  · rw [rd_fset_ne _ _ _ _ _ _ hne, rd_fset_ne _ _ _ _ _ _ hne, ht]

/-- A word above the chip pages that no clock shows in. -/
def Unclocked (a : Nat) : Prop := 0x100000 ≤ a ∧ (a < 0x200000 ∨ a % 4096 ≠ 0x0C)

theorem rd_turnOn (s : State) {n a : Nat} (hn : n < 113) (ha : Unclocked a) : rd (turnOn s n) a = rd s a := by
  have hnode : ∀ t, rd (setNode t n true) a = rd t a := fun t => rd_setBit_ne _ _ _ _ _ (by
    have := ha.1
    simp only [pClk]
    omega)
  unfold turnOn
  dsimp only
  split
  · rfl
  · rw [rd_showClock_of _ _ _ ha.2, hnode]
    rfl

theorem rd_turnOnChain (s : State) {n a : Nat} (hn : n < 113) (ha : Unclocked a) : rd (turnOnChain s n) a = rd s a := by
  unfold turnOnChain
  split
  · exact rd_turnOn s hn ha
  · next a' ha' =>
    split
    · rw [rd_turnOn _ hn ha, rd_turnOn _ (parentNode_lt ha') ha]
    · next b hb => rw [rd_turnOn _ hn ha, rd_turnOn _ (parentNode_lt ha') ha, rd_turnOn _ (parentNode_lt hb) ha]

theorem getPort_turnOnChain (s : State) (n q : Nat) : getPort (turnOnChain s n) q = getPort s q := by
  rw [getPort, getPort, (turnOnChain_keeps 0x400#64 s s n (by decide) (Keeps.refl _ _)).same .ports (by decide)]

/-! ## Bring-up (R264) -/

/-- A port's training at stage 1. -/
def restarted (x : PortSt) : PortSt :=
  { x with signal := [], identGot := false, identAcked := false, halfReq := false, halfTried := false, waitRestart := false }

theorem eraseLanes_kept (s : State) (p : Nat) (ls : List Nat) :
    ∃ lanes, ls.foldl (fun s l => { s with lanes := Sparse.erase s.lanes (laneNum p l) }) s = { s with lanes := lanes } := by
  refine List.foldlRecOn (motive := fun t => ∃ lanes : Sparse LaneTrain, t = { s with lanes := lanes }) _ _ ⟨s.lanes, rfl⟩ fun t ht l _ => ?_
  obtain ⟨lanes, rfl⟩ := ht
  exact ⟨_, rfl⟩

/-- Bring-up is a port restarted, its rate and its state at stage 1, once its clocks run. -/
theorem bringUp_eq (s : State) (p : Nat) : ∃ lanes b v, v = (if (getPort s p).inner then 8 else 1) ∧ bringUp s p =
    setStage (setPState (setBit { modPort (turnOnChain s (nodeOfPort p)) p restarted with lanes := lanes } (pPort p + 0x44) 17 b) p v) p 1 := by
  obtain ⟨lanes, hlanes⟩ := eraseLanes_kept (modPort (turnOnChain s (nodeOfPort p)) p restarted) p (List.range (lanesOfPort p))
  refine ⟨lanes, bit { modPort (turnOnChain s (nodeOfPort p)) p restarted with lanes := lanes } (pPort p + 0x40) 0, _, rfl, ?_⟩
  have hinner : (getPort (setBit { modPort (turnOnChain s (nodeOfPort p)) p restarted with lanes := lanes } (pPort p + 0x44) 17
      (bit { modPort (turnOnChain s (nodeOfPort p)) p restarted with lanes := lanes } (pPort p + 0x40) 0)) p).inner =
      (getPort s p).inner := by
    show (getPort (modPort (turnOnChain s (nodeOfPort p)) p restarted) p).inner = _
    rw [getPort_modPort_same, getPort_turnOnChain]
    rfl
  rw [← hinner, ← hlanes]
  rfl

theorem getPort_bringUp (s : State) (p q : Nat) :
    getPort (bringUp s p) q = if q = p then restarted (getPort s p) else getPort s q := by
  obtain ⟨lanes, b, v, -, heq⟩ := bringUp_eq s p
  have hmod : getPort (bringUp s p) q = getPort (modPort (turnOnChain s (nodeOfPort p)) p restarted) q := by rw [heq]; rfl
  rw [hmod, modPort, getPort_setPort, getPort_turnOnChain, getPort_turnOnChain]

theorem bringUp_fields (s : State) (p : Nat) :
    pState (bringUp s p) p = (if (getPort s p).inner then 8 else 1) ∧ pStage (bringUp s p) p = 1 := by
  obtain ⟨lanes, b, v, hv, heq⟩ := bringUp_eq s p
  rw [heq, ← hv]
  exact placed_fields _ _ (by rw [hv]; split <;> decide) (by decide)

theorem rd_bringUp (s : State) {p a : Nat} (hp : p < 161) (ha : Unclocked a) (hne : a ≠ pPort p + 0x44 ∧ a ≠ pPort p + 0x48) :
    rd (bringUp s p) a = rd s a := by
  obtain ⟨lanes, b, v, -, heq⟩ := bringUp_eq s p
  rw [heq, rd_setStage_ne _ _ _ hne.1, rd_setPState_ne _ _ _ hne, rd_setBit_ne _ _ _ _ _ hne.1]
  exact rd_turnOnChain s (nodeOfPort_lt hp) ha

/-- The clocks of the port run after its bring-up has begun. -/
theorem nodeOn_bringUp (s : State) {p : Nat} (hp : p < 161) : nodeOn (bringUp s p) (nodeOfPort p) = true := by
  obtain ⟨lanes, b, v, -, heq⟩ := bringUp_eq s p
  have hlt := nodeOfPort_lt hp
  have hbase : pPort p + 0x44 ≠ pClk + 0x50 + 4 * (nodeOfPort p / 32) ∧ pPort p + 0x48 ≠ pClk + 0x50 + 4 * (nodeOfPort p / 32) := by
    simp only [pPort, pClk]
    omega
  rw [heq, nodeOn_congr ((rd_setStage_ne _ _ _ hbase.1.symm).trans ((rd_setPState_ne _ _ _ ⟨hbase.1.symm, hbase.2.symm⟩).trans
    (rd_setBit_ne _ _ _ _ _ hbase.1.symm)))]
  exact nodeOn_turnOnChain s (.inl rfl) hlt

/-! ## Falls and closings -/

/-- A word that neither a fall nor the closing of a stitch writes: calm, and of none of the status words of ports and stitches. -/
def SettledWord (a : Nat) : Prop := CalmWord a ∧ a % 4096 ≠ 0x44 ∧ a % 4096 ≠ 0x48

theorem settledWord_port {p off : Nat} (hp : p < 161) (h : off = 0x0C ∨ off = 0x40 ∨ off = 0x70 ∨ off = 0x74 ∨ off = 0x78) :
    SettledWord (pPort p + off) := by
  simp only [SettledWord, CalmWord, pPort, pSwath]
  omega

theorem settledWord_stitch {n : Nat} (hn : n < 12) : SettledWord (pStitch n + 0x40) := by
  simp only [SettledWord, CalmWord, pStitch, pSwath]
  omega

theorem calmWord_port {p off : Nat} (hp : p < 161) (h : off = 0x44 ∨ off = 0x48) : CalmWord (pPort p + off) := by
  simp only [CalmWord, pPort, pSwath]
  omega

theorem calmWord_stitch {n : Nat} (hn : n < 12) : CalmWord (pStitch n + 0x44) := by
  simp only [CalmWord, pStitch, pSwath]
  omega

/-- What is left of a word under closings and falls, whatever the port. -/
def Settled (s t : State) : Prop := ∀ a, SettledWord a → rd t a = rd s a

theorem Settled.refl (s : State) : Settled s s := fun _ _ => rfl
theorem Settled.trans {s t u : State} (h : Settled s t) (h' : Settled t u) : Settled s u := fun a ha => (h' a ha).trans (h a ha)

theorem settled_fset (s : State) {page : Nat} (off hi lo v : Nat) (hpage : page % 4096 = 0) (hoff : off = 0x44 ∨ off = 0x48) :
    Settled s (fset s (page + off) hi lo v) := fun a ha => rd_fset_ne _ _ _ _ _ _ (by
  have := ha.2
  omega)

theorem settled_setPState (s : State) (p v : Nat) : Settled s (setPState s p v) := fun a ha =>
  rd_setPState_ne _ _ _ (by
    have := ha.2
    simp only [pPort]
    omega)

theorem settled_setStage (s : State) (p v : Nat) : Settled s (setStage s p v) := fun a ha =>
  rd_setStage_ne _ _ _ (by
    have := ha.2
    simp only [pPort]
    omega)

theorem settled_modPort (s : State) (p : Nat) (f : PortSt → PortSt) : Settled s (modPort s p f) := fun _ _ => rfl

theorem settled_linkDown (s : State) (p : Nat) : Settled s (linkDown s p) := fun a ha => (linkDown_falls s p).word a ha.1

theorem settled_closeStitch (s : State) (n cause : Nat) : Settled s (closeStitch s n cause) := by
  have hpage : pStitch n % 4096 = 0 := by
    simp only [pStitch]
    omega
  have hst : ∀ v, Settled s (fset (setSt s n v) (pStitch n + 0x44) 23 16 cause) := fun v =>
    (settled_fset s 0x44 2 0 v hpage (.inl rfl)).trans (settled_fset _ 0x44 23 16 cause hpage (.inl rfl))
  unfold closeStitch
  dsimp only
  split
  · exact hst 4
  · split
    · exact hst 0
    · exact .refl s

theorem settled_closeNow (s : State) (n cause : Nat) : Settled s (closeNow s n cause) := by
  unfold closeNow
  dsimp only
  split
  · refine (settled_closeStitch s n cause).trans ?_
    refine List.foldlRecOn (motive := fun t => Settled (closeStitch s n cause) t) _ _ (.refl _) fun t ht p _ => ?_
    exact ht.trans ((((settled_linkDown t p).trans (settled_modPort _ p _)).trans (settled_setPState _ p 1)).trans
      (settled_setStage _ p 0))
  · exact settled_closeStitch s n cause

theorem settled_closeBehind (s : State) (p cause : Nat) (preventable : Bool) : Settled s (closeBehind s p cause preventable) := by
  unfold closeBehind
  split
  · exact settled_closeNow _ _ _
  · exact .refl s

theorem settled_closeForPort (s : State) (p cause : Nat) (preventable : Bool) : Settled s (closeForPort s p cause preventable) := by
  unfold closeForPort
  split
  · exact settled_closeStitch _ _ _
  · exact .refl s

/-- An enabled port that falls is at stage 1 again. -/
theorem pStage_losePort (s : State) {p : Nat} (hp : p < 161) (hen : portEn s p = true) (htest : portTest s p = false) :
    pStage (losePort s p) p = 1 := by
  have hcfg : ∀ t, Settled (linkDown s p) t → portEn t p = true ∧ portTest t p = false := fun t ht => by
    obtain ⟨hen', htest'⟩ := portEn_congr (((settled_linkDown s p).trans ht) _ (settledWord_port hp (.inr (.inl rfl))))
    exact ⟨hen'.trans hen, htest'.trans htest⟩
  have hblk : ∀ t, portEn t p = true ∧ portTest t p = false → portEn (setBlk t (pPort p) 1) p = true ∧
      portTest (setBlk t (pPort p) 1) p = false := fun t ht => by
    obtain ⟨hen', htest'⟩ := portEn_congr (s := t) (t := setBlk t (pPort p) 1) (p := p) (rd_fset_ne _ _ _ _ _ _ (by omega))
    exact ⟨hen'.trans ht.1, htest'.trans ht.2⟩
  unfold losePort
  dsimp only
  split
  · obtain ⟨hen', htest'⟩ := hblk _ (hcfg _ (settled_closeForPort (linkDown s p) p 5 true))
    rw [if_pos (by rw [hen', htest']; rfl)]
    exact (bringUp_fields _ p).2
  · obtain ⟨hen', htest'⟩ := hcfg _ (.refl _)
    rw [if_pos (by rw [hen', htest']; rfl)]
    exact (bringUp_fields _ p).2

end Sys2Proof.Machine

/-! # The life of a port (R261 to R279) -/
namespace Sys2Proof.Machine

open Sys2Proof

variable {s : State} {p : Nat} {who : Requester}

/-! ## Writes of the port pages -/

/-- A write of a port's own words is its record, the word and what the page does. -/
theorem acceptWrite_port {off : Nat} (hp : p < 161) (h40 : 0x40 ≤ off) (hoff : off < 0x1000) (v m : Word) :
    acceptWrite s who none (pPort p + off) v m = blockActs (written s who (pPort p + off) v m) who none portKind (pPort p) off
      (rd s (pPort p + off)) (mergeWord (pPort p + off) (rd s (pPort p + off)) v m) v m := by
  have hpage := pageOf_port hp hoff
  have hsub : pPort p + off - pPort p = off := Nat.add_sub_cancel_left ..
  have hne : off ≠ 0x08 := by omega
  have hlt : ¬off < 0x40 := by omega
  have hhome : homeOf (pPort p + off) = pPort p + off := by simp [homeOf, hpage, hsub, hne]
  have hsettle : ∀ t, settleBefore t (pPort p + off) = t := fun t => by simp [settleBefore, hpage, portKind]
  have hchange : (changeOf s (pPort p + off) v m).home = pPort p + off ∧
      (changeOf s (pPort p + off) v m).old = rd s (pPort p + off) ∧
      (changeOf s (pPort p + off) v m).new = mergeWord (pPort p + off) (rd s (pPort p + off)) v m := by
    refine ⟨hhome, ?_, ?_⟩ <;> simp [changeOf, hhome]
  obtain ⟨hhome', hold, hnew⟩ := hchange
  simp only [acceptWrite, hpage, hsub, hlt, if_false, hhome', hold, hnew, hsettle]
  rfl

theorem portKind_inst (p : Nat) : portKind.inst (pPort p) = p := by
  simp only [PageKind.inst, portKind, pPort]
  omega

theorem blockActs_portCfg (s : State) (who : Requester) (p : Nat) (old new v m : Word) :
    blockActs s who none portKind (pPort p) 0x40 old new v m = portCfgActs s p old new :=
  congrArg (portCfgActs s · old new) (portKind_inst p)

theorem blockActs_portCmd (s : State) (who : Requester) (p : Nat) (old new v m : Word) :
    blockActs s who none portKind (pPort p) 0x4C old new v m =
      (fun u => if woVal v m 1 1 == 1 then retrainPort u p else u) (if woVal v m 0 0 == 1 then adoptPort s who p else s) :=
  (congrArg (fun i => (fun u => if woVal v m 1 1 == 1 then retrainPort u i else u)
    (if woVal v m 0 0 == 1 then adoptPort s who i else s)) (portKind_inst p))

/-- The settable bits of PORT_CFG take what is written and masked (Table 13.7). -/
theorem mergeWord_portCfg (hp : p < 161) (old v m : Word) {b : Nat} (hb : b = 31 ∨ b = 30 ∨ b = 1 ∨ b = 0) :
    (mergeWord (pPort p + 0x40) old v m).getLsbD b = if m.getLsbD b then v.getLsbD b else old.getLsbD b := by
  have hfields : fieldsAt (pPort p + 0x40) = [fldI 31 31, fldI 30 30, fldI 29 29, fldI 28 28, fldI 1 0] := by
    simp only [fieldsAt, pageOf_port hp (by decide : 0x40 < 0x1000), Nat.add_sub_cancel_left]
    rfl
  have hset : (accMask [fldI 31 31, fldI 30 30, fldI 29 29, fldI 28 28, fldI 1 0] isWritten).getLsbD b = true := by
    rcases hb with rfl | rfl | rfl | rfl <;> decide
  have hclear : (accMask [fldI 31 31, fldI 30 30, fldI 29 29, fldI 28 28, fldI 1 0] (· == .w1c)).getLsbD b = false := by
    rcases hb with rfl | rfl | rfl | rfl <;> decide
  rw [mergeWord_getLsbD _ _ _ (by omega) (.inl (by simp only [pPort, wRank]; omega)), hfields, hset, hclear]
  simp

/-- The write of PORT_CFG leaves the rest of the device. -/
structure CfgWritten (s : State) (p : Nat) (u : State) : Prop where
  word : ∀ a, a ≠ pPort p + 0x40 → rd u a = rd s a
  faults : u.faults = s.faults
  ports : u.ports = s.ports

theorem written_cfg (s : State) (who : Requester) (p : Nat) (v m : Word) : CfgWritten s p (written s who (pPort p + 0x40) v m) := by
  obtain ⟨regs, audit, hframe⟩ := written_frame s who (pPort p + 0x40) v m
  exact ⟨fun a ha => rd_written_ne _ _ _ _ ha, by rw [hframe], by rw [hframe]⟩

theorem commandWrite_portCfg (hp : p < 161) {v m : Word} (hacc : Accepts s who (pPort p + 0x40) v m) :
    commandWrite who none (pPort p + 0x40) v m s = portCfgActs (written s who (pPort p + 0x40) v m) p (rd s (pPort p + 0x40))
      (mergeWord (pPort p + 0x40) (rd s (pPort p + 0x40)) v m) := by
  rw [commandWrite_of_accepts hacc, acceptWrite_port hp (by decide) (by decide), blockActs_portCfg]

theorem exec_portEnable (hp : p < 161) (mode : BitVec 2) (s : State) : exec (.portEnable who p mode) s =
    .next (commandWrite who none (pPort p + 0x40) (BitVec.ofNat 32 (2147483648 + mode.toNat)) 0x80000003 s) :=
  writeIf_pos (decide_eq_true (by omega)) ..

theorem exec_portDisable (hp : p < 161) (s : State) :
    exec (.portDisable who p) s = .next (commandWrite who none (pPort p + 0x40) 0 0x80000000 s) :=
  writeIf_pos (decide_eq_true (by omega)) ..

theorem exec_portTestEnter (hp : p < 161) (s : State) :
    exec (.portTestEnter who p) s = .next (commandWrite who none (pPort p + 0x40) 0x40000000 0x40000000 s) :=
  writeIf_pos (decide_eq_true (by omega)) ..

/-! ## EN (R264, R381) -/

/-- A port as it starts: its configuration is as written, its block STARTING, and its clocks run. -/
structure PortStarts (s : State) (p : Nat) (t : State) : Prop where
  cfg : rd t (pPort p + 0x40) = rd s (pPort p + 0x40)
  block : blkState t (pPort p) = 1
  clock : nodeOn t (nodeOfPort p) = true

theorem portStarts_of (hp : p < 161) {t : State} (h : PortStarts s p t) {v st : Nat} :
    PortStarts s p (setStage (setPState t p v) p st) := by
  have hrd : ∀ a, a ≠ pPort p + 0x44 ∧ a ≠ pPort p + 0x48 → rd (setStage (setPState t p v) p st) a = rd t a := fun a ha =>
    (rd_setStage_ne _ _ _ ha.1).trans (rd_setPState_ne _ _ _ ha)
  have hlt := nodeOfPort_lt hp
  exact ⟨(hrd _ (by omega)).trans h.cfg, (blkState_congr (hrd _ (by omega))).trans h.block,
    (nodeOn_congr (hrd _ (by simp only [pPort, pClk]; omega))).trans h.clock⟩

theorem startPort_starts (hp : p < 160) (hfrozen : frozen s (pPort p) = false) (htest : portTest s p = false) :
    PortStarts s p (startPort s p) := by
  have hlt : nodeOfPort p < 113 := nodeOfPort_lt (by omega)
  have hport : ∀ off, Unclocked (pPort p + off) ↔ (pPort p + off < 0x200000 ∨ (pPort p + off) % 4096 ≠ 0x0C) := fun off => by
    simp only [Unclocked, pPort]
    omega
  have hclocked : ∀ off, off < 0x100 → Unclocked (pPort p + off) := fun off h => (hport off).2 (.inl (by simp only [pPort]; omega))
  have hblk : PortStarts s p (setBlk (turnOnChain s (nodeOfPort p)) (pPort p) 1) := by
    refine ⟨?_, blkState_setBlk _ _ (by decide), ?_⟩
    · rw [setBlk, rd_fset_ne _ _ _ _ _ _ (by omega), rd_turnOnChain s hlt (hclocked _ (by decide))]
    · exact (nodeOn_congr (rd_fset_ne _ _ _ _ _ _ (by simp only [pPort, pClk]; omega))).trans (nodeOn_turnOnChain s (.inl rfl) hlt)
  have htest' : portTest (setBlk (turnOnChain s (nodeOfPort p)) (pPort p) 1) p = false := (portEn_congr hblk.cfg).2.trans htest
  unfold startPort
  rw [if_neg (by simp [hfrozen]; omega)]
  dsimp only
  rw [if_neg (by simp [htest'])]
  generalize setBlk (turnOnChain s (nodeOfPort p)) (pPort p) 1 = u at hblk
  split
  · exact hblk
  · split
    · exact portStarts_of (by omega) hblk
    · refine ⟨?_, ?_, nodeOn_bringUp u (by omega)⟩
      · rw [rd_bringUp u (by omega) (hclocked _ (by decide)) (by omega), hblk.cfg]
      · rw [blkState_congr (rd_bringUp u (by omega) (hclocked _ (by decide)) (by omega)), hblk.block]

theorem portCfgActs_enables {old new : Word} (hen : new.getLsbD 31 = true) (hwas : old.getLsbD 31 = false)
    (htest : new.getLsbD 30 = old.getLsbD 30) (hblk : blkState s (pPort p) = 0) : portCfgActs s p old new = startPort s p := by
  have hfirst : portCfgActs s p old new = enablePort s p := by
    unfold portCfgActs
    rw [htest, hen, hwas]
    cases old.getLsbD 30 <;> rfl
  rw [hfirst, enablePort]
  rw [if_neg (by simp [hblk]), if_pos (by simp [hblk])]

theorem portCfgActs_disables {old new : Word} (hen : new.getLsbD 31 = false) (hwas : old.getLsbD 31 = true)
    (htest : new.getLsbD 30 = old.getLsbD 30) : portCfgActs s p old new = disablePort s p := by
  unfold portCfgActs
  rw [htest, hen, hwas]
  cases old.getLsbD 30 <;> rfl

theorem portCfgActs_enters {old new : Word} (hen : new.getLsbD 31 = old.getLsbD 31) (htest : new.getLsbD 30 = true)
    (hwas : old.getLsbD 30 = false) : portCfgActs s p old new = enterTest s p := by
  unfold portCfgActs
  rw [htest, hwas, hen]
  cases old.getLsbD 31 <;> rfl

/-- The value of an enabling write. -/
theorem enableValue (mode : BitVec 2) : (BitVec.ofNat 32 (2147483648 + mode.toNat)).getLsbD 31 = true ∧
    bitsOf (BitVec.ofNat 32 (2147483648 + mode.toNat)) 1 0 = mode.toNat := by
  have hmode := mode.isLt
  refine ⟨?_, ?_⟩
  · rw [BitVec.getLsbD_ofNat, Nat.testBit_eq_decide_div_mod_eq]
    simp
    omega
  · rw [bitsOf, BitVec.toNat_ofNat]
    omega

theorem portEnable_starts (hp : p < 160) (mode : BitVec 2)
    (hacc : Accepts s who (pPort p + 0x40) (BitVec.ofNat 32 (2147483648 + mode.toNat)) 0x80000003) (hen : portEn s p = false)
    (htest : portTest s p = false) (hblk : blkState s (pPort p) = 0) (hheld : s.faults.held = false) :
    Runs (.portEnable who p mode) s fun t => portEn t p = true ∧ fget t (pPort p + 0x40) 1 0 = mode.toNat ∧
      blkState t (pPort p) = 1 ∧ nodeOn t (nodeOfPort p) = true := by
  have hp' : p < 161 := by omega
  obtain ⟨hon, hmode⟩ := enableValue mode
  have hbit := fun b hb => mergeWord_portCfg hp' (rd s (pPort p + 0x40)) (BitVec.ofNat 32 (2147483648 + mode.toNat)) 0x80000003
    (b := b) hb
  have hu := written_cfg s who p (BitVec.ofNat 32 (2147483648 + mode.toNat)) 0x80000003
  have hword : rd (written s who (pPort p + 0x40) (BitVec.ofNat 32 (2147483648 + mode.toNat)) 0x80000003) (pPort p + 0x40) =
      mergeWord (pPort p + 0x40) (rd s (pPort p + 0x40)) (BitVec.ofNat 32 (2147483648 + mode.toNat)) 0x80000003 := rd_written_same ..
  have hwrite := commandWrite_portCfg hp' hacc
  generalize written s who (pPort p + 0x40) (BitVec.ofNat 32 (2147483648 + mode.toNat)) 0x80000003 = u at hu hword hwrite
  generalize hnew : mergeWord (pPort p + 0x40) (rd s (pPort p + 0x40)) (BitVec.ofNat 32 (2147483648 + mode.toNat)) 0x80000003 = new
    at hbit hword hwrite
  have h31 : new.getLsbD 31 = true := (hbit 31 (.inl rfl)).trans ((if_pos (by decide)).trans hon)
  have h30 : new.getLsbD 30 = (rd s (pPort p + 0x40)).getLsbD 30 := (hbit 30 (.inr (.inl rfl))).trans (if_neg (by decide))
  have hblk' : blkState u (pPort p) = 0 := (blkState_congr (hu.word _ (by omega))).trans hblk
  have hfrozen : frozen u (pPort p) = false := by rw [frozen, hu.faults, hheld, hblk']; rfl
  have htest' : portTest u p = false := by
    rw [portTest, bit, hword, h30]
    exact htest
  rw [portCfgActs_enables h31 hen h30 hblk'] at hwrite
  obtain ⟨hcfg, hblock, hclock⟩ := startPort_starts hp hfrozen htest'
  refine ⟨_, exec_portEnable hp' mode s, ?_⟩
  rw [hwrite]
  refine ⟨?_, ?_, hblock, hclock⟩
  · rw [portEn, bit, hcfg, hword, h31]
  · rw [fget, hcfg, hword, ← hmode]
    apply Nat.eq_of_testBit_eq
    intro i
    rw [bitsOf_bit, bitsOf_bit, Nat.zero_add]
    by_cases hi : i < 2
    · rw [hbit i (by omega), if_pos (by interval_cases i <;> decide)]
    · simp [hi]

end Sys2Proof.Machine

/-! # Training, identities and admission of a port (R264 to R272, R275, R277, R279) -/
namespace Sys2Proof.Machine

open Sys2Proof

variable {s : State} {p : Nat} {who : Requester}

/-! ## What the words and the training of a port leave of each other -/

theorem rd_modPort (s : State) (q : Nat) (f : PortSt → PortSt) (a : Nat) : rd (modPort s q f) a = rd s a := rfl
theorem getPort_fset (s : State) (a hi lo v q : Nat) : getPort (fset s a hi lo v) q = getPort s q := rfl
theorem getPort_setBit (s : State) (a i : Nat) (v : Bool) (q : Nat) : getPort (setBit s a i v) q = getPort s q := rfl
theorem getPort_setPState (s : State) (p v q : Nat) : getPort (setPState s p v) q = getPort s q := rfl
theorem getPort_setStage (s : State) (p v q : Nat) : getPort (setStage s p v) q = getPort s q := rfl
theorem getPort_setBlk (s : State) (page v q : Nat) : getPort (setBlk s page v) q = getPort s q := rfl
theorem getPort_setLaneBit (s : State) (p lane base : Nat) (v : Bool) (q : Nat) :
    getPort (setLaneBit s p lane base v) q = getPort s q := rfl
theorem getPort_sendTrain (s : State) (p lane : Nat) (b : Bool) (q : Nat) : getPort (sendTrain s p lane b) q = getPort s q := rfl
theorem rd_sendTrain (s : State) (p lane : Nat) (b : Bool) (a : Nat) : rd (sendTrain s p lane b) a = rd s a := rfl

/-! ## EN and TEST written (R275, R279) -/

/-- The fall of a port behind its stitch leaves its configuration and its block. -/
theorem settled_behind (s : State) (hp : p < 161) (off : Nat) (h : off = 0x0C ∨ off = 0x40) (cause : Nat) (preventable : Bool) :
    rd (closeBehind s p cause preventable) (pPort p + off) = rd s (pPort p + off) :=
  settled_closeBehind s p cause preventable _ (settledWord_port hp (by omega))

theorem disablePort_stops (hp : p < 161) (hblk : blkState s (pPort p) = 2) (hheld : s.faults.held = false) :
    rd (disablePort s p) (pPort p + 0x40) = rd s (pPort p + 0x40) ∧ blkState (disablePort s p) (pPort p) = 3 := by
  have hfrozen : frozen s (pPort p) = false := by
    rw [frozen, hheld, hblk]
    rfl
  have heq : disablePort s p = setCause (setBlk (closeBehind s p 4 false) (pPort p) 3) (pPort p) 1 := by
    simp [disablePort, hblk, hfrozen]
  rw [heq, blkState_setCause, blkState_setBlk _ _ (by decide), setCause, setBlk, rd_fset_ne _ _ _ _ _ _ (by omega),
    rd_fset_ne _ _ _ _ _ _ (by omega), settled_behind s hp 0x40 (.inr rfl)]
  exact ⟨rfl, rfl⟩

/-- A port outside its inner check. -/
def outOfCheck (x : PortSt) : PortSt := { x with inner := false }

theorem dark_outOfCheck {x : PortSt} (h : dark x) : dark (outOfCheck x) := ⟨h.1, h.2⟩

/-- A port as it falls for TEST. -/
def testFallen (s : State) (p : Nat) : State := modPort (linkDown (closeBehind s p 5 true) p) p outOfCheck

theorem enterTest_eq (hfrozen : frozen s (pPort p) = false) : enterTest s p = setStage (setPState
    (if blkState (testFallen s p) (pPort p) == 2 then setBlk (testFallen s p) (pPort p) 1 else testFallen s p) p 7) p 0 := by
  unfold enterTest
  rw [if_neg (by simp [hfrozen])]
  rfl

theorem rd_testFallen (s : State) (hp : p < 161) : rd (testFallen s p) (pPort p + 0x40) = rd s (pPort p + 0x40) := by
  rw [testFallen, rd_modPort, settled_linkDown (closeBehind s p 5 true) p _ (settledWord_port hp (.inr (.inl rfl))),
    settled_behind s hp 0x40 (.inr rfl)]

theorem dark_testFallen (s : State) (p : Nat) : dark (getPort (testFallen s p) p) := by
  rw [testFallen, getPort_modPort_same]
  exact dark_outOfCheck (dark_linkDown _ p)

/-- A port put in TEST: it is in TEST, at no stage, and dark. -/
theorem enterTest_enters (hp : p < 161) (hfrozen : frozen s (pPort p) = false) :
    rd (enterTest s p) (pPort p + 0x40) = rd s (pPort p + 0x40) ∧ pState (enterTest s p) p = 7 ∧ pStage (enterTest s p) p = 0 ∧
      dark (getPort (enterTest s p) p) := by
  obtain ⟨u, hword, hdark, heq⟩ : ∃ u, rd u (pPort p + 0x40) = rd s (pPort p + 0x40) ∧ dark (getPort u p) ∧
      enterTest s p = setStage (setPState u p 7) p 0 := by
    refine ⟨_, ?_, ?_, enterTest_eq hfrozen⟩
    · split
      · exact (rd_fset_ne _ _ _ _ _ _ (by omega)).trans (rd_testFallen s hp)
      · exact rd_testFallen s hp
    · split
      · rw [getPort_setBlk]
        exact dark_testFallen s p
      · exact dark_testFallen s p
  rw [heq, rd_setStage_ne _ _ _ (by omega), rd_setPState_ne _ _ _ (by omega), getPort_setStage, getPort_setPState]
  obtain ⟨hstate, hstage⟩ := placed_fields u p (v := 7) (st := 0) (by decide) (by decide)
  exact ⟨hword, hstate, hstage, hdark⟩

theorem portDisable_stops (hp : p < 160) (hacc : Accepts s who (pPort p + 0x40) 0 0x80000000) (hen : portEn s p = true)
    (hblk : blkState s (pPort p) = 2) (hheld : s.faults.held = false) :
    Runs (.portDisable who p) s fun t => portEn t p = false ∧ blkState t (pPort p) = 3 := by
  have hp' : p < 161 := by omega
  have hu := written_cfg s who p 0 0x80000000
  have hbit := fun b hb => mergeWord_portCfg hp' (rd s (pPort p + 0x40)) 0 0x80000000 (b := b) hb
  have h31 := (hbit 31 (.inl rfl)).trans (if_pos (by decide))
  have h30 := (hbit 30 (.inr (.inl rfl))).trans (if_neg (by decide))
  refine ⟨_, exec_portDisable hp' s, ?_⟩
  rw [commandWrite_portCfg hp' hacc, portCfgActs_disables h31 hen h30]
  obtain ⟨hcfg, hstop⟩ := disablePort_stops hp' ((blkState_congr (hu.word _ (by omega))).trans hblk)
    ((congrArg FaultSt.held hu.faults).trans hheld)
  refine ⟨?_, hstop⟩
  rw [portEn, bit, hcfg, rd_written_same, h31]
  rfl

theorem portTestEnter_enters (hp : p < 160) (hacc : Accepts s who (pPort p + 0x40) 0x40000000 0x40000000)
    (htest : portTest s p = false) (hfrozen : frozen s (pPort p) = false) :
    Runs (.portTestEnter who p) s fun t => portTest t p = true ∧ pState t p = 7 ∧ pStage t p = 0 ∧
      (getPort t p).credits = [] ∧ (getPort t p).replay = [] := by
  have hp' : p < 161 := by omega
  have hu := written_cfg s who p 0x40000000 0x40000000
  have hbit := fun b hb => mergeWord_portCfg hp' (rd s (pPort p + 0x40)) 0x40000000 0x40000000 (b := b) hb
  have h31 := (hbit 31 (.inl rfl)).trans (if_neg (by decide))
  have h30 := (hbit 30 (.inr (.inl rfl))).trans (if_pos (by decide))
  have hword := rd_written_same s who (pPort p + 0x40) 0x40000000 0x40000000
  refine ⟨_, exec_portTestEnter hp' s, ?_⟩
  rw [commandWrite_portCfg hp' hacc, portCfgActs_enters h31 h30 htest]
  obtain ⟨hcfg, hstate, hstage, hdark⟩ := enterTest_enters (s := written s who (pPort p + 0x40) 0x40000000 0x40000000) hp'
    ((frozen_congr (by rw [hu.faults]) (hu.word _ (by omega))).trans hfrozen)
  refine ⟨?_, hstate, hstage, hdark⟩
  rw [portTest, bit, hcfg, hword]
  exact h30

/-! ## Training (R264 to R266) -/

/-- Training frames change nothing but the outputs. -/
theorem sendTrains_out (p : Nat) (b : Bool) (ls : List Nat) (s : State) :
    ∃ out, ls.foldl (fun s l => sendTrain s p l b) s = { s with out := s.out ++ out } ∧
      ∀ lane ∈ ls, ∃ a, Output.link p "TRAIN" a ∈ out := by
  induction ls generalizing s with
  | nil => exact ⟨[], by simp, by simp⟩
  | cons l ls ih =>
    obtain ⟨out, heq, hall⟩ := ih (sendTrain s p l b)
    refine ⟨.link p "TRAIN" (l * 2 ^ 80 + (trainBlock s p l b).toNat) :: out, ?_, fun lane hlane => ?_⟩
    · rw [List.foldl_cons, heq]
      simp [sendTrain, emit]
    · rcases List.mem_cons.1 hlane with rfl | h
      · exact ⟨_, List.mem_cons_self⟩
      · obtain ⟨a, ha⟩ := hall lane h
        exact ⟨a, List.mem_cons_of_mem _ ha⟩

theorem emits_sendTrain (s : State) (p lane : Nat) (b : Bool) : ∃ a, Emits s (sendTrain s p lane b) (.link p "TRAIN" a) :=
  ⟨_, emits_emit s _⟩

theorem rd_setLaneBit (s : State) {p off : Nat} (hp : p < 161) (hoff : off < 4096) (q lane base : Nat) (v : Bool) :
    rd (setLaneBit s q lane base v) (pPort p + off) = rd s (pPort p + off) :=
  rd_setBit_ne _ _ _ _ _ (by
    simp only [pPort, pLaneGrp]
    omega)

/-- A port's training with a signal on a lane. -/
def withSignal (lane : Nat) (x : PortSt) : PortSt := { x with signal := addNat x.signal lane }

/-- A lane with a signal trains: its port is at stage 2 or beyond. -/
def signalTaken (s : State) (p lane : Nat) : State :=
  setPState (modPort (setLaneBit s p lane 0 false) p (withSignal lane)) p 2

theorem exec_signalDetect_trains {lane : Nat} (hp : p < 161) (hen : portEn s p = true) (htest : portTest s p = false)
    (hwait : (getPort s p).waitRestart = false) (hstate : pState s p = 1) (hstage : pStage s p < 8) :
    exec (.signalDetect p lane) s =
      .next (sendTrain (setStage (signalTaken s p lane) p (Nat.max 2 (pStage (signalTaken s p lane) p))) p lane false) := by
  obtain ⟨hen', htest'⟩ := portEn_congr (rd_setLaneBit s hp (by decide : 0x40 < 4096) p lane 0 false)
  obtain ⟨-, hstage'⟩ := pState_congr (rd_setLaneBit s hp (by decide : 0x44 < 4096) p lane 0 false)
  have hgo : ¬(!portEn (setLaneBit s p lane 0 false) p || portTest (setLaneBit s p lane 0 false) p ||
      (getPort (setLaneBit s p lane 0 false) p).waitRestart) = true := by
    rw [hen', htest', hen, htest, show (getPort (setLaneBit s p lane 0 false) p).waitRestart = false from hwait]
    decide
  have hstripe : ¬striped (setLaneBit s p lane 0 false) p = true := by
    rw [striped, hstage', decide_eq_true_eq]
    omega
  show execSignalDetect p lane s = _
  unfold execSignalDetect
  dsimp only
  rw [if_neg hgo, if_neg hstripe, if_pos (by rw [hstate]; rfl), if_neg (by rw [hstate]; decide)]
  rfl

theorem pStage_signalTaken (hp : p < 161) (lane : Nat) : pStage (signalTaken s p lane) p = pStage s p :=
  (pStage_setPState _ p 2).trans (pState_congr (t := setLaneBit s p lane 0 false)
    (rd_setLaneBit s hp (by decide) p lane 0 false)).2

theorem getPort_signalTaken (s : State) (p lane : Nat) :
    getPort (signalTaken s p lane) p = withSignal lane (getPort s p) := by
  rw [signalTaken, getPort_setPState, getPort_modPort_same, getPort_setLaneBit]

theorem signalDetect_trains {lane : Nat} (hp : p < 161) (hen : portEn s p = true) (htest : portTest s p = false)
    (hwait : (getPort s p).waitRestart = false) (hstate : pState s p = 1) (hstage : pStage s p < 8) :
    Runs (.signalDetect p lane) s fun t => pState t p = 2 ∧ lane ∈ (getPort t p).signal ∧ 2 ≤ pStage t p ∧
      ∃ a, Emits s t (.link p "TRAIN" a) := by
  have hbound : Nat.max 2 (pStage (signalTaken s p lane) p) < 16 := by
    rw [pStage_signalTaken hp]
    exact Nat.max_lt.2 ⟨by decide, by omega⟩
  obtain ⟨a, hemits⟩ := emits_sendTrain (setStage (signalTaken s p lane) p (Nat.max 2 (pStage (signalTaken s p lane) p))) p lane false
  refine ⟨_, exec_signalDetect_trains hp hen htest hwait hstate hstage, ?_, ?_, ?_, a, hemits⟩
  · rw [(pState_congr (rd_sendTrain _ _ _ _ _)).1, pState_setStage, signalTaken, pState_setPState _ _ (by decide)]
  · rw [getPort_sendTrain, getPort_setStage, getPort_signalTaken]
    exact mem_addNat_self _ _
  · rw [(pState_congr (rd_sendTrain _ _ _ _ _)).2, pStage_setStage _ _ hbound]
    exact Nat.le_max_left ..

theorem exec_trainingFrameRx_ignored {lane : Nat} {f : TrainFrame} (hcrc : frameCrcOk f.control = false) :
    exec (.trainingFrameRx p lane f) s = .next s := by
  show execTrainingFrameRx p lane f s = _
  simp [execTrainingFrameRx, hcrc]

theorem portFrame_emits (s : State) (p lane : Nat) (f : TrainFrame) : ∃ a, Emits s (portFrame s p lane f) (.link p "TRAIN" a) := by
  have htake : ∀ t : State, s.out <+: t.out → ∃ a, Emits s (takeFrame t p lane f) (.link p "TRAIN" a) := fun t ht => by
    unfold takeFrame
    dsimp only
    split
    · obtain ⟨a, ha⟩ := emits_sendTrain (setLaneBit (fset (fset (setLane (setLaneBit t p lane 4 false) (laneNum p lane)
        (laneFrame (getLane t (laneNum p lane)) f)) (pLaneGrp (laneGroup p lane) + 0x48) (8 * (lane % 4) + 7) (8 * (lane % 4))
        f.snr.toNat) (pLaneGrp (laneGroup p lane) + 0x4C) (4 * (lane % 4) + 3) (4 * (lane % 4))
        (laneFrame (getLane t (laneNum p lane)) f).preset) p lane 8 f.inverted) p lane false
      exact ⟨a, ha.before ht⟩
    · obtain ⟨a, ha⟩ := emits_sendTrain (fset (fset (setLane (setLaneBit t p lane 4 false) (laneNum p lane)
        (laneFrame (getLane t (laneNum p lane)) f)) (pLaneGrp (laneGroup p lane) + 0x48) (8 * (lane % 4) + 7) (8 * (lane % 4))
        f.snr.toNat) (pLaneGrp (laneGroup p lane) + 0x4C) (4 * (lane % 4) + 3) (4 * (lane % 4))
        (laneFrame (getLane t (laneNum p lane)) f).preset) p lane false
      exact ⟨a, ha.before ht⟩
  obtain ⟨a, ha⟩ := htake (setStage s p (Nat.max 3 (pStage s p))) (List.prefix_refl _)
  refine ⟨a, ha.later ?_⟩
  unfold portFrame
  dsimp only
  generalize takeFrame (setStage s p (Nat.max 3 (pStage s p))) p lane f = u
  refine (stageEnds_keeps _ u _ p (by decide) ?_).out_prefix
  split
  · exact .refl _ _
  · exact laneDone_keeps _ _ _ _ _ _ (by decide) (.refl _ _)

theorem goHalf_emits {lane : Nat} (hlane : lane ∈ (getPort s p).signal) : ∃ a, Emits s (goHalf s p) (.link p "TRAIN" a) := by
  obtain ⟨lanes, hlanes⟩ := eraseLanes_kept (modPort s p fun x => { x with halfReq := false, halfTried := true }) p (List.range (lanesOfPort p))
  unfold goHalf
  dsimp only
  rw [hlanes]
  have hsignal : (getPort (setStage (setBit { modPort s p (fun x => { x with halfReq := false, halfTried := true }) with lanes := lanes }
      (pPort p + 0x44) 17 true) p 2) p).signal = (getPort s p).signal := by
    show (getPort (modPort s p fun x => { x with halfReq := false, halfTried := true }) p).signal = _
    rw [getPort_modPort_same]
  rw [hsignal]
  generalize hu : setStage (setBit { modPort s p (fun x => { x with halfReq := false, halfTried := true }) with lanes := lanes }
      (pPort p + 0x44) 17 true) p 2 = u
  have hout : u.out = s.out := by rw [← hu]; rfl
  obtain ⟨out, heq, hall⟩ := sendTrains_out p false (getPort s p).signal u
  obtain ⟨a, ha⟩ := hall lane hlane
  rw [heq]
  exact ⟨a, out, by rw [← hout], ha⟩

theorem trainingFrameRx_answers {lane : Nat} {f : TrainFrame} (hcrc : frameCrcOk f.control = true) (hen : portEn s p = true)
    (htest : portTest s p = false) (hlow : 2 ≤ pStage s p) (hhigh : pStage s p < 8)
    (hsignal : (getPort s p).signal.contains lane = true) :
    Runs (.trainingFrameRx p lane f) s fun t => ∃ a, Emits s t (.link p "TRAIN" a) := by
  have hstripe : striped s p = false := decide_eq_false (by omega)
  have hmem : lane ∈ (getPort s p).signal := List.contains_iff_mem.1 hsignal
  suffices h : ∃ t, execTrainingFrameRx p lane f s = .next t ∧ ∃ a, Emits s t (.link p "TRAIN" a) from h
  unfold execTrainingFrameRx
  dsimp only
  rw [if_neg (by simp [hcrc, hen, htest]), if_neg (by simp [hstripe]), if_neg (by simp [hmem]; omega)]
  split
  · exact ⟨_, rfl, goHalf_emits hmem⟩
  · split
    · obtain ⟨a, ha⟩ := emits_sendTrain s p lane true
      exact ⟨_, rfl, a, ha.later (goHalf_keeps _ _ _ _ (by decide) (.refl _ _)).out_prefix⟩
    · exact ⟨_, rfl, portFrame_emits s p lane f⟩

/-! ## Stages that fail (R264, R266) -/

/-- A port whose attempt has failed waits for its restart. -/
def awaiting (x : PortSt) : PortSt := { x with waitRestart := true }

theorem awaiting_fields (x : PortSt) : (awaiting x).inner = x.inner ∧ (awaiting x).signal = x.signal ∧ (awaiting x).waitRestart = true :=
  ⟨rfl, rfl, rfl⟩

/-- A port that asks for the half rate. -/
def askingHalf (x : PortSt) : PortSt := { x with halfReq := true }

theorem stageFails_fields (s : State) (p : Nat) :
    pState (stageFails s p) p = (if (getPort s p).inner then 8 else 1) ∧ (getPort (stageFails s p) p).signal = [] ∧
      (getPort (stageFails s p) p).waitRestart = true := by
  obtain ⟨u, hu⟩ : ∃ u, u = linkDown (fieldSat s (pPort p + 0x44) 31 24 1) p := ⟨_, rfl⟩
  have hfall := (linkDown_falls (fieldSat s (pPort p + 0x44) 31 24 1) p).port
  rw [← hu, fieldSat, getPort_fset] at hfall
  have heq : stageFails s p = setPState (modPort u p awaiting) p (if (getPort (modPort u p awaiting) p).inner then 8 else 1) := by
    rw [hu]
    rfl
  obtain ⟨hinner, hsignal, hwait⟩ := awaiting_fields (getPort u p)
  rw [heq, getPort_setPState, getPort_modPort_same, hinner, hfall.inner, hsignal]
  exact ⟨pState_setPState _ _ (by split <;> decide), hfall.signal, hwait⟩

theorem bringupStageTimeout_fails (hstate : pState s p = 2 ∨ pState s p = 3) (hback : mayFallBack s p = false) :
    Runs (.bringupStageTimeout p) s fun t => pState t p = (if (getPort s p).inner then 8 else 1) ∧ (getPort t p).signal = [] ∧
      (getPort t p).waitRestart = true := by
  refine ⟨stageFails s p, ?_, stageFails_fields s p⟩
  show execBringupStageTimeout p s = _
  rcases hstate with h | h <;> simp [execBringupStageTimeout, h, hback]

theorem bringupStageTimeout_fallsBack (hstate : pState s p = 2 ∨ pState s p = 3) (hback : mayFallBack s p = true) :
    Runs (.bringupStageTimeout p) s fun t => (getPort t p).halfReq = true ∧ pStage t p = pStage s p ∧
      ∀ lane ∈ (getPort s p).signal, ∃ a, Emits s t (.link p "TRAIN" a) := by
  obtain ⟨u, hu⟩ : ∃ u, u = modPort (fieldSat s (pPort p + 0x44) 31 24 1) p askingHalf := ⟨_, rfl⟩
  have hrun : exec (.bringupStageTimeout p) s = .next ((getPort u p).signal.foldl (fun s l => sendTrain s p l false) u) := by
    rw [hu]
    show execBringupStageTimeout p s = _
    unfold execBringupStageTimeout
    dsimp only
    rw [if_neg (by rcases hstate with h | h <;> rw [h] <;> decide), if_pos hback]
    rfl
  have hport : getPort u p = askingHalf (getPort s p) := by rw [hu, getPort_modPort_same, fieldSat, getPort_fset]
  have hstage : pStage u p = pStage s p := by
    rw [hu]
    exact fget_fset_apart _ _ _ _ _ _ _ (by decide) (by decide) (.inl (by decide))
  have hout : u.out = s.out := by
    rw [hu]
    rfl
  obtain ⟨out, heq, hall⟩ := sendTrains_out p false (getPort u p).signal u
  rw [heq] at hrun
  refine ⟨_, hrun, (congrArg PortSt.halfReq hport :), hstage, fun lane hlane => ?_⟩
  obtain ⟨a, ha⟩ := hall lane (by rw [hport]; exact hlane)
  exact ⟨a, out, by rw [← hout], ha⟩

theorem bringupRestart_restarts (hen : portEn s p = true) (htest : portTest s p = false) (hwait : (getPort s p).waitRestart = true) :
    Runs (.bringupRestart p) s fun t => pStage t p = 1 ∧ (getPort t p).signal = [] ∧ (getPort t p).identGot = false ∧
      (getPort t p).waitRestart = false := by
  refine ⟨bringUp s p, ?_, (bringUp_fields s p).2, ?_⟩
  · show execBringupRestart p s = _
    simp [execBringupRestart, hen, htest, hwait]
  · rw [getPort_bringUp, if_pos rfl]
    exact ⟨rfl, rfl, rfl⟩

theorem heldDownRetry_restarts (hstate : pState s p = 6) :
    Runs (.heldDownRetry p) s fun t => pStage t p = 1 ∧ (getPort t p).signal = [] := by
  refine ⟨bringUp (linkDown s p) p, ?_, (bringUp_fields _ p).2, ?_⟩
  · show execHeldDownRetry p s = _
    simp [execHeldDownRetry, hstate]
  · rw [getPort_bringUp, if_pos rfl]
    rfl

end Sys2Proof.Machine

/-! # Identities, admission and commands of a port (R266 to R272, R277) -/
namespace Sys2Proof.Machine

open Sys2Proof

variable {s : State} {p : Nat} {who : Requester}

/-! ## Identities (R268) -/

/-- A port that has received an IDENT. -/
def gotIdent (x : PortSt) : PortSt := { x with identGot := true }

/-- A port whose IDENT is acknowledged. -/
def ackedIdent (x : PortSt) : PortSt := { x with identAcked := true }

theorem emits_sendIdent (s : State) (p : Nat) (k : Pkt) : Emits s (sendIdent s p k) (.single p k) :=
  (emits_emit (ctrAdd (keepFrame s p k) (pPort p) 1 1) _).before
    (ctrAdd_keeps _ s _ _ _ _ (by decide) (keepFrame_keeps _ _ _ _ _ (by decide) (.refl _ _))).out_prefix

theorem identTimer_sends (hstage : pStage s p = 8) (hstate : pState s p = 3) (hgot : (getPort s p).identGot = false) :
    Runs (.identTimer p) s fun t => Emits s t (.single p (ctrlPkt tCtrl 0x10 (identPayload s p))) := by
  refine ⟨_, ?_, emits_sendIdent s p _⟩
  show execIdentTimer p s = _
  unfold execIdentTimer
  dsimp only
  rw [if_pos (by rw [hstage, hstate, hgot]; rfl)]

/-- A port that takes identities: live, enabled and past stage 7. -/
structure TakesIdents (s : State) (p : Nat) : Prop where
  live : live s = true
  held : s.faults.held = false
  enabled : portEn s p = true
  noTest : portTest s p = false
  stage : 8 ≤ pStage s p

theorem TakesIdents.not_refused (h : TakesIdents s p) :
    ¬(!Machine.live s || heldNow s || !portEn s p || portTest s p || decide (pStage s p < 8)) = true := by
  rw [heldNow, h.live, h.held, h.enabled, h.noTest, decide_eq_false (by have := h.stage; omega)]
  decide

theorem identRx_acknowledges (h : TakesIdents s p) (payload : List Byte) :
    Runs (.identRx p payload) s fun t => Emits s t (.single p (ctrlPkt tCtrl 0x11 [])) := by
  refine ⟨identDone (modPort (sendIdent (recordIdent (ctrAdd s (pPort p) 0 1) p payload) p (ctrlPkt tCtrl 0x11 [])) p gotIdent) p, ?_, ?_⟩
  · show execIdentRx p payload s = _
    unfold execIdentRx
    rw [if_neg h.not_refused]
    rfl
  · have hsent := (emits_sendIdent (recordIdent (ctrAdd s (pPort p) 0 1) p payload) p (ctrlPkt tCtrl 0x11 [])).before
      (recordIdent_keeps _ s _ _ _ (by decide) (ctrAdd_keeps _ _ _ _ _ _ (by decide) (.refl _ _))).out_prefix
    exact hsent.later (identDone_keeps _ _ _ _ (by decide) (modPort_keeps _ _ _ _ _ (by decide) (.refl _ _))).out_prefix

/-- The state in which an acknowledged identity is judged. -/
def ackTaken (s : State) (p : Nat) : State := modPort (ctrAdd s (pPort p) 0 1) p ackedIdent

theorem exec_identAckRx (h : TakesIdents s p) : exec (.identAckRx p) s = .next (identDone (ackTaken s p) p) := by
  show execIdentAckRx p s = _
  unfold execIdentAckRx
  rw [if_neg h.not_refused]
  rfl

theorem getPort_ctrAdd (s : State) (page i n q : Nat) : getPort (ctrAdd s page i n) q = getPort s q := rfl

theorem getPort_ackTaken (s : State) (p : Nat) : getPort (ackTaken s p) p = ackedIdent (getPort s p) := by
  rw [ackTaken, getPort_modPort_same, getPort_ctrAdd]

theorem rd_ackTaken (s : State) (p a : Nat) : rd (ackTaken s p) a = rd s a := by
  rw [ackTaken, rd_modPort, rd_ctrAdd]

theorem ackedIdent_fields (x : PortSt) : (ackedIdent x).identGot = x.identGot ∧ (ackedIdent x).identAcked = true ∧
    (ackedIdent x).identMajor = x.identMajor := ⟨rfl, rfl, rfl⟩

theorem identAckRx_waits (h : TakesIdents s p) (hgot : (getPort s p).identGot = false) :
    Runs (.identAckRx p) s fun t => (getPort t p).identAcked = true ∧ t.regs = s.regs := by
  obtain ⟨hgot', hacked, -⟩ := ackedIdent_fields (getPort s p)
  have hdone : identDone (ackTaken s p) p = ackTaken s p := by
    unfold identDone
    rw [getPort_ackTaken]
    dsimp only
    rw [hgot', hgot]
    rfl
  refine ⟨ackTaken s p, (exec_identAckRx h).trans (congrArg _ hdone), ?_⟩
  refine ⟨(congrArg PortSt.identAcked (getPort_ackTaken s p)).trans hacked, ?_⟩
  exact (modPort_keeps _ _ _ _ _ (by decide) (ctrAdd_keeps _ s _ _ _ _ (by decide) (.refl _ _))).regs_eq

theorem identDone_acked (hgot : (getPort s p).identGot = true) (hstate : pState s p = 3) :
    identDone (ackTaken s p) p = stage9 (ackTaken s p) p := by
  obtain ⟨hgot', hacked, -⟩ := ackedIdent_fields (getPort s p)
  have hstate' : pState (ackTaken s p) p = 3 := (pState_congr (rd_ackTaken s p _)).1.trans hstate
  unfold identDone
  rw [getPort_ackTaken]
  dsimp only
  rw [if_neg (by rw [hgot', hacked, hgot]; decide), if_neg (by rw [hstate']; decide), if_pos (by rw [hstate']; rfl)]

/-! ## Admission (Table 13.5) -/

/-- The tests of admission read words and an identity that the port's state is no part of. -/
theorem admissionCause_congr {t : State} (hword : ∀ a, a ≠ pPort p + 0x44 → rd t a = rd s a)
    (hmajor : (getPort t p).identMajor = (getPort s p).identMajor) : admissionCause t p = admissionCause s p := by
  have hport : ∀ off, off ≠ 0x44 → rd t (pPort p + off) = rd s (pPort p + off) := fun off h => hword _ (by omega)
  have hglb : ∀ off, off < 0x1000 → rd t (pGlb + off) = rd s (pGlb + off) := fun off h => hword _ (by
    simp only [pGlb, pPort]
    omega)
  have hsize : ∀ a, axisSize t a = axisSize s a := fun a => by
    simp only [axisSize, torusX, torusY, torusZ, fget, hglb 0x4C (by decide)]
  have hown : ownIndex t = ownIndex s ∧ ownPlane t = ownPlane s ∧ ∀ a, ownCoord t a = ownCoord s a := by
    simp only [ownIndex, ownPlane, ownCoord, ownX, ownY, ownZ, fget, hglb 0x48 (by decide), implies_true, and_self]
  have hfound : foundChip t p = foundChip s p ∧ foundCoord t p = foundCoord s p ∧ foundPort t p = foundPort s p ∧
      foundRole t p = foundRole s p := by
    simp only [foundChip, foundCoord, foundPort, foundRole, fget, hport 0x80 (by decide), hport 0x84 (by decide),
      hport 0x88 (by decide), and_self]
  have hexpect : bit t (pPort p + 0x40) 28 = bit s (pPort p + 0x40) 28 ∧ ∀ hi lo, fget t (pPort p + 0x78) hi lo = fget s (pPort p + 0x78) hi lo := by
    simp only [bit, fget, hport 0x40 (by decide), hport 0x78 (by decide), implies_true, and_self]
  obtain ⟨hindex, hplane, hcoord⟩ := hown
  obtain ⟨hchip, hat, hneigh, hrole⟩ := hfound
  have hline : lineDistance t p = lineDistance s p := by
    simp only [lineDistance, hat, hplane, hcoord, hsize]
  have hnear : ∀ d, oneStep t p d = oneStep s p d ∧ twoSteps t p d = twoSteps s p d := fun d => by
    simp only [oneStep, twoSteps, hsize, and_self]
  have hopposite : oppositePort t p = oppositePort s p := by simp only [oppositePort, hneigh]
  unfold admissionCause
  rw [hline, hchip, hrole, hopposite, hat, hneigh, hindex, hplane, hmajor, hexpect.1, hexpect.2, hexpect.2,
    hport 0x70 (by decide), hport 0x74 (by decide)]
  cases lineDistance s p with
  | none => rfl
  | some d => simp only [hnear d]

theorem admissionCause_judged (s : State) (p : Nat) : admissionCause (setStage (ackTaken s p) p 9) p = admissionCause s p :=
  admissionCause_congr (fun a ha => (rd_setStage_ne _ _ _ ha).trans (rd_ackTaken s p a)) (by
    rw [getPort_setStage, getPort_ackTaken, (ackedIdent_fields _).2.2])

/-- A port judged in stage 9 that fails a test other than the hold-down and the expectation is quarantined (R270). -/
theorem stage9_quarantines (hstate : pState s p = 3) (hcause : admissionCause (setStage s p 9) p = some 2) :
    stage9 s p = raise (setPState (wr (setStage s p 9) (pPort p + 0x48) 2) p 5) (pPort p) 8 := by
  unfold stage9
  dsimp only
  rw [hcause]
  dsimp only
  have hwas : ¬(pState (setStage s p 9) p == 4) = true := by
    rw [pState_setStage, hstate]
    decide
  rw [if_neg hwas]
  rfl

theorem identAckRx_quarantines (h : TakesIdents s p) (hgot : (getPort s p).identGot = true) (hstate : pState s p = 3)
    (hcause : admissionCause s p = some 2) : Runs (.identAckRx p) s fun t => pState t p = 5 ∧ pStage t p = 9 ∧
      fget t (pPort p + 0x48) 7 0 = 2 ∧ bit t (pPort p + 0x10) 8 = true := by
  have hrun := exec_identAckRx h
  rw [identDone_acked hgot hstate, stage9_quarantines ((pState_congr (rd_ackTaken s p _)).1.trans hstate)
    ((admissionCause_judged s p).trans hcause)] at hrun
  generalize ackTaken s p = u at hrun
  obtain ⟨hstate', hstage'⟩ := pState_congr (p := p)
    (rd_raise_ne (setPState (wr (setStage u p 9) (pPort p + 0x48) 2) p 5) (pPort p) 8 (pPort p + 0x44) (by omega))
  refine ⟨_, hrun, hstate'.trans (pState_setPState _ _ (by decide)), ?_, ?_, bit_raise_same _ _ (by decide)⟩
  · rw [hstage', pStage_setPState, (pState_congr (rd_wr_ne _ _ _ _ (by omega))).2, pStage_setStage _ _ (by decide)]
  · rw [fget_raise_ne (page := pPort p) (a := pPort p + 0x48) _ _ _ (by omega), setPState, setBit, fget_fset_apart _ _ _ _ _ _ _ (by decide) (by decide) (.inl (by decide)),
      fget, rd_fset_ne _ _ _ _ _ _ (by omega), rd_wr_same]
    decide

/-- A port admitted: its state, and nothing in PORT_QUAR. -/
def AsAdmitted (p : Nat) (t : State) : Prop := pState t p = 4 ∧ rd t (pPort p + 0x48) = 0

theorem AsAdmitted.congr {t u : State} (h : AsAdmitted p t) (hstate : pState u p = pState t p)
    (hquar : rd u (pPort p + 0x48) = rd t (pPort p + 0x48)) : AsAdmitted p u :=
  ⟨hstate.trans h.1, hquar.trans h.2⟩

theorem asAdmitted_setPState (s : State) (p : Nat) : AsAdmitted p (setPState (wr s (pPort p + 0x48) 0) p 4) := by
  refine ⟨pState_setPState _ _ (by decide), ?_⟩
  rw [setPState, setBit, fset, rd_wr_same, rd_fset_ne _ _ _ _ _ _ (by omega), rd_wr_same]
  decide

theorem AsAdmitted.fset {t : State} (h : AsAdmitted p t) {hi lo : Nat} (v : Nat) (hlo : 4 ≤ lo) (hl : lo ≤ hi) (hhi : hi < 32) :
    AsAdmitted p (fset t (pPort p + 0x44) hi lo v) :=
  h.congr (fget_fset_apart _ _ _ _ _ _ _ hl hhi (.inl (by omega))) (rd_fset_ne _ _ _ _ _ _ (by omega))

theorem AsAdmitted.of_word {t u : State} (h : AsAdmitted p t) (hword : ∀ a, a ≠ pPort p + 0x10 → rd u a = rd t a) : AsAdmitted p u :=
  h.congr (pState_congr (hword _ (by omega))).1 (hword _ (by omega))

theorem rd_initialCredits (s : State) (p a : Nat) : rd (initialCredits s p) a = rd s a :=
  rd_congr (initialCredits_keeps 0x1#64 s s p (by decide) (.refl _ _)).regs_eq _

theorem stitchAdmitted_leaf (s : State) (hleaf : isLeaf p = true) : stitchAdmitted s p = s := by
  have hspine : isSpine p = false := by
    simp only [isLeaf, decide_eq_true_eq] at hleaf
    simp only [isSpine, Bool.and_eq_false_iff, decide_eq_false_iff_not]
    omega
  unfold stitchAdmitted
  rw [hspine]
  rfl

/-- The words of an admitted port before its credits (R269, R271). -/
def admitting (s : State) (p : Nat) (minor : Nat) (through : Bool) : State :=
  setBlk (setBit (fset (setPState (wr s (pPort p + 0x48) 0) p 4) (pPort p + 0x44) 23 20 minor) (pPort p + 0x44) 16 through) (pPort p) 2

theorem admitting_fields (s : State) (p minor : Nat) (through : Bool) :
    AsAdmitted p (admitting s p minor through) ∧ blkState (admitting s p minor through) (pPort p) = 2 := by
  refine ⟨?_, blkState_setBlk _ _ (by decide)⟩
  have hbit := ((asAdmitted_setPState s p).fset (hi := 23) (lo := 20) minor (by decide) (by decide) (by decide)).fset (hi := 16) (lo := 16)
    (b2n through) (by decide) (by decide) (by decide)
  exact hbit.congr (pState_congr (rd_fset_ne _ _ _ _ _ _ (by omega))).1 (rd_fset_ne _ _ _ _ _ _ (by omega))

theorem stage9_of_none (hcause : admissionCause (setStage s p 9) p = none) : ∃ minor through differ, stage9 s p = stitchAdmitted
    (if differ = true then raise (initialCredits (admitting (setStage s p 9) p minor through) p) (pPort p) 9
      else initialCredits (admitting (setStage s p 9) p minor through) p) p := by
  unfold stage9
  dsimp only
  rw [hcause]
  exact ⟨_, _, _, rfl⟩

/-- A leaf port that passes every test is admitted (R269). -/
theorem stage9_admits (hleaf : isLeaf p = true) (hcause : admissionCause (setStage s p 9) p = none) :
    blkState (stage9 s p) (pPort p) = 2 ∧ AsAdmitted p (stage9 s p) := by
  obtain ⟨minor, through, differ, heq⟩ := stage9_of_none hcause
  rw [heq, stitchAdmitted_leaf _ hleaf]
  obtain ⟨hadmitted, hblk⟩ := admitting_fields (setStage s p 9) p minor through
  have hword : ∀ a, rd (initialCredits (admitting (setStage s p 9) p minor through) p) a =
      rd (admitting (setStage s p 9) p minor through) a := rd_initialCredits _ p
  have hblk' := (blkState_congr (hword _)).trans hblk
  have hadmitted' := hadmitted.of_word fun a _ => hword a
  split
  · exact ⟨(blkState_congr (rd_raise_ne _ _ _ _ (by omega))).trans hblk', hadmitted'.of_word fun a ha => rd_raise_ne _ _ _ _ ha⟩
  · exact ⟨hblk', hadmitted'⟩

theorem identAckRx_admits (h : TakesIdents s p) (hgot : (getPort s p).identGot = true) (hstate : pState s p = 3)
    (hleaf : isLeaf p = true) (hcause : admissionCause s p = none) : Runs (.identAckRx p) s fun t =>
      blkState t (pPort p) = 2 ∧ rd t (pPort p + 0x48) = 0 ∧ pState t p = 4 := by
  obtain ⟨hblk, hport, hquar⟩ := stage9_admits hleaf ((admissionCause_judged s p).trans hcause)
  exact ⟨_, (exec_identAckRx h).trans (congrArg _ (identDone_acked hgot hstate)), hblk, hquar, hport⟩

/-! ## RETRAIN and ADOPT (R266, R272) -/

theorem exec_portRetrain (hp : p < 161) (s : State) : exec (.portRetrain who p) s = .next (commandWrite who none (pPort p + 0x4C) 2 2 s) :=
  writeIf_pos (decide_eq_true (by omega)) ..

theorem exec_portAdopt (hp : p < 161) (s : State) : exec (.portAdopt who p) s = .next (commandWrite who none (pPort p + 0x4C) 1 1 s) :=
  writeIf_pos (decide_eq_true (by omega)) ..

theorem portRetrain_restarts (hp : p < 161) (hacc : Accepts s who (pPort p + 0x4C) 2 2) (hen : portEn s p = true)
    (htest : portTest s p = false) : Runs (.portRetrain who p) s fun t =>
      pStage t p = 1 ∧ (getPort t p).replay = [] ∧ (getPort t p).credits = [] := by
  obtain ⟨hen', htest'⟩ := portEn_congr (rd_written_ne s who (a := pPort p + 0x4C) (b := pPort p + 0x40) 2 2 (by omega))
  have hrun : exec (.portRetrain who p) s = .next (losePort (written s who (pPort p + 0x4C) 2 2) p) := by
    rw [exec_portRetrain hp, commandWrite_of_accepts hacc, acceptWrite_port hp (by decide) (by decide), blockActs_portCmd]
    dsimp only
    rw [if_pos (by decide), if_neg (by decide), retrainPort, hen', htest', hen, htest]
    rfl
  obtain ⟨hcredits, hreplay⟩ := dark_losePort (written s who (pPort p + 0x4C) 2 2) hp
  exact ⟨_, hrun, pStage_losePort _ hp (hen'.trans hen) (htest'.trans htest), hreplay, hcredits⟩

/-- A write adds to the audit ring or leaves it. -/
theorem written_nextSeq_le (s : State) (who : Requester) (a : Nat) (v m : Word) :
    s.audit.nextSeq ≤ (written s who a v m).audit.nextSeq := by
  show s.audit.nextSeq ≤ (recordWrite s who a v m (changeOf s a v m) 0).audit.nextSeq
  unfold recordWrite
  dsimp only
  split
  · exact (auditAdd_nextSeq ..).le
  · split
    · exact (auditAdd_nextSeq ..).le
    · exact le_rfl

theorem rd_auditAdd (s : State) (kind role result subject session : Nat) (detail : List Byte) (sets : List Setting) (a : Nat) :
    rd (auditAdd s kind role result subject session detail sets) a = rd s a :=
  rd_congr (auditAdd_keeps 0x1#64 s s _ _ _ _ _ _ _ (by decide) (.refl _ _)).regs_eq _

/-- What ADOPT leaves of a port that is not quarantined: the neighbour found is the one expected, and the ring holds the record. -/
structure Adopts (s : State) (p : Nat) (t : State) : Prop where
  low : rd t (pPort p + 0x70) = rd s (pPort p + 0x80)
  high : rd t (pPort p + 0x74) = rd s (pPort p + 0x84)
  port : fget t (pPort p + 0x78) 7 0 = foundPort s p
  recorded : s.audit.nextSeq < t.audit.nextSeq

/-- The expectation of a port written (Table 13.7). -/
def expecting (u : State) (p : Nat) (w0 w1 w2 : Word) : State :=
  wr (wr (wr u (pPort p + 0x70) w0) (pPort p + 0x74) w1) (pPort p + 0x78) w2

theorem expecting_adopts {u : State} {w2 : Word} (hrecorded : s.audit.nextSeq < u.audit.nextSeq) (h2 : bitsOf w2 7 0 = foundPort s p) :
    Adopts s p (expecting u p (rd s (pPort p + 0x80)) (rd s (pPort p + 0x84)) w2) where
  low := by rw [expecting, rd_wr_ne _ _ _ _ (by omega), rd_wr_ne _ _ _ _ (by omega), rd_wr_same]
  high := by rw [expecting, rd_wr_ne _ _ _ _ (by omega), rd_wr_same]
  port := by rw [expecting, fget_wr_same, h2]
  recorded := hrecorded

theorem pState_expecting (u : State) (p : Nat) (w0 w1 w2 : Word) : pState (expecting u p w0 w1 w2) p = pState u p :=
  (pState_congr (by rw [expecting, rd_wr_ne _ _ _ _ (by omega), rd_wr_ne _ _ _ _ (by omega), rd_wr_ne _ _ _ _ (by omega)])).1

theorem Adopts.stitch {t : State} (h : Adopts s p t) (n hi lo v : Nat) (hp : p < 161) : Adopts s p (fset t (pStitch n + 0x44) hi lo v) := by
  have hrd : ∀ off, off < 0x1000 → rd (fset t (pStitch n + 0x44) hi lo v) (pPort p + off) = rd t (pPort p + off) := fun off hoff =>
    rd_fset_ne _ _ _ _ _ _ (by
      simp only [pPort, pStitch]
      omega)
  refine ⟨(hrd _ (by decide)).trans h.low, (hrd _ (by decide)).trans h.high, ?_, h.recorded⟩
  rw [fget, hrd _ (by decide)]
  exact h.port

theorem pState_fset_stitch (t : State) (n hi lo v : Nat) (hp : p < 161) : pState (fset t (pStitch n + 0x44) hi lo v) p = pState t p :=
  (pState_congr (rd_fset_ne _ _ _ _ _ _ (by
    simp only [pPort, pStitch]
    omega))).1

theorem adoptPort_adopts (hp : p < 161) (hstate : pState s p ≠ 5) : Adopts s p (adoptPort s who p) := by
  obtain ⟨u, w2, hrecorded, hrd, hw2, heq⟩ : ∃ u w2, s.audit.nextSeq < u.audit.nextSeq ∧ (∀ a, rd u a = rd s a) ∧
      bitsOf w2 7 0 = foundPort s p ∧ adoptPort s who p = (fun t => if pState t p == 5 then stage9 t p else t)
        (if isSpine p then fset (expecting u p (rd s (pPort p + 0x80)) (rd s (pPort p + 0x84)) w2) (pStitch (stitchOfPort p) + 0x44) 9 8 0
          else expecting u p (rd s (pPort p + 0x80)) (rd s (pPort p + 0x84)) w2) :=
    ⟨_, _, auditAdd_nextSeq .., rd_auditAdd _ _ _ _ _ _ _ _,
      bitsOf_putBits _ _ _ _ (by decide) (by decide) (Nat.mod_lt _ (by decide)), rfl⟩
  have hadopts := expecting_adopts hrecorded hw2
  have hpstate : pState (expecting u p (rd s (pPort p + 0x80)) (rd s (pPort p + 0x84)) w2) p = pState s p :=
    (pState_expecting _ _ _ _ _).trans (pState_congr (hrd _)).1
  rw [heq]
  dsimp only
  split
  · rw [if_neg (by rw [pState_fset_stitch _ _ _ _ _ hp, hpstate]; simpa using hstate)]
    exact hadopts.stitch _ _ _ _ hp
  · rw [if_neg (by rw [hpstate]; simpa using hstate)]
    exact hadopts

theorem portAdopt_adopts (hp : p < 161) (hacc : Accepts s who (pPort p + 0x4C) 1 1) (hstate : pState s p ≠ 5) :
    Runs (.portAdopt who p) s fun t => rd t (pPort p + 0x70) = rd s (pPort p + 0x80) ∧
      rd t (pPort p + 0x74) = rd s (pPort p + 0x84) ∧ fget t (pPort p + 0x78) 7 0 = foundPort s p ∧
      s.audit.nextSeq < t.audit.nextSeq := by
  have hword : ∀ off, off ≠ 0x4C → rd (written s who (pPort p + 0x4C) 1 1) (pPort p + off) = rd s (pPort p + off) := fun off h =>
    rd_written_ne _ _ _ _ (by omega)
  have hrun : exec (.portAdopt who p) s = .next (adoptPort (written s who (pPort p + 0x4C) 1 1) who p) := by
    rw [exec_portAdopt hp, commandWrite_of_accepts hacc, acceptWrite_port hp (by decide) (by decide), blockActs_portCmd]
    dsimp only
    rw [if_neg (by decide), if_pos (by decide)]
  have hadopts := adoptPort_adopts (s := written s who (pPort p + 0x4C) 1 1) (who := who) hp
    (by rw [(pState_congr (hword 0x44 (by decide))).1]; exact hstate)
  refine ⟨_, hrun, hadopts.low.trans (hword _ (by decide)), hadopts.high.trans (hword _ (by decide)), hadopts.port.trans ?_,
    (written_nextSeq_le ..).trans_lt hadopts.recorded⟩
  rw [foundPort, foundPort, fget, fget, hword 0x88 (by decide)]

/-- Settles O14: each command of a port's life, through what it leaves of PORT_CFG, PORT_STATE and the port's training. -/
theorem portsComeUp : Obligations.PortsComeUp := by
  unfold Obligations.PortsComeUp
  intro s p hp
  have hp' : p < 161 := by omega
  refine ⟨fun who mode => portEnable_starts hp mode, fun who => portDisable_stops hp, fun who => portTestEnter_enters hp,
    fun lane => signalDetect_trains hp', fun lane f hcrc => ⟨s, exec_trainingFrameRx_ignored hcrc, rfl⟩,
    fun lane f => trainingFrameRx_answers, bringupStageTimeout_fails, bringupStageTimeout_fallsBack, bringupRestart_restarts,
    identTimer_sends, fun hlive hheld hen htest hstage => ?_, fun who => portRetrain_restarts hp', fun who => portAdopt_adopts hp',
    heldDownRetry_restarts⟩
  have h : TakesIdents s p := ⟨hlive, hheld, hen, htest, hstage⟩
  exact ⟨identRx_acknowledges h, identAckRx_waits h, identAckRx_quarantines h, identAckRx_admits h⟩

end Sys2Proof.Machine

/-! # Kettle stitches (R273 to R278, R280) -/
namespace Sys2Proof.Machine

open Sys2Proof

variable {s t : State} {n : Nat} {who : Requester}

/-! ## What the ports of a stitch leave of it -/

/-- From `s` to `t` a stitch keeps its status word and its count of openings, and no stitch's own state moves. -/
structure Unmoved (n : Nat) (s t : State) : Prop where
  word : rd t (pStitch n + 0x44) = rd s (pStitch n + 0x44)
  stitches : t.stitches = s.stitches
  opened : ctrGet t (pStitch n) 0 = ctrGet s (pStitch n) 0

theorem Unmoved.refl (n : Nat) (s : State) : Unmoved n s s := ⟨rfl, rfl, rfl⟩

theorem Unmoved.trans {u : State} (h : Unmoved n s t) (h' : Unmoved n t u) : Unmoved n s u :=
  ⟨h'.word.trans h.word, h'.stitches.trans h.stitches, h'.opened.trans h.opened⟩

theorem Unmoved.stState (h : Unmoved n s t) : stState t n = stState s n := by
  rw [Machine.stState, Machine.stState, fget, fget, h.word]

theorem Unmoved.getStitch (h : Unmoved n s t) (m : Nat) : getStitch t m = getStitch s m := by
  rw [Machine.getStitch, Machine.getStitch, h.stitches]

theorem unmoved_linkDown (hn : n < 12) (s : State) (p : Nat) : Unmoved n s (linkDown s p) :=
  have hfall := linkDown_falls s p
  ⟨hfall.word _ (calmWord_stitch hn), (linkDown_keeps 0x1000#64 s s p (by decide) (.refl _ _)).same .stitches (by decide), hfall.opened n hn⟩

theorem Keeps.ctrGet_eq {s t : State} (h : Keeps 0x2#64 s t) (page i : Nat) : ctrGet t page i = ctrGet s page i := by
  have hctrs : (t.ctrs, t.parts) = (s.ctrs, s.parts) := h.same .counters (by decide)
  simp only [Prod.mk.injEq] at hctrs
  exact ctrGet_congr hctrs.1 _ _

theorem unmoved_bringUp (hn : n < 12) (s : State) {p : Nat} (hp : p < 161) : Unmoved n s (bringUp s p) := by
  refine ⟨rd_bringUp s hp ?_ ?_, (bringUp_keeps 0x1000#64 s s p (by decide) (.refl _ _)).same .stitches (by decide),
    (bringUp_keeps 0x2#64 s s p (by decide) (.refl _ _)).ctrGet_eq _ _⟩
  · simp only [Unclocked, pStitch]
    omega
  · simp only [pStitch, pPort]
    omega

theorem unmoved_modPort (n : Nat) (s : State) (p : Nat) (f : PortSt → PortSt) : Unmoved n s (modPort s p f) := ⟨rfl, rfl, rfl⟩

/-- A word of a port page is none of the stitch. -/
theorem unmoved_portWord (n : Nat) (s : State) {p off : Nat} (hi lo v : Nat) (hp : p < 161) (hoff : off < 0x1000) :
    Unmoved n s (fset s (pPort p + off) hi lo v) :=
  ⟨rd_fset_ne _ _ _ _ _ _ (by
    simp only [pPort, pStitch]
    omega), rfl, ctrGet_fset ..⟩

theorem unmoved_placed (n : Nat) (s : State) {p : Nat} (v st : Nat) (hp : p < 161) :
    Unmoved n s (setStage (setPState s p v) p st) :=
  ((unmoved_portWord n s _ _ _ hp (by decide)).trans (unmoved_portWord n _ _ _ _ hp (by decide))).trans
    (unmoved_portWord n _ _ _ _ hp (by decide))

theorem unmoved_pair {f : State → Nat → State} {a b : Nat} (hf : ∀ u p, p = a ∨ p = b → Unmoved n u (f u p)) (s : State) :
    Unmoved n s ([a, b].foldl f s) := (hf s a (.inl rfl)).trans (hf _ b (.inr rfl))

theorem portsOfStitch_lt (hn : n < 12) : (portsOfStitch n).1 < 152 ∧ (portsOfStitch n).2 < 152 := by
  simp only [portsOfStitch]
  omega

theorem portsOfStitch_ne (n : Nat) : (portsOfStitch n).1 ≠ (portsOfStitch n).2 := by
  simp only [portsOfStitch]
  omega

/-- The ports of a stitch, down and up again for the check within or without, leave it. -/
theorem unmoved_restart (hn : n < 12) (f : PortSt → PortSt) (s : State) : Unmoved n s
    ([(portsOfStitch n).1, (portsOfStitch n).2].foldl (fun s p => bringUp (modPort (linkDown s p) p f) p) s) := by
  obtain ⟨hfirst, hsecond⟩ := portsOfStitch_lt hn
  refine unmoved_pair (fun u p hp => ?_) s
  exact ((unmoved_linkDown hn u p).trans (unmoved_modPort n _ p f)).trans (unmoved_bringUp hn _ (by rcases hp with rfl | rfl <;> omega))

theorem stState_setSt (s : State) (n : Nat) {v : Nat} (hv : v < 8) : stState (setSt s n v) n = v :=
  fget_fset_same _ _ _ _ _ (by decide) (by decide) hv

/-! ## Opening (R273, R274) -/

/-- From `s` to `t` nothing moves that decides whether a stitch may open, but for which one waits for its retry. -/
structure SameOpening (n : Nat) (s t : State) : Prop where
  phase : t.phase = s.phase
  word : ∀ a, a ≠ pStitch n + 0x40 → rd t a = rd s a
  forced : bit t (pStitch n + 0x40) 0 = bit s (pStitch n + 0x40) 0
  service : ∀ m, (getStitch t m).outOfService = (getStitch s m).outOfService
  owed : ∀ m, m ≠ n → (getStitch t m).retryOwed = (getStitch s m).retryOwed

theorem SameOpening.port (h : SameOpening n s t) {p off : Nat} (hp : p < 161) (hoff : off < 0x1000) :
    rd t (pPort p + off) = rd s (pPort p + off) :=
  h.word _ (by
    simp only [pPort, pStitch]
    omega)

theorem SameOpening.stState (h : SameOpening n s t) (m : Nat) : stState t m = stState s m := by
  rw [Machine.stState, Machine.stState, fget, fget, h.word (pStitch m + 0x44) (by simp only [pStitch]; omega)]

theorem SameOpening.mayOpen (h : SameOpening n s t) {m : Nat} (hm : m < 12) : mayOpen t m = mayOpen s m := by
  obtain ⟨hfirst, hsecond⟩ := portsOfStitch_lt hm
  have hen : ∀ p, p < 161 → portEn t p = portEn s p ∧ portTest t p = portTest s p := fun p hp => portEn_congr (h.port hp (by decide))
  have hfallow : fallow t = fallow s := by
    rw [fallow, fallow, bit, bit, h.word _ (by simp only [pFlt, pStitch]; omega)]
  have hforced : bit t (pStitch m + 0x40) 0 = bit s (pStitch m + 0x40) 0 := by
    by_cases hmn : m = n
    · rw [hmn]
      exact h.forced
    · rw [bit, bit, h.word _ (by simp only [pStitch]; omega)]
  have hattempts : fget t (pStitch m + 0x44) 9 8 = fget s (pStitch m + 0x44) 9 8 := by
    rw [fget, fget, h.word _ (by simp only [pStitch]; omega)]
  obtain ⟨hen1, htest1⟩ := hen _ (by omega : (portsOfStitch m).1 < 161)
  obtain ⟨hen2, htest2⟩ := hen _ (by omega : (portsOfStitch m).2 < 161)
  unfold Machine.mayOpen
  dsimp only [List.all_cons, List.all_nil]
  rw [h.phase, hfallow, h.stState, h.service, hforced, hattempts, hen1, htest1, hen2, htest2]

theorem SameOpening.axisFree (h : SameOpening n s t) (hn : n < 12) : axisFree t n = axisFree s n := by
  unfold Machine.axisFree
  rw [Bool.eq_iff_iff, List.all_eq_true, List.all_eq_true]
  refine forall₂_congr fun k hk => ?_
  have hport : ∀ p, p < 161 → admitted t p = admitted s p := fun p hp => by
    rw [admitted, admitted, (pState_congr (h.port hp (by decide))).1]
  obtain ⟨hfirst, hsecond⟩ := portsOfStitch_lt (n := 4 * (n / 4) + k) (by rw [List.mem_range] at hk; omega)
  dsimp only
  rw [h.stState, hport _ (by omega), hport _ (by omega)]

theorem SameOpening.axisTurn (h : SameOpening n s t) (hn : n < 12) : axisTurn t n = axisTurn s n := by
  unfold Machine.axisTurn
  rw [Bool.eq_iff_iff, List.all_eq_true, List.all_eq_true]
  refine forall₂_congr fun k hk => ?_
  rw [List.mem_range] at hk
  rw [h.mayOpen (by omega), h.owed _ (by omega)]

/-- A stitch's turn to open. -/
structure MayStart (s : State) (n : Nat) : Prop where
  open_ : mayOpen s n = true
  free : axisFree s n = true
  turn : axisTurn s n = true

theorem MayStart.congr (h : MayStart s n) (hn : n < 12) (hsame : SameOpening n s t) : MayStart t n :=
  ⟨(hsame.mayOpen hn).trans h.open_, (hsame.axisFree hn).trans h.free, (hsame.axisTurn hn).trans h.turn⟩

theorem openStart_starts (hn : n < 12) (h : MayStart s n) :
    stState (openStart s n) n = 1 ∧ (getStitch (openStart s n) n).retryOwed = false := by
  have heq : openStart s n = [(portsOfStitch n).1, (portsOfStitch n).2].foldl
      (fun s p => bringUp (modPort (linkDown s p) p fun x => { x with inner := true }) p)
      (setStitch (setSt s n 1) n { getStitch (setSt s n 1) n with retryOwed := false }) := by
    unfold openStart
    rw [if_pos (by rw [h.open_, h.free, h.turn]; rfl)]
  have hports := unmoved_restart hn (fun x => { x with inner := true })
    (setStitch (setSt s n 1) n { getStitch (setSt s n 1) n with retryOwed := false })
  rw [heq]
  refine ⟨hports.stState.trans (stState_setSt s n (by decide)), ?_⟩
  rw [hports.getStitch, getStitch_setStitch, if_pos rfl]

theorem openStart_waits (h : mayOpen s n = false ∨ axisFree s n = false) : openStart s n = s := by
  unfold openStart
  refine if_neg ?_
  rcases h with h | h <;> simp [h]

theorem exec_stitchOpenStart (howed : (getStitch s n).retryOwed = false) : exec (.stitchOpenStart n) s = .next (openStart s n) := by
  show execStitchOpenStart n s = _
  rw [execStitchOpenStart, howed]
  rfl

theorem stitchOpenStart_of_owed (howed : (getStitch s n).retryOwed = true) : exec (.stitchOpenStart n) s = .next s := by
  show execStitchOpenStart n s = _
  rw [execStitchOpenStart, howed]
  rfl

theorem stitchOpenStart_waits (h : mayOpen s n = false ∨ axisFree s n = false) : exec (.stitchOpenStart n) s = .next s := by
  cases howed : (getStitch s n).retryOwed with
  | true => exact stitchOpenStart_of_owed howed
  | false => rw [exec_stitchOpenStart howed, openStart_waits h]

theorem sameOpening_unowed (s : State) (n : Nat) : SameOpening n s (setStitch s n { getStitch s n with retryOwed := false }) where
  phase := rfl
  word _ _ := rfl
  forced := rfl
  service m := by
    rw [getStitch_setStitch]
    split
    · next h => rw [h]
    · rfl
  owed m hm := by rw [getStitch_setStitch, if_neg hm]

theorem stitchRetryTimer_starts (hn : n < 12) (h : MayStart s n) (howed : (getStitch s n).retryOwed = true) :
    Runs (.stitchRetryTimer n) s fun t => stState t n = 1 ∧ (getStitch t n).retryOwed = false := by
  refine ⟨openStart (setStitch s n { getStitch s n with retryOwed := false }) n, ?_,
    openStart_starts hn (h.congr hn (sameOpening_unowed s n))⟩
  show execStitchRetryTimer n s = _
  rw [execStitchRetryTimer, howed]
  rfl

end Sys2Proof.Machine

/-! # Sensing and closing stitches (R274 to R276, R278) -/
namespace Sys2Proof.Machine

open Sys2Proof

variable {s t : State} {n : Nat} {who : Requester}

/-! ## Sensing (R276) -/

/-- The contacts of a stitch as sensed. -/
def sensed (s : State) (n : Nat) (openMade closedMade : Bool) : State :=
  fset s (pStitch n + 0x48) 1 0 (2 * b2n openMade + b2n closedMade)

theorem stState_sensed (s : State) (n : Nat) (o c : Bool) : stState (sensed s n o c) n = stState s n :=
  congrArg (bitsOf · 2 0) (rd_fset_ne _ _ _ _ _ _ (by omega))

theorem getStitch_sensed (s : State) (n : Nat) (o c : Bool) (m : Nat) : getStitch (sensed s n o c) m = getStitch s m := rfl

theorem ctrGet_sensed (s : State) (n : Nat) (o c : Bool) (page i : Nat) : ctrGet (sensed s n o c) page i = ctrGet s page i :=
  ctrGet_fset ..

/-- A stitch found open: it is OPEN, and the opening is counted. -/
def foundOpen (u : State) (n : Nat) : State := ctrAdd (setSt u n 3) (pStitch n) 0 1

theorem stitchSenseSample_opens (hn : n < 12) (hstate : stState s n = 2) (hopen : (getStitch s n).commandOpen = true) :
    Runs (.stitchSenseSample n true false) s fun t => stState t n = 3 ∧ ctrGet t (pStitch n) 0 = ctrGet s (pStitch n) 0 + 1 := by
  have hrun : exec (.stitchSenseSample n true false) s = .next ([(portsOfStitch n).1, (portsOfStitch n).2].foldl
      (fun s p => bringUp (modPort (linkDown s p) p outOfCheck) p) (foundOpen (sensed s n true false) n)) := by
    show execStitchSenseSample n true false s = _
    unfold execStitchSenseSample
    dsimp only
    rw [show stState (fset s (pStitch n + 0x48) 1 0 (2 * b2n true + b2n false)) n = 2 from (stState_sensed s n true false).trans hstate,
      show (getStitch (fset s (pStitch n + 0x48) 1 0 (2 * b2n true + b2n false)) n).commandOpen = true from hopen]
    rfl
  have hports := unmoved_restart hn outOfCheck (foundOpen (sensed s n true false) n)
  have hstate' : stState (foundOpen (sensed s n true false) n) n = 3 :=
    (congrArg (bitsOf · 2 0) (rd_ctrAdd ..)).trans (stState_setSt _ n (by decide))
  refine ⟨_, hrun, hports.stState.trans hstate', hports.opened.trans ?_⟩
  rw [foundOpen, ctrGet_ctrAdd_same, setSt, ctrGet_fset, ctrGet_sensed]
  rfl

/-- A port of a stitch that is CLOSED: it starts again where it may. -/
def portClosed (s : State) (p : Nat) : State :=
  if portEn s p && !portTest s p && blkState s (pPort p) != 3 then
    setStage (setPState (setBlk (linkDown s p) (pPort p) 1) p 1) p 0
  else linkDown s p

theorem unmoved_portClosed (hn : n < 12) (s : State) {p : Nat} (hp : p < 161) : Unmoved n s (portClosed s p) := by
  have hdown := unmoved_linkDown hn s p
  unfold portClosed
  split
  · exact (hdown.trans (unmoved_portWord n _ _ _ _ hp (by decide))).trans (unmoved_placed n _ _ _ hp)
  · exact hdown

theorem exec_stitchSenseSample_closed (hstate : stState s n = 4) (hopen : (getStitch s n).commandOpen = false) :
    exec (.stitchSenseSample n false true) s =
      .next ([(portsOfStitch n).1, (portsOfStitch n).2].foldl portClosed (setSt (sensed s n false true) n 0)) := by
  show execStitchSenseSample n false true s = _
  unfold execStitchSenseSample
  dsimp only
  rw [show stState (fset s (pStitch n + 0x48) 1 0 (2 * b2n false + b2n true)) n = 4 from (stState_sensed s n false true).trans hstate,
    show (getStitch (fset s (pStitch n + 0x48) 1 0 (2 * b2n false + b2n true)) n).commandOpen = false from hopen]
  rfl

theorem stitchSenseSample_closes (hn : n < 12) (hstate : stState s n = 4) (hopen : (getStitch s n).commandOpen = false) :
    Runs (.stitchSenseSample n false true) s fun t => stState t n = 0 := by
  obtain ⟨hfirst, hsecond⟩ := portsOfStitch_lt hn
  have hports : Unmoved n (setSt (sensed s n false true) n 0)
      ([(portsOfStitch n).1, (portsOfStitch n).2].foldl portClosed (setSt (sensed s n false true) n 0)) :=
    unmoved_pair (fun u p hp => unmoved_portClosed hn u (by rcases hp with rfl | rfl <;> omega)) _
  exact ⟨_, exec_stitchSenseSample_closed hstate hopen, hports.stState.trans (stState_setSt _ n (by decide))⟩

/-! ## The fault of a stitch (R276) -/

/-- A port of a stitch in FAULT. -/
def portFaults (s : State) (p : Nat) : State := setCause (setBlk (portStops s p) (pPort p) 5) (pPort p) 5

/-- A stitch in FAULT, reported. -/
def stitchFaulted (s : State) (n : Nat) : State :=
  report (ctrAdd (setStitch (setSt s n 5) n { getStitch (setSt s n 5) n with outOfService := true }) (pStitch n) 2 1)
    (mkFault 0x22 n 0x38 1 n 0xFF 0)

theorem stitchFault_eq (s : State) (n : Nat) :
    stitchFault s n = [(portsOfStitch n).1, (portsOfStitch n).2].foldl portFaults (stitchFaulted s n) := rfl

theorem unmoved_portFaults (hn : n < 12) (s : State) {p : Nat} (hp : p < 161) : Unmoved n s (portFaults s p) :=
  (((unmoved_linkDown hn s p).trans (unmoved_placed n _ 0 0 hp)).trans (unmoved_portWord n _ _ _ _ hp (by decide))).trans
    (unmoved_portWord n _ _ _ _ hp (by decide))

theorem blkState_portFaults (s : State) (p : Nat) : blkState (portFaults s p) (pPort p) = 5 :=
  (blkState_setCause _ _ _).trans (blkState_setBlk _ _ (by decide))

theorem blkState_portFaults_ne (s : State) {p q : Nat} (hq : q < 161) (h : q ≠ p) :
    blkState (portFaults s p) (pPort q) = blkState s (pPort q) := by
  refine blkState_congr ?_
  have hne : pPort q + 0x0C ≠ pPort p + 0x0C ∧ pPort q + 0x0C ≠ pPort p + 0x44 ∧ pPort q + 0x0C ≠ pPort p + 0x48 := by
    simp only [pPort]
    omega
  rw [portFaults, setCause, setBlk, rd_fset_ne _ _ _ _ _ _ hne.1, rd_fset_ne _ _ _ _ _ _ hne.1, portStops,
    rd_setStage_ne _ _ _ hne.2.1, rd_setPState_ne _ _ _ hne.2]
  exact settled_linkDown s p _ (settledWord_port hq (.inl rfl))

theorem portFaults_keeps (s : State) (p : Nat) : Keeps 0x8000000000000000#64 s (portFaults s p) := by
  unfold portFaults portStops
  exact setCause_keeps _ _ _ _ _ (by decide) (setBlk_keeps _ _ _ _ _ (by decide) (setStage_keeps _ _ _ _ _ (by decide)
    (setPState_keeps _ _ _ _ _ (by decide) (linkDown_keeps _ _ _ _ (by decide) (.refl _ _)))))

theorem stitchFaulted_fields (s : State) (hn : n < 12) : stState (stitchFaulted s n) n = 5 ∧
    (getStitch (stitchFaulted s n) n).outOfService = true ∧ Reports s (stitchFaulted s n) (mkFault 0x22 n 0x38 1 n 0xFF 0) := by
  obtain ⟨u, hu⟩ : ∃ u, u = ctrAdd (setStitch (setSt s n 5) n { getStitch (setSt s n 5) n with outOfService := true }) (pStitch n) 2 1 :=
    ⟨_, rfl⟩
  have heq : stitchFaulted s n = report u (mkFault 0x22 n 0x38 1 n 0xFF 0) := by rw [hu, stitchFaulted]
  have hstate : stState u n = 5 := by
    rw [hu]
    exact (congrArg (bitsOf · 2 0) (rd_ctrAdd ..)).trans (stState_setSt s n (by decide))
  have hservice : (getStitch u n).outOfService = true := by
    rw [hu]
    exact congrArg StitchSt.outOfService ((getStitch_setStitch (setSt s n 5) n n _).trans (if_pos rfl))
  have hreported : u.faults = s.faults := by
    rw [hu]
    rfl
  have hstitches := (report_keeps 0x1000#64 u u (mkFault 0x22 n 0x38 1 n 0xFF 0) (by decide) (.refl _ _)).same .stitches (by decide)
  rw [heq]
  refine ⟨(congrArg (bitsOf · 2 0) ((calm_report u _).word _ (calmWord_stitch hn))).trans hstate, ?_,
    .of_prefix (by rw [hreported]) (reports_report u _)⟩
  rw [getStitch, hstitches]
  exact hservice

theorem stitchFault_faults (s : State) (hn : n < 12) : stState (stitchFault s n) n = 5 ∧
    (getStitch (stitchFault s n) n).outOfService = true ∧ Reports s (stitchFault s n) (mkFault 0x22 n 0x38 1 n 0xFF 0) ∧
    blkState (stitchFault s n) (pPort (portsOfStitch n).1) = 5 ∧ blkState (stitchFault s n) (pPort (portsOfStitch n).2) = 5 := by
  obtain ⟨hfirst, hsecond⟩ := portsOfStitch_lt hn
  obtain ⟨hstate, hservice, hreports⟩ := stitchFaulted_fields s hn
  have hports : Unmoved n (stitchFaulted s n) ([(portsOfStitch n).1, (portsOfStitch n).2].foldl portFaults (stitchFaulted s n)) :=
    unmoved_pair (fun u p hp => unmoved_portFaults hn u (by rcases hp with rfl | rfl <;> omega)) _
  rw [stitchFault_eq]
  refine ⟨hports.stState.trans hstate, ?_, hreports.trans_prefix ?_, ?_, blkState_portFaults _ _⟩
  · rw [hports.getStitch, hservice]
  · exact (portFaults_keeps _ _).reported_prefix.trans (portFaults_keeps _ _).reported_prefix
  · exact (blkState_portFaults_ne _ (by omega) (portsOfStitch_ne n)).trans (blkState_portFaults _ _)

theorem stitchSenseSample_faults (hn : n < 12) (hstate : stState s n ≠ 5) (made : Bool) :
    Runs (.stitchSenseSample n made made) s fun t => stState t n = 5 ∧ (getStitch t n).outOfService = true ∧
      Reports s t (mkFault 0x22 n 0x38 1 n 0xFF 0) ∧ blkState t (pPort (portsOfStitch n).1) = 5 ∧
      blkState t (pPort (portsOfStitch n).2) = 5 := by
  have hrun : exec (.stitchSenseSample n made made) s = .next (stitchFault (sensed s n made made) n) := by
    have hstate' : ¬(stState (sensed s n made made) n == 5) = true := by
      rw [stState_sensed]
      simpa using hstate
    show execStitchSenseSample n made made s = _
    unfold execStitchSenseSample
    dsimp only
    rw [if_neg (show ¬(stState (fset s (pStitch n + 0x48) 1 0 (2 * b2n made + b2n made)) n == 5) = true from hstate'),
      if_pos (by simp)]
    rfl
  obtain ⟨hst, hservice, hreports, hports⟩ := stitchFault_faults (sensed s n made made) hn
  exact ⟨_, hrun, hst, hservice, hreports, hports⟩

/-! ## Closing (R274, R275, R278) -/

/-- A stitch under bias that loses it is CLOSING, with its cause. -/
theorem closeStitch_closes (h : stState s n = 3) {cause : Nat} (hcause : cause < 256) :
    stState (closeStitch s n cause) n = 4 ∧ fget (closeStitch s n cause) (pStitch n + 0x44) 23 16 = cause ∧
      (getStitch (closeStitch s n cause) n).commandOpen = false := by
  have heq : closeStitch s n cause = ctrAdd (setStitch (fset (setSt s n 4) (pStitch n + 0x44) 23 16 cause) n
      { getStitch (fset (setSt s n 4) (pStitch n + 0x44) 23 16 cause) n with commandOpen := false }) (pStitch n) 1 1 := by
    unfold closeStitch
    dsimp only
    rw [h]
    rfl
  have hword : rd (closeStitch s n cause) (pStitch n + 0x44) = rd (fset (setSt s n 4) (pStitch n + 0x44) 23 16 cause) (pStitch n + 0x44) := by
    rw [heq, rd_ctrAdd]
    rfl
  refine ⟨?_, ?_, ?_⟩
  · rw [stState, fget, hword]
    exact (fget_fset_apart _ _ _ _ _ _ _ (by decide) (by decide) (.inl (by decide))).trans (stState_setSt s n (by decide))
  · rw [fget, hword]
    exact fget_fset_same _ _ _ _ _ (by decide) (by decide) (by omega)
  · rw [heq]
    exact congrArg StitchSt.commandOpen ((getStitch_setStitch _ n n _).trans (if_pos rfl))

theorem stState_setStitch (s : State) (m : Nat) (x : StitchSt) (n : Nat) : stState (setStitch s m x) n = stState s n := rfl

/-- One more attempt of a stitch, as ADMIT_TIMEOUT counts it. -/
def attempted (s : State) (n : Nat) : State :=
  fset s (pStitch n + 0x44) 9 8 (Nat.min 3 (fget s (pStitch n + 0x44) 9 8 + 1))

theorem stState_attempted (s : State) (n : Nat) : stState (attempted s n) n = stState s n :=
  fget_fset_apart _ _ _ _ _ _ _ (by decide) (by decide) (.inl (by decide))

theorem holdOpen_attempted (s : State) (n : Nat) : holdOpen (attempted s n) n = holdOpen s n :=
  congrArg (·.getLsbD 1) (rd_fset_ne _ _ _ _ _ _ (by omega))

theorem stitchAdmitTimeout_closes (hstate : stState s n = 3) (hport : admitted s (portsOfStitch n).1 = false)
    (hhold : holdOpen s n = false) : Runs (.stitchAdmitTimeout n) s fun t =>
      stState t n = 4 ∧ (getStitch t n).retryOwed = true ∧ (getStitch t n).commandOpen = false := by
  have hrun : exec (.stitchAdmitTimeout n) s = .next (setStitch (closeStitch (attempted s n) n 7) n
      { getStitch (closeStitch (attempted s n) n 7) n with retryOwed := true }) := by
    show execStitchAdmitTimeout n s = _
    unfold execStitchAdmitTimeout
    dsimp only
    rw [if_neg (by simp [hstate, hport])]
    exact if_neg (by rw [show holdOpen (fset s _ 9 8 _) n = holdOpen s n from holdOpen_attempted s n, hhold]; decide)
  obtain ⟨hclosed, -, hcommand⟩ := closeStitch_closes ((stState_attempted s n).trans hstate) (cause := 7) (by decide)
  refine ⟨_, hrun, (stState_setStitch _ n _ n).trans hclosed, ?_⟩
  rw [getStitch_setStitch, if_pos rfl]
  exact ⟨rfl, hcommand⟩

/-! ## KST_CTRL (R274, R275, R278) -/

theorem exec_kstForceClose (hn : n < 12) (s : State) :
    exec (.kstForceClose who n) s = .next (commandWrite who none (pStitch n + 0x40) 1 1 s) :=
  writeIf_pos (decide_eq_true hn) ..

theorem exec_kstRetry (hn : n < 12) (s : State) :
    exec (.kstRetry who n) s = .next (commandWrite who none (pStitch n + 0x40) 4 4 s) :=
  writeIf_pos (decide_eq_true hn) ..

theorem stitchKind_inst (n : Nat) : stitchKind.inst (pStitch n) = n := by
  simp only [PageKind.inst, stitchKind, pStitch]
  omega

/-- What KST_CTRL does when written (Table 13.11). -/
theorem acceptWrite_kstCtrl (hn : n < 12) (v m : Word) : acceptWrite s who none (pStitch n + 0x40) v m =
    (fun u => if woVal v m 2 2 == 1 then openStart (setStitch (fset u (pStitch n + 0x44) 9 8 0) n
        { getStitch u n with retryOwed := false }) n else u)
      (if (mergeWord (pStitch n + 0x40) (rd s (pStitch n + 0x40)) v m).getLsbD 0 && !(rd s (pStitch n + 0x40)).getLsbD 0
        then closeNow (written s who (pStitch n + 0x40) v m) n 3 else written s who (pStitch n + 0x40) v m) := by
  rw [acceptWrite_block none (pageOf_stitch hn (by decide)) (by decide) (by decide) (by decide)]
  exact congrArg (fun i => (fun u => if woVal v m 2 2 == 1 then openStart (setStitch (fset u (pStitch n + 0x44) 9 8 0) i
        { getStitch u i with retryOwed := false }) i else u)
      (if (mergeWord (pStitch n + 0x40) (rd s (pStitch n + 0x40)) v m).getLsbD 0 && !(rd s (pStitch n + 0x40)).getLsbD 0
        then closeNow (written s who (pStitch n + 0x40) v m) i 3 else written s who (pStitch n + 0x40) v m)) (stitchKind_inst n)

theorem fieldsAt_kstCtrl (hn : n < 12) : fieldsAt (pStitch n + 0x40) = [actI 2 2, fldI 1 1, fldI 0 0] := by
  simp only [fieldsAt, pageOf_stitch hn (by decide : 0x40 < 0x1000), Nat.add_sub_cancel_left]
  rfl

theorem mergeWord_kstForce (hn : n < 12) (old : Word) : (mergeWord (pStitch n + 0x40) old 1 1).getLsbD 0 = true := by
  rw [mergeWord_getLsbD _ _ _ (by decide) (.inl (by simp only [pStitch, wRank]; omega)), fieldsAt_kstCtrl hn,
    show (accMask [actI 2 2, fldI 1 1, fldI 0 0] isWritten).getLsbD 0 = true by decide,
    show (accMask [actI 2 2, fldI 1 1, fldI 0 0] (· == .w1c)).getLsbD 0 = false by decide]
  simp

/-- Every write of KST_CTRL that touches a field is recorded as STITCH_OVERRIDE (R278, R340). -/
theorem stitchCtrl_kstCtrl (hn : n < 12) : stitchCtrl (pStitch n + 0x40) 1 = some n := by
  have htouched : (touched (pStitch n + 0x40) 1).isEmpty = false := by
    rw [touched, fieldsAt_kstCtrl hn]
    decide
  rw [stitchCtrl, pageOf_stitch hn (by decide)]
  dsimp only
  rw [Nat.add_sub_cancel_left, htouched, stitchKind_inst]
  rfl

theorem written_kstForce_nextSeq (hn : n < 12) (s : State) (who : Requester) :
    s.audit.nextSeq < (written s who (pStitch n + 0x40) 1 1).audit.nextSeq := by
  show s.audit.nextSeq < (recordWrite s who (pStitch n + 0x40) 1 1 (changeOf s (pStitch n + 0x40) 1 1) 0).audit.nextSeq
  unfold recordWrite
  rw [stitchCtrl_kstCtrl hn]
  exact auditAdd_nextSeq ..

theorem closeNow_of_open (h : stState s n = 3) (cause : Nat) : closeNow s n cause = closeStitch s n cause := by
  unfold closeNow
  dsimp only
  rw [h]
  rfl

theorem kstForceClose_closes (hn : n < 12) (hstate : stState s n = 3) (hacc : Accepts s who (pStitch n + 0x40) 1 1)
    (hforced : bit s (pStitch n + 0x40) 0 = false) : Runs (.kstForceClose who n) s fun t =>
      stState t n = 4 ∧ fget t (pStitch n + 0x44) 23 16 = 3 ∧ s.audit.nextSeq < t.audit.nextSeq := by
  have hstate' : stState (written s who (pStitch n + 0x40) 1 1) n = 3 :=
    (congrArg (bitsOf · 2 0) (rd_written_ne _ _ _ _ (by omega))).trans hstate
  have hrun : exec (.kstForceClose who n) s = .next (closeStitch (written s who (pStitch n + 0x40) 1 1) n 3) := by
    have hold : (rd s (pStitch n + 0x40)).getLsbD 0 = false := hforced
    rw [exec_kstForceClose hn, commandWrite_of_accepts hacc, acceptWrite_kstCtrl hn, mergeWord_kstForce hn, hold]
    dsimp only
    rw [if_neg (by decide), if_pos (by decide), closeNow_of_open hstate']
  obtain ⟨hclosed, hcause, -⟩ := closeStitch_closes hstate' (cause := 3) (by decide)
  have hseq := (closeStitch_keeps 0x80000000#64 _ (written s who (pStitch n + 0x40) 1 1) n 3 (by decide) (.refl _ _)).nextSeq_eq
  exact ⟨_, hrun, hclosed, hcause, (written_kstForce_nextSeq hn s who).trans_eq hseq.symm⟩

theorem setStitch_words (s : State) (n : Nat) (x : StitchSt) : (setStitch s n x).phase = s.phase ∧
    ∀ a, rd (setStitch s n x) a = rd s a := ⟨rfl, fun _ => rfl⟩

theorem getStitch_fset (s : State) (a hi lo v m : Nat) : getStitch (fset s a hi lo v) m = getStitch s m := rfl
theorem phase_fset (s : State) (a hi lo v : Nat) : (fset s a hi lo v).phase = s.phase := rfl

/-- RETRY writes nothing that an opening depends on but the attempts. -/
theorem sameOpening_retry (hn : n < 12) (s : State) (who : Requester) : SameOpening n (fset s (pStitch n + 0x44) 9 8 0)
    (setStitch (fset (written s who (pStitch n + 0x40) 4 4) (pStitch n + 0x44) 9 8 0) n
      { getStitch (written s who (pStitch n + 0x40) 4 4) n with retryOwed := false }) := by
  obtain ⟨u, hu⟩ : ∃ u, u = written s who (pStitch n + 0x40) 4 4 := ⟨_, rfl⟩
  have hne : ∀ a, a ≠ pStitch n + 0x40 → rd u a = rd s a := fun a ha => by rw [hu, rd_written_ne _ _ _ _ ha]
  have hbit : bit u (pStitch n + 0x40) 0 = bit s (pStitch n + 0x40) 0 := by
    rw [bit, hu, rd_written_same]
    exact mergeWord_getLsbD_of_unmasked _ _ (by decide) (.inl (by simp only [pStitch, wRank]; omega)) rfl
  have hphase : u.phase = s.phase := by
    obtain ⟨regs, audit, hframe⟩ := written_frame s who (pStitch n + 0x40) 4 4
    rw [hu, hframe]
  have hstitch : ∀ m, getStitch u m = getStitch s m := fun m => by
    obtain ⟨regs, audit, hframe⟩ := written_frame s who (pStitch n + 0x40) 4 4
    rw [getStitch, hu, hframe, getStitch]
  rw [← hu]
  obtain ⟨hphase', hrd⟩ := setStitch_words (fset u (pStitch n + 0x44) 9 8 0) n { getStitch u n with retryOwed := false }
  refine ⟨?_, fun a ha => ?_, ?_, fun m => ?_, fun m hm => ?_⟩
  · rw [hphase', phase_fset, phase_fset, hphase]
  · rw [hrd]
    by_cases heq : a = pStitch n + 0x44
    · rw [heq, fset, fset, rd_wr_same, rd_wr_same, hne _ (by omega)]
    · rw [rd_fset_ne _ _ _ _ _ _ heq, rd_fset_ne _ _ _ _ _ _ heq, hne a ha]
  · rw [bit, hrd, rd_fset_ne _ _ _ _ _ _ (by omega), bit, rd_fset_ne _ _ _ _ _ _ (by omega)]
    exact hbit
  · rw [getStitch_setStitch, getStitch_fset, getStitch_fset]
    split
    · next h => rw [h, ← hstitch n]
    · rw [hstitch]
  · rw [getStitch_setStitch, if_neg hm, getStitch_fset, getStitch_fset, hstitch]

theorem kstRetry_starts (hn : n < 12) (hacc : Accepts s who (pStitch n + 0x40) 4 4)
    (hstart : MayStart (fset s (pStitch n + 0x44) 9 8 0) n) (hforced : bit s (pStitch n + 0x40) 0 = false) :
    Runs (.kstRetry who n) s fun t => stState t n = 1 := by
  have hbit : (mergeWord (pStitch n + 0x40) (rd s (pStitch n + 0x40)) 4 4).getLsbD 0 = (rd s (pStitch n + 0x40)).getLsbD 0 :=
    mergeWord_getLsbD_of_unmasked _ _ (by decide) (.inl (by simp only [pStitch, wRank]; omega)) rfl
  have hrun : exec (.kstRetry who n) s = .next (openStart (setStitch (fset (written s who (pStitch n + 0x40) 4 4)
      (pStitch n + 0x44) 9 8 0) n { getStitch (written s who (pStitch n + 0x40) 4 4) n with retryOwed := false }) n) := by
    have hold : (rd s (pStitch n + 0x40)).getLsbD 0 = false := hforced
    rw [exec_kstRetry hn, commandWrite_of_accepts hacc, acceptWrite_kstCtrl hn, hbit, hold]
    dsimp only
    rw [if_pos (by decide), if_neg (by decide)]
  exact ⟨_, hrun, (openStart_starts hn (hstart.congr hn (sameOpening_retry hn s who))).1⟩

/-- Settles O16: each command of the stitches, through what a fall and a bring-up of its ports leave of a stitch. -/
theorem stitchesOpenAndClose : Obligations.StitchesOpenAndClose := by
  unfold Obligations.StitchesOpenAndClose
  intro s n hn
  refine ⟨fun hopen hfree hturn => ?_, fun howed => ⟨s, stitchOpenStart_of_owed howed, rfl⟩,
    fun hfree => ⟨s, stitchOpenStart_waits (.inr hfree), rfl⟩, fun hopen => ⟨s, stitchOpenStart_waits (.inl hopen), rfl⟩,
    stitchSenseSample_opens hn, stitchSenseSample_closes hn, fun hstate made => stitchSenseSample_faults hn hstate made,
    stitchAdmitTimeout_closes, fun hstate who => kstForceClose_closes hn hstate,
    fun who hacc hopen hforced hfree hturn => kstRetry_starts hn hacc ⟨hopen, hfree, hturn⟩ hforced⟩
  have h : MayStart s n := ⟨hopen, hfree, hturn⟩
  exact ⟨fun howed => ⟨_, exec_stitchOpenStart howed, (openStart_starts hn h).1⟩, stitchRetryTimer_starts hn h⟩

end Sys2Proof.Machine

/-! # Scrub, refresh and retirement (R285, R293, R295 to R299) -/
namespace Sys2Proof.Machine

open Sys2Proof

variable {s t : State} {who : Requester}

/-! ## Scrubbing (R295 to R298, Table 14.1) -/

theorem memSt_keeps (m : BitVec 64) (s0 s : State) (x : MemSt) (hm : m &&& 0x10#64 = 0#64) (h : Keeps m s0 s) :
    Keeps m s0 { s with memSt := x } := by
  obtain ⟨hpending, hcanonical, hfuses, hsame, hgrows⟩ := h
  refine ⟨hpending, hcanonical, hfuses, fun p hp => Part.same_trans p (hsame p hp) ?_, hgrows⟩
  cases p
  case memoryState => exact absurd hp (maskOff hm (by decide))
  all_goals rfl

/-- A word found bad: its poison. -/
def poisoned (s : State) (word : Nat) : State := { s with memSt := { s.memSt with poison := addNat s.memSt.poison word } }

theorem retireFrame_poison (s : State) (unit f cause : Nat) : (retireFrame s unit f cause).memSt.poison = s.memSt.poison := by
  have hshown : ∀ (w : Word) (a : Nat) (es : List Setting), (showRetired (commitTxn (wr s a w) es) unit).memSt = s.memSt := fun w a es =>
    (showRetired_keeps 0x10#64 s _ unit (by decide) (commitTxn_keeps _ _ _ _ (by decide) (wr_keeps _ s s _ _ (by decide)
      (.refl _ _)))).same .memoryState (by decide)
  have hreport : ∀ (u : State) (r : FaultRec), (report u r).memSt = u.memSt := fun u r =>
    (report_keeps 0x10#64 u u r (by decide) (.refl _ _)).same .memoryState (by decide)
  unfold retireFrame
  split
  · rfl
  · split
    · exact congrArg MemSt.poison (hshown _ _ _)
    · refine (congrArg MemSt.poison (hreport _ _)).trans ?_
      rfl

theorem loseStash_of_idle (h : s.jobs = []) (word : Nat) : loseStash s word = s := by
  rw [loseStash, h]
  rfl

/-- A bad word that holds nothing, where no job is loaded, is poisoned and its frame retired; nothing else is lost. -/
theorem scrubFrame_uncorrectable (hjobs : s.jobs = []) (unit frame word : Nat) (good last : Bool) :
    scrubFrame s unit frame word (.uncorrectable good .nothing) last =
      (fun u : State => if last then { u with memSt := { u.memSt with
        passes := Sparse.set (fun _ => 0) u.memSt.passes unit (Sparse.get (fun _ => 0) s.memSt.passes unit + 1) } } else u)
        (retireFrame (poisoned s word) unit frame 1) := by
  have hidle : (retireFrame (poisoned s word) unit frame 1).jobs = [] :=
    (retireFrame_keeps 0x200000#64 _ (poisoned s word) _ _ _ (by decide) (.refl _ _)).jobs_eq.trans hjobs
  have hstash := loseStash_of_idle hidle word
  unfold scrubFrame
  dsimp only
  rw [show ({ s with memSt := { s.memSt with poison := addNat s.memSt.poison word } } : State) = poisoned s word from rfl, hstash]
  rfl

theorem scrubFrame_poisons (hjobs : s.jobs = []) (unit frame word : Nat) (good last : Bool) :
    word ∈ (scrubFrame s unit frame word (.uncorrectable good .nothing) last).memSt.poison := by
  have hmem : word ∈ (retireFrame (poisoned s word) unit frame 1).memSt.poison := by
    rw [retireFrame_poison]
    exact mem_addNat_self _ _
  rw [scrubFrame_uncorrectable hjobs]
  dsimp only
  split
  · exact hmem
  · exact hmem

/-- Scrubbing a frame that no job uses leaves all but the maps, the settings, the reports and the state of the memory. -/
theorem scrubFrame_uncorrectable_keeps (m : BitVec 64) (hm : m &&& 0x440000011#64 = 0#64) (hjobs : s.jobs = [])
    (unit frame word : Nat) (good last : Bool) : Keeps m s (scrubFrame s unit frame word (.uncorrectable good .nothing) last) := by
  have hretired : Keeps m s (retireFrame (poisoned s word) unit frame 1) :=
    retireFrame_keeps _ _ _ _ _ _ hm (memSt_keeps _ _ _ _ (maskSub hm (by decide)) (.refl _ _))
  rw [scrubFrame_uncorrectable hjobs]
  dsimp only
  split
  · exact memSt_keeps _ _ _ _ (maskSub hm (by decide)) hretired
  · exact hretired

theorem scrubFrame_corrected_keeps (m : BitVec 64) (hm : m &&& 0x440000011#64 = 0#64) (s : State) (unit frame word : Nat) (last : Bool) :
    Keeps m s (scrubFrame s unit frame word .corrected last) := by
  have hmem : ∀ x, Keeps m s { s with memSt := x } := fun x => memSt_keeps _ _ _ _ (maskSub hm (by decide)) (.refl _ _)
  have hretired : ∀ (x : MemSt) (c : Prop) [Decidable c], Keeps m s (if c then retireFrame { s with memSt := x } unit frame 2 else { s with memSt := x }) :=
    fun x c _ => keeps_ite (fun _ => retireFrame_keeps _ _ _ _ _ _ hm (hmem x)) fun _ => hmem x
  unfold scrubFrame
  dsimp only
  split
  · exact memSt_keeps _ _ _ _ (maskSub hm (by decide)) (hretired _ _)
  · exact hretired _ _

theorem scrubFrame_clean (s : State) (unit frame word : Nat) : scrubFrame s unit frame word .clean false = s := rfl

/-- A word of a page's counters beside the one that counts it. -/
theorem ctrGet_ctrAdd_apart (s : State) (page : Nat) {i j : Nat} (n : Nat) (h : j ≠ i) : ctrGet (ctrAdd s page i n) page j = ctrGet s page j := by
  rw [ctrGet_ctrAdd, if_neg (by omega)]

theorem ctrGet_report (s : State) (r : FaultRec) (page i : Nat) : ctrGet (report s r) page i = ctrGet s page i :=
  ctrAt_report _ s r

/-- What the scrubbing of a word does beyond its count: it is counted, reported, and nothing else is counted. -/
structure Scrubs (s : State) (page i : Nat) (r : FaultRec) (t : State) : Prop where
  counted : ctrGet t page i = ctrGet s page i + 1
  reports : Reports s t r

theorem Scrubs.later {u : State} {page i : Nat} {r : FaultRec} (h : Scrubs s page i r t) (hu : Keeps 0x8000000000000002#64 t u) :
    Scrubs s page i r u := by
  refine ⟨Eq.trans ?_ h.counted, h.reports.trans_prefix (hu.grows (by decide)).2.2.2.1⟩
  have hctrs : (u.ctrs, u.parts) = (t.ctrs, t.parts) := hu.same .counters (by decide)
  exact ctrGet_congr (congrArg Prod.fst hctrs) _ _

theorem scrubs_corrected (s : State) (page : Nat) {i made dropped : Nat} (newer : Bool) (r : FaultRec) (hmade : i ≠ made)
    (hdropped : i ≠ dropped) : Scrubs s page i r (report (writeBack (ctrAdd s page i 1) page made dropped newer) r) := by
  refine ⟨?_, .of_prefix ?_ (reports_report _ _)⟩
  · rw [ctrGet_report, writeBack]
    split
    · split
      · exact ctrGet_ctrAdd_same ..
      · rw [ctrGet_ctrAdd_apart _ _ _ hdropped, ctrGet_ctrAdd_same]
        rfl
    · rw [ctrGet_ctrAdd_apart _ _ _ hmade, ctrGet_ctrAdd_same]
      rfl
  · exact (writeBack_keeps 0x8000000000000000#64 s _ page made dropped newer (by decide)
      (ctrAdd_keeps _ _ _ _ _ _ (by decide) (.refl _ _))).reported_prefix

theorem scrubs_uncorrectable (s : State) (page i : Nat) (r : FaultRec) : Scrubs s page i r (report (ctrAdd s page i 1) r) := by
  refine ⟨?_, .of_prefix (List.prefix_refl _) (reports_report _ _)⟩
  rw [ctrGet_report, ctrGet_ctrAdd_same]
  rfl

/-! ### The stacks -/

section Stack

variable {d address : Nat} (hd : d < 8) (haddress : address + 32 < 3221225472)

include hd haddress

theorem inStack : ¬(decide (8 ≤ d) || decide (3221225472 ≤ address)) = true ∧ decide (3221225472 ≤ address + 32) = false := by
  refine ⟨?_, decide_eq_false (by omega)⟩
  rw [Bool.or_eq_true, decide_eq_true_eq, decide_eq_true_eq]
  omega

theorem scrubStep_stackClean : exec (.scrubStep (.stack d) address .clean false) s = .next s := by
  obtain ⟨hin, hlast⟩ := inStack hd haddress
  show execScrubStep (.stack d) address .clean false s = _
  unfold execScrubStep
  dsimp only
  rw [if_neg hin, hlast]
  rfl

theorem scrubStep_stackCorrected : Runs (.scrubStep (.stack d) address .corrected false) s fun t =>
    ctrGet t (pStackMem d) 3 = ctrGet s (pStackMem d) 3 + 1 ∧ Reports s t (mkFault 0x2C d 0x15 0 address 0xFF 0) ∧ t.mem = s.mem := by
  obtain ⟨hin, hlast⟩ := inStack hd haddress
  obtain ⟨u, hu⟩ : ∃ u, u = report (writeBack (ctrAdd s (pStackMem d) 3 1) (pStackMem d) 5 6 false) (mkFault 0x2C d 0x15 0 address 0xFF 0) :=
    ⟨_, rfl⟩
  have hscrubs : Scrubs s (pStackMem d) 3 (mkFault 0x2C d 0x15 0 address 0xFF 0) u := by
    rw [hu]
    exact scrubs_corrected s _ _ _ (by decide) (by decide)
  have hmem : u.mem = s.mem := by
    rw [hu]
    exact (report_keeps 0x8#64 s _ _ (by decide) (writeBack_keeps _ _ _ _ _ _ _ (by decide) (ctrAdd_keeps _ s _ _ _ _ (by decide)
      (.refl _ _)))).same .memory (by decide)
  have hrun : exec (.scrubStep (.stack d) address .corrected false) s =
      .next (scrubFrame u d (address / 262144) ((stackBase d + address) / 32) .corrected false) := by
    rw [hu]
    show execScrubStep (.stack d) address .corrected false s = _
    unfold execScrubStep
    dsimp only
    rw [if_neg hin, hlast]
    rfl
  have hkeeps := scrubFrame_corrected_keeps 0x800000000000000A#64 (by decide) u d (address / 262144) ((stackBase d + address) / 32) false
  have hafter := hscrubs.later (scrubFrame_corrected_keeps 0x8000000000000002#64 (by decide) u d (address / 262144)
    ((stackBase d + address) / 32) false)
  exact ⟨_, hrun, hafter.counted, hafter.reports, (hkeeps.same .memory (by decide)).trans hmem⟩

theorem scrubStep_stackUncorrectable (good : Bool) (hjobs : s.jobs = []) :
    Runs (.scrubStep (.stack d) address (.uncorrectable good .nothing) false) s fun t =>
      (stackBase d + address) / 32 ∈ t.memSt.poison ∧ ctrGet t (pStackMem d) 4 = ctrGet s (pStackMem d) 4 + 1 ∧
        Reports s t (mkFault 0x2C d 0x16 1 (address / 262144) 0xFF 0) := by
  obtain ⟨hin, hlast⟩ := inStack hd haddress
  obtain ⟨u, hu⟩ : ∃ u, u = report (ctrAdd s (pStackMem d) 4 1) (mkFault 0x2C d 0x16 1 (address / 262144) 0xFF 0) := ⟨_, rfl⟩
  have hscrubs : Scrubs s (pStackMem d) 4 (mkFault 0x2C d 0x16 1 (address / 262144) 0xFF 0) u := by
    rw [hu]
    exact scrubs_uncorrectable ..
  have hidle : u.jobs = [] := by
    rw [hu]
    exact (report_keeps 0x200000#64 s _ _ (by decide) (ctrAdd_keeps _ s _ _ _ _ (by decide) (.refl _ _))).jobs_eq.trans hjobs
  have hrun : exec (.scrubStep (.stack d) address (.uncorrectable good .nothing) false) s =
      .next (scrubFrame u d (address / 262144) ((stackBase d + address) / 32) (.uncorrectable good .nothing) false) := by
    rw [hu]
    show execScrubStep (.stack d) address (.uncorrectable good .nothing) false s = _
    unfold execScrubStep
    dsimp only
    rw [if_neg hin, hlast]
    rfl
  have hafter := hscrubs.later (scrubFrame_uncorrectable_keeps 0x8000000000000002#64 (by decide) hidle d (address / 262144)
    ((stackBase d + address) / 32) good false)
  exact ⟨_, hrun, scrubFrame_poisons hidle _ _ _ _ _, hafter.counted, hafter.reports⟩

end Stack

/-! ### The SRAM and LPDDR6 -/

theorem scrubStep_sramCorrected {die part address : Nat} (hdie : die < 8) (hpart : part < 4) (haddress : address < sramBytes part) :
    Runs (.scrubStep (.sram die part) address .corrected true) s fun t =>
      ctrGet t (pStackMem die) 0 = ctrGet s (pStackMem die) 0 + 1 ∧ ctrGet t (pStackMem die) 6 = ctrGet s (pStackMem die) 6 + 1 ∧
        Reports s t (mkFault 0x2C die 0x10 0 address 0xFF 0) := by
  have hrun : exec (.scrubStep (.sram die part) address .corrected true) s =
      .next (report (ctrAdd (ctrAdd s (pStackMem die) 0 1) (pStackMem die) 6 1) (mkFault 0x2C die 0x10 0 address 0xFF 0)) := by
    have hin : ¬(decide (8 ≤ die) || decide (sramBytes part ≤ address)) = true := by
      rw [Bool.or_eq_true, decide_eq_true_eq, decide_eq_true_eq]
      omega
    have hlast : (part == 4 && decide (sramBytes 4 ≤ address + 32)) = false := by
      rw [show (part == 4) = false from beq_eq_false_iff_ne.2 (by omega), Bool.false_and]
    show execScrubStep (.sram die part) address .corrected true s = _
    unfold execScrubStep
    dsimp only
    rw [if_neg hin, hlast]
    rfl
  refine ⟨_, hrun, ?_, ?_, .of_prefix (List.prefix_refl _) (reports_report _ _)⟩
  · rw [ctrGet_report, ctrGet_ctrAdd_apart _ _ _ (by decide), ctrGet_ctrAdd_same]
    rfl
  · rw [ctrGet_report, ctrGet_ctrAdd_same, ctrGet_ctrAdd_apart _ _ _ (by decide)]
    rfl

theorem scrubStep_lpddrUncorrectable {j address : Nat} (good : Bool) (hj : j < 4) (haddress : address < groupBytes s j)
    (hjobs : s.jobs = []) : Runs (.scrubStep (.lpddr j) address (.uncorrectable good .nothing) false) s fun t =>
      (lpddrBase j + address) / 32 ∈ t.memSt.poison := by
  obtain ⟨u, hu⟩ : ∃ u, u = report (ctrAdd s (pLpddr (8 * j + address / 4096 % 8)) 1 1)
      (mkFault 0x2D (8 * j + address / 4096 % 8) 0x18 1 (address / 2 ^ 21) 0xFF 0) := ⟨_, rfl⟩
  have hidle : u.jobs = [] := by
    rw [hu]
    exact (report_keeps 0x200000#64 s _ _ (by decide) (ctrAdd_keeps _ s _ _ _ _ (by decide) (.refl _ _))).jobs_eq.trans hjobs
  have hin : ¬(decide (4 ≤ j) || decide (groupBytes s j ≤ address)) = true := by
    rw [Bool.or_eq_true, decide_eq_true_eq, decide_eq_true_eq]
    omega
  have hrun : ∃ last, exec (.scrubStep (.lpddr j) address (.uncorrectable good .nothing) false) s =
      .next (scrubFrame u (8 + j) (address / 2 ^ 21) ((lpddrBase j + address) / 32) (.uncorrectable good .nothing) last) := by
    refine ⟨decide (groupBytes u j ≤ address + 32), ?_⟩
    rw [hu]
    show execScrubStep (.lpddr j) address (.uncorrectable good .nothing) false s = _
    unfold execScrubStep
    dsimp only
    rw [if_neg hin]
  obtain ⟨last, hrun⟩ := hrun
  exact ⟨_, hrun, scrubFrame_poisons hidle _ _ _ _ _⟩

/-! ## Refresh and retraining (R285, R293) -/

theorem dramRefresh_shows {stack vault : Nat} (hot : Bool) (hstack : stack < 8) (hvault : vault < 64) :
    Runs (.dramRefresh stack vault hot) s fun t =>
      bit t (pStackMem stack + 0x48) 0 = hot ∧ ∀ a, a ≠ pStackMem stack + 0x48 → rd t a = rd s a := by
  refine ⟨setBit s (pStackMem stack + 0x48) 0 hot, ?_, bit_setBit_same _ _ _ _ (by decide), fun a ha => rd_setBit_ne _ _ _ _ _ ha⟩
  exact if_neg (by
    rw [Bool.or_eq_true, decide_eq_true_eq, decide_eq_true_eq]
    omega)

theorem lpddrRefresh_shows {channel : Nat} (temp : Nat) (hchannel : channel < 32) (hup : bit s (pLpddr channel + 0x40) 31 = true) :
    Runs (.lpddrRefresh channel temp) s fun t => fget t (pLpddr channel + 0x40) 23 16 = temp % 256 ∧ t.ctrs = s.ctrs := by
  refine ⟨fset s (pLpddr channel + 0x40) 23 16 temp, ?_, fget_fset_mod _ _ _ _ _ (by decide) (by decide), rfl⟩
  show execLpddrRefresh channel temp s = _
  rw [execLpddrRefresh, if_neg (by omega), hup]
  rfl

theorem lpddrRetrain_shows {channel : Nat} (temp : Nat) (hchannel : channel < 32) (hup : bit s (pLpddr channel + 0x40) 31 = true) :
    Runs (.lpddrRetrain channel temp) s fun t => fget t (pLpddr channel + 0x40) 23 16 = temp % 256 ∧
      ctrGet t (pLpddr channel) 2 = ctrGet s (pLpddr channel) 2 + 1 := by
  refine ⟨fset (ctrAdd s (pLpddr channel) 2 1) (pLpddr channel + 0x40) 23 16 temp, ?_,
    fget_fset_mod _ _ _ _ _ (by decide) (by decide), ?_⟩
  · show execLpddrRetrain channel temp s = _
    rw [execLpddrRetrain, if_neg (by omega), hup]
    rfl
  · rw [ctrGet_fset, ctrGet_ctrAdd_same]
    rfl

/-! ## CLEAR (R299) -/

theorem retireEntry_inj {unit i j : Nat} (h : retireEntry unit i = retireEntry unit j) : i = j := by
  simp only [retireEntry, wStackRet, wLpRet] at h
  split at h <;> omega

theorem retireEntry_page (unit i : Nat) : 0x1300000 ≤ retireEntry unit i := by
  simp only [retireEntry, wStackRet, wLpRet]
  split <;> omega

/-- The maps show their counts below their own entries. -/
theorem rd_showRetired (s : State) {unit a : Nat} (hunit : unit < 12) (ha : 0x1300000 ≤ a) : rd (showRetired s unit) a = rd s a := by
  unfold showRetired
  dsimp only
  split
  · exact rd_fset_ne _ _ _ _ _ _ (by simp only [pStackMem]; omega)
  · simp only [forUp]
    repeat rw [rd_fset_ne _ _ _ _ _ _ (by simp only [pLpddr]; omega)]

theorem rd_emptied {unit : Nat} (es : List Nat) (s : State) (i : Nat) :
    rd (es.foldl (fun s i => wr s (retireEntry unit i) 0) s) (retireEntry unit i) =
      if i ∈ es then 0 else rd s (retireEntry unit i) := by
  induction es generalizing s with
  | nil => simp
  | cons e es ih =>
    rw [List.foldl_cons, ih, rd_wr]
    by_cases hmem : i ∈ es
    · simp [hmem]
    · by_cases heq : i = e
      · simp [heq]
      · rw [if_neg hmem, if_neg fun h => heq (retireEntry_inj h), if_neg (by simp [heq, hmem])]

theorem rd_commitTxn (s : State) (es : List Setting) (a : Nat) : rd (commitTxn s es) a = rd s a :=
  rd_congr (commitTxn_keeps 0x1#64 s s es (by decide) (.refl _ _)).regs_eq _

/-- CLEAR empties the entries of frames that no job holds, and leaves the others (R299). -/
theorem rd_clearRetired (s : State) {unit i : Nat} (hunit : unit < 12) (hi : i < 256) : rd (clearRetired s unit) (retireEntry unit i) =
    if bit s (retireEntry unit i) 31 && !bit s (retireEntry unit i) 30 then 0 else rd s (retireEntry unit i) := by
  unfold clearRetired
  dsimp only
  rw [rd_showRetired _ hunit (retireEntry_page unit i), rd_commitTxn, rd_emptied]
  exact if_congr (by rw [List.mem_filter, List.mem_range]; exact and_iff_right hi) rfl rfl

def stackMemKind : PageKind := ⟨0x2C, 0xC00000, 8, false, false, 7⟩
def lpddrKind : PageKind := ⟨0x2D, 0xD00000, 33, false, false, 4⟩

theorem pageOf_stackMem {d off : Nat} (hd : d < 8) (h : off < 0x1000) : pageOf (pStackMem d + off) = some (stackMemKind, pStackMem d) :=
  pageOf_instance (k := stackMemKind) (by decide) hd h

theorem pageOf_lpddr {c off : Nat} (hc : c < 33) (h : off < 0x1000) : pageOf (pLpddr c + off) = some (lpddrKind, pLpddr c) :=
  pageOf_instance (k := lpddrKind) (by decide) hc h

theorem stackMemKind_inst (d : Nat) : stackMemKind.inst (pStackMem d) = d := inst_instance stackMemKind d

theorem exec_retireClear_stack {unit : Nat} (hunit : unit < 8) (hacc : Accepts s who (pStackMem unit + 0x4C) 1 1) :
    exec (.retireClear who unit) s = .next (clearRetired (written s who (pStackMem unit + 0x4C) 1 1) unit) := by
  have hacts : ∀ (u : State) (old new v m : Word), blockActs u who none stackMemKind (pStackMem unit) 0x4C old new v m =
      if woVal v m 0 0 == 1 then clearRetired u unit else u :=
    fun u _ _ v m => congrArg (fun i => if woVal v m 0 0 == 1 then clearRetired u i else u) (stackMemKind_inst unit)
  show execRetireClear who unit s = _
  rw [execRetireClear, if_pos hunit, writeIf_pos rfl, commandWrite_of_accepts hacc,
    acceptWrite_block none (pageOf_stackMem hunit (by decide)) (by decide) (by decide) (by decide), hacts,
    if_pos (by decide)]

/-- Of four indices only one acts. -/
theorem forUp_single {c : Nat → Bool} {f : State → Nat → State} {j : Nat} (hj : j < 4) (hc : ∀ i < 4, c i = (i == j)) (u : State) :
    forUp (fun s i => if c i then f s i else s) 4 0 u = f u j := by
  simp only [forUp, hc 0 (by decide), hc 1 (by decide), hc 2 (by decide), hc 3 (by decide)]
  interval_cases j <;> rfl

/-- The bits of CLEAR on the pages of all channels name the groups. -/
theorem lpddrClear_acts {j : Nat} (hj : j < 4) (u : State) : forUp (fun s i => if woVal (BitVec.ofNat 32 (2 ^ j)) (BitVec.ofNat 32 (2 ^ j)) i i == 1
    then clearRetired s (8 + i) else s) 4 0 u = clearRetired u (8 + j) :=
  forUp_single (c := fun i => woVal (BitVec.ofNat 32 (2 ^ j)) (BitVec.ofNat 32 (2 ^ j)) i i == 1) (f := fun s i => clearRetired s (8 + i)) hj
    (fun i hi => by interval_cases j <;> interval_cases i <;> decide) u

theorem groupBit {j : Nat} (hj : j < 4) : ([1, 2, 4, 8] : List Word).getD j 0 = BitVec.ofNat 32 (2 ^ j) := by
  interval_cases j <;> rfl

theorem exec_retireClear_lpddr {unit : Nat} (hlow : 8 ≤ unit) (hunit : unit < 12)
    (hacc : Accepts s who (pLpddr 32 + 0x4C) (BitVec.ofNat 32 (2 ^ (unit - 8))) (BitVec.ofNat 32 (2 ^ (unit - 8)))) :
    exec (.retireClear who unit) s = .next (clearRetired (written s who (pLpddr 32 + 0x4C) (BitVec.ofNat 32 (2 ^ (unit - 8)))
      (BitVec.ofNat 32 (2 ^ (unit - 8)))) unit) := by
  have hacts : ∀ (u : State) (old new v : Word), blockActs u who none lpddrKind (pLpddr 32) 0x4C old new v v =
      forUp (fun s i => if woVal v v i i == 1 then clearRetired s (8 + i) else s) 4 0 u := fun _ _ _ _ => rfl
  show execRetireClear who unit s = _
  rw [execRetireClear, if_neg (by omega), writeIf_pos (decide_eq_true hunit), commandWrite_of_accepts hacc,
    acceptWrite_block none (pageOf_lpddr (by decide) (by decide)) (by decide) (by decide) (by decide), hacts,
    lpddrClear_acts (by omega), Nat.add_sub_cancel' hlow]

theorem exec_retireClear {unit : Nat} (h : (unit < 8 ∧ Accepts s who (pStackMem unit + 0x4C) 1 1) ∨
    (8 ≤ unit ∧ unit < 12 ∧ Accepts s who (pLpddr 32 + 0x4C) ([1, 2, 4, 8].getD (unit - 8) 0) ([1, 2, 4, 8].getD (unit - 8) 0))) :
    unit < 12 ∧ ∃ u, exec (.retireClear who unit) s = .next (clearRetired u unit) ∧
      ∀ i, rd u (retireEntry unit i) = rd s (retireEntry unit i) := by
  have hkept : ∀ (a : Nat) (v m : Word), a < 0x1300000 → ∀ i, rd (written s who a v m) (retireEntry unit i) = rd s (retireEntry unit i) :=
    fun a v m ha i => rd_written_ne _ _ _ _ (by
      have := retireEntry_page unit i
      omega)
  rcases h with ⟨hunit, hacc⟩ | ⟨hlow, hunit, hacc⟩
  · exact ⟨by omega, _, exec_retireClear_stack hunit hacc, hkept _ _ _ (by simp only [pStackMem]; omega)⟩
  · rw [groupBit (by omega)] at hacc
    exact ⟨hunit, _, exec_retireClear_lpddr hlow hunit hacc, hkept _ _ _ (by decide)⟩

theorem retireClear_clears {unit i : Nat} (hi : i < 256) (h : (unit < 8 ∧ Accepts s who (pStackMem unit + 0x4C) 1 1) ∨
    (8 ≤ unit ∧ unit < 12 ∧ Accepts s who (pLpddr 32 + 0x4C) ([1, 2, 4, 8].getD (unit - 8) 0) ([1, 2, 4, 8].getD (unit - 8) 0))) :
    (bit s (retireEntry unit i) 31 = true → bit s (retireEntry unit i) 30 = false → Runs (.retireClear who unit) s fun t =>
      rd t (retireEntry unit i) = 0) ∧
    (bit s (retireEntry unit i) 30 = true → Runs (.retireClear who unit) s fun t =>
      rd t (retireEntry unit i) = rd s (retireEntry unit i)) := by
  obtain ⟨hunit, u, hrun, hword⟩ := exec_retireClear h
  have hclear := rd_clearRetired u hunit hi
  rw [bit, bit, hword] at hclear
  refine ⟨fun hvalid hheld => ⟨_, hrun, ?_⟩, fun hheld => ⟨_, hrun, ?_⟩⟩
  · refine hclear.trans (if_pos ?_)
    rw [show (rd s (retireEntry unit i)).getLsbD 31 = true from hvalid,
      show (rd s (retireEntry unit i)).getLsbD 30 = false from hheld]
    rfl
  · refine hclear.trans (if_neg ?_)
    rw [show (rd s (retireEntry unit i)).getLsbD 30 = true from hheld]
    simp

/-- Settles O26: each outcome of a scrubbed word, the refreshes, and CLEAR entry by entry. -/
theorem memoriesAreScrubbed : Obligations.MemoriesAreScrubbed := by
  unfold Obligations.MemoriesAreScrubbed
  intro s
  refine ⟨fun d address hd haddress => ⟨⟨s, scrubStep_stackClean hd haddress, rfl⟩, scrubStep_stackCorrected hd haddress,
      fun good => scrubStep_stackUncorrectable hd haddress good⟩,
    fun die part address => scrubStep_sramCorrected, fun j address good => scrubStep_lpddrUncorrectable good,
    fun stack vault hot => dramRefresh_shows hot,
    fun channel temp hchannel hup => ⟨lpddrRefresh_shows temp hchannel hup, lpddrRetrain_shows temp hchannel hup⟩,
    fun who unit i hi h => retireClear_clears hi h⟩

end Sys2Proof.Machine

/-! # The collector serves its records (R347, R350, R351, Table 17.1b) -/
namespace Sys2Proof.Machine

open Sys2Proof

variable {s : State}

/-! ## A record on its way -/

section

variable {a : Nat} (ha : a ≠ pHostIf + 0x800 + 8 * 1)
include ha

theorem ctrAt_takeMarker_ne (s : State) (x : SwathSt) (u c : Nat) : ctrAt (takeMarker s x u c) a = ctrAt s a := by
  have hunit : ∀ (b : Bool) y, ctrAt (if b = true then s else completeUnit s y u) a = ctrAt s a := fun b y => by
    cases b
    · exact (completeUnit_keeps 0x2#64 s s y u (by decide) (Keeps.refl _ s)).ctrAt_eq a
    · rfl
  unfold takeMarker
  dsimp only
  split
  · exact (ctrAt_raise_ne ha _ _ _).trans (hunit _ _)
  · exact hunit _ _

/-- An item that crosses counts nothing but the messages of a swath that ends with it. -/
theorem ctrAt_hop_ne (s : State) (u v ch : Nat) : ctrAt (hop s u v ch) a = ctrAt s a := by
  have hserve : ∀ t, ctrAt (serveCross t u v ch) a = ctrAt t a := fun t =>
    (serveCross_keeps 0x2#64 t t u v ch (by decide) (Keeps.refl _ t)).ctrAt_eq a
  unfold hop
  dsimp only
  refine (hserve _).trans ?_
  split
  · split
    · exact ctrAt_takeMarker_ne ha _ _ _ _
    · rfl
  · rfl

theorem ctrAt_takeRecord (s : State) (r : FaultRec) : ctrAt (takeRecord s r) a = ctrAt s a := by
  unfold takeRecord
  dsimp only
  split
  · rfl
  · exact ctrAt_hop_ne ha _ _ _ _

end

theorem rd_takeRecord (s : State) (r : FaultRec) {a : Nat} (ha : CalmWord a ∨ wRoute ≤ a) : rd (takeRecord s r) a = rd s a := by
  unfold takeRecord
  dsimp only
  split
  · rfl
  · rcases ha with ha | ha
    · exact (calm_hop _ _ _ _).word a ha
    · exact rd_hop_window ha _ _ _ _

/-! ## The ring (Table 17.1b) -/

/-- An append of bit vectors is the sum of their values. -/
theorem toNat_append_add {m n : Nat} (x : BitVec m) (y : BitVec n) : (x ++ y).toNat = x.toNat * 2 ^ n + y.toNat := by
  rw [BitVec.toNat_append, ← Nat.shiftLeft_add_eq_or_of_lt y.isLt, Nat.shiftLeft_eq]

/-- The top word of a record: source, kind, class, OVERFLOW and REPEATED. -/
theorem faultBits_top (r : FaultRec) : (faultBits r).extractLsb' (32 * 3) 32 =
    r.sourceType ++ r.sourceInst ++ r.kind ++ r.cls ++ BitVec.ofBool r.overflow ++ BitVec.ofBool r.repeated := by
  apply BitVec.eq_of_toNat_eq
  have hty := r.sourceType.isLt
  have hinst := r.sourceInst.isLt
  have hkind := r.kind.isLt
  have hcls := r.cls.isLt
  have haddress := r.address.isLt
  have hsub := r.subscriber.isLt
  have hdetail := r.detail.isLt
  have hbool : ∀ b : Bool, (BitVec.ofBool b).toNat = b2n b ∧ b2n b < 2 := by decide
  have hover := (hbool r.overflow).2
  have hrep := (hbool r.repeated).2
  rw [BitVec.extractLsb'_toNat, faultBits, BitVec.toNat_ofNat, Nat.shiftRight_eq_div_pow]
  simp only [toNat_append_add, (hbool _).1]
  omega

/-- The number of the next record of the ring. -/
def logSeq (s : State) : Nat := (fget s (pFltLog + 0x40) 31 0 + 1) % 2 ^ 32

/-- The entry that the next record takes has not been read. -/
def logOver (s : State) : Bool :=
  decide ((rd s (pFltLog + 0x44)).toNat < (rd s (wFltLog (logSeq s % 4096) + 24)).toNat)

theorem logSeq_lt (s : State) : logSeq s < 2 ^ 32 := Nat.mod_lt _ (by decide)

/-- The record in the ring, and its number beside it. -/
structure Logged (s : State) (r : FaultRec) (t : State) : Prop where
  seq : rd t (pFltLog + 0x40) = BitVec.ofNat 32 (logSeq s)
  number : rd t (wFltLog (logSeq s % 4096) + 24) = BitVec.ofNat 32 (logSeq s)
  time : rd t (wFltLog (logSeq s % 4096) + 16) = BitVec.ofNat 32 s.time
  top : rd t (wFltLog (logSeq s % 4096) + 12) = r.sourceType ++ r.sourceInst ++ r.kind ++ r.cls ++ BitVec.ofBool (logOver s) ++
    BitVec.ofBool r.repeated
  other : ∀ a, a ≠ pFltLog + 0x40 → (∀ i, a < wFltLog i ∨ wFltLog i + 32 ≤ a) → rd t a = rd s a

/-- The words of a record, written. -/
def recordWords (u : State) (entry : Nat) (b : BitVec 128) : State := forUp (fun t j => wr t (entry + 4 * j) (b.extractLsb' (32 * j) 32)) 4 0 u

/-- A record and its time, written (Table 17.1b). -/
def ringEntered (u : State) (entry : Nat) (b : BitVec 128) : State :=
  wr (wr (recordWords u entry b) (entry + 16) (BitVec.ofNat 32 (recordWords u entry b).time)) (entry + 20)
    (BitVec.ofNat 32 ((recordWords u entry b).time / 2 ^ 32))

theorem logRecord_eq (s : State) (r : FaultRec) : logRecord s r =
    wr (wr (ringEntered (if logOver s then ctrAdd s pFltLog 0 1 else s) (wFltLog (logSeq s % 4096))
      (faultBits { r with overflow := logOver s })) (wFltLog (logSeq s % 4096) + 24) (BitVec.ofNat 32 (logSeq s)))
      (pFltLog + 0x40) (BitVec.ofNat 32 (logSeq s)) := rfl

theorem ringEntered_words (u : State) (entry : Nat) (b : BitVec 128) :
    rd (ringEntered u entry b) (entry + 12) = b.extractLsb' (32 * 3) 32 ∧ rd (ringEntered u entry b) (entry + 16) = BitVec.ofNat 32 u.time ∧
      ∀ a, (a < entry ∨ entry + 24 ≤ a) → rd (ringEntered u entry b) a = rd u a := by
  have htime : (recordWords u entry b).time = u.time := rfl
  have hrecord : rd (recordWords u entry b) (entry + 12) = b.extractLsb' (32 * 3) 32 := rd_wr_same ..
  have hother : ∀ a, (a < entry ∨ entry + 24 ≤ a) → rd (recordWords u entry b) a = rd u a := fun a ha => by
    simp only [recordWords, forUp]
    repeat rw [rd_wr_ne _ _ _ _ (by omega)]
  refine ⟨?_, ?_, fun a ha => ?_⟩
  · rw [ringEntered, rd_wr_ne _ _ _ _ (by omega), rd_wr_ne _ _ _ _ (by omega), hrecord]
  · rw [ringEntered, rd_wr_ne _ _ _ _ (by omega), rd_wr_same, htime]
  · rw [ringEntered, rd_wr_ne _ _ _ _ (by omega), rd_wr_ne _ _ _ _ (by omega), hother a ha]

/-- A record counts nothing but its loss of an unread entry. -/
theorem ctrGet_logRecord (s : State) (r : FaultRec) : ctrGet (logRecord s r) pFlt 1 = ctrGet s pFlt 1 := by
  have hwords : ∀ (u : State) (entry : Nat) (b : BitVec 128), ctrGet (ringEntered u entry b) pFlt 1 = ctrGet u pFlt 1 := fun u entry b => by
    rw [ringEntered, ctrGet_wr, ctrGet_wr]
    simp only [recordWords, forUp, ctrGet_wr]
  rw [logRecord_eq, ctrGet_wr, ctrGet_wr, hwords]
  split
  · rw [ctrGet_ctrAdd, if_neg (by decide)]
  · rfl

theorem logRecord_logs (s : State) (r : FaultRec) : Logged s r (logRecord s r) := by
  have hcounted : ∀ b : Bool, (∀ a, rd (if b then ctrAdd s pFltLog 0 1 else s) a = rd s a) ∧
      (if b then ctrAdd s pFltLog 0 1 else s).time = s.time := fun b => by cases b <;> exact ⟨fun _ => rfl, rfl⟩
  obtain ⟨hword, htime⟩ := hcounted (logOver s)
  have hpage : ∀ i, pFltLog + 0x40 < wFltLog i := fun i => by
    simp only [pFltLog, wFltLog]
    omega
  have hp := hpage (logSeq s % 4096)
  obtain ⟨htop, hat, hother⟩ := ringEntered_words (if logOver s then ctrAdd s pFltLog 0 1 else s) (wFltLog (logSeq s % 4096))
    (faultBits { r with overflow := logOver s })
  rw [logRecord_eq]
  refine ⟨rd_wr_same .., ?_, ?_, ?_, fun a ha hring => ?_⟩
  · rw [rd_wr_ne _ _ _ _ (by omega), rd_wr_same]
  · rw [rd_wr_ne _ _ _ _ (by omega), rd_wr_ne _ _ _ _ (by omega), hat, htime]
  · rw [rd_wr_ne _ _ _ _ (by omega), rd_wr_ne _ _ _ _ (by omega), htop]
    exact faultBits_top _
  · have hentry := hring (logSeq s % 4096)
    rw [rd_wr_ne _ _ _ _ ha, rd_wr_ne _ _ _ _ (by omega), hother a (by omega), hword]

/-! ## Serving a record -/

/-- A record as the collector classes it. -/
def classed (r : FaultRec) (cls : Nat) : FaultRec := { r with cls := BitVec.ofNat 2 cls, overflow := false, repeated := false }

/-- A record of a kind that does not coalesce is logged and counted, and its reactions follow. -/
theorem serve_logged {r : FaultRec} {k : KindInfo} (hrow : kindOf r.kind.toNat = some k) (hcls : classOf r ≠ 0)
    (hcollector : r.kind.toNat ≠ 0x23) (hresidue : 2 < r.kind.toNat) :
    serve s r = react (ctrAdd (logRecord s (classed r (classOf r))) pFlt (classOf r) 1) (classed r (classOf r))
      (reactionsOf (ctrAdd (logRecord s (classed r (classOf r))) pFlt (classOf r) 1) (classed r (classOf r)) (classOf r)) k.fixed := by
  have hne : (classOf r == 0) = false := beq_eq_false_iff_ne.2 hcls
  have hnot : (r.sourceType.toNat == 0xF1 && (r.kind.toNat == 1 || r.kind.toNat == 2)) = false := by
    rw [beq_eq_false_iff_ne.2 (by omega : r.kind.toNat ≠ 1), beq_eq_false_iff_ne.2 (by omega : r.kind.toNat ≠ 2), Bool.or_self, Bool.and_false]
  unfold serve
  rw [hrow]
  dsimp only
  rw [if_neg (by simpa using hcollector)]
  simp only [hne, hnot, Bool.false_and, Bool.false_eq_true, if_false]
  rfl

theorem react_event (u : State) (r : FaultRec) (fixed : Bool) : react u r 1 fixed = raise u pFlt 8 := by
  unfold react
  simp

/-- A contained record whose reaction word holds EVENT alone is logged, counted and announced. -/
theorem serve_event {r : FaultRec} {k : KindInfo} (hrow : kindOf r.kind.toNat = some k) (hcls : k.cls = 1) (hkind : 2 < r.kind.toNat)
    (hreact : rd s (wReact r.kind.toNat) &&& 0x3F = 1) :
    serve s r = raise (ctrAdd (logRecord s (classed r 1)) pFlt 1 1) pFlt 8 := by
  have hclass : classOf r = 1 := by simp [classOf, hrow, hcls]
  have hcollector : r.kind.toNat ≠ 0x23 := fun h => by
    have hnone : (kindOf 0x23).all (fun k => k.cls != 1) = true := by decide
    rw [← h, hrow] at hnone
    simp [hcls] at hnone
  have hlogged : rd (logRecord s (classed r 1)) (wReact r.kind.toNat) = rd s (wReact r.kind.toNat) := by
    have hlt := r.kind.isLt
    refine (logRecord_logs s (classed r 1)).other _ ?_ fun i => .inl ?_
    · simp only [wReact, pFltLog]
      omega
    · simp only [wReact, wFltLog]
      omega
  have hword : reactionsOf (ctrAdd (logRecord s (classed r 1)) pFlt 1 1) (classed r 1) 1 = 1 := by
    rw [reactionsOf, rd_ctrAdd, show (classed r 1).kind = r.kind from rfl, hlogged, hreact]
    rfl
  have hserve := serve_logged (s := s) hrow (by rw [hclass]; decide) hcollector hkind
  rw [hclass, hword, react_event] at hserve
  exact hserve

/-- What the collector takes from the reports and serves. -/
def taken (s : State) (r : FaultRec) (rs : List FaultRec) : State :=
  takeRecord { s with faults := { s.faults with reported := rs } } r

theorem exec_faultRecord {r : FaultRec} {rs : List FaultRec} (hlive : live s = true) (hreported : s.faults.reported = r :: rs) :
    exec (.faultRecord .reported) s = .next (atRest (serve (taken s r rs) r)) := by
  show execFaultRecord .reported s = _
  unfold execFaultRecord collecting
  dsimp only
  rw [hlive, hreported]
  rfl

theorem calmWord_fltLog {off : Nat} (h : off = 0x40 ∨ off = 0x44) : CalmWord (pFltLog + off) := by
  simp only [CalmWord, pFltLog, pSwath]
  omega

theorem wRoute_le_fltLog (i : Nat) (off : Nat) : wRoute ≤ wFltLog i + off := by
  simp only [wRoute, wFltLog]
  omega

/-- A record on its way leaves the ring, the reactions and the time. -/
theorem taken_fields (s : State) (r : FaultRec) (rs : List FaultRec) :
    (∀ a, CalmWord a ∨ wRoute ≤ a → rd (taken s r rs) a = rd s a) ∧ (taken s r rs).time = s.time ∧
      ctrGet (taken s r rs) pFlt 1 = ctrGet s pFlt 1 ∧ (taken s r rs).faults.reported = rs := by
  have hfaults := takeRecord_keeps 0x400000000#64 _ { s with faults := { s.faults with reported := rs } } r (by decide) (.refl _ _)
  have hclock := takeRecord_keeps 0x20#64 _ { s with faults := { s.faults with reported := rs } } r (by decide) (.refl _ _)
  refine ⟨fun a ha => rd_takeRecord _ r ha, hclock.time_align.1, ?_, ?_⟩
  · rw [ctrGet_eq_ctrAt, taken, ctrAt_takeRecord (by decide)]
    rfl
  · rw [taken, hfaults.same .faults (by decide)]

theorem logSeq_congr {t : State} (h : rd t (pFltLog + 0x40) = rd s (pFltLog + 0x40)) : logSeq t = logSeq s := by
  rw [logSeq, logSeq, fget, fget, h]

/-- What a record that only announces itself leaves (Table 17.1b). -/
theorem faultRecord_logs {r : FaultRec} {rs : List FaultRec} {k : KindInfo} (hlive : live s = true)
    (hreported : s.faults.reported = r :: rs) (hrow : kindOf r.kind.toNat = some k) (hcls : k.cls = 1) (hkind : 2 < r.kind.toNat)
    (hreact : rd s (wReact r.kind.toNat) &&& 0x3F = 1) : Runs (.faultRecord .reported) s fun t =>
      t.faults.reported = rs ∧ fget t (pFltLog + 0x40) 31 0 = logSeq s ∧ bit t (pFlt + 0x10) 8 = true ∧
      ctrGet t pFlt 1 = ctrGet s pFlt 1 + 1 ∧ rd t (wFltLog (logSeq s % 4096) + 24) = BitVec.ofNat 32 (logSeq s) ∧
      rd t (wFltLog (logSeq s % 4096) + 16) = BitVec.ofNat 32 s.time ∧
      rd t (wFltLog (logSeq s % 4096) + 12) = r.sourceType ++ r.sourceInst ++ r.kind ++ 1#2 ++ BitVec.ofBool (logOver s) ++ 0#1 := by
  obtain ⟨hrd, htime, hctr, hrep⟩ := taken_fields s r rs
  have hrun := exec_faultRecord hlive hreported
  generalize taken s r rs = u at hrd htime hctr hrep hrun
  have hreact' : rd u (wReact r.kind.toNat) &&& 0x3F = 1 := by
    rw [hrd _ (.inr (by simp only [wRoute, wReact]; omega))]
    exact hreact
  have hseq : logSeq u = logSeq s := logSeq_congr (hrd _ (.inl (calmWord_fltLog (.inl rfl))))
  have hover : logOver u = logOver s := by
    rw [logOver, logOver, hseq, hrd _ (.inl (calmWord_fltLog (.inr rfl))), hrd _ (.inr (wRoute_le_fltLog _ _))]
  have hlog := logRecord_logs u (classed r 1)
  rw [serve_event hrow hcls hkind hreact'] at hrun
  obtain ⟨hlseq, hlnumber, hltime, hltop, -⟩ := hlog
  rw [hseq] at hlseq hlnumber hltime hltop
  have hword : ∀ a, a ≠ pFlt + 0x10 → rd (atRest (raise (ctrAdd (logRecord u (classed r 1)) pFlt 1 1) pFlt 8)) a =
      rd (logRecord u (classed r 1)) a := fun a ha => (rd_raise_ne _ _ _ _ ha).trans (rd_ctrAdd ..)
  have hring : ∀ off, wFltLog (logSeq s % 4096) + off ≠ pFlt + 0x10 := fun off => by
    simp only [wFltLog, pFlt]
    omega
  refine ⟨_, hrun, ?_, ?_, bit_raise_same (ctrAdd (logRecord u (classed r 1)) pFlt 1 1) pFlt (by decide), ?_,
    (hword _ (hring _)).trans hlnumber, (hword _ (hring _)).trans (hltime.trans (by rw [htime])), (hword _ (hring _)).trans ?_⟩
  · have hkeeps := atRest_keeps 0x400000000#64 u _ (by decide) (raise_keeps _ _ (ctrAdd (logRecord u (classed r 1)) pFlt 1 1) pFlt 8
      (by decide) (ctrAdd_keeps _ _ _ _ _ _ (by decide) (logRecord_keeps _ _ u (classed r 1) (by decide) (.refl _ _))))
    rw [hkeeps.same .faults (by decide), hrep]
  · rw [fget, hword _ (by decide), hlseq, bitsOf, BitVec.toNat_ofNat]
    have := logSeq_lt s
    omega
  · refine (ctrGet_raise _ _ _ _ _ (by decide)).trans ?_
    rw [ctrGet_ctrAdd_same, ctrGet_logRecord, hctr]
    rfl
  · rw [hltop, hover]
    rfl

theorem faultRecord_fallow {r : FaultRec} {rs : List FaultRec} {k : KindInfo} (hlive : live s = true)
    (hreported : s.faults.reported = r :: rs) (hrow : kindOf r.kind.toNat = some k) (hcls : k.cls = 2) :
    Runs (.faultRecord .reported) s fun t => fallow t = true := by
  have hresidue : ∀ n, n = 1 ∨ n = 2 → r.kind.toNat ≠ n := fun n hn h => by
    have hnone : (kindOf n).all (fun k => k.cls != 2) = true := by rcases hn with rfl | rfl <;> decide
    rw [← h, hrow] at hnone
    simp [hcls] at hnone
  refine ⟨_, exec_faultRecord hlive hreported, (atRest_stays _ _ ⟨id⟩).get ?_⟩
  exact serve_fatal_fallow _ r (by rw [hrow]; rfl) (by simp [classOf, hrow, hcls]) (hresidue 1 (.inl rfl)) (hresidue 2 (.inr rfl))

/-- Settles O7: a record in the ring word by word, and the fatal kinds through fallow entry. -/
theorem recordsAreServed : Obligations.RecordsAreServed := by
  unfold Obligations.RecordsAreServed
  intro s r rs hlive hreported
  exact ⟨fun k hrow hcls hkind hreact => faultRecord_logs hlive hreported hrow hcls hkind hreact,
    fun k hrow hcls => faultRecord_fallow hlive hreported hrow hcls⟩

end Sys2Proof.Machine

/-! # Pins, traps, self-tests and checkers (R20, R351, R352, R354 to R361) -/
namespace Sys2Proof.Machine

open Sys2Proof

variable {s : State} {who : Requester}

/-! ## FAULT_N (R352) -/

theorem showPin_asserted (s : State) : bit (showPin s) (pFlt + 0x40) 1 = (s.faults.latched || s.faults.pulse || fallow s) ∧
    (showPin s).faults = s.faults := by
  unfold showPin
  dsimp only
  split
  · next h => exact ⟨beq_iff_eq.1 h, rfl⟩
  · exact ⟨(congrArg (·.getLsbD 1) (rd_emit ..)).trans (bit_setBit_same _ _ _ _ (by decide)), rfl⟩

theorem exec_faultPinClear (s : State) :
    exec (.faultPinClear who) s = .next (commandWrite who none (pFlt + 0x40) 0x80000000 0x80000000 s) := rfl

theorem blockActs_fltPin (s : State) (who : Requester) (old new v m : Word) : blockActs s who none fltKind pFlt 0x40 old new v m =
    if woVal v m 31 31 == 1 then showPin { s with faults := { s.faults with latched := false } } else s := rfl

theorem faultPinClear_clears (hacc : Accepts s who (pFlt + 0x40) 0x80000000 0x80000000) (hfallow : fallow s = false)
    (hpulse : s.faults.pulse = false) :
    Runs (.faultPinClear who) s fun t => t.faults.latched = false ∧ bit t (pFlt + 0x40) 1 = false := by
  obtain ⟨regs, audit, hframe⟩ := written_frame s who (pFlt + 0x40) 0x80000000 0x80000000
  have hfallow' : fallow (written s who (pFlt + 0x40) 0x80000000 0x80000000) = false :=
    (congrArg (·.getLsbD 31) (rd_written_ne s who _ _ (by decide))).trans hfallow
  have hfaults : (written s who (pFlt + 0x40) 0x80000000 0x80000000).faults = s.faults := by rw [hframe]
  have hrun : exec (.faultPinClear who) s = .next (showPin { written s who (pFlt + 0x40) 0x80000000 0x80000000 with
      faults := { (written s who (pFlt + 0x40) 0x80000000 0x80000000).faults with latched := false } }) := by
    rw [exec_faultPinClear, commandWrite_of_accepts hacc, acceptWrite_block none (pageOf_flt (by decide)) (by decide) (by decide)
      (by decide), blockActs_fltPin, if_pos (by decide)]
  generalize written s who (pFlt + 0x40) 0x80000000 0x80000000 = u at hfallow' hfaults hrun
  obtain ⟨hpin, hkept⟩ := showPin_asserted { u with faults := { u.faults with latched := false } }
  refine ⟨_, hrun, by rw [hkept], hpin.trans ?_⟩
  have hfallow'' : fallow { u with faults := { u.faults with latched := false } } = false := hfallow'
  rw [hfallow'', show u.faults.pulse = false by rw [hfaults, hpulse]]
  rfl

theorem fallowReqNHigh_releases (s : State) :
    Runs .fallowReqNHigh s fun t => bit t (pFlt + 0x44) 30 = false ∧ t.faults.requestHeld = false :=
  ⟨_, rfl, bit_setBit_same _ _ _ _ (by decide), rfl⟩

theorem faultNPulseEnd_releases (hfallow : fallow s = false) (hlatched : s.faults.latched = false) :
    Runs .faultNPulseEnd s fun t => t.faults.pulse = false ∧ bit t (pFlt + 0x40) 1 = false := by
  obtain ⟨hpin, hkept⟩ := showPin_asserted { s with faults := { s.faults with pulse := false } }
  have hfallow' : fallow { s with faults := { s.faults with pulse := false } } = false := hfallow
  refine ⟨_, rfl, by rw [hkept], hpin.trans ?_⟩
  rw [hfallow', hlatched]
  rfl

/-! ## The management core (R351, R358) -/

theorem watchdogService_counts (hlive : live s = true) :
    Runs .watchdogService s fun t => t.faults.wdogAt = s.uptime ∧ ctrGet t pMgmt 0 = ctrGet s pMgmt 0 + 1 := by
  refine ⟨ctrAdd { s with faults := { s.faults with wdogAt := s.uptime } } pMgmt 0 1, ?_, rfl, ctrGet_ctrAdd_same ..⟩
  exact if_neg (by simp [hlive])

theorem trapReturn_ends (hin : s.faults.inHandler = true) (htraps : s.faults.traps = []) :
    Runs .trapReturn s fun t => t.faults.inHandler = false := by
  refine ⟨{ s with faults := { s.faults with inHandler := false } }, ?_, rfl⟩
  show execTrapReturn s = _
  rw [execTrapReturn, hin, htraps]
  rfl

theorem trapReturn_takes (hin : s.faults.inHandler = true) {q : Nat} {qs : List Nat} (htraps : s.faults.traps = q :: qs) :
    Runs .trapReturn s fun t => t.faults.inHandler = true ∧ t.faults.traps = qs ∧ ctrGet t pMgmt 1 = ctrGet s pMgmt 1 + 1 := by
  refine ⟨ctrAdd { s with faults := { s.faults with traps := qs } } pMgmt 1 1, ?_, hin, rfl, ctrGet_ctrAdd_same ..⟩
  show execTrapReturn s = _
  rw [execTrapReturn, hin, htraps]
  rfl

/-! ## Stalls, parity, crossings (R20, R355, R359) -/

theorem handshakeStall_reports (hlive : live s = true) (ty : BitVec 8) (inst : Nat) (slots : List Nat) :
    Runs (.handshakeStall ty inst slots) s fun t =>
      Reports s t (mkFault ty.toNat inst 0x22 (if ty = 0xF1 then 1 else 2) 0 0xFF 0) := by
  obtain ⟨u, hu⟩ : ∃ u, u = if ty == 0xF1 then slots.foldl slotLost (failCluster s (inst / 16)) else s := ⟨_, rfl⟩
  have hgrows : Keeps 0x8000000000000000#64 s u := by
    rw [hu]
    exact keeps_ite (fun _ => keeps_foldl _ _ _ (fun t i ht => slotLost_keeps _ _ _ _ (by decide) ht)
      (failCluster_keeps _ _ _ _ (by decide) (.refl _ _))) fun _ => .refl _ _
  have hrun : exec (.handshakeStall ty inst slots) s =
      .next (report u (mkFault ty.toNat inst 0x22 (if ty == 0xF1 then 1 else 2) 0 0xFF 0)) := by
    rw [hu]
    exact if_neg (by simp [hlive])
  simp only [beq_iff_eq] at hrun
  exact ⟨_, hrun, .of_prefix hgrows.reported_prefix (reports_report _ _)⟩

/-- What the sweep does about one word with bad parity (R359). -/
def sweepWord (s : State) (b : Nat × Bool) : State :=
  match pageOf b.1 with
  | none => s
  | some (k, a) =>
    let s := report s (mkFault k.ty (k.inst a) 0x20 0 b.1 0xFF 0)
    if b.2 then report s (mkFault k.ty (k.inst a) 0x21 2 b.1 0xFF 0) else s

theorem sweepWord_reports (s : State) {b : Nat × Bool} {k : PageKind} {a : Nat} (hpage : pageOf b.1 = some (k, a)) :
    Reports s (sweepWord s b) (mkFault k.ty (k.inst a) 0x20 0 b.1 0xFF 0) ∧
      (b.2 = true → Reports s (sweepWord s b) (mkFault k.ty (k.inst a) 0x21 2 b.1 0xFF 0)) := by
  have hfirst := reports_report s (mkFault k.ty (k.inst a) 0x20 0 b.1 0xFF 0)
  have hgrows : ∀ (t : State) r, t.faults.reported <+: (report t r).faults.reported := fun t r => by
    rw [report_reported]
    exact List.prefix_append ..
  unfold sweepWord
  rw [hpage]
  dsimp only
  refine ⟨?_, fun hagain => ?_⟩
  · split
    · exact hfirst.trans_prefix (hgrows _ _)
    · exact hfirst
  · rw [if_pos hagain]
    exact .of_prefix (hgrows s _) (reports_report _ _)

theorem sweepWord_grows (s : State) (b : Nat × Bool) : s.faults.reported <+: (sweepWord s b).faults.reported := by
  unfold sweepWord
  split
  · exact List.prefix_refl _
  · dsimp only
    split
    · rw [report_reported, report_reported, List.append_assoc]
      exact List.prefix_append ..
    · rw [report_reported]
      exact List.prefix_append ..

theorem sweep_grows (bad : List (Nat × Bool)) (s : State) : s.faults.reported <+: (bad.foldl sweepWord s).faults.reported := by
  induction bad generalizing s with
  | nil => exact List.prefix_refl _
  | cons b bs ih => exact (sweepWord_grows s b).trans (ih _)

theorem sweep_reports (bad : List (Nat × Bool)) (s : State) : ∀ w ∈ bad, ∀ k a, pageOf w.1 = some (k, a) →
    Reports s (bad.foldl sweepWord s) (mkFault k.ty (k.inst a) 0x20 0 w.1 0xFF 0) ∧
      (w.2 = true → Reports s (bad.foldl sweepWord s) (mkFault k.ty (k.inst a) 0x21 2 w.1 0xFF 0)) := by
  induction bad generalizing s with
  | nil => exact fun w hw => absurd hw List.not_mem_nil
  | cons b bs ih =>
    intro w hw k a hpage
    rcases List.mem_cons.1 hw with rfl | hw
    · obtain ⟨hsoft, hhard⟩ := sweepWord_reports s hpage
      exact ⟨hsoft.trans_prefix (sweep_grows bs _), fun h => (hhard h).trans_prefix (sweep_grows bs _)⟩
    · obtain ⟨hsoft, hhard⟩ := ih (sweepWord s b) w hw k a hpage
      exact ⟨.of_prefix (sweepWord_grows s b) hsoft, fun h => .of_prefix (sweepWord_grows s b) (hhard h)⟩

theorem exec_registerSweep (hlive : live s = true) (bad : List (Nat × Bool)) :
    exec (.registerSweep bad) s = .next (bad.foldl sweepWord s) := if_neg (by simp [hlive])

theorem crossingWordRx_reports (hlive : live s = true) (crossing channel : Nat) (codes : List (BitVec 4)) (victim : Nat)
    (hbad : codes.all codeOk4 = false) : Runs (.crossingWordRx crossing channel codes victim) s fun t =>
      ∃ a sub, Reports s t (mkFault 0xF0 crossing 3 1 a sub 0) ∧ (channel = 0 → a = victim ∧ sub = 0xFF) := by
  obtain ⟨u, sub, hu, hsub, hrun⟩ : ∃ u sub, Keeps 0x8000000000000000#64 s u ∧ (channel = 0 → sub = 0xFF) ∧
      exec (.crossingWordRx crossing channel codes victim) s =
        .next (report u (mkFault 0xF0 crossing 3 1 (if channel == 2 then victim % 1024 else victim) sub 0)) := by
    refine ⟨_, _, ?_, ?_, (show execCrossingWordRx crossing channel codes victim s = _ from if_neg (by simp [hlive, hbad]))⟩
    · refine keeps_ite (fun _ => .refl _ _) fun _ => ?_
      split
      · exact discardCell_keeps _ _ _ _ (by decide) (.refl _ _)
      · exact slotLost_keeps _ _ _ _ (by decide) (.refl _ _)
      · exact stageResidue_keeps _ _ _ _ _ (by decide) (.refl _ _)
      · exact engineFault_keeps _ _ _ _ (by decide) (.refl _ _)
    · rintro rfl
      rfl
  refine ⟨_, hrun, _, sub, .of_prefix hu.reported_prefix (reports_report _ _), fun h => ⟨?_, hsub h⟩⟩
  rw [h]
  rfl

/-! ## Self-tests (R356) -/

theorem tileSelfTest_starts {tile : Nat} (hservice : inService s = true) (hheld : s.faults.held = false) (htile : tile < 512)
    (howner : ownerOfTile s tile = none) (hwithdrawn : s.faults.tilesWithdrawn.contains tile = false) :
    Runs (.tileSelfTest tile) s fun t => tile ∈ t.faults.tilesUnderTest := by
  refine ⟨{ s with faults := { s.faults with tilesUnderTest := addNat s.faults.tilesUnderTest tile } }, ?_, mem_addNat_self _ _⟩
  show execTileSelfTest tile s = _
  rw [execTileSelfTest, hservice, hheld, howner, hwithdrawn, decide_eq_false (by omega)]
  rfl

/-- A tile whose test has ended. -/
def testEnded (s : State) (tile : Nat) : State :=
  { s with faults := { s.faults with tilesUnderTest := s.faults.tilesUnderTest.filter (· != tile) } }

theorem exec_tileSelfTestDone {tile : Nat} (htest : s.faults.tilesUnderTest.contains tile = true) (pass : Bool) :
    exec (.tileSelfTestDone tile pass) s = .next (if pass then testEnded s tile
      else report (withdrawTile (testEnded s tile) tile) (mkFault 0xF1 tile 0x41 1 tile 0xFF 0)) := by
  show execTileSelfTestDone tile pass s = _
  rw [execTileSelfTestDone, htest]
  rfl

theorem tileSelfTestDone_passes {tile : Nat} (htest : s.faults.tilesUnderTest.contains tile = true) :
    Runs (.tileSelfTestDone tile true) s fun t =>
      tile ∉ t.faults.tilesUnderTest ∧ t.faults.tilesWithdrawn = s.faults.tilesWithdrawn := by
  refine ⟨testEnded s tile, exec_tileSelfTestDone htest true, fun hmem => ?_, rfl⟩
  have := (List.mem_filter.1 hmem).2
  simp at this

theorem tileSelfTestDone_fails {tile : Nat} (htest : s.faults.tilesUnderTest.contains tile = true) :
    Runs (.tileSelfTestDone tile false) s fun t => Reports s t (mkFault 0xF1 tile 0x41 1 tile 0xFF 0) := by
  refine ⟨report (withdrawTile (testEnded s tile) tile) (mkFault 0xF1 tile 0x41 1 tile 0xFF 0), exec_tileSelfTestDone htest false,
    .of_prefix ?_ (reports_report _ _)⟩
  exact (withdrawTile_keeps 0x8000000000000000#64 (testEnded s tile) _ tile (by decide) (.refl _ _)).reported_prefix

/-! ## HELD (Table 17.5 step 6) -/

/-- A device whose work is lost: no packet, slot or delivery is left. -/
structure WorkLost (s t : State) : Prop where
  faults : t.faults = s.faults
  queues : t.queues = []
  slots : t.slots = []
  deliv : t.deliv = []
  phase : t.phase = s.phase

/-- What leaves those parts leaves the work lost. -/
theorem WorkLost.kept {t u : State} (h : WorkLost s t) (hu : Keeps 0x40080C080#64 t u) : WorkLost s u := by
  have hqueues : u.queues = t.queues := hu.same .queues (by decide)
  have hslots : u.slots = t.slots := hu.same .slots (by decide)
  have hdeliv : (u.deliv, u.nextHandle) = (t.deliv, t.nextHandle) := hu.same .deliveries (by decide)
  have hphase : (u.phase, u.bistRunning) = (t.phase, t.bistRunning) := hu.same .phase (by decide)
  exact ⟨(hu.same .faults (by decide)).trans h.faults, hqueues.trans h.queues, hslots.trans h.slots,
    (congrArg Prod.fst hdeliv).trans h.deliv, (congrArg Prod.fst hphase).trans h.phase⟩

theorem loseWork_loses (s : State) : WorkLost s (loseWork s) := by
  unfold loseWork
  exact forUp_induction (P := WorkLost s) (fun t d ht => ht.kept (showPools_keeps _ _ _ _ (by decide) (.refl _ _))) 8 0 _
    ⟨rfl, rfl, rfl, rfl, rfl⟩

/-- The launch of a swath that waited for the device to be HELD (R395). -/
def launchWaiting (s : State) : State :=
  match s.swathWait with
  | some q => runSwath { s with swathWait := none } q
  | none => s

theorem WorkLost.launched {t : State} (h : WorkLost s t) : WorkLost s (launchWaiting t) := by
  have hwait : WorkLost s { t with swathWait := none } := ⟨h.faults, h.queues, h.slots, h.deliv, h.phase⟩
  unfold launchWaiting
  split
  · exact hwait.kept (runSwath_keeps _ _ _ _ (by decide) (.refl _ _))
  · exact h

theorem exec_fallowBlocksHeld (hfallow : fallow s = true) (hheld : s.faults.held = false) : exec .fallowBlocksHeld s =
    .next ((fun u => if u.faults.supplyOff then railsOff u else u)
      (launchWaiting (loseWork { s with faults := { s.faults with held := true } }))) :=
  if_neg (by simp [hfallow, hheld])

theorem fallowBlocksHeld_holds (hfallow : fallow s = true) (hheld : s.faults.held = false) (hsupply : s.faults.supplyOff = false) :
    Runs .fallowBlocksHeld s fun t =>
      t.faults.held = true ∧ t.queues = [] ∧ t.slots = [] ∧ t.deliv = [] ∧ t.phase = s.phase := by
  have hlost := (loseWork_loses { s with faults := { s.faults with held := true } }).launched
  have hrun := exec_fallowBlocksHeld hfallow hheld
  generalize launchWaiting (loseWork { s with faults := { s.faults with held := true } }) = u at hlost hrun
  have hoff : u.faults.supplyOff = false := (congrArg FaultSt.supplyOff hlost.faults).trans hsupply
  dsimp only at hrun
  rw [hoff] at hrun
  exact ⟨u, hrun, congrArg FaultSt.held hlost.faults, hlost.queues, hlost.slots, hlost.deliv, hlost.phase⟩

/-- Settles O8: each command of the collector and of the checkers. -/
theorem faultPinsTrapsAndChecks : Obligations.FaultPinsTrapsAndChecks := by
  unfold Obligations.FaultPinsTrapsAndChecks
  intro s
  exact ⟨fun who => faultPinClear_clears, fallowReqNHigh_releases s, faultNPulseEnd_releases, watchdogService_counts,
    fun hin => ⟨trapReturn_ends hin, fun q qs => trapReturn_takes hin⟩, fun hlive ty inst slots => handshakeStall_reports hlive ty inst slots,
    fun hlive bad => ⟨_, exec_registerSweep hlive bad, sweep_reports bad s⟩, fun tile => tileSelfTest_starts,
    fun tile htest => ⟨tileSelfTestDone_passes htest, tileSelfTestDone_fails htest⟩,
    fun hlive crossing channel codes victim => crossingWordRx_reports hlive crossing channel codes victim, fallowBlocksHeld_holds⟩

end Sys2Proof.Machine


/-! # Sessions and their messages (R305 to R313) -/
namespace Sys2Proof.Machine

open Sys2Proof

variable {s t u : State} {sid m : Nat} {x : Session}

/-! ## Answers -/

theorem Answers.before {ty st : Nat} (h : s.out <+: t.out) (ha : Answers t u sid ty m st) : Answers s u sid ty m st := by
  obtain ⟨g, hg, hfields⟩ := ha
  exact ⟨g, hg.before h, hfields⟩

theorem Answers.later {ty st : Nat} (ha : Answers s t sid ty m st) (h : t.out <+: u.out) : Answers s u sid ty m st := by
  obtain ⟨g, hg, hfields⟩ := ha
  exact ⟨g, hg.later h, hfields⟩

/-- A message reaches the host from every device that is not mute (R358). -/
theorem answers_sendMsg (hmute : s.faults.mute = false) (sid ty m flags status : Nat) (body : List Byte) :
    Answers s (sendMsg s sid ty m flags status body) sid ty m status := by
  refine ⟨⟨ty, hostQueue ty, sid, (match getSession s sid with
      | some x => x.nextSeq
      | none => 0), m, flags, status, body⟩, ?_, rfl, rfl, rfl, rfl⟩
  have hprefix (v : State) (hv : v.out = s.out) (o : Output) : Emits s (emit v o) o :=
    (emits_emit v o).before (hv ▸ List.prefix_rfl)
  unfold sendMsg
  rw [hmute, if_neg Bool.false_ne_true]
  refine hprefix _ ?_ _
  cases getSession s sid <;> rfl

theorem answers_sendError (hmute : s.faults.mute = false) (sid m status : Nat) : Answers s (sendError s sid m status) sid 0x7F m status :=
  answers_sendMsg hmute _ _ _ _ _ _

theorem served_mute (h : served s = true) : s.faults.mute = false := by
  unfold served at h
  exact (Bool.not_eq_eq_eq_not.1 (Bool.and_eq_true_iff.1 h).1)

/-! ## What a message leaves of the sessions -/

theorem getSession_emit (s : State) (o : Output) (q : Nat) : getSession (emit s o) q = getSession s q := rfl

theorem getSession_ctrAdd (s : State) (page i n q : Nat) : getSession (ctrAdd s page i n) q = getSession s q := rfl

theorem getSession_of_eq (h : t.sessions = s.sessions) (q : Nat) : getSession t q = getSession s q :=
  congrArg (Sparse.get (fun _ => none) · q) h

theorem Keeps.getSession_eq {msk : BitVec 64} (h : Keeps msk s t) (hm : msk.getLsbD Part.sessions.idx = true) (q : Nat) :
    getSession t q = getSession s q :=
  getSession_of_eq (congrArg (·.1) (h.same .sessions hm)) q

/-- A message moves the number of the next datagram of its own session and nothing else of a session. -/
theorem getSession_sendMsg {q : Nat} (hq : getSession s q = some x) (sid ty m flags status : Nat) (body : List Byte) :
    ∃ n, getSession (sendMsg s sid ty m flags status body) q = some { x with nextSeq := n } := by
  unfold sendMsg
  dsimp only
  split
  · exact ⟨x.nextSeq, hq⟩
  · rw [getSession_emit, getSession_ctrAdd]
    split
    · next y hy =>
      rw [getSession_setSession]
      split
      · next h =>
        subst h
        obtain rfl : x = y := Option.some.inj (hq.symm.trans hy)
        exact ⟨_, rfl⟩
      · exact ⟨x.nextSeq, hq⟩
    · exact ⟨x.nextSeq, hq⟩

/-- A message opens no session. -/
theorem getSession_sendMsg_none {q : Nat} (hq : getSession s q = none) (sid ty m flags status : Nat) (body : List Byte) :
    getSession (sendMsg s sid ty m flags status body) q = none := by
  unfold sendMsg
  dsimp only
  split
  · exact hq
  · rw [getSession_emit, getSession_ctrAdd]
    split
    · next y hy =>
      rw [getSession_setSession, if_neg (fun h => by subst h; exact Option.some_ne_none y (hy.symm.trans hq)), hq]
    · exact hq

/-- A message leaves every part but the sessions, the counters and the output. -/
theorem sendMsg_kept (s : State) (sid ty m flags status : Nat) (body : List Byte) :
    Keeps 0xFFFFFEFFF7FFFFFD#64 s (sendMsg s sid ty m flags status body) :=
  sendMsg_keeps _ _ _ _ _ _ _ _ _ (by decide) (.refl _ _)

/-! ## Open sessions and the requests they make once (R313) -/

theorem openSession_eq_some : openSession s sid = some x ↔ getSession s sid = some x ∧ x.accepted = true := by
  unfold openSession
  split
  · next y hy =>
    split
    · next hacc =>
      rw [hy]
      exact ⟨fun h => ⟨h, Option.some.inj h ▸ hacc⟩, And.left⟩
    · next hacc =>
      refine ⟨nofun, fun ⟨h, hx⟩ => absurd ?_ hacc⟩
      obtain rfl : y = x := Option.some.inj (hy.symm.trans h)
      exact hx
  · next hnone => exact ⟨nofun, fun ⟨h, _⟩ => absurd (h.symm.trans hnone) (Option.some_ne_none x)⟩

theorem begin'_eq (h : getSession s sid = some x) (m : Nat) : begin' s sid m = setSession s sid (some (keepDone x m none)) := by
  simp only [begin', h]

theorem getSession_begin' (h : getSession s sid = some x) (m : Nat) : getSession (begin' s sid m) sid = some (keepDone x m none) := by
  rw [begin'_eq h, getSession_setSession_same]

/-- A request that is served for the first time runs its function. -/
theorem request_of_fresh (h : Fresh s sid m x) (allowed : Bool) (f : State → Session → State) :
    request s sid m allowed f = f (begin' s sid m) (keepDone x m none) := by
  obtain ⟨hserved, hlimited, hopen, hkind⟩ := h
  simp only [request, hopen, hserved, hkind, hlimited, Bool.not_true, Bool.false_and, Bool.false_eq_true, if_false]

/-- A request whose number has its response is answered with it again. -/
theorem request_of_again (hserved : served s = true) (hopen : openSession s sid = some x) {r : HostMsg}
    (hkind : reqKind x m = .again (some r)) (allowed : Bool) (f : State → Session → State) :
    request s sid m allowed f = sendMsg s sid r.ty m r.flags r.status r.body := by
  simp only [request, hopen, hserved, hkind, Bool.not_true, Bool.false_eq_true, if_false]

theorem Fresh.getSession_eq (h : Fresh s sid m x) : getSession s sid = some x := (openSession_eq_some.1 h.2.2.1).1

theorem Fresh.mute_eq (h : Fresh s sid m x) : s.faults.mute = false := served_mute h.1

/-- A response is sent and kept under its number. -/
theorem respond_eq (h : getSession s sid = some x) (m ty status : Nat) (body : List Byte) :
    ∃ r, respond s sid m ty status body = sendMsg (setSession s sid (some (keepDone x m (some r)))) sid ty m 0 status body :=
  ⟨_, by simp only [respond, h]; rfl⟩

theorem answers_respond (h : getSession s sid = some x) (hmute : s.faults.mute = false) (m ty status : Nat) (body : List Byte) :
    Answers s (respond s sid m ty status body) sid ty m status := by
  obtain ⟨r, hr⟩ := respond_eq h m ty status body
  rw [hr]
  have hsent := answers_sendMsg (s := setSession s sid (some (keepDone x m (some r)))) hmute sid ty m 0 status body
  exact hsent.before List.prefix_rfl

theorem respond_kept (s : State) (sid m ty status : Nat) (body : List Byte) :
    Keeps 0xFFFFFEFFF7FFFFFD#64 s (respond s sid m ty status body) :=
  respond_keeps _ _ _ _ _ _ _ _ (by decide) (.refl _ _)

end Sys2Proof.Machine


/-! # The host port (R302, R303, R305, R306, R309) -/
namespace Sys2Proof.Machine

open Sys2Proof

variable {s : State}

/-! ## The link (R302) -/

/-- LINK_UP with the mode of the link. -/
def linkShown (s : State) (mode : Nat) : State := fset (setBit s (pHostIf + 0x44) 31 true) (pHostIf + 0x44) 25 24 mode

theorem linkShown_fields (s : State) {mode : Nat} (hmode : mode < 4) :
    bit (linkShown s mode) (pHostIf + 0x44) 31 = true ∧ fget (linkShown s mode) (pHostIf + 0x44) 25 24 = mode ∧
      rd (linkShown s mode) (pHostIf + 0x40) = rd s (pHostIf + 0x40) := by
  refine ⟨?_, fget_fset_same _ _ _ _ _ (by omega) (by omega) (by omega), ?_⟩
  · exact ((bit_fset _ _ _ _ _ _ _ (by decide) (by decide)).trans (if_neg (by decide))).trans (bit_setBit_same _ _ _ _ (by decide))
  · exact (rd_fset_ne _ _ _ _ _ _ (by decide)).trans (rd_setBit_ne _ _ _ _ _ (by decide))

/-- The tests of an attempt of an enabled mode that is still offered. -/
theorem attempt_enabled {mode : Nat} (hlive : live s = true) (hmode : mode < 4) (hen : bit s (pHostIf + 0x40) (28 + mode) = true)
    (hoffered : s.hostSt.offered ≤ mode) :
    (!live s || decide (4 ≤ mode) || !bit s (pHostIf + 0x40) (28 + mode) || decide (mode < s.hostSt.offered)) = false := by
  simp only [hlive, hen, Bool.not_true, Bool.false_or, Bool.or_false, Bool.or_eq_false_iff, decide_eq_false_iff_not]
  omega

/-- The settings in force are those that stand as the link comes up. -/
def settingsTaken (s : State) (mode : Nat) : State :=
  { s with hostSt := { s.hostSt with
      fails := Sparse.set (fun _ => 0) s.hostSt.fails mode 0, activeCfg := rd s (pHostIf + 0x40),
      activeAddrs := (List.range 11).map fun i => rd s (pHostIf + 0x54 + 4 * i) } }

theorem settingsTaken_fields (s : State) (mode a hi lo : Nat) :
    bit (settingsTaken s mode) a hi = bit s a hi ∧ fget (settingsTaken s mode) a hi lo = fget s a hi lo ∧
      (settingsTaken s mode).hostSt.activeCfg = rd s (pHostIf + 0x40) := ⟨rfl, rfl, rfl⟩

theorem hostLinkUp_trained {mode : Nat} (hlive : live s = true) (hmode : mode < 4)
    (hen : bit s (pHostIf + 0x40) (28 + mode) = true) (hoffered : s.hostSt.offered ≤ mode) :
    Runs (.hostLinkUp mode true) s fun t => hostUp t = true ∧ fget t (pHostIf + 0x44) 25 24 = mode ∧
      t.hostSt.activeCfg = rd s (pHostIf + 0x40) := by
  obtain ⟨hup, hshown, hcfg⟩ := linkShown_fields s hmode
  obtain ⟨hbit, -, hactive⟩ := settingsTaken_fields (linkShown s mode) mode (pHostIf + 0x44) 31 0
  obtain ⟨-, hfield, -⟩ := settingsTaken_fields (linkShown s mode) mode (pHostIf + 0x44) 25 24
  refine ⟨settingsTaken (linkShown s mode) mode, ?_, hbit.trans hup, hfield.trans hshown, hactive.trans hcfg⟩
  show execHostLinkUp mode true s = _
  rw [execHostLinkUp, attempt_enabled hlive hmode hen hoffered]
  rfl

/-- The third failure in succession withdraws the mode. -/
theorem hostLinkUp_failed {mode : Nat} (hlive : live s = true) (hmode : mode < 4)
    (hen : bit s (pHostIf + 0x40) (28 + mode) = true) (hoffered : s.hostSt.offered ≤ mode)
    (hfails : Sparse.get (fun _ => 0) s.hostSt.fails mode = 2) :
    Runs (.hostLinkUp mode false) s fun t => t.hostSt.offered = mode + 1 := by
  refine ⟨{ s with hostSt := { s.hostSt with fails := Sparse.set (fun _ => 0) s.hostSt.fails mode 3, offered := mode + 1 } }, ?_, rfl⟩
  show execHostLinkUp mode false s = _
  rw [execHostLinkUp, attempt_enabled hlive hmode hen hoffered, hfails]
  rfl

theorem hostLinkLoss_falls (hlive : live s = true) :
    Runs .hostLinkLoss s fun t => hostUp t = false ∧ t.hostSt.offered = 0 := by
  refine ⟨hostLinkDown s, ?_, bit_setBit_same s (pHostIf + 0x44) 31 false (by decide), rfl⟩
  show execHostLinkLoss s = _
  rw [execHostLinkLoss, hlive]
  rfl

/-! ## Frames (R303) -/

theorem listens (hlive : live s = true) (hup : hostUp s = true) : (!live s || !hostUp s) = false := by rw [hlive, hup]; rfl

/-- A frame counts as received; it is taken, dropped or answered. -/
theorem exec_hostFrameRx (hlive : live s = true) (hup : hostUp s = true) (f : HostFrame) :
    ∃ t, exec (.hostFrameRx f) s = .next t ∧ (t = ctrAdd s pHostIf 0 1 ∨ t = ctrAdd (ctrAdd s pHostIf 0 1) pHostIf 2 1 ∨
      ∃ o, t = emit (ctrAdd (ctrAdd s pHostIf 0 1) pHostIf 1 1) o) := by
  have answered (b : Bool) (o : Output) (t : State)
      (ht : t = if b = true then emit (ctrAdd (ctrAdd s pHostIf 0 1) pHostIf 1 1) o else ctrAdd (ctrAdd s pHostIf 0 1) pHostIf 2 1) :
      t = ctrAdd s pHostIf 0 1 ∨ t = ctrAdd (ctrAdd s pHostIf 0 1) pHostIf 2 1 ∨
        ∃ o, t = emit (ctrAdd (ctrAdd s pHostIf 0 1) pHostIf 1 1) o := by
    cases b
    · exact .inr (.inl ht)
    · exact .inr (.inr ⟨o, ht⟩)
  show ∃ t, execHostFrameRx f s = .next t ∧ _
  rw [execHostFrameRx, listens hlive hup, if_neg Bool.false_ne_true]
  dsimp only
  split
  · exact ⟨_, rfl, .inr (.inl rfl)⟩
  · cases f.payload with
    | arp a => exact ⟨_, rfl, answered (ownIp4 (ctrAdd s pHostIf 0 1) a) _ _ rfl⟩
    | neighbourSolicit a => exact ⟨_, rfl, answered (ownIp6 (ctrAdd s pHostIf 0 1) a) _ _ rfl⟩
    | icmpEcho a data => exact ⟨_, rfl, answered (ownIp4 (ctrAdd s pHostIf 0 1) a) _ _ rfl⟩
    | icmp6Echo a data => exact ⟨_, rfl, answered (ownIp6 (ctrAdd s pHostIf 0 1) a) _ _ rfl⟩
    | fragment => exact ⟨_, rfl, .inl rfl⟩
    | udp v6 p =>
      refine ⟨_, rfl, ?_⟩
      split
      · exact .inl rfl
      · exact .inr (.inl rfl)
    | other => exact ⟨_, rfl, .inr (.inl rfl)⟩

theorem hostFrameRx_counts (hlive : live s = true) (hup : hostUp s = true) (f : HostFrame) :
    Runs (.hostFrameRx f) s fun t => ctrGet t pHostIf 0 = ctrGet s pHostIf 0 + 1 := by
  have hcount : ctrGet (ctrAdd s pHostIf 0 1) pHostIf 0 = ctrGet s pHostIf 0 + 1 := ctrGet_ctrAdd_same ..
  obtain ⟨t, hrun, rfl | rfl | ⟨o, rfl⟩⟩ := exec_hostFrameRx hlive hup f
  · exact ⟨_, hrun, hcount⟩
  · exact ⟨_, hrun, (ctrGet_ctrAdd_apart _ _ _ (by decide)).trans hcount⟩
  · exact ⟨_, hrun, (ctrGet_ctrAdd_apart (ctrAdd s pHostIf 0 1) pHostIf 1 (by decide)).trans hcount⟩

theorem hostFrameRx_drops (hlive : live s = true) (hup : hostUp s = true) {f : HostFrame} (hbad : frameOk s f = false) :
    Runs (.hostFrameRx f) s fun t => ctrGet t pHostIf 2 = ctrGet s pHostIf 2 + 1 := by
  refine ⟨ctrAdd (ctrAdd s pHostIf 0 1) pHostIf 2 1, ?_, ?_⟩
  · have hbad' : frameOk (ctrAdd s pHostIf 0 1) f = false := hbad
    show execHostFrameRx f s = _
    rw [execHostFrameRx, listens hlive hup, if_neg Bool.false_ne_true]
    dsimp only
    rw [hbad']
    rfl
  · exact (ctrGet_ctrAdd_same ..).trans (congrArg (· + 1) (ctrGet_ctrAdd_apart s pHostIf 1 (by decide)))

theorem hostFrameRx_answersArp (hlive : live s = true) (hup : hostUp s = true) {f : HostFrame} {a : Word} (hok : frameOk s f = true)
    (hpayload : f.payload = .arp a) (hown : ownIp4 s a = true) : Runs (.hostFrameRx f) s fun t => Emits s t (.frame "ARP" []) := by
  refine ⟨emit (ctrAdd (ctrAdd s pHostIf 0 1) pHostIf 1 1) (.frame "ARP" []), ?_, emits_emit _ _⟩
  have hok' : frameOk (ctrAdd s pHostIf 0 1) f = true := hok
  have hown' : ownIp4 (ctrAdd s pHostIf 0 1) a = true := hown
  show execHostFrameRx f s = _
  rw [execHostFrameRx, listens hlive hup, if_neg Bool.false_ne_true]
  dsimp only
  rw [hok', hpayload]
  dsimp only
  rw [hown']
  rfl

/-! ## Datagrams (R305, R306, R309) -/

theorem shafortSegmentRx_malformed (hlive : live s = true) (hup : hostUp s = true) {d : Dgram} (hbad : dgramOk d = false) :
    Runs (.shafortSegmentRx d) s fun t => ctrGet t pHostIf 2 = ctrGet s pHostIf 2 + 1 := by
  refine ⟨ctrAdd s pHostIf 2 1, ?_, ctrGet_ctrAdd_same ..⟩
  show execShafortSegmentRx d s = _
  rw [execShafortSegmentRx, listens hlive hup, hbad]
  rfl

/-- What becomes of a tagged datagram of an open session. -/
theorem exec_shafortSegmentRx (hlive : live s = true) (hup : hostUp s = true) {d : Dgram} {x : Session} (hok : dgramOk d = true)
    (htagged : hostTypes.contains (d.ty.toNat, false) = false) (hx : getSession s d.session.toNat = some x) (hacc : x.accepted = true) :
    exec (.shafortSegmentRx d) s =
      if d.tag != tagOf x.key d then .next (ctrAdd s pHostIf 3 1)
      else if !seqFresh x d.seq.toNat then .next (ctrAdd s pHostIf 4 1)
      else .next (setSession s d.session.toNat (some (bufferSegment (takeSeq x d.seq.toNat) d))) := by
  show execShafortSegmentRx d s = _
  rw [execShafortSegmentRx, listens hlive hup, hok, htagged, hx]
  dsimp only
  rw [hacc]
  rfl

theorem bufferSegment_highSeq (x : Session) (d : Dgram) : (bufferSegment x d).highSeq = x.highSeq := by
  unfold bufferSegment
  dsimp only
  generalize covered _ _ = whole
  generalize (_ && _ : Bool) = full
  cases whole <;> cases full <;> rfl

theorem takeSeq_highSeq {x : Session} {q : Nat} (h : x.highSeq < q) : (takeSeq x q).highSeq = q := by
  rw [takeSeq, if_pos h]

theorem seqFresh_of_highSeq_lt {x : Session} {q : Nat} (h : x.highSeq < q) : seqFresh x q = true := by
  rw [seqFresh, decide_eq_true h, Bool.true_or]

theorem segmentTimeout_empties {sid : Nat} {x : Session} (m : Word) (hx : getSession s sid = some x) :
    Runs (.segmentTimeout sid m) s fun t => ∃ y, getSession t sid = some y ∧ ∀ p ∈ y.partials, p.msgNum ≠ m.toNat := by
  refine ⟨_, (show execSegmentTimeout sid m s = _ by rw [execSegmentTimeout, hx]), _, getSession_setSession_same _ _ _, fun p hp => ?_⟩
  exact bne_iff_ne.1 (List.mem_filter.1 hp).2

/-- Settles O9, clause by clause: each is what one branch of the command leaves. -/
theorem hostPortTakesFrames : Obligations.HostPortTakesFrames := by
  unfold Obligations.HostPortTakesFrames
  intro s
  refine ⟨fun mode hlive hmode hen hoffered => ⟨hostLinkUp_trained hlive hmode hen hoffered,
      hostLinkUp_failed hlive hmode hen hoffered⟩,
    hostLinkLoss_falls,
    fun hlive hup => ⟨hostFrameRx_counts hlive hup, fun f => hostFrameRx_drops hlive hup,
      fun f a hok hpayload hown => hostFrameRx_answersArp hlive hup hok hpayload hown,
      fun d => shafortSegmentRx_malformed hlive hup, fun d x hok htagged hx hacc => ?_⟩,
    fun sid m x => segmentTimeout_empties m⟩
  have hexec := exec_shafortSegmentRx hlive hup hok htagged hx hacc
  refine ⟨fun htag => ⟨_, hexec.trans (if_pos (bne_iff_ne.2 htag)), ctrGet_ctrAdd_same ..⟩, fun htag hseq => ?_, fun htag hseq => ?_⟩
  all_goals rw [if_neg (by simp [htag])] at hexec
  · exact ⟨_, hexec.trans (if_pos (by rw [hseq]; rfl)), ctrGet_ctrAdd_same ..⟩
  · refine ⟨_, hexec.trans (if_neg (by rw [seqFresh_of_highSeq_lt hseq]; exact Bool.false_ne_true)), _,
      getSession_setSession_same _ _ _, ?_⟩
    rw [bufferSegment_highSeq, takeSeq_highSeq hseq]

end Sys2Proof.Machine


/-! # Sessions open and close (R308, R310, R332, R335) -/
namespace Sys2Proof.Machine

open Sys2Proof

variable {s : State} {sid : Nat} {x : Session}

/-! ## HELLO -/

/-- The state once a HELLO has its draw and its identifier; `n` is the next one. -/
def identified (s : State) (n : Nat) : State := { (draw s).2 with nextSession := n }

/-- A HELLO that passes its checks opens a session that awaits its PROOF, and sends CHALLENGE. -/
theorem exec_hello {role : Nat} {nonce : List Byte} (ll : Bool) (hserved : served s = true) (hup : hostUp s = true)
    (hopening : openingCount s < 4) (hopen : openCount s < 16) (hrole : role ≤ 2) (hmaker : role = 2 → makerOpen s = false)
    (hnonce : nonce.length = 32) (hsec : s.fuses.secState ≠ 0) :
    ∃ x body n, exec (.hello 1 role nonce ll) s =
        .next (sendMsg (setSession (identified s n) s.nextSession (some x)) 0 2 0 0 0 body) ∧
      x.accepted = false ∧ x.role = role ∧ x.hostNonce = nonce := by
  have hbusy : (decide (4 ≤ openingCount s) || decide (16 ≤ openCount s) || (role == 2 && makerOpen s)) = false := by
    simp only [Bool.or_eq_false_iff, decide_eq_false_iff_not, Bool.and_eq_false_iff, beq_eq_false_iff_ne]
    refine ⟨by omega, ?_⟩
    by_cases h : role = 2
    · exact .inr (hmaker h)
    · exact .inl h
  have hwrong : (decide (2 < role) || nonce.length != 32 || (s.fuses.secState == 0 && !(role == 1 && ll))) = false := by
    rw [decide_eq_false (by omega), bne_eq_false_iff_eq.2 hnonce, beq_eq_false_iff_ne.2 hsec]
    rfl
  show ∃ x body n, execHello 1 role nonce ll s = _ ∧ _
  rw [execHello, hserved, hup, hbusy, hwrong]
  exact ⟨_, _, _, rfl, rfl, rfl, rfl⟩

theorem hello_opens {role : Nat} {nonce : List Byte} (ll : Bool) (hserved : served s = true) (hup : hostUp s = true)
    (hopening : openingCount s < 4) (hopen : openCount s < 16) (hrole : role ≤ 2) (hmaker : role = 2 → makerOpen s = false)
    (hnonce : nonce.length = 32) (hsec : s.fuses.secState ≠ 0) : Runs (.hello 1 role nonce ll) s fun t =>
      Answers s t 0 2 0 0 ∧ ∃ x, getSession t s.nextSession = some x ∧ x.accepted = false ∧ x.role = role ∧ x.hostNonce = nonce := by
  obtain ⟨x, body, n, hrun, hx⟩ := exec_hello ll hserved hup hopening hopen hrole hmaker hnonce hsec
  have hanswer := answers_sendMsg (s := setSession (identified s n) s.nextSession (some x)) (served_mute hserved)
    0 2 0 0 0 body
  obtain ⟨q, hq⟩ := getSession_sendMsg (getSession_setSession_same (identified s n) s.nextSession (some x))
    0 2 0 0 0 body
  exact ⟨_, hrun, hanswer.before List.prefix_rfl, _, hq, hx⟩

theorem hello_ofOtherVersion {ver : Byte} (role : Nat) (nonce : List Byte) (ll : Bool) (hserved : served s = true) (hup : hostUp s = true)
    (hver : ver ≠ 1) : Runs (.hello ver role nonce ll) s fun t => Answers s t 0 0x7F 0 1 ∧ t.nextSession = s.nextSession := by
  refine ⟨sendError s 0 0 1, ?_, answers_sendError (served_mute hserved) _ _ _, ?_⟩
  · show execHello ver role nonce ll s = _
    rw [execHello, hserved, hup, bne_iff_ne.2 hver]
    rfl
  · unfold sendError sendMsg
    dsimp only
    split
    · rfl
    · cases getSession s 0 <;> rfl

/-! ## PROOF -/

theorem refreshCert_fuses (s : State) : (refreshCert s).fuses = s.fuses :=
  (refreshCert_keeps 0xFFFFFFFF7FFFFFFE#64 s s (by decide) (.refl _ _)).same .fuses (by decide)

theorem auditDevice_nextSeq (s : State) (kind result subject : Nat) (detail : List Byte) :
    s.audit.nextSeq < (auditDevice s kind result subject detail).audit.nextSeq := auditAdd_nextSeq ..

/-- SEC_STATUS shows the certified configuration (R337). -/
def certShown (s : State) : State :=
  wr s (pSec + 0x44) (BitVec.ofNat 32 (b2n (certWhy s == 0) * 2 ^ 31 + b2n (certWhy s == 0 && bit s (pSec + 0x48) 0) * 2 ^ 30 + certWhy s))

theorem audit_wr (s : State) (a : Nat) (w : Word) : (wr s a w).audit = s.audit := rfl

theorem certShown_audit (s : State) : (certShown s).audit = s.audit := audit_wr ..

theorem refreshCert_eq (s : State) : refreshCert s = if bit s (pSec + 0x44) 31 && !(certWhy s == 0)
    then auditDevice (certShown s) 0x0E 0 0 (leBytes 1 (certWhy s)) else certShown s := rfl

theorem refreshCert_nextSeq_le (s : State) : s.audit.nextSeq ≤ (refreshCert s).audit.nextSeq := by
  rw [refreshCert_eq, ← certShown_audit]
  split
  · exact (auditDevice_nextSeq _ _ _ _ _).le
  · exact le_rfl

/-- A maker's unlock is counted (R335). -/
def unlocked (s : State) : State := { s with fuses := { s.fuses with unlocks := s.fuses.unlocks + 1, secState := 2 } }

/-- The first installer's root is taken, as of a number of unlocks (R219, R334). -/
def commissioned (s : State) (root : List Byte) (unlocks : Nat) : State :=
  { s with fuses := { s.fuses with secState := 1, secRoot := root, unlocksRecorded := unlocks, batches := 0 },
           audit := { s.audit with lost := 0 } }

theorem unlocked_nextSeq (s : State) : (unlocked s).audit.nextSeq = s.audit.nextSeq := rfl

theorem commissioned_fields (s : State) (root : List Byte) (unlocks : Nat) :
    (commissioned s root unlocks).audit.nextSeq = s.audit.nextSeq ∧ (commissioned s root unlocks).fuses.secState = 1 ∧
      (commissioned s root unlocks).fuses.batches = 0 := ⟨rfl, rfl, rfl⟩

theorem openEffects_eq (s : State) (x : Session) (sid : Nat) (p : Proven) : ∃ root unlocks, openEffects s x sid p =
    if x.role == 2 then refreshCert (unlocked (auditAdd s 0x0D 2 0 (p.scope % 65536) sid root []))
    else if s.fuses.secState == 0 then refreshCert (commissioned (auditAdd s 0x10 1 0 0 sid root []) root unlocks)
    else s := ⟨_, _, rfl⟩

theorem openEffects_nextSeq_le (s : State) (x : Session) (sid : Nat) (p : Proven) :
    s.audit.nextSeq ≤ (openEffects s x sid p).audit.nextSeq := by
  obtain ⟨root, unlocks, heq⟩ := openEffects_eq s x sid p
  rw [heq]
  split
  · refine le_trans ?_ (refreshCert_nextSeq_le _)
    rw [unlocked_nextSeq]
    exact (auditAdd_nextSeq _ _ _ _ _ _ _ _).le
  · split
    · refine le_trans ?_ (refreshCert_nextSeq_le _)
      rw [(commissioned_fields _ _ _).1]
      exact (auditAdd_nextSeq _ _ _ _ _ _ _ _).le
    · exact le_rfl

/-- The first installer's PROOF commissions the device (R334) and its batches are numbered from then on (R219). -/
theorem openEffects_commissions (sid : Nat) (p : Proven) (hrole : x.role ≠ 2) (hsec : s.fuses.secState = 0) :
    (openEffects s x sid p).fuses.secState = 1 ∧ (openEffects s x sid p).fuses.batches = 0 := by
  obtain ⟨root, unlocks, heq⟩ := openEffects_eq s x sid p
  rw [heq, if_neg (by rw [beq_iff_eq]; exact hrole), if_pos (beq_iff_eq.2 hsec), refreshCert_fuses]
  exact (commissioned_fields _ _ _).2

theorem openEffects_kept (s : State) (x : Session) (sid : Nat) (p : Proven) :
    Keeps 0xFFFFFFFE7FFFFFFE#64 s (openEffects s x sid p) := openEffects_keeps _ _ _ _ _ _ (by decide) (.refl _ _)

/-- The session that a verified PROOF opens. -/
def opened (x : Session) (body : ProofBody) (p : Proven) : Session :=
  { x with
    accepted := true, keyDigest := keyDigest p.key, cred := p.cred, scope := p.scope,
    key := kmac256 (Config.kemDecaps x.draw body.ct) (shake256 (x.t1 ++ body.ct ++ body.chain.flatten) 64) 32 "SHAFORT K" }

theorem exec_proof_failed {body : ProofBody} (hserved : served s = true) (hx : getSession s sid = some x) (hacc : x.accepted = false)
    (hbad : proofOk s x body (shake256 (x.t1 ++ body.ct ++ body.chain.flatten) 64) = none) :
    exec (.proof sid body) s = .next (sendError (setSession s sid none) 0 0 3) := by
  show execProof sid body s = _
  rw [execProof, hx]
  dsimp only
  rw [hserved, hacc, hbad]
  rfl

/-- A verified PROOF has its effects, its record, its session and its ACCEPT. -/
theorem exec_proof_verified {body : ProofBody} {p : Proven} (hserved : served s = true) (hx : getSession s sid = some x)
    (hacc : x.accepted = false) (hok : proofOk s x body (shake256 (x.t1 ++ body.ct ++ body.chain.flatten) 64) = some p)
    (hopen : openCount s < 16) (hmaker : x.role = 2 → makerOpen s = false) :
    exec (.proof sid body) s = .next (sendMsg (setSession (auditAdd (openEffects s x sid p) 3 x.role 0 x.role sid (keyDigest p.key) [])
      sid (some (opened x body p))) sid 4 0 0 0 []) := by
  have hbusy : (decide (16 ≤ openCount s) || (x.role == 2 && makerOpen s)) = false := by
    simp only [Bool.or_eq_false_iff, decide_eq_false_iff_not, Bool.and_eq_false_iff, beq_eq_false_iff_ne]
    refine ⟨by omega, ?_⟩
    by_cases h : x.role = 2
    · exact .inr (hmaker h)
    · exact .inl h
  show execProof sid body s = _
  rw [execProof, hx]
  dsimp only
  rw [hserved, hacc, hok]
  dsimp only
  rw [hbusy, if_neg Bool.false_ne_true, Bool.not_true, Bool.or_self, if_neg Bool.false_ne_true]
  exact congrArg (fun y => Host.Outcome.next (sendMsg (setSession _ sid (some y)) sid 4 0 0 0 [])) rfl

theorem proof_refused {body : ProofBody} (hserved : served s = true) (hx : getSession s sid = some x) (hacc : x.accepted = false)
    (hbad : proofOk s x body (shake256 (x.t1 ++ body.ct ++ body.chain.flatten) 64) = none) :
    Runs (.proof sid body) s fun t => getSession t sid = none ∧ Answers s t 0 0x7F 0 3 := by
  have hanswer := answers_sendError (s := setSession s sid none) (served_mute hserved) 0 0 3
  exact ⟨_, exec_proof_failed hserved hx hacc hbad, getSession_sendMsg_none (getSession_setSession_same s sid none) _ _ _ _ _ _,
    hanswer.before List.prefix_rfl⟩

theorem proof_opens {body : ProofBody} {p : Proven} (hserved : served s = true) (hx : getSession s sid = some x)
    (hacc : x.accepted = false) (hok : proofOk s x body (shake256 (x.t1 ++ body.ct ++ body.chain.flatten) 64) = some p)
    (hopen : openCount s < 16) (hmaker : x.role = 2 → makerOpen s = false) : Runs (.proof sid body) s fun t =>
      Answers s t sid 4 0 0 ∧ s.audit.nextSeq < t.audit.nextSeq ∧
        (x.role ≠ 2 → s.fuses.secState = 0 → t.fuses.secState = 1 ∧ t.fuses.batches = 0) ∧
        ∃ n, getSession t sid = some { opened x body p with nextSeq := n } := by
  have hrun := exec_proof_verified hserved hx hacc hok hopen hmaker
  have heffects := openEffects_kept s x sid p
  have hseq := openEffects_nextSeq_le s x sid p
  have hfuses := openEffects_commissions (s := s) (x := x) sid p
  generalize openEffects s x sid p = u at hrun heffects hseq hfuses
  have hadd : Keeps 0xFFFFFFFF7FFFFFFF#64 u (auditAdd u 3 x.role 0 x.role sid (keyDigest p.key) []) :=
    auditAdd_keeps _ _ _ _ _ _ _ _ _ _ (by decide) (.refl _ _)
  have hlt := auditAdd_nextSeq u 3 x.role 0 x.role sid (keyDigest p.key) []
  generalize auditAdd u 3 x.role 0 x.role sid (keyDigest p.key) [] = v at hrun hadd hlt
  have hmute : v.faults.mute = false :=
    ((congrArg (·.mute) (hadd.same .faults (by decide))).trans (congrArg (·.mute) (heffects.same .faults (by decide)))).trans
      (served_mute hserved)
  have hout : s.out <+: v.out := (heffects.grows (by decide)).1.trans (hadd.grows (by decide)).1
  have hsent := sendMsg_kept (setSession v sid (some (opened x body p))) sid 4 0 0 0 []
  have hanswer := answers_sendMsg (s := setSession v sid (some (opened x body p))) hmute sid 4 0 0 0 []
  obtain ⟨n, hn⟩ := getSession_sendMsg (getSession_setSession_same v sid (some (opened x body p))) sid 4 0 0 0 []
  generalize sendMsg (setSession v sid (some (opened x body p))) sid 4 0 0 0 [] = t at hrun hsent hanswer hn
  refine ⟨t, hrun, hanswer.before hout, ?_, fun hrole hsec => ?_, n, hn⟩
  · have haudit : t.audit = v.audit := hsent.same .audit (by decide)
    rw [haudit]
    exact hseq.trans_lt hlt
  · have hkept : t.fuses = u.fuses := (hsent.same .fuses (by decide)).trans (hadd.same .fuses (by decide))
    rw [hkept]
    exact hfuses hrole hsec

theorem proofTimeout_releases (hx : getSession s sid = some x) (hacc : x.accepted = false) :
    Runs (.proofTimeout sid) s fun t => getSession t sid = none := by
  refine ⟨setSession s sid none, ?_, getSession_setSession_same ..⟩
  show execProofTimeout sid s = _
  rw [execProofTimeout, hx]
  dsimp only
  rw [hacc]
  rfl

/-! ## The end of a session (R310, R316) -/

theorem unsettle_transfers (s : State) (tr : Transfer) : (unsettle s tr).transfers = s.transfers :=
  (unsettle_keeps 0xFFFFFFFFFFDFFFFF#64 s s tr (by decide) (.refl _ _)).same .transfers (by decide)

theorem abortTransfer_transfers (s : State) (sid tr : Nat) :
    (abortTransfer s sid tr).transfers = s.transfers.filter fun t => !(t.session == sid && t.req.transfer == tr) := by
  unfold abortTransfer
  refine List.foldlRecOn (motive := fun u => u.transfers = s.transfers.filter fun t => !(t.session == sid && t.req.transfer == tr))
    _ _ ?_ fun u hu t _ => (unsettle_transfers u t).trans hu
  rfl

/-- The transfers `ids` of a session are aborted. -/
def abortAll (s : State) (sid : Nat) (ids : List Nat) : State := ids.foldl (fun s t => abortTransfer s sid t) s

theorem mem_abortAll_transfers {sid : Nat} {tr : Transfer} (ids : List Nat) (s : State) :
    tr ∈ (abortAll s sid ids).transfers ↔ tr ∈ s.transfers ∧ ¬ (tr.session = sid ∧ tr.req.transfer ∈ ids) := by
  induction ids generalizing s with
  | nil => simp [abortAll]
  | cons i ids ih =>
    have hstep : abortAll s sid (i :: ids) = abortAll (abortTransfer s sid i) sid ids := rfl
    rw [hstep, ih, abortTransfer_transfers]
    simp only [List.mem_filter, Bool.not_eq_true', Bool.and_eq_false_iff, beq_eq_false_iff_ne, List.mem_cons]
    tauto

theorem abortAll_keeps (m : BitVec 64) (s0 s : State) (sid : Nat) (ids : List Nat) (hm : m &&& 0x20200000#64 = 0#64)
    (h : Keeps m s0 s) : Keeps m s0 (abortAll s sid ids) :=
  keeps_foldl _ _ _ (fun _ i ht => abortTransfer_keeps _ _ _ sid i hm ht) h

/-- The device's own CLOSE, where it closes. -/
def closeNotice (s : State) (sid cause : Nat) : State :=
  if cause == 1 || cause == 2 || cause == 4 then sendMsg s sid 5 0 0 0 [BitVec.ofNat 8 cause] else s

/-- The requests of a session that wait are forgotten, and the session with them. -/
def forgotten (s : State) (sid : Nat) : State :=
  setSession { s with attests := s.attests.filter fun a => a.1 != sid,
                      heldReqs := s.heldReqs.filter fun h => match h with
                        | .bulkOpen q _ _ => q != sid
                        | .load _ _ _ => true } sid none

theorem forgotten_fields (s : State) (sid : Nat) : getSession (forgotten s sid) sid = none ∧ (forgotten s sid).transfers = s.transfers ∧
    (forgotten s sid).audit = s.audit ∧ (forgotten s sid).out = s.out :=
  ⟨getSession_setSession_same .., rfl, rfl, rfl⟩

/-- The transfers of a session, by their numbers. -/
def transfersOf (s : State) (sid : Nat) : List Nat := (s.transfers.filter fun t => t.session == sid).map (·.req.transfer)

/-- Between the record of a CLOSE and the session's end: the notice, and the transfers aborted. -/
def closing (s : State) (sid cause : Nat) : State :=
  abortAll (closeNotice s sid cause) sid (transfersOf (closeNotice s sid cause) sid)

theorem closeSession_of_open (hopen : openSession s sid = some x) (cause : Nat) :
    closeSession s sid cause = forgotten (closing (auditAdd s 4 x.role cause x.role sid [] []) sid cause) sid := by
  rw [closeSession, hopen]
  rfl

theorem closing_kept (s : State) (sid cause : Nat) : Keeps 0xFFFFFEFFD7DFFFFD#64 s (closing s sid cause) :=
  abortAll_keeps _ _ _ _ _ (by decide) (keeps_ite (fun _ => sendMsg_keeps _ _ _ _ _ _ _ _ _ (by decide) (.refl _ _)) fun _ => .refl _ _)

theorem closing_transfers {tr : Transfer} {cause : Nat} (h : tr ∈ (closing s sid cause).transfers) : tr.session ≠ sid := by
  obtain ⟨hmem, hnot⟩ := (mem_abortAll_transfers _ _).1 h
  exact fun hsid => hnot ⟨hsid, List.mem_map.2 ⟨tr, List.mem_filter.2 ⟨hmem, beq_iff_eq.2 hsid⟩, rfl⟩⟩

/-- A session that closes leaves neither its entry nor a transfer, and a record of it. -/
theorem closeSession_ends (hopen : openSession s sid = some x) (cause : Nat) :
    getSession (closeSession s sid cause) sid = none ∧ s.audit.nextSeq < (closeSession s sid cause).audit.nextSeq ∧
      ∀ tr ∈ (closeSession s sid cause).transfers, tr.session ≠ sid := by
  rw [closeSession_of_open hopen]
  have hlt := auditAdd_nextSeq s 4 x.role cause x.role sid [] []
  generalize auditAdd s 4 x.role cause x.role sid [] [] = u at hlt
  have haudit : (closing u sid cause).audit = u.audit := (closing_kept u sid cause).same .audit (by decide)
  have hclosed (tr : Transfer) (h : tr ∈ (closing u sid cause).transfers) : tr.session ≠ sid := closing_transfers h
  generalize closing u sid cause = v at haudit hclosed
  obtain ⟨hgone, htransfers, hkept, -⟩ := forgotten_fields v sid
  refine ⟨hgone, ?_, fun tr htr => hclosed tr (htransfers ▸ htr)⟩
  rw [hkept, haudit]
  exact hlt

/-- The device's own CLOSE is sent. -/
theorem closeSession_answers (hopen : openSession s sid = some x) (hmute : s.faults.mute = false) :
    Answers s (closeSession s sid 1) sid 5 0 0 := by
  rw [closeSession_of_open hopen]
  have hadd : Keeps 0xFFFFFFFF7FFFFFFF#64 s (auditAdd s 4 x.role 1 x.role sid [] []) :=
    auditAdd_keeps _ _ _ _ _ _ _ _ _ _ (by decide) (.refl _ _)
  generalize auditAdd s 4 x.role 1 x.role sid [] [] = u at hadd
  have hnotice : closeNotice u sid 1 = sendMsg u sid 5 0 0 0 [BitVec.ofNat 8 1] := if_pos (by decide)
  have hanswer : Answers u (closeNotice u sid 1) sid 5 0 0 :=
    hnotice ▸ answers_sendMsg ((congrArg (·.mute) (hadd.same .faults (by decide))).trans hmute) sid 5 0 0 0 _
  have hafter : (closeNotice u sid 1).out <+: (closing u sid 1).out := 
    (abortAll_keeps 0x8000000000000000#64 _ _ sid _ (by decide) (.refl _ _)).out_prefix
  generalize closing u sid 1 = v at hafter
  obtain ⟨-, -, -, hout⟩ := forgotten_fields v sid
  exact (hanswer.later (hout ▸ hafter)).before (hadd.grows (by decide)).1

theorem eventAckTimeout_closes (hopen : openSession s sid = some x) {q : Nat} (hq : (unackedEvent x q).isSome = true) :
    Runs (.eventAckTimeout sid q) s fun t => getSession t sid = none := by
  refine ⟨closeSession s sid 2, ?_, (closeSession_ends hopen 2).1⟩
  show execEventAckTimeout sid q s = _
  rw [execEventAckTimeout, hopen]
  exact if_pos hq

/-- Settles O10: HELLO, PROOF and the ends of a session, each by what its branch leaves. -/
theorem sessionsOpenAndClose : Obligations.SessionsOpenAndClose := by
  unfold Obligations.SessionsOpenAndClose
  intro s
  refine ⟨fun role nonce ll hserved hup hopening hopen hrole hmaker hnonce hsec =>
      hello_opens ll hserved hup hopening hopen hrole hmaker hnonce hsec,
    fun ver role nonce ll hserved hup hver => hello_ofOtherVersion role nonce ll hserved hup hver,
    fun sid b x hserved hx hacc => ⟨proof_refused hserved hx hacc, fun p hok hopen hmaker => ?_, proofTimeout_releases hx hacc⟩,
    fun sid x hopen => ⟨fun hserved => ?_, ?_, fun q => eventAckTimeout_closes hopen,
      fun hmute => ⟨_, rfl, closeSession_answers hopen hmute⟩⟩,
    fun sid => ⟨s, rfl, rfl⟩⟩
  · obtain ⟨t, hrun, hanswer, hseq, hfuses, n, hn⟩ := proof_opens hserved hx hacc hok hopen hmaker
    exact ⟨t, hrun, hanswer, hseq, hfuses, _, hn, rfl, rfl, rfl, rfl⟩
  · exact ⟨closeSession s sid 0, (show execClose sid s = _ from if_pos hserved), closeSession_ends hopen 0⟩
  · obtain ⟨hgone, hseq, -⟩ := closeSession_ends hopen 1
    exact ⟨closeSession s sid 1, rfl, hgone, hseq⟩

end Sys2Proof.Machine


/-! # Firmware updates, the audit ring and its streams (R320, R327 to R330, R341 to R343) -/
namespace Sys2Proof.Machine

open Sys2Proof

variable {s : State} {sid : Nat} {x : Session} {img : List Byte}

/-! ## Firmware updates (Table 16.5) -/

theorem fset_apartFromWords (s : State) (a hi lo v : Nat) : (fset s a hi lo v).fw = s.fw ∧ (fset s a hi lo v).flash = s.flash ∧
    (fset s a hi lo v).audit = s.audit := ⟨rfl, rfl, rfl⟩

theorem setFwState_fields (s : State) {v : Nat} (h : v < 8) : fwState (setFwState s v) = v ∧ (setFwState s v).fw = s.fw ∧
    (setFwState s v).flash = s.flash ∧ (setFwState s v).audit = s.audit :=
  ⟨fget_fset_same _ _ _ _ _ (by decide) (by decide) h, fset_apartFromWords ..⟩

theorem auditDevice_fields (s : State) (kind result subject : Nat) (detail : List Byte) :
    (auditDevice s kind result subject detail).fw = s.fw ∧ (auditDevice s kind result subject detail).flash = s.flash ∧
      s.audit.nextSeq < (auditDevice s kind result subject detail).audit.nextSeq := by
  refine ⟨?_, ?_, auditDevice_nextSeq ..⟩
  all_goals rw [auditDevice, auditAdd_frame]

/-- The image staged is taken to its checks. -/
def unstaged (s : State) : State := { s with fw := { s.fw with staged := none } }

/-- The image in the flash gives way to the one being written. -/
def imageErased (u s : State) (img : List Byte) : State :=
  { u with fw := { s.fw with writing := some img }, flash := { s.flash with image := [] } }

theorem imageErased_fields (u s : State) (img : List Byte) : fwState (imageErased u s img) = fwState u ∧
    (imageErased u s img).fw.writing = some img ∧ (imageErased u s img).flash.image = [] := ⟨rfl, rfl, rfl⟩

theorem fwCheckDone_passes (hstaged : s.fw.staged = some img) (hst : fwState s = 1) (hcode : fwCode s img = 0) :
    Runs .fwCheckDone s fun t => fwState t = 2 ∧ t.fw.writing = some img ∧ t.flash.image = [] := by
  obtain ⟨hstate, hwriting, himage⟩ := imageErased_fields (setFwState (fset (unstaged s) (pSec + 0x50) 31 24 0) 2) (unstaged s) img
  refine ⟨imageErased (setFwState (fset (unstaged s) (pSec + 0x50) 31 24 0) 2) (unstaged s) img, ?_,
    hstate.trans (setFwState_fields _ (by decide)).1, hwriting, himage⟩
  show execFwCheckDone s = _
  rw [execFwCheckDone, hstaged]
  dsimp only
  rw [hst, hcode]
  rfl

theorem fwCheckDone_fails (hstaged : s.fw.staged = some img) (hst : fwState s = 1) (hcode : fwCode s img ≠ 0) :
    Runs .fwCheckDone s fun t => fwState t = 4 ∧ t.flash = s.flash ∧ t.fw.writing = s.fw.writing ∧
      s.audit.nextSeq < t.audit.nextSeq := by
  have hrun : exec .fwCheckDone s =
      .next (setFwState (fset (fwRecord (unstaged s) img (fwCode s img)) (pSec + 0x50) 31 24 (fwCode s img)) 4) := by
    show execFwCheckDone s = _
    rw [execFwCheckDone, hstaged]
    dsimp only
    rw [hst, bne_iff_ne.2 hcode]
    rfl
  obtain ⟨hfw, hflash, hseq⟩ : (fwRecord (unstaged s) img (fwCode s img)).fw = (unstaged s).fw ∧
      (fwRecord (unstaged s) img (fwCode s img)).flash = (unstaged s).flash ∧
      (unstaged s).audit.nextSeq < (fwRecord (unstaged s) img (fwCode s img)).audit.nextSeq := auditDevice_fields ..
  generalize fwRecord (unstaged s) img (fwCode s img) = u at hrun hfw hflash hseq
  obtain ⟨hfw', hflash', haudit'⟩ := fset_apartFromWords u (pSec + 0x50) 31 24 (fwCode s img)
  generalize fset u (pSec + 0x50) 31 24 (fwCode s img) = v at hrun hfw' hflash' haudit'
  obtain ⟨hstate, hfw'', hflash'', haudit''⟩ := setFwState_fields v (v := 4) (by decide)
  refine ⟨_, hrun, hstate, hflash''.trans (hflash'.trans hflash), ?_, ?_⟩
  · exact congrArg (·.writing) (hfw''.trans (hfw'.trans hfw))
  · rw [haudit'', haudit']
    exact hseq

/-- Nothing is being written any more. -/
def writtenOut (s : State) : State := { s with fw := { s.fw with writing := none } }

/-- The image read back stands in the flash. -/
def imageStands (s : State) (img : List Byte) : State := { writtenOut s with flash := { s.flash with image := img } }

theorem fwProgramDone_programs (hwriting : s.fw.writing = some img) : Runs (.fwProgramDone true) s fun t =>
    fwState t = 3 ∧ t.flash.image = img ∧ t.fw.runningDigest = s.fw.runningDigest := by
  have hrun : exec (.fwProgramDone true) s = .next (setFwState (fwRecord (imageStands s img) img 0) 3) := by
    show execFwProgramDone true s = _
    rw [execFwProgramDone, hwriting]
    rfl
  obtain ⟨hfw, hflash, -⟩ : (fwRecord (imageStands s img) img 0).fw = (imageStands s img).fw ∧
      (fwRecord (imageStands s img) img 0).flash = (imageStands s img).flash ∧ _ := auditDevice_fields ..
  generalize fwRecord (imageStands s img) img 0 = u at hrun hfw hflash
  obtain ⟨hstate, hfw', hflash', -⟩ := setFwState_fields u (v := 3) (by decide)
  exact ⟨_, hrun, hstate, congrArg (·.image) (hflash'.trans hflash), congrArg (·.runningDigest) (hfw'.trans hfw)⟩

theorem fwProgramDone_fails (hwriting : s.fw.writing = some img) : Runs (.fwProgramDone false) s fun t =>
    fwState t = 4 ∧ t.flash = s.flash := by
  have hrun : exec (.fwProgramDone false) s = .next (setFwState (auditDevice (writtenOut s) 8 1 (fwRollback img % 65536) []) 4) := by
    show execFwProgramDone false s = _
    rw [execFwProgramDone, hwriting]
    rfl
  obtain ⟨-, hflash, -⟩ := auditDevice_fields (writtenOut s) 8 1 (fwRollback img % 65536) []
  generalize auditDevice (writtenOut s) 8 1 (fwRollback img % 65536) [] = u at hrun hflash
  obtain ⟨hstate, -, hflash', -⟩ := setFwState_fields u (v := 4) (by decide)
  exact ⟨_, hrun, hstate, hflash'.trans hflash⟩

/-! ## Audit streams (R320) -/

/-- A session with a stream. -/
def streaming (x : Session) (a : AuditStream) : Session := { x with audit := some a }

/-- The records that a stream sends next (R320). -/
def nextRecords (s : State) (a : AuditStream) : List AuditRec := (s.flash.ring.filter fun r => a.next ≤ r.seq).take 128

/-- A stream with records within its window sends them and goes on. -/
theorem pumpAudit_sends {a : AuditStream} {l : AuditRec} (fuel : Nat) (gap : Bool) (hx : getSession s sid = some x)
    (ha : x.audit = some a) (hl : (nextRecords s a).getLast? = some l) (hfits : l.seq + 1 - a.acked ≤ 16384) :
    pumpAudit (fuel + 1) gap s sid =
      pumpAudit fuel false (sendMsg (setSession s sid (some (streaming x { a with next := l.seq + 1 }))) sid 0x41 0
        (if gap then 2 else 0) 0 ((nextRecords s a).map recordBytes).flatten) sid := by
  rw [pumpAudit, hx]
  dsimp only
  rw [ha]
  dsimp only
  rw [nextRecords] at hl
  rw [hl]
  dsimp only
  exact if_neg (by omega)

/-- A stream with no record to send, or whose window is full, waits. -/
theorem pumpAudit_waits {a : AuditStream} (fuel : Nat) (gap : Bool) (hx : getSession s sid = some x) (ha : x.audit = some a)
    (hl : ∀ l, (nextRecords s a).getLast? = some l → 16384 < l.seq + 1 - a.acked) : pumpAudit (fuel + 1) gap s sid = s := by
  rw [pumpAudit, hx]
  dsimp only
  rw [ha]
  dsimp only
  rw [nextRecords] at hl
  split
  · rfl
  · next l hlast => exact if_pos (hl l hlast)

/-- The pump moves NEXT of a stream and leaves what is acknowledged. -/
theorem pumpAudit_stream {a : AuditStream} (fuel : Nat) (gap : Bool) (hx : getSession s sid = some x) (ha : x.audit = some a) :
    ∃ y b, getSession (pumpAudit fuel gap s sid) sid = some y ∧ y.audit = some b ∧ b.acked = a.acked := by
  induction fuel generalizing gap s x a with
  | zero => exact ⟨x, a, hx, ha, rfl⟩
  | succ fuel ih =>
    by_cases hl : ∃ l, (nextRecords s a).getLast? = some l ∧ l.seq + 1 - a.acked ≤ 16384
    · obtain ⟨l, hlast, hfits⟩ := hl
      rw [pumpAudit_sends fuel gap hx ha hlast hfits]
      obtain ⟨n, hn⟩ := getSession_sendMsg (getSession_setSession_same s sid (some (streaming x { a with next := l.seq + 1 })))
        sid 0x41 0 (if gap then 2 else 0) 0 ((nextRecords s a).map recordBytes).flatten
      exact ih (a := { a with next := l.seq + 1 }) false hn rfl
    · rw [pumpAudit_waits fuel gap hx ha fun l hlast => not_le.1 fun h => hl ⟨l, hlast, h⟩]
      exact ⟨x, a, hx, ha, rfl⟩

/-- A stream whose next records are in the ring and within its window sends them. -/
theorem pumpAudit_answers {a : AuditStream} (fuel : Nat) (hmute : s.faults.mute = false) (hx : getSession s sid = some x)
    (ha : x.audit = some a) (hheld : ∃ r ∈ s.flash.ring, a.next ≤ r.seq) (hwindow : ∀ q ∈ s.flash.ring, q.seq < a.acked + 128) :
    Answers s (pumpAudit (fuel + 1) false s sid) sid 0x41 0 0 := by
  obtain ⟨r, hr, hseq⟩ := hheld
  have hne : nextRecords s a ≠ [] := fun h =>
    List.ne_nil_of_mem (List.mem_filter.2 ⟨hr, decide_eq_true hseq⟩) ((List.take_eq_nil_iff.1 h).resolve_left (by decide))
  have hmem : (nextRecords s a).getLast hne ∈ s.flash.ring := (List.mem_filter.1 (List.mem_of_mem_take (List.getLast_mem hne))).1
  have hfits := hwindow _ hmem
  rw [pumpAudit_sends fuel false hx ha (List.getLast?_eq_some_getLast hne) (by omega)]
  generalize streaming x _ = y
  have hanswer := answers_sendMsg (s := setSession s sid (some y)) hmute sid 0x41 0 (if false = true then 2 else 0) 0
    ((nextRecords s a).map recordBytes).flatten
  exact (hanswer.before List.prefix_rfl).later (pumpAudit_keeps 0x8000000000000000#64 _ _ _ _ _ (by decide) (.refl _ _)).out_prefix

theorem auditStart_streams (fromSeq : Nat) (hserved : served s = true) (hopen : openSession s sid = some x) :
    Runs (.auditStart sid fromSeq) s fun t =>
      ∃ y a, getSession t sid = some y ∧ y.audit = some a ∧ a.acked = Nat.max fromSeq (auditOldest s) := by
  refine ⟨_, ?_, pumpAudit_stream auditFuel (decide (fromSeq < auditOldest s))
    (getSession_setSession_same s sid (some { x with audit := some ⟨Nat.max fromSeq (auditOldest s), Nat.max fromSeq (auditOldest s)⟩ })) rfl⟩
  show execAuditStart sid fromSeq s = _
  rw [execAuditStart, hopen]
  dsimp only
  rw [hserved]
  rfl

/-- An installer's acknowledgement moves the ring's own mark (R343). -/
def ringAcked (s : State) (role next : Nat) : State :=
  if role == 1 then { s with audit := { s.audit with acked := Nat.max s.audit.acked next } } else s

theorem ringAcked_fields (s : State) (role next q : Nat) : getSession (ringAcked s role next) q = getSession s q ∧
    (role = 1 → (ringAcked s role next).audit.acked = Nat.max s.audit.acked next) := by
  unfold ringAcked
  split
  · exact ⟨rfl, fun _ => rfl⟩
  · next h => exact ⟨rfl, fun hr => absurd (beq_iff_eq.2 hr) h⟩

theorem auditAck_acknowledges {a : AuditStream} {next : Nat} (hserved : served s = true) (hopen : openSession s sid = some x)
    (ha : x.audit = some a) (hnext : next ≤ a.next) : Runs (.auditAck sid next) s fun t =>
      (∃ y b, getSession t sid = some y ∧ y.audit = some b ∧ b.acked = Nat.max a.acked next) ∧
      (x.role = 1 → t.audit.acked = Nat.max s.audit.acked next) := by
  have hrun : exec (.auditAck sid next) s = .next (pumpAudit auditFuel false (ringAcked (setSession s sid
      (some { x with audit := some { a with acked := Nat.max a.acked next } })) x.role next) sid) := by
    show execAuditAck sid next s = _
    rw [execAuditAck, hopen]
    dsimp only
    rw [ha]
    dsimp only
    rw [hserved, decide_eq_false (by omega)]
    rfl
  obtain ⟨hsessions, hmark⟩ := ringAcked_fields (setSession s sid (some { x with audit := some { a with acked := Nat.max a.acked next } }))
    x.role next sid
  rw [getSession_setSession_same] at hsessions
  generalize ringAcked (setSession s sid (some { x with audit := some { a with acked := Nat.max a.acked next } })) x.role next = u at *
  refine ⟨_, hrun, pumpAudit_stream _ _ hsessions rfl, fun hrole => ?_⟩
  have hkept : (pumpAudit auditFuel false u sid).audit = u.audit :=
    (pumpAudit_keeps 0x80000000#64 _ _ _ _ _ (by decide) (.refl _ _)).same .audit (by decide)
  exact (congrArg (·.acked) hkept).trans (hmark hrole)

theorem auditResendTimer_resends {a : AuditStream} (hserved : served s = true) (hopen : openSession s sid = some x)
    (ha : x.audit = some a) (hbehind : a.acked < a.next)
    (hring : ∃ r ∈ s.flash.ring, r.seq = a.acked ∧ ∀ q ∈ s.flash.ring, q.seq < a.acked + 128) :
    Runs (.auditResendTimer sid) s fun t => Answers s t sid 0x41 0 0 := by
  obtain ⟨r, hr, hseq, hwindow⟩ := hring
  have hanswer := pumpAudit_answers (s := setSession s sid (some { x with audit := some { a with next := a.acked } })) 16384
    (served_mute hserved) (getSession_setSession_same _ _ _) rfl ⟨r, hr, hseq.ge⟩ hwindow
  refine ⟨_, ?_, hanswer.before List.prefix_rfl⟩
  show execAuditResendTimer sid s = _
  rw [execAuditResendTimer, hopen]
  dsimp only
  rw [ha]
  dsimp only
  rw [hserved, decide_eq_false (by omega)]
  rfl

/-! ## The ring (R342, R343) -/

theorem commitTxn_ring (s : State) (es : List Setting) : (commitTxn s es).flash.ring = s.flash.ring := by
  unfold commitTxn
  split <;> rfl

theorem ringTake_room {r : AuditRec} (hroom : s.flash.ring.length < s.flash.capacity) :
    (ringTake s r).flash.ring = s.flash.ring ++ [r] ∧ (ringTake s r).audit = s.audit := by
  rw [ringTake, if_pos hroom]
  exact ⟨rfl, rfl⟩

/-- A ring with room takes the oldest staged record. -/
theorem auditRecordProgram_rings {r : AuditRec} {sets : List Setting} {rest : List (AuditRec × List Setting)}
    (hstaged : s.audit.staged = (r, sets) :: rest) (hpresent : s.flash.present = true)
    (hroom : s.flash.ring.length < s.flash.capacity) :
    Runs .auditRecordProgram s fun t => t.flash.ring = s.flash.ring ++ [r] ∧ t.audit.staged = rest := by
  obtain ⟨hring, haudit⟩ := ringTake_room (s := { s with audit := { s.audit with staged := rest } }) (r := r) hroom
  have hrun := exec_auditRecordProgram hstaged hpresent
  generalize ringTake { s with audit := { s.audit with staged := rest } } r = u at hring haudit hrun
  have hkept : (pumpStreams (commitTxn u sets)).audit = u.audit :=
    (pumpStreams_keeps 0x80000000#64 _ _ (by decide) (commitTxn_keeps _ _ _ _ (by decide) (.refl _ _))).same .audit (by decide)
  refine ⟨_, hrun, ?_, congrArg (·.staged) (hkept.trans haudit)⟩
  exact (congrArg (·.ring) (pumpStreams_flash _)).trans ((commitTxn_ring u sets).trans hring)

end Sys2Proof.Machine


/-! # SEC_CMD (R334, R337) -/
namespace Sys2Proof.Machine

open Sys2Proof

variable {s : State} {who : Requester}

/-! ## The register of SEC_CMD -/

/-- The row of page SEC (Table 20.2). -/
def secKind : PageKind := ⟨0x05, 0x4000, 1, false, false, 0⟩

theorem pageOf_sec {off : Nat} (h : off < 0x1000) : pageOf (pSec + off) = some (secKind, pSec) :=
  pageOf_instance (k := secKind) (i := 0) (by decide) (by decide) h

theorem blockActs_secCmd (s : State) (who : Requester) (b : Bool) (old new v m : Word) :
    blockActs s who (some b) secKind pSec 0x4C old new v m = (match woVal v m 1 0 with
      | 1 => recommission s who b
      | 2 => decommission s who
      | _ => s) := rfl

theorem blockActs_decommission (s : State) (who : Requester) (old new v m : Word) (h : woVal v m 1 0 = 2) :
    blockActs s who none secKind pSec 0x4C old new v m = decommission s who := by
  show (match woVal v m 1 0 with
    | 1 => _
    | 2 => decommission s who
    | _ => s) = _
  rw [h]
  rfl

theorem blockActs_recommission (s : State) (who : Requester) (b : Bool) (old new v m : Word) (h : woVal v m 1 0 = 1) :
    blockActs s who (some b) secKind pSec 0x4C old new v m = recommission s who b := by
  rw [blockActs_secCmd, h]
  rfl

/-- The register of SEC_CMD once written. -/
def secWritten (s : State) (who : Requester) (v : Word) : State := written s who (pSec + 0x4C) v 3

theorem secWritten_frame (s : State) (who : Requester) (v : Word) :
    ∃ regs audit, secWritten s who v = { s with regs := regs, audit := audit } := written_frame ..

theorem exec_secRecommission (hacc : Accepts s who (pSec + 0x4C) 1 3) (b : Bool) :
    exec (.secRecommission who b) s = .next (recommission (secWritten s who 1) who b) := by
  have hexec : exec (.secRecommission who b) s = .next (commandWrite who (some b) (pSec + 0x4C) 1 3 s) := rfl
  rw [hexec, commandWrite_of_accepts hacc, acceptWrite_block (some b) (pageOf_sec (by decide)) (by decide) (by decide) (by decide),
    blockActs_recommission _ _ _ _ _ _ _ (by decide)]
  rfl

theorem exec_secDecommission (hacc : Accepts s who (pSec + 0x4C) 2 3) :
    exec (.secDecommission who) s = .next (decommission (secWritten s who 2) who) := by
  rw [(exec_of_writeOf (c := .secDecommission who) rfl s).2, commandWrite_of_accepts hacc,
    acceptWrite_block none (pageOf_sec (by decide)) (by decide) (by decide) (by decide),
    blockActs_decommission _ _ _ _ _ _ (by decide)]
  rfl

/-! ## RECOMMISSION (R337) -/

theorem auditAdd_lost (s : State) (kind role result subject session : Nat) (detail : List Byte) (sets : List Setting) :
    (auditAdd s kind role result subject session detail sets).audit.lost = s.audit.lost := by
  unfold auditAdd
  dsimp only
  split <;> rfl

theorem auditDevice_lost (s : State) (kind result subject : Nat) (detail : List Byte) :
    (auditDevice s kind result subject detail).audit.lost = s.audit.lost := auditAdd_lost ..

theorem refreshCert_lost (s : State) : (refreshCert s).audit.lost = s.audit.lost := by
  have hshown : (certShown s).audit.lost = s.audit.lost := congrArg (·.lost) (certShown_audit s)
  rw [refreshCert_eq]
  generalize certShown s = u at hshown
  split
  · exact (auditDevice_lost ..).trans hshown
  · exact hshown

/-- The device is commissioned anew, as of the unlocks so far. -/
def recommissioned (s : State) (unlocks : Nat) : State :=
  { s with fuses := { s.fuses with secState := 1, unlocksRecorded := unlocks },
           audit := { s.audit with lost := 0 }, fw := { s.fw with discarded := false } }

theorem recommissioned_fields (s : State) (unlocks : Nat) : (recommissioned s unlocks).fuses.secState = 1 ∧
    (recommissioned s unlocks).fuses.unlocksRecorded = unlocks ∧ (recommissioned s unlocks).audit.lost = 0 ∧
    (recommissioned s unlocks).audit.nextSeq = s.audit.nextSeq := ⟨rfl, rfl, rfl, rfl⟩

theorem recommission_pass (s : State) (who : Requester) : recommission s who true =
    refreshCert (recommissioned (auditAdd s 0x10 (whoRole s who) 0 1 (whoSession who) s.fuses.secRoot [])
      (auditAdd s 0x10 (whoRole s who) 0 1 (whoSession who) s.fuses.secRoot []).fuses.unlocks) := by
  unfold recommission recommissioned
  exact if_neg (by decide)

theorem recommission_commissions (s : State) (who : Requester) : (recommission s who true).fuses.secState = 1 ∧
    (recommission s who true).fuses.unlocksRecorded = s.fuses.unlocks ∧ (recommission s who true).audit.lost = 0 ∧
      s.audit.nextSeq < (recommission s who true).audit.nextSeq := by
  rw [recommission_pass]
  have hfuses : (auditAdd s 0x10 (whoRole s who) 0 1 (whoSession who) s.fuses.secRoot []).fuses = s.fuses := by rw [auditAdd_frame]
  have hlt := auditAdd_nextSeq s 0x10 (whoRole s who) 0 1 (whoSession who) s.fuses.secRoot []
  generalize auditAdd s 0x10 (whoRole s who) 0 1 (whoSession who) s.fuses.secRoot [] = u at hfuses hlt
  obtain ⟨hstate, hunlocks, hlost, hseq⟩ := recommissioned_fields u u.fuses.unlocks
  have hle := refreshCert_nextSeq_le (recommissioned u u.fuses.unlocks)
  rw [refreshCert_fuses, refreshCert_lost]
  exact ⟨hstate, hunlocks.trans (congrArg (·.unlocks) hfuses), hlost, (hseq ▸ hlt).trans_le hle⟩

theorem recommission_fails (s : State) (who : Requester) : fallow (recommission s who false) = true := by
  unfold recommission
  rw [if_pos (by decide)]
  exact serve_mkFault_fallow _ _ _ _ _ _ _ (by decide) (by decide)

theorem secRecommission_commissions (hacc : Accepts s who (pSec + 0x4C) 1 3) :
    Runs (.secRecommission who true) s fun t => t.fuses.secState = 1 ∧ t.fuses.unlocksRecorded = s.fuses.unlocks ∧
      t.audit.lost = 0 ∧ s.audit.nextSeq < t.audit.nextSeq := by
  obtain ⟨regs, audit, hframe⟩ := secWritten_frame s who 1
  have hfuses : (secWritten s who 1).fuses = s.fuses := by rw [hframe]
  have hle : s.audit.nextSeq ≤ (secWritten s who 1).audit.nextSeq := written_nextSeq_le ..
  obtain ⟨hstate, hunlocks, hlost, hlt⟩ := recommission_commissions (secWritten s who 1) who
  exact ⟨_, exec_secRecommission hacc true, hstate, hunlocks.trans (congrArg (·.unlocks) hfuses), hlost, hle.trans_lt hlt⟩

/-! ## DECOMMISSION (R334) -/

theorem Sparse.get_eraseRange_in {α : Type} (d : Nat → α) (m : Sparse α) {lo hi k : Nat} (hlo : lo ≤ k) (hhi : k < hi) :
    Sparse.get d (Sparse.eraseRange m lo hi) k = d k := by
  by_contra hne
  have hmem := (List.mem_filter.1 (Sparse.mem_of_get hne)).2
  simp [hlo, hhi] at hmem

theorem rd_regsReset_in (s : State) {lo hi a : Nat} (hlo : lo ≤ a) (hhi : a < hi) : rd (regsReset s lo hi) a = resetWord a :=
  Sparse.get_eraseRange_in _ _ hlo hhi

/-- A session that is not there stays away while another closes. -/
theorem getSession_closeSession_none {q : Nat} (hq : getSession s q = none) (sid cause : Nat) :
    getSession (closeSession s sid cause) q = none := by
  cases hopen : openSession s sid with
  | none =>
    rw [closeSession, hopen]
    exact hq
  | some x =>
    rw [closeSession_of_open hopen]
    have hadd : getSession (auditAdd s 4 x.role cause x.role sid [] []) q = none := by
      rw [auditAdd_frame]
      exact hq
    generalize auditAdd s 4 x.role cause x.role sid [] [] = u at hadd
    have hnotice : getSession (closeNotice u sid cause) q = none := by
      unfold closeNotice
      split
      · exact getSession_sendMsg_none hadd _ _ _ _ _ _
      · exact hadd
    have hclosing : getSession (closing u sid cause) q = none :=
      ((abortAll_keeps 0x8000000#64 _ _ sid (transfersOf (closeNotice u sid cause) sid) (by decide)
        (.refl _ (closeNotice u sid cause))).getSession_eq (by decide) q).trans hnotice
    generalize closing u sid cause = v at hclosing
    unfold forgotten
    rw [getSession_setSession]
    split
    · rfl
    · exact hclosing

/-- A session is closed and its entry removed. -/
def expelled (s : State) (sid : Nat) : State := setSession (closeSession s sid 4) sid none

theorem getSession_expelled {q : Nat} (sid : Nat) (h : q = sid ∨ getSession s q = none) : getSession (expelled s sid) q = none := by
  unfold expelled
  rw [getSession_setSession]
  split
  · rfl
  · next hne => exact getSession_closeSession_none (h.resolve_left hne) _ _

theorem expelled_regs (s : State) (sid : Nat) : (expelled s sid).regs = s.regs :=
  (setSession_keeps 0x1#64 s _ sid none (by decide) (closeSession_keeps _ _ _ sid 4 (by decide) (.refl _ _))).same .registers (by decide)

/-- Every session of a list leaves. -/
def expelAll (s : State) (ids : List Nat) : State := ids.foldl expelled s

theorem getSession_expelAll {q : Nat} (ids : List Nat) (s : State) (h : q ∈ ids ∨ getSession s q = none) :
    getSession (expelAll s ids) q = none := by
  induction ids generalizing s with
  | nil => exact h.resolve_left List.not_mem_nil
  | cons i ids ih =>
    refine ih (expelled s i) ?_
    rcases h with h | h
    · rcases List.mem_cons.1 h with rfl | h
      · exact .inr (getSession_expelled _ (.inl rfl))
      · exact .inl h
    · exact .inr (getSession_expelled _ (.inr h))

theorem expelAll_regs (ids : List Nat) (s : State) : (expelAll s ids).regs = s.regs :=
  List.foldlRecOn (motive := fun u => u.regs = s.regs) ids expelled rfl fun u hu i _ => (expelled_regs u i).trans hu

/-- No session stands once all that the table holds have left. -/
theorem getSession_expelAll_sessionList (s : State) (q : Nat) : getSession (expelAll s ((sessionList s).map (·.1))) q = none := by
  refine getSession_expelAll _ s ?_
  cases hq : getSession s q with
  | none => exact .inr rfl
  | some x =>
    have hmem : (q, getSession s q) ∈ s.sessions := Sparse.mem_of_get (d := fun _ => none) (by
      rw [show Sparse.get (fun _ => none) s.sessions q = some x from hq]
      exact Option.some_ne_none x)
    rw [hq] at hmem
    exact .inl (List.mem_map.2 ⟨(q, x), List.mem_filterMap.2 ⟨_, hmem, rfl⟩, rfl⟩)

/-- The credential table is cleared. -/
def credsReset (s : State) : State := regsReset s (wCred 0) (wCred 64)

/-- SEC_ROOT and STATE are those of a device never commissioned. -/
def decommissioned (s : State) : State := { s with fuses := { s.fuses with secState := 0, secRoot := [] } }

theorem decommission_eq (s : State) (who : Requester) : ∃ creds, decommission s who =
    refreshCert (decommissioned (expelAll (credsReset (auditAdd s 0x10 (whoRole s who) 0 2 (whoSession who) s.fuses.secRoot creds))
      ((sessionList (credsReset (auditAdd s 0x10 (whoRole s who) 0 2 (whoSession who) s.fuses.secRoot creds))).map (·.1)))) :=
  ⟨_, rfl⟩

theorem rd_refreshCert_ne (s : State) {a : Nat} (h : a ≠ pSec + 0x44) : rd (refreshCert s) a = rd s a := by
  have hshown : rd (certShown s) a = rd s a := rd_wr_ne _ _ _ _ h
  rw [refreshCert_eq, ← hshown]
  split
  · exact rd_auditAdd ..
  · rfl

theorem decommissioned_fields (s : State) (q a : Nat) : (decommissioned s).fuses.secState = 0 ∧ (decommissioned s).fuses.secRoot = [] ∧
    getSession (decommissioned s) q = getSession s q ∧ rd (decommissioned s) a = rd s a := ⟨rfl, rfl, rfl, rfl⟩

theorem wCred_apart {a : Nat} (h : wCred 0 ≤ a) : a ≠ pSec + 0x44 := by
  unfold wCred at h
  unfold pSec
  omega

theorem decommission_clears (s : State) (who : Requester) (q : Nat) : (decommission s who).fuses.secState = 0 ∧
    (decommission s who).fuses.secRoot = [] ∧ getSession (decommission s who) q = none ∧
      ∀ a, wCred 0 ≤ a → a < wCred 64 → rd (decommission s who) a = resetWord a := by
  obtain ⟨creds, heq⟩ := decommission_eq s who
  rw [heq]
  generalize auditAdd s 0x10 (whoRole s who) 0 2 (whoSession who) s.fuses.secRoot creds = u
  have hcreds (a : Nat) (hlo : wCred 0 ≤ a) (hhi : a < wCred 64) : rd (credsReset u) a = resetWord a := rd_regsReset_in u hlo hhi
  generalize credsReset u = v at hcreds
  have hgone := getSession_expelAll_sessionList v q
  have hregs := expelAll_regs ((sessionList v).map (·.1)) v
  generalize expelAll v ((sessionList v).map (·.1)) = w at hgone hregs
  obtain ⟨hstate, hroot, hsession, -⟩ := decommissioned_fields w q 0
  have hkept : getSession (refreshCert (decommissioned w)) q = getSession (decommissioned w) q :=
    (refreshCert_keeps 0x8000000#64 _ _ (by decide) (.refl _ _)).getSession_eq (by decide) q
  rw [refreshCert_fuses, hkept]
  refine ⟨hstate, hroot, hsession.trans hgone, fun a hlo hhi => ?_⟩
  obtain ⟨-, -, -, hrd⟩ := decommissioned_fields w q a
  rw [rd_refreshCert_ne _ (wCred_apart hlo), hrd, rd, hregs]
  exact hcreds a hlo hhi

/-- Settles O13: firmware updates, streams and the ring, and the two commands of SEC_CMD. -/
theorem firmwareAuditAndSecurity : Obligations.FirmwareAuditAndSecurity := by
  unfold Obligations.FirmwareAuditAndSecurity
  intro s
  refine ⟨fun img hstaged hst => ⟨fwCheckDone_passes hstaged hst, fwCheckDone_fails hstaged hst⟩,
    fun img hwriting => ⟨fwProgramDone_programs hwriting, fwProgramDone_fails hwriting⟩,
    fun sid x fromSeq hserved hopen => auditStart_streams fromSeq hserved hopen,
    fun sid x a next hserved hopen ha hnext => auditAck_acknowledges hserved hopen ha hnext,
    fun sid x a hserved _ hopen ha hbehind hring => auditResendTimer_resends hserved hopen ha hbehind hring,
    fun r sets rest hstaged hpresent hroom => auditRecordProgram_rings hstaged hpresent hroom,
    fun who hacc => ⟨secRecommission_commissions hacc, _, exec_secRecommission hacc false, recommission_fails _ _⟩,
    fun who hacc => ⟨_, exec_secDecommission hacc, ?_⟩⟩
  obtain ⟨hstate, hroot, -, hcreds⟩ := decommission_clears (secWritten s who 2) who 0
  refine ⟨hstate, hroot, fun sid _ => ?_, hcreds⟩
  obtain ⟨-, -, hgone, -⟩ := decommission_clears (secWritten s who 2) who sid
  exact hgone

end Sys2Proof.Machine


/-! # Bulk transfers (R316 to R318) -/
namespace Sys2Proof.Machine

open Sys2Proof

variable {s t u : State} {sid m tr : Nat} {x : Session} {t0 : Transfer}

/-! ## The table of transfers -/

theorem getTransfer_of_eq (h : t.transfers = s.transfers) (sid tr : Nat) : getTransfer t sid tr = getTransfer s sid tr := by
  unfold getTransfer
  rw [h]

theorem Keeps.getTransfer_eq {msk : BitVec 64} (h : Keeps msk s t) (hm : msk.getLsbD Part.transfers.idx = true) (sid tr : Nat) :
    getTransfer t sid tr = getTransfer s sid tr := getTransfer_of_eq (h.same .transfers hm) sid tr

/-- A transfer that is found has the numbers it was sought by. -/
theorem getTransfer_numbers (h : getTransfer s sid tr = some t0) : t0.session = sid ∧ t0.req.transfer = tr := by
  have hfound := List.find?_some h
  simpa using hfound

theorem getTransfer_setTransfer {y : Transfer} (h : getTransfer s sid tr = some t0) (hsid : y.session = sid)
    (htr : y.req.transfer = tr) : getTransfer (setTransfer s y) sid tr = some y := by
  subst hsid htr
  have hsame : ((fun t : Transfer => t.session == y.session && t.req.transfer == y.req.transfer) ∘
      fun t => if t.session == y.session && t.req.transfer == y.req.transfer then y else t) =
      fun t => t.session == y.session && t.req.transfer == y.req.transfer := by
    funext t
    rw [Function.comp_apply]
    split
    · next ht => rw [ht, beq_self_eq_true, beq_self_eq_true, Bool.and_self]
    · rfl
  have hfound := List.find?_some h
  unfold getTransfer setTransfer
  rw [List.find?_map, hsame]
  rw [getTransfer] at h
  rw [h]
  exact congrArg some (if_pos hfound)

theorem getTransfer_filter_none (hs : t.transfers = s.transfers.filter fun t => !(t.session == sid && t.req.transfer == tr)) :
    getTransfer t sid tr = none := by
  unfold getTransfer
  rw [hs, List.find?_eq_none]
  intro y hy
  have hkept := (List.mem_filter.1 hy).2
  intro hmatch
  rw [hmatch] at hkept
  exact absurd hkept Bool.false_ne_true

/-! ## Requests and datagrams of a transfer -/

theorem begin'_fields (h : getSession s sid = some x) (m : Nat) : (begin' s sid m).faults = s.faults ∧
    (begin' s sid m).transfers = s.transfers ∧ (begin' s sid m).out = s.out ∧ (begin' s sid m).bistRunning = s.bistRunning := by
  rw [begin'_eq h]
  exact ⟨rfl, rfl, rfl, rfl⟩

/-- The response of a request that began on `s`, sent from a state that has lost nothing of the output. -/
theorem answers_respond_of_begun (h : getSession s sid = some x) (hmute : s.faults.mute = false)
    (hu : Keeps 0x8000000408000000#64 (begin' s sid m) u) (ty st : Nat) (body : List Byte) :
    Answers s (respond u sid m ty st body) sid ty m st := by
  obtain ⟨hfaults, -, hout, -⟩ := begin'_fields h m
  have hsession : getSession u sid = some (keepDone x m none) := (hu.getSession_eq (by decide) sid).trans (getSession_begin' h m)
  have hmute' : u.faults.mute = false :=
    (congrArg (·.mute) ((hu.same .faults (by decide)).trans hfaults)).trans hmute
  have hout' : s.out <+: u.out := hout ▸ (hu.grows (by decide)).1
  exact (answers_respond hsession hmute' m ty st body).before hout'

/-- A datagram of an open transfer is taken while the device is not limited to R310's list. -/
theorem bulkMsg_of_open (hserved : served s = true) (hlimited : limited s = false) (hopen : openSession s sid = some x)
    (ht : getTransfer s sid tr = some t0) (hwaiting : t0.waiting = false) (f : Transfer → State) : bulkMsg s sid tr f = f t0 := by
  simp only [bulkMsg, hopen, ht, hserved, hwaiting, hlimited, Bool.not_true, Bool.or_self, Bool.false_and, Bool.false_eq_true, if_false]

/-! ## BULK_OPEN -/

theorem exec_bulkOpen (h : Fresh s sid m x) {w : Word} (hw : w.toNat = m) (r : BulkReq) :
    exec (.bulkOpen sid w r) s = .next (bulkOpenNow (begin' s sid m) sid m (keepDone x m none) r) := by
  subst hw
  exact congrArg Host.Outcome.next (request_of_fresh h _ _)

theorem bulkOpen_badSize (h : Fresh s sid m x) {w : Word} (hw : w.toNat = m) {r : BulkReq} (hsize : r.segSize % 1024 ≠ 0) :
    Runs (.bulkOpen sid w r) s fun t => Answers s t sid 0x34 m 4 ∧ t.transfers = s.transfers := by
  have hrun := exec_bulkOpen h hw r
  rw [bulkOpenNow, if_pos (by simp [hsize])] at hrun
  refine ⟨_, hrun, answers_respond_of_begun h.getSession_eq h.mute_eq (.refl _ _) _ _ _, ?_⟩
  obtain ⟨-, htransfers, -⟩ := begin'_fields h.getSession_eq m
  exact ((respond_kept ..).same .transfers (by decide)).trans htransfers

/-- The transfer that an open begins. -/
def openTransfer (sid m : Nat) (r : BulkReq) : Transfer :=
  { session := sid, req := r, msgNum := m, waiting := true, segs := [], unacked := 0, data := [], sent := 0 }

/-- A transfer joins the table. -/
def joined (s : State) (y : Transfer) : State := { s with transfers := s.transfers ++ [y] }

/-- An open of the LOAD_AREA by the installer's session is served where nothing is open and BIST is over. -/
theorem bulkOpenNow_loadArea {r : BulkReq} (hnone : s.transfers = []) (hbist : s.bistRunning = false) (hsize : r.segSize = 1024)
    (htarget : r.target = 0) (hdir : r.dir = false) (hrole : x.role = 1) (harea : loadAreaOk s r.offset r.length = true) :
    bulkOpenNow s sid m x r = serveOpen (joined s (openTransfer sid m r)) (openTransfer sid m r) := by
  unfold bulkOpenNow
  dsimp only
  rw [if_neg (by simp [hnone, hsize]), if_neg (by simp [htarget, bulkDir, hdir]), if_neg (by simp [bulkRole, htarget, hrole]),
    if_neg (by simp [hnone, htarget]), if_neg (by simp [hbist]), if_neg (by simp [bulkRange, htarget, harea]),
    if_neg (by simp [htarget])]
  rfl

theorem joined_fields (s : State) (y : Transfer) (q : Nat) : (joined s y).transfers = s.transfers ++ [y] ∧
    (joined s y).out = s.out ∧ (joined s y).faults = s.faults ∧ getSession (joined s y) q = getSession s q := ⟨rfl, rfl, rfl, rfl⟩

/-- A transfer once its open is served. -/
def servedOpen (y : Transfer) : Transfer := { y with waiting := false, data := [] }

/-- An open that the host sends data for is answered and waits no longer. -/
theorem serveOpen_dir0 {y : Transfer} (hdir : y.req.dir = false) (htarget : y.req.target = 0) :
    serveOpen s y = respond (setTransfer s (servedOpen y)) y.session y.msgNum 0x34 0 (beBytes 2 y.req.transfer) := by
  unfold serveOpen
  dsimp only
  rw [hdir, htarget]
  rfl

theorem bulkOpen_opens (h : Fresh s sid m x) {w : Word} (hw : w.toNat = m) {r : BulkReq} (hnone : s.transfers = [])
    (hbist : s.bistRunning = false) (hsize : r.segSize = 1024) (htarget : r.target = 0) (hdir : r.dir = false) (hrole : x.role = 1)
    (harea : loadAreaOk s r.offset r.length = true) : Runs (.bulkOpen sid w r) s fun t => Answers s t sid 0x34 m 0 ∧
      ∃ y, getTransfer t sid r.transfer = some y ∧ y.req = r ∧ y.waiting = false := by
  have hrun := exec_bulkOpen h hw r
  obtain ⟨hfaults, htransfers, hout, hbistRunning⟩ := begin'_fields h.getSession_eq m
  have harea' : loadAreaOk (begin' s sid m) r.offset r.length = true := by
    rw [begin'_eq h.getSession_eq]
    exact harea
  rw [bulkOpenNow_loadArea (htransfers.trans hnone) (hbistRunning.trans hbist) hsize htarget hdir (x := keepDone x m none) hrole harea',
    serveOpen_dir0 hdir htarget] at hrun
  obtain ⟨hjoined, hout', hfaults', hsession⟩ := joined_fields (begin' s sid m) (openTransfer sid m r) sid
  generalize joined (begin' s sid m) (openTransfer sid m r) = u at hrun hjoined hout' hfaults' hsession
  have hfound : getTransfer u sid r.transfer = some (openTransfer sid m r) := by
    unfold getTransfer
    rw [hjoined, htransfers, hnone, List.nil_append, List.find?_singleton]
    exact if_pos (by simp [openTransfer])
  have hset : Keeps 0xFFFFFFFFDFFFFFFF#64 u (setTransfer u (servedOpen (openTransfer sid m r))) :=
    setTransfer_keeps _ _ _ _ (by decide) (.refl _ _)
  have hstands := getTransfer_setTransfer (y := servedOpen (openTransfer sid m r)) hfound rfl rfl
  generalize setTransfer u (servedOpen (openTransfer sid m r)) = v at hrun hset hstands
  have hmute : v.faults.mute = false :=
    (congrArg (·.mute) (((hset.same .faults (by decide)).trans hfaults').trans hfaults)).trans h.mute_eq
  have hv : getSession v sid = some (keepDone x m none) :=
    ((hset.getSession_eq (by decide) sid).trans hsession).trans (getSession_begin' h.getSession_eq m)
  have hprefix : s.out <+: v.out := (hout'.trans hout) ▸ (hset.grows (by decide)).1
  refine ⟨_, hrun, (answers_respond hv hmute _ _ _ _).before hprefix, servedOpen (openTransfer sid m r), ?_, rfl, rfl⟩
  exact ((respond_kept ..).getTransfer_eq (by decide) sid r.transfer).trans hstands

/-- A region that has gone while an open waited is no target any more (R317). -/
theorem bulkOpenResume_refused (hx : getSession s sid = some x) (ht : getTransfer s sid tr = some t0) (hwaiting : t0.waiting = true)
    (hstep : stepRuns s t0.req.subscriber = false) (hrange : bulkRange s t0.req = false) (hmute : s.faults.mute = false) :
    Runs (.bulkOpenResume sid tr) s fun t => getTransfer t sid tr = none ∧ Answers s t sid 0x34 t0.msgNum 8 := by
  have hrun : exec (.bulkOpenResume sid tr) s = .next (respond (dropTransfer s sid tr) sid t0.msgNum 0x34 8 (beBytes 2 tr)) := by
    show execBulkOpenResume sid tr s = _
    rw [execBulkOpenResume, ht]
    dsimp only
    rw [hwaiting, hstep, hrange]
    rfl
  have hgone : getTransfer (dropTransfer s sid tr) sid tr = none := getTransfer_filter_none rfl
  have hanswer := answers_respond (s := dropTransfer s sid tr) hx hmute t0.msgNum 0x34 8 (beBytes 2 tr)
  exact ⟨_, hrun, ((respond_kept ..).getTransfer_eq (by decide) sid tr).trans hgone, hanswer.before List.prefix_rfl⟩

/-! ## Segments received -/

theorem mem_addNat_right {xs : List Nat} {n k : Nat} (h : k ∈ xs) : k ∈ addNat xs n := by
  unfold addNat
  split
  · exact h
  · exact List.mem_append_left _ h

theorem sendBulkAck_kept (s : State) (y : Transfer) : Keeps 0xFFFFFEFFD7FFFFFD#64 s (sendBulkAck s y) :=
  sendBulkAck_keeps _ _ _ _ (by decide) (.refl _ _)

theorem memRead_of_eq (h : t.mem = s.mem) (a : Nat) : memRead t a = memRead s a := congrArg (Sparse.get (fun _ => 0) · a) h

/-- A transfer with one more segment received. -/
def received (y : Transfer) (seg : Nat) : Transfer := { y with segs := addNat y.segs seg, unacked := y.unacked + 1 }

/-- A segment that is taken is acknowledged once 64 stand unacknowledged (R318). -/
def segmentTaken (s : State) (y : Transfer) (seg : Nat) : State :=
  if 64 ≤ y.unacked + 1 then sendBulkAck (setTransfer s (received y seg)) (received y seg) else setTransfer s (received y seg)

theorem segmentTaken_fields (ht : getTransfer s sid tr = some t0) (seg : Nat) : (segmentTaken s t0 seg).mem = s.mem ∧
    ∃ t1, getTransfer (segmentTaken s t0 seg) sid tr = some t1 ∧ seg ∈ t1.segs := by
  obtain ⟨hsid, htr⟩ := getTransfer_numbers ht
  have hset := getTransfer_setTransfer (y := received t0 seg) ht hsid htr
  have hmem : seg ∈ (received t0 seg).segs := mem_addNat_self _ _
  unfold segmentTaken
  split
  · refine ⟨(sendBulkAck_kept ..).same .memory (by decide), { received t0 seg with unacked := 0 }, ?_, hmem⟩
    have hagain := getTransfer_setTransfer (y := { received t0 seg with unacked := 0 }) hset hsid htr
    exact ((sendMsg_kept ..).getTransfer_eq (by decide) sid tr).trans hagain
  · exact ⟨rfl, received t0 seg, hset, hmem⟩

theorem exec_bulkData_loadArea {seg : Nat} {data : List Byte} (hserved : served s = true) (hlimited : limited s = false)
    (hopen : openSession s sid = some x) (ht : getTransfer s sid tr = some t0) (hwaiting : t0.waiting = false)
    (hdir : t0.req.dir = false) (htarget : t0.req.target = 0) (hseg : seg < segCount t0.req t0.req.length)
    (hlen : data.length = segBytes t0.req t0.req.length seg) :
    exec (.bulkData sid tr seg data) s =
      .next (segmentTaken (memStore (ctrAdd s pHostIf 5 data.length) (t0.req.offset + seg * t0.req.segSize) data) t0 seg) := by
  have hwrite (v : State) : writeSegment v t0 seg data = (memStore v (t0.req.offset + seg * t0.req.segSize) data, t0) := by
    rw [writeSegment, htarget]
    rfl
  refine congrArg Host.Outcome.next ((bulkMsg_of_open hserved hlimited hopen ht hwaiting _).trans ?_)
  dsimp only
  rw [if_neg (by simp [hdir, hseg, hlen]), if_neg (by simp [htarget]), hwrite]
  rfl

theorem bulkData_stores {seg : Nat} {data : List Byte} (hserved : served s = true) (hlimited : limited s = false)
    (hopen : openSession s sid = some x) (ht : getTransfer s sid tr = some t0) (hwaiting : t0.waiting = false)
    (hdir : t0.req.dir = false) (htarget : t0.req.target = 0) (hseg : seg < segCount t0.req t0.req.length)
    (hlen : data.length = segBytes t0.req t0.req.length seg) : Runs (.bulkData sid tr seg data) s fun t =>
      (∀ a, memRead t a = if t0.req.offset + seg * t0.req.segSize ≤ a ∧ a < t0.req.offset + seg * t0.req.segSize + data.length
        then data.getD (a - (t0.req.offset + seg * t0.req.segSize)) 0 else memRead s a) ∧
      ∃ t1, getTransfer t sid tr = some t1 ∧ seg ∈ t1.segs := by
  have hrun := exec_bulkData_loadArea hserved hlimited hopen ht hwaiting hdir htarget hseg hlen
  have hread (a : Nat) := memRead_memStore (ctrAdd s pHostIf 5 data.length) (t0.req.offset + seg * t0.req.segSize) a data
  have hstored : Keeps 0xFFFFFFFFFFFFFFE5#64 s (memStore (ctrAdd s pHostIf 5 data.length) (t0.req.offset + seg * t0.req.segSize) data) :=
    memStore_keeps _ _ _ _ _ (by decide) (ctrAdd_keeps _ _ _ _ _ _ (by decide) (.refl _ _))
  generalize memStore (ctrAdd s pHostIf 5 data.length) (t0.req.offset + seg * t0.req.segSize) data = u at hrun hread hstored
  obtain ⟨hmem, hfound⟩ := segmentTaken_fields ((hstored.getTransfer_eq (by decide) sid tr).trans ht) seg
  exact ⟨_, hrun, fun a => (memRead_of_eq hmem a).trans (hread a), hfound⟩

theorem bulkAckTimer_answers (ht : getTransfer s sid tr = some t0) (hmute : s.faults.mute = false) (hdir : t0.req.dir = false)
    (hunacked : t0.unacked ≠ 0) : Runs (.bulkAckTimer sid tr) s fun t => Answers s t sid 0x32 0 0 := by
  obtain ⟨rfl, -⟩ := getTransfer_numbers ht
  have hanswer := answers_sendMsg (s := setTransfer s { t0 with unacked := 0 }) hmute t0.session 0x32 0 0 0 (bulkAckBody t0)
  refine ⟨sendBulkAck s t0, ?_, hanswer.before List.prefix_rfl⟩
  show execBulkAckTimer t0.session tr s = _
  rw [execBulkAckTimer, ht]
  exact if_neg (by simp [hdir, hunacked])

/-! ## Segments sent -/

theorem sendSegment_transfers (s : State) (y : Transfer) (g : Nat) (sid tr : Nat) :
    getTransfer (sendSegment s y g) sid tr = getTransfer s sid tr :=
  (sendSegment_keeps 0x20000000#64 s s y g (by decide) (.refl _ _)).getTransfer_eq (by decide) sid tr

/-- The pump moves what a transfer has sent and leaves what is acknowledged. -/
theorem getTransfer_pumpTransfer {y : Transfer} (fuel : Nat) (ht : getTransfer s sid tr = some t0) (hsid : y.session = sid)
    (htr : y.req.transfer = tr) : ∃ t1, getTransfer (pumpTransfer fuel s y) sid tr = some t1 ∧ t1.segs = y.segs := by
  induction fuel generalizing s y with
  | zero => exact ⟨y, getTransfer_setTransfer ht hsid htr, rfl⟩
  | succ fuel ih =>
    rw [pumpTransfer]
    split
    · exact ih (y := { y with sent := y.sent + 1 }) ((sendSegment_transfers s y y.sent sid tr).trans ht) hsid htr
    · exact ⟨y, getTransfer_setTransfer ht hsid htr, rfl⟩

/-- Segments are sent again. -/
def resent (s : State) (y : Transfer) (gs : List Nat) : State := gs.foldl (fun s g => sendSegment s y g) s

theorem resent_transfers (s : State) (y : Transfer) (gs : List Nat) (sid tr : Nat) :
    getTransfer (resent s y gs) sid tr = getTransfer s sid tr :=
  List.foldlRecOn (motive := fun u => getTransfer u sid tr = getTransfer s sid tr) gs _ rfl
    fun u hu g _ => (sendSegment_transfers u y g sid tr).trans hu

/-- A transfer once segments are acknowledged. -/
def segmentsAcked (y : Transfer) (cum : Nat) (sack : List Nat) : Transfer :=
  { y with segs := (List.range y.sent).filter fun g => g < cum || sack.contains g || y.segs.contains g }

theorem mem_segmentsAcked {cum g : Nat} {sack : List Nat} (hsent : g < t0.sent) (hack : g < cum ∨ g ∈ sack) :
    g ∈ (segmentsAcked t0 cum sack).segs := by
  refine List.mem_filter.2 ⟨List.mem_range.2 hsent, ?_⟩
  rcases hack with h | h
  · simp [h]
  · simp [h]

theorem exec_bulkAck {cum : Nat} {sack : List Nat} (hserved : served s = true) (hlimited : limited s = false)
    (hopen : openSession s sid = some x) (ht : getTransfer s sid tr = some t0) (hwaiting : t0.waiting = false)
    (hdir : t0.req.dir = true) : ∃ lost fuel, exec (.bulkAck sid tr cum sack) s =
      .next (pumpTransfer fuel (resent (setTransfer s (segmentsAcked t0 cum sack)) (segmentsAcked t0 cum sack) lost)
        (segmentsAcked t0 cum sack)) := by
  show ∃ lost fuel, execBulkAck sid tr cum sack s = _
  rw [execBulkAck, bulkMsg_of_open hserved hlimited hopen ht hwaiting, if_neg (by simp [hdir])]
  exact ⟨_, _, rfl⟩

theorem bulkAck_acknowledges {cum : Nat} {sack : List Nat} (hserved : served s = true) (hlimited : limited s = false)
    (hopen : openSession s sid = some x) (ht : getTransfer s sid tr = some t0) (hwaiting : t0.waiting = false)
    (hdir : t0.req.dir = true) : Runs (.bulkAck sid tr cum sack) s fun t =>
      ∃ t1, getTransfer t sid tr = some t1 ∧ ∀ g, g < t0.sent → g < cum ∨ g ∈ sack → g ∈ t1.segs := by
  obtain ⟨lost, fuel, hrun⟩ := exec_bulkAck (cum := cum) (sack := sack) hserved hlimited hopen ht hwaiting hdir
  obtain ⟨hsid, htr⟩ := getTransfer_numbers ht
  have hset := getTransfer_setTransfer (y := segmentsAcked t0 cum sack) ht hsid htr
  obtain ⟨t1, hfound, hsegs⟩ := getTransfer_pumpTransfer (y := segmentsAcked t0 cum sack) fuel
    ((resent_transfers _ (segmentsAcked t0 cum sack) lost sid tr).trans hset) hsid htr
  exact ⟨_, hrun, t1, hfound, fun g hsent hack => hsegs ▸ mem_segmentsAcked hsent hack⟩

theorem bulkResendTimer_answers {seg : Nat} (ht : getTransfer s sid tr = some t0) (hmute : s.faults.mute = false)
    (hdir : t0.req.dir = true) (hsent : seg < t0.sent) (hmissing : seg ∉ t0.segs) :
    Runs (.bulkResendTimer sid tr seg) s fun t => Answers s t sid 0x31 0 0 := by
  obtain ⟨rfl, -⟩ := getTransfer_numbers ht
  refine ⟨sendSegment s t0 seg, ?_, ?_⟩
  · show execBulkResendTimer t0.session tr seg s = _
    rw [execBulkResendTimer, ht]
    exact if_pos (by simp [hdir, hsent, hmissing])
  · unfold sendSegment
    dsimp only
    exact (answers_sendMsg (s := ctrAdd s pHostIf 5 _) hmute _ _ _ _ _ _).before List.prefix_rfl

/-! ## The end of a transfer -/

theorem bulkIdleTimeout_aborts (ht : getTransfer s sid tr = some t0) (hwaiting : t0.waiting = false) :
    Runs (.bulkIdleTimeout sid tr) s fun t => getTransfer t sid tr = none := by
  refine ⟨abortTransfer s sid tr, ?_, getTransfer_filter_none (abortTransfer_transfers s sid tr)⟩
  show execBulkIdleTimeout sid tr s = _
  rw [execBulkIdleTimeout, ht]
  dsimp only
  rw [hwaiting]
  rfl

theorem setJob_transfers (s : State) (n : Nat) (j : Option JobSt) : (setJob s n j).transfers = s.transfers := rfl

theorem commitTransfer_transfers (s : State) (y : Transfer) :
    (commitTransfer s y).transfers = s.transfers.filter fun t => !(t.session == y.session && t.req.transfer == y.req.transfer) := by
  unfold commitTransfer
  dsimp only
  split
  · split <;> rfl
  · split <;> rfl

/-- A commit past its checks: the transfer closes, or the first unit that is not whole is named. -/
theorem exec_bulkCommit (h : Fresh s sid m x) {w : Word} (hw : w.toNat = m) (ht : getTransfer s sid tr = some t0)
    (hwaiting : t0.waiting = false) :
    (firstMissing t0 = none → exec (.bulkCommit sid w tr) s =
      .next (respond (commitTransfer (begin' s sid m) t0) sid m 0x34 0 (beBytes 2 tr))) ∧
    (∀ g, firstMissing t0 = some g → ∃ body, exec (.bulkCommit sid w tr) s = .next (respond (begin' s sid m) sid m 0x34 9 body)) := by
  obtain ⟨-, htransfers, -⟩ := begin'_fields h.getSession_eq m
  have ht' : getTransfer (begin' s sid m) sid tr = some t0 := (getTransfer_of_eq htransfers sid tr).trans ht
  subst hw
  refine ⟨fun hwhole => ?_, fun g hg => ⟨beBytes 8 (g * t0.req.segSize / 4096 * 4096), ?_⟩⟩
  all_goals
    show execBulkCommit sid w tr s = _
    unfold execBulkCommit
    dsimp only
    rw [request_of_fresh h, ht']
    dsimp only
  · rw [hwaiting, hwhole]
    rfl
  · rw [hwaiting, hg]
    rfl

/-- Settles O12: an open, its segments either way, and its end. -/
theorem bulkTransfersRun : Obligations.BulkTransfersRun := by
  unfold Obligations.BulkTransfersRun
  intro s sid w x
  refine ⟨fun r h hsize => bulkOpen_badSize h rfl hsize,
    fun r h hnone hbist hsize htarget hdir hrole harea => bulkOpen_opens h rfl hnone hbist hsize htarget hdir hrole harea,
    fun tr t0 ht hwaiting hstep hrange hx hmute => bulkOpenResume_refused hx ht hwaiting hstep hrange hmute,
    fun tr t0 seg data hserved hlimited hopen ht hwaiting hdir htarget hseg hlen =>
      bulkData_stores hserved hlimited hopen ht hwaiting hdir htarget hseg hlen,
    fun tr t0 cum sack hserved hlimited hopen ht hwaiting hdir => bulkAck_acknowledges hserved hlimited hopen ht hwaiting hdir,
    fun tr t0 ht hmute => ⟨bulkAckTimer_answers ht hmute,
      fun seg hdir hsent hmissing => bulkResendTimer_answers ht hmute hdir hsent hmissing, bulkIdleTimeout_aborts ht⟩,
    fun tr t0 h ht hwaiting => ?_⟩
  obtain ⟨hcommits, hincomplete⟩ := exec_bulkCommit h rfl ht hwaiting
  obtain ⟨hsid, htr⟩ := getTransfer_numbers ht
  obtain ⟨-, htransfers, -⟩ := begin'_fields h.getSession_eq w.toNat
  refine ⟨fun hwhole => ⟨_, hcommits hwhole, ?_, ?_⟩, fun g hg => ?_⟩
  · exact answers_respond_of_begun h.getSession_eq h.mute_eq (commitTransfer_keeps _ _ _ _ (by decide) (.refl _ _)) _ _ _
  · refine ((respond_kept ..).getTransfer_eq (by decide) sid tr).trans (getTransfer_filter_none (s := begin' s sid w.toNat) ?_)
    rw [commitTransfer_transfers, hsid, htr]
  · obtain ⟨body, hrun⟩ := hincomplete g hg
    exact ⟨_, hrun, answers_respond_of_begun h.getSession_eq h.mute_eq (.refl _ _) _ _ _,
      ((respond_kept ..).same .transfers (by decide)).trans htransfers⟩

end Sys2Proof.Machine


/-! # Requests of a session (R311 to R315, R321) -/
namespace Sys2Proof.Machine

open Sys2Proof

variable {s t u : State} {sid m q : Nat} {x : Session}

/-! ## Reads (R163, R311) -/

/-- What a read may change: the words that a pair's second read returns. -/
def OnlyLatches (s t : State) : Prop := ∃ l, t = { s with latches := l }

theorem OnlyLatches.refl (s : State) : OnlyLatches s s := ⟨s.latches, rfl⟩

theorem OnlyLatches.trans (h : OnlyLatches s t) (h' : OnlyLatches t u) : OnlyLatches s u := by
  obtain ⟨l, rfl⟩ := h
  obtain ⟨l', rfl⟩ := h'
  exact ⟨l', rfl⟩

theorem readOne_onlyLatches (s : State) (sid : Nat) (x : Session) (a : Nat) : OnlyLatches s (readOne s sid x a).2 := by
  unfold readOne
  dsimp only
  split
  · exact .refl s
  · split
    · exact ⟨_, rfl⟩
    · split
      · exact ⟨_, rfl⟩
      · exact .refl s

/-- READ32 and READ64. -/
def IsRead (o : RegOp) : Prop := o.op = 1 ∨ o.op = 3

theorem runOp_read32 {o : RegOp} (hopen : openSession s sid = some x) (hop : o.op = 1) :
    (runOp s sid o).2 = (readOne s sid x o.addr.toNat).2 := by
  unfold runOp
  rw [hopen, hop]
  rfl

theorem runOp_read64 {o : RegOp} (hopen : openSession s sid = some x) (hop : o.op = 3) : (runOp s sid o).2 = s := by
  unfold runOp
  rw [hopen, hop]
  show Prod.snd (if _ then _ else if _ then _ else if _ then _ else _) = s
  rw [apply_ite Prod.snd, apply_ite Prod.snd, apply_ite Prod.snd]
  simp only [ite_self]

theorem runOp_onlyLatches (s : State) (sid : Nat) {o : RegOp} (h : IsRead o) : OnlyLatches s (runOp s sid o).2 := by
  cases hopen : openSession s sid with
  | none =>
    unfold runOp
    rw [hopen]
    exact .refl s
  | some x =>
    rcases h with h | h
    · rw [runOp_read32 hopen h]
      exact readOne_onlyLatches s sid x o.addr.toNat
    · rw [runOp_read64 hopen h]
      exact .refl s

theorem runOps_onlyLatches (sid : Nat) (stop : Bool) {ops : List RegOp} (h : ∀ o ∈ ops, IsRead o) (failed : Bool) (s : State) :
    OnlyLatches s (runOps sid stop ops failed s).2 := by
  induction ops generalizing failed s with
  | nil => exact .refl s
  | cons o os ih =>
    have hrest := fun o ho => h o (List.mem_cons_of_mem _ ho)
    unfold runOps
    split
    · exact ih hrest true s
    · exact (runOp_onlyLatches s sid (h o List.mem_cons_self)).trans (ih hrest _ _)

/-! ## REG -/

/-- A batch within the limits of R311. -/
def batchOk (ops : List RegOp) : Bool :=
  !(ops.isEmpty || 256 < ops.length || ops.any (fun o => o.op.toNat == 0 || decide (4 < o.op.toNat)))

theorem exec_reg (h : Fresh s sid m x) {w : Word} (hw : w.toNat = m) (stop : Bool) {ops : List RegOp} (hok : batchOk ops = true) :
    ∃ body, exec (.reg sid w stop ops) s =
      .next (respond (runOps sid stop ops false (begin' s sid m)).2 sid m 0x11 0 body) := by
  subst hw
  have hok' := (Bool.not_eq_true' _).mp hok
  show ∃ body, execReg sid w stop ops s = _
  rw [execReg, request_of_fresh h, if_neg (Bool.not_eq_true _ ▸ hok')]
  exact ⟨_, rfl⟩

theorem batchOk_of_reads {ops : List RegOp} (hne : ops ≠ []) (hlen : ops.length ≤ 256) (h : ∀ o ∈ ops, IsRead o) :
    batchOk ops = true := by
  have hops : ops.any (fun o => o.op.toNat == 0 || decide (4 < o.op.toNat)) = false := by
    refine List.any_eq_false.2 fun o ho => ?_
    rcases h o ho with h | h <;> rw [h] <;> decide
  rw [batchOk, hops, List.isEmpty_eq_false_iff.2 hne, decide_eq_false (by omega)]
  rfl

/-- A batch that leaves the session and the parts it is asked about is answered. -/
theorem reg_answers (h : Fresh s sid m x) {w : Word} (hw : w.toNat = m) (stop : Bool) {ops : List RegOp} (hok : batchOk ops = true)
    (hlatches : OnlyLatches (begin' s sid m) (runOps sid stop ops false (begin' s sid m)).2) :
    Runs (.reg sid w stop ops) s fun t => Answers s t sid 0x11 m 0 ∧ t.regs = s.regs ∧ t.jobs = s.jobs ∧ t.audit = s.audit := by
  obtain ⟨body, hrun⟩ := exec_reg h hw stop hok
  obtain ⟨l, hl⟩ := hlatches
  rw [hl, begin'_eq h.getSession_eq] at hrun
  refine ⟨_, hrun, ?_, ?_⟩
  · have hanswer := answers_respond (s := { setSession s sid (some (keepDone x m none)) with latches := l })
      (getSession_setSession_same s sid (some (keepDone x m none))) h.mute_eq m 0x11 0 body
    exact hanswer.before List.prefix_rfl
  · have hsent := respond_kept { setSession s sid (some (keepDone x m none)) with latches := l } sid m 0x11 0 body
    exact ⟨hsent.same .registers (by decide), hsent.same .jobs (by decide), hsent.same .audit (by decide)⟩

/-- A write that cannot be made leaves the state. -/
theorem runOp_write_unmade {o : RegOp} (hop : o.op = 2)
    (hst : writeStatus s (.session sid) o.addr.toNat o.value 0xFFFFFFFF = 4) : (runOp s sid o).2 = s := by
  have hwrite : writeWord s (.session sid) none o.addr.toNat o.value 0xFFFFFFFF = (4, s) := by
    rw [writeWord, hst]
    rfl
  unfold runOp
  split
  · rfl
  · rw [hop]
    exact congrArg Prod.snd hwrite

theorem reg_unmade (h : Fresh s sid m x) {w : Word} (hw : w.toNat = m) (stop : Bool) {o : RegOp} (hop : o.op = 2)
    (hst : writeStatus (begin' s sid m) (.session sid) o.addr.toNat o.value 0xFFFFFFFF = 4) :
    Runs (.reg sid w stop [o]) s fun t => Answers s t sid 0x11 m 0 ∧ t.regs = s.regs := by
  have hok : batchOk [o] = true := by
    simp [batchOk, hop]
  have hrun : OnlyLatches (begin' s sid m) (runOps sid stop [o] false (begin' s sid m)).2 := by
    have hone : (runOps sid stop [o] false (begin' s sid m)).2 = (runOp (begin' s sid m) sid o).2 := rfl
    rw [hone, runOp_write_unmade hop hst]
    exact .refl _
  obtain ⟨t, hexec, hanswer, hregs, -⟩ := reg_answers h hw stop hok hrun
  exact ⟨t, hexec, hanswer, hregs⟩

theorem reg_empty (h : Fresh s sid m x) {w : Word} (hw : w.toNat = m) (stop : Bool) :
    Runs (.reg sid w stop []) s fun t => Answers s t sid 0x7F m 4 := by
  subst hw
  refine ⟨respond (begin' s sid w.toNat) sid w.toNat 0x7F 4 [], ?_,
    answers_respond_of_begun h.getSession_eq h.mute_eq (.refl _ _) _ _ _⟩
  show execReg sid w stop [] s = _
  rw [execReg, request_of_fresh h]
  rfl

/-- A number that has been executed is answered with its response, whatever the batch says (R313). -/
theorem reg_again (hserved : served s = true) (hopen : openSession s sid = some x) {w : Word} {r : HostMsg}
    (hkind : reqKind x w.toNat = .again (some r)) (stop : Bool) (ops : List RegOp) :
    Runs (.reg sid w stop ops) s fun t => Answers s t sid r.ty w.toNat r.status ∧ t.regs = s.regs :=
  ⟨_, congrArg Host.Outcome.next (request_of_again hserved hopen hkind _ _), answers_sendMsg (served_mute hserved) _ _ _ _ _ _,
    sendMsg_regs ..⟩

/-! ## SUBSCRIBE and events (R314, R315) -/

theorem subscribe_replaces (h : Fresh s sid m x) {w : Word} (hw : w.toNat = m) {ranges : List (Nat × Nat)} (hlen : ranges.length ≤ 64) :
    Runs (.subscribe sid w ranges) s fun t => ∃ y, getSession t sid = some y ∧ y.ranges = ranges := by
  subst hw
  have hexec : exec (.subscribe sid w ranges) s = execSubscribe sid w ranges s := rfl
  rw [execSubscribe, request_of_fresh h, if_neg (by omega)] at hexec
  exact ⟨_, hexec, _, getSession_setSession_same _ _ _, rfl⟩

/-- An EVENT of the page is sent: it joins those of its session. -/
theorem getSession_sendPageEvent (s : State) (sid : Nat) (x : Session) (page : Nat) (v : Word) :
    ∃ y e, getSession (sendPageEvent s sid x page v) sid = some y ∧ y.events = x.events ++ [e] ∧ e.evtSeq = s.evtSeq := by
  unfold sendPageEvent
  dsimp only
  obtain ⟨n, hn⟩ := getSession_sendMsg (getSession_setSession_same { s with evtSeq := (s.evtSeq + 1) % 2 ^ 32 } sid _) sid 0x21 0 0 0 _
  exact ⟨_, _, hn, rfl, rfl⟩

/-- The page's next event does not take a number that is not the next one. -/
theorem nextPageEvent_events (hx : getSession s sid = some x) (hold : ∀ f ∈ x.events, f.evtSeq ≠ q) (hq : q ≠ s.evtSeq) (page : Nat) :
    ∃ y, getSession (nextPageEvent s sid page) sid = some y ∧ ∀ f ∈ y.events, f.evtSeq ≠ q := by
  unfold nextPageEvent
  rw [hx]
  dsimp only
  split
  · obtain ⟨y, e, hy, hevents, he⟩ := getSession_sendPageEvent s sid x page (evBits s x page)
    refine ⟨y, hy, fun f hf => ?_⟩
    rcases List.mem_append.1 (hevents ▸ hf) with hf | hf
    · exact hold f hf
    · rw [List.mem_singleton.1 hf, he]
      exact hq.symm
  · exact ⟨_, getSession_setSession_same _ _ _, hold⟩

/-- A session once an EVENT is acknowledged. -/
def eventAcked (x : Session) (e : EventOut) (q : Nat) : Session :=
  { x with events := x.events.filter fun f => f.evtSeq != q, ackedPages := addNat x.ackedPages e.page }

theorem eventAcked_events (x : Session) (e : EventOut) (q : Nat) : ∀ f ∈ (eventAcked x e q).events, f.evtSeq ≠ q :=
  fun _ hf => bne_iff_ne.1 (List.mem_filter (p := fun f : EventOut => f.evtSeq != q).1 hf).2

theorem eventAck_forgets {e : EventOut} (hopen : openSession s sid = some x)
    (he : (x.events.find? fun e => e.evtSeq == q) = some e) (hq : q ≠ s.evtSeq) :
    Runs (.eventAck sid q) s fun t => ∃ y, getSession t sid = some y ∧ ∀ f ∈ y.events, f.evtSeq ≠ q := by
  have hexec : exec (.eventAck sid q) s = execEventAck sid q s := rfl
  rw [execEventAck, hopen] at hexec
  dsimp only at hexec
  rw [he] at hexec
  exact ⟨_, hexec, nextPageEvent_events (getSession_setSession_same s sid (some (eventAcked x e q))) (eventAcked_events x e q) hq e.page⟩

theorem eventResendTimer_resends {e : EventOut} (hopen : openSession s sid = some x) (he : unackedEvent x q = some e)
    (hmute : s.faults.mute = false) : Runs (.eventResendTimer sid q) s fun t => Answers s t sid 0x21 0 0 := by
  refine ⟨_, ?_, answers_sendMsg hmute sid 0x21 0 0 0 e.body⟩
  show execEventResendTimer sid q s = _
  rw [execEventResendTimer, hopen]
  dsimp only
  rw [he]

/-! ## Attestation (R321) -/

theorem attestStatement_eq (s : State) (nonce : List Byte) : ∃ rest, attestStatement s nonce =
    [0x50, 0x41, 0x54, 0x31] ++ leBytes 4 1 ++ deviceId ++ nonce ++ rest := by
  unfold attestStatement
  dsimp only
  simp only [List.append_assoc]
  exact ⟨_, rfl⟩

/-- A report alone in the queue is formed for its nonce. -/
theorem formReport_single {nonce : List Byte} (hone : s.attests = [(sid, m, nonce)]) (hlen : nonce.length = 32) :
    (formReport s).attests = [(sid, m, attestStatement s nonce)] := by
  unfold formReport
  rw [hone]
  dsimp only
  rw [if_pos (beq_iff_eq.2 hlen)]

/-- A request for a report waits. -/
def reportAsked (s : State) (sid m : Nat) (nonce : List Byte) : State := { s with attests := s.attests ++ [(sid, m, nonce)] }

theorem attestReq_forms (h : Fresh s sid m x) {w : Word} (hw : w.toNat = m) {nonce : List Byte} (hlen : nonce.length = 32)
    (hnone : s.attests = []) : Runs (.attestReq sid w nonce) s fun t =>
      ∃ rest, t.attests = [(sid, m, [0x50, 0x41, 0x54, 0x31] ++ leBytes 4 1 ++ deviceId ++ nonce ++ rest)] := by
  subst hw
  have hexec : exec (.attestReq sid w nonce) s = .next (formReport (reportAsked (begin' s sid w.toNat) sid w.toNat nonce)) := by
    show execAttestReq sid w nonce s = _
    rw [execAttestReq, request_of_fresh h, if_neg (by simp [hlen])]
    rfl
  have hone : (reportAsked (begin' s sid w.toNat) sid w.toNat nonce).attests = [(sid, w.toNat, nonce)] := by
    rw [begin'_eq h.getSession_eq]
    exact congrArg (· ++ [(sid, w.toNat, nonce)]) hnone
  have hformed := formReport_single hone hlen
  obtain ⟨rest, hrest⟩ := attestStatement_eq (reportAsked (begin' s sid w.toNat) sid w.toNat nonce) nonce
  rw [hrest] at hformed
  exact ⟨_, hexec, rest, hformed⟩

/-- Forming a report sends nothing and keeps the queue's length. -/
theorem formReport_fields (s : State) : (formReport s).attests.length = s.attests.length ∧ (formReport s).out = s.out := by
  unfold formReport
  split
  · next h =>
    split
    · exact ⟨by rw [h]; rfl, rfl⟩
    · exact ⟨rfl, rfl⟩
  · exact ⟨rfl, rfl⟩

/-- The head of the queue is taken to be signed, with a draw for its signature. -/
def reportTaken (s : State) (rest : List (Nat × Nat × List Byte)) : State := { (draw s).2 with attests := rest }

theorem exec_attestSigned {st : List Byte} {rest : List (Nat × Nat × List Byte)} (hhead : s.attests = (sid, m, st) :: rest)
    (hformed : st.length ≠ 32) : ∃ body, exec .attestSigned s = .next (formReport (respond (reportTaken s rest) sid m 0x51 0 body)) := by
  have hform : formReport s = s := by
    rw [formReport, hhead]
    exact if_neg (by simp [hformed])
  show ∃ body, execAttestSigned s = _
  rw [execAttestSigned, hform]
  dsimp only
  rw [hhead]
  exact ⟨_, rfl⟩

theorem attestSigned_answers {st : List Byte} {rest : List (Nat × Nat × List Byte)} (hhead : s.attests = (sid, m, st) :: rest)
    (hformed : st.length ≠ 32) (hx : getSession s sid = some x) (hmute : s.faults.mute = false) :
    Runs .attestSigned s fun t => Answers s t sid 0x51 m 0 ∧ t.attests.length = rest.length := by
  obtain ⟨body, hrun⟩ := exec_attestSigned hhead hformed
  have hanswer := answers_respond (s := reportTaken s rest) hx hmute m 0x51 0 body
  have hattests : (respond (reportTaken s rest) sid m 0x51 0 body).attests = rest :=
    congrArg (·.2) ((respond_kept (reportTaken s rest) sid m 0x51 0 body).same .requests (by decide))
  generalize respond (reportTaken s rest) sid m 0x51 0 body = u at hrun hanswer hattests
  obtain ⟨hlen, hout⟩ := formReport_fields u
  exact ⟨_, hrun, (hanswer.before List.prefix_rfl).later (hout ▸ List.prefix_rfl), hlen.trans (congrArg List.length hattests)⟩

/-- Settles O11: a number once, reads, a write that cannot be made, events and reports. -/
theorem requestsAreServedOnce : Obligations.RequestsAreServedOnce := by
  unfold Obligations.RequestsAreServedOnce
  intro s sid w x
  refine ⟨fun h => ⟨fun stop ops hne hlen hread => ?_, fun stop o hop hst => reg_unmade h rfl stop hop hst,
      fun stop => reg_empty h rfl stop, fun ranges hlen => subscribe_replaces h rfl hlen,
      fun nonce hlen hnone => attestReq_forms h rfl hlen hnone⟩,
    fun hserved hopen r hkind stop ops => reg_again hserved hopen hkind stop ops,
    fun hopen q e => ⟨eventAck_forgets hopen, eventResendTimer_resends hopen⟩,
    fun st rest hhead hformed hx hmute => attestSigned_answers hhead hformed hx hmute⟩
  exact reg_answers h rfl stop (batchOk_of_reads hne hlen hread) (runOps_onlyLatches sid stop hread false _)

end Sys2Proof.Machine
